-- ==== Sys2Proof/Word.lean ====
section
/-! DEFINITION. Words, bytes and the plainest arithmetic on them (00_scope.md R5, R14). -/

namespace Sys2Proof

/-- A 32-bit word of a core or a register. -/
abbrev Word := BitVec 32

/-- A byte of memory. -/
abbrev Byte := BitVec 8

/-- A half word. -/
abbrev Half := BitVec 16

/-- A doubleword: a vector register, a block payload, a 64-bit counter. -/
abbrev DWord := BitVec 64

/-- The bits `[hi:lo]` of `v` (R14). -/
def bitsOf (v hi lo : Nat) : Nat := v / 2 ^ lo % 2 ^ (hi + 1 - lo)

/-- One bit of `v`, as 0 or 1. -/
def bitOf (v i : Nat) : Nat := v / 2 ^ i % 2

/-- Bit `i` of `v` as a truth value. -/
def bitB (v i : Nat) : Bool := v / 2 ^ i % 2 == 1

/-- A truth value as a bit. -/
def b2n (b : Bool) : Nat := if b then 1 else 0

/-- The `k` low bytes of `v`, lowest first (R5). -/
def bytesLE : Nat → Nat → List Byte
  | 0, _ => []
  | k + 1, v => BitVec.ofNat 8 v :: bytesLE k (v / 256)

/-- The number whose bytes, lowest first, are the list (R5). -/
def natLE : List Byte → Nat
  | [] => 0
  | b :: bs => b.toNat + 256 * natLE bs

/-- The two's complement reading of the low `w` bits of `v`. -/
def signedOf (w v : Nat) : Int :=
  if v % 2 ^ w < 2 ^ (w - 1) then (v % 2 ^ w : Int) else (v % 2 ^ w : Int) - 2 ^ w

/-- The low `w` bits of the two's complement of `z`. -/
def unsignedOf (w : Nat) (z : Int) : Nat := (z % (2 ^ w : Int)).toNat

/-- `z` held within the range of `w`-bit two's complement numbers. -/
def saturate (w : Nat) (z : Int) : Int :=
  if z < -(2 ^ (w - 1) : Int) then -(2 ^ (w - 1) : Int)
  else if z > (2 ^ (w - 1) : Int) - 1 then (2 ^ (w - 1) : Int) - 1 else z

end Sys2Proof
end

