-- ==== Sys2Proof/Machine/Sparse.lean ====
section
/-! DEFINITION. Sparse maps from Nat keys, as lists of pairs with strictly rising keys: the one shape of the register
store and of every memory of the model. -/

namespace Sys2Proof.Machine

/-- A sparse map: (key, value) pairs, keys strictly rising. -/
abbrev Sparse (α : Type) := List (Nat × α)

/-- Memory: (address, byte) pairs. -/
abbrev Mem := Sparse Byte

/-- The value stored at key `k`, if any. -/
def spFind {α : Type} : Sparse α → Nat → Option α
  | [], _ => none
  | (a, v) :: r, k => if a = k then some v else spFind r k

/-- Store `v` at key `k`, keeping the keys rising. -/
def spPut {α : Type} : Sparse α → Nat → α → Sparse α
  | [], k, v => [(k, v)]
  | (a, w) :: r, k, v =>
    if a = k then (k, v) :: r else if k < a then (k, v) :: (a, w) :: r else (a, w) :: spPut r k v

/-- Remove key `k`. -/
def spDel {α : Type} : Sparse α → Nat → Sparse α
  | [], _ => []
  | (a, w) :: r, k => if a = k then spDel r k else (a, w) :: spDel r k

/-- The keys are strictly rising and all above `lo`. -/
def spRising {α : Type} : Option Nat → Sparse α → Bool
  | _, [] => true
  | none, (a, _) :: r => spRising (some a) r
  | some l, (a, _) :: r => decide (l < a) && spRising (some a) r

/-- What a byte of memory that is not listed reads as. Log entry 5. -/
def Mem.blank : Byte := 0

/-- The canonical form: keys strictly rising, no entry equal to the blank byte. -/
def Mem.wf (m : Mem) : Bool := spRising none m && m.all fun p => p.2 != Mem.blank

/-- Read one byte. -/
def Mem.read (m : Mem) (a : Nat) : Byte := (spFind m a).getD Mem.blank

/-- Write one byte; writing the blank value removes the entry. -/
def Mem.write (m : Mem) (a : Nat) (b : Byte) : Mem := if b = Mem.blank then spDel m a else spPut m a b

/-- Read `k` bytes from `a` upward. -/
def Mem.readN (m : Mem) (a : Nat) : Nat → List Byte
  | 0 => []
  | k + 1 => Mem.read m a :: Mem.readN m (a + 1) k

/-- Write a list of bytes from `a` upward. -/
def Mem.writeL (m : Mem) (a : Nat) : List Byte → Mem
  | [] => m
  | b :: bs => Mem.writeL (Mem.write m a b) (a + 1) bs

/-- The memory that holds a list of bytes from address `a` upward and nothing else. -/
def Mem.ofBytes (a : Nat) : List Byte → Mem
  | [] => []
  | b :: bs => if b = Mem.blank then Mem.ofBytes (a + 1) bs else (a, b) :: Mem.ofBytes (a + 1) bs

/-- Read `k` bytes as a little-endian number (00_scope.md R5). -/
def Mem.readNat (m : Mem) (a k : Nat) : Nat := natLE (Mem.readN m a k)

/-- Write the `k` low bytes of `v`, little-endian. -/
def Mem.writeNat (m : Mem) (a k v : Nat) : Mem := Mem.writeL m a (bytesLE k v)

end Sys2Proof.Machine
end

