-- ==== Sys2Proof/Machine/CalData.lean ====
section
/-! DEFINITION. The state of calibration and monitors beside their registers (18_calibration_monitors.md). -/

namespace Sys2Proof.Machine

/-- The steps of a calibration (R634, R635). -/
inductive CalStep
  /-- SHADOW(p) is entered and the shadow set converges -/
  | converge
  /-- SWAP(p) waits for its switch point -/
  | swap
  /-- the slice is measured on its load -/
  | measure
  /-- the new trims wait for their copy -/
  | trim
  /-- the handback waits for its switch point -/
  | handback
  /-- two SNR blocks are awaited -/
  | check
  deriving DecidableEq, Repr

/-- What a measurement gives (R631): SLICE_TRIM and the SUBADC_TRIM words in the order of R637, H_REF, the 256 samples of
the TDR residual. -/
structure CalMeas where
  trims : List Nat
  hRef : Nat
  residual : List Nat
  deriving DecidableEq, Repr

/-- A calibration that runs. -/
structure CalRun where
  n : Fin 8
  x : Fin 5
  handover : Bool
  step : CalStep
  /-- SLC_SNR of the pair before step 1, the trims before the measurement -/
  snr : Nat := 0
  old : List Nat := []
  /-- the temperature and the figures of the measurement -/
  temp : Nat := 0
  meas : Option (Nat × List Nat) := none
  deriving DecidableEq, Repr

/-- What CAL knows of a slice since its record was loaded (R633, R637). -/
structure SliceCal where
  /-- T_CAL in 1/8 °C as 16 bits, and TB of the calibration -/
  tCal : Nat := 0
  tb : Nat := 0
  noRecord : Bool := false
  failed : Bool := false
  /-- CAL_PERIOD has passed since -/
  period : Bool := false
  /-- H_REF and the residual as last measured, where they differ from the record -/
  meas : Option (Nat × List Nat) := none
  deriving DecidableEq, Repr

/-- A limit of a monitor (R643): conversions in a row beyond it, or inside it; crossed. -/
structure Limit where
  run : Nat := 0
  crossed : Bool := false
  deriving DecidableEq, Repr

/-- CAL, the MTP store and MON (R635-R643). -/
structure CalState where
  /-- the MTP store: four slots of 32 KiB (R637) -/
  mtp : Mem := []
  /-- the record loaded, if any (R639) -/
  loaded : Option Mem := none
  /-- slots that a verification failure has put out of use (R638) -/
  bad : List Nat := []
  run : Option CalRun := none
  /-- a CAL_SAVE in progress: its slot and GEN (R638) -/
  save : Option (Nat × Nat) := none
  /-- ports whose crossbar a calibration that has ended still takes back to IDLE -/
  leave : List (Fin 8) := []
  /-- slices by 5n + x -/
  slice : Sparse SliceCal := []
  /-- T_WARN and T_CRIT of each sensor (0-23, 24-47), UV and OV of each voltage monitor (48-63, 64-79) -/
  limit : Sparse Limit := []
  /-- TB of the last change of AVS_TARGET (R621) -/
  avsTb : Option Nat := none
  deriving DecidableEq, Repr

/-- A power loss cuts a record that is being written: the slot's record fails its CRC (R638). -/
def CalState.cutSave (c : CalState) : CalState :=
  match c.save with
  | some (k, _) => { c with mtp := c.mtp.writeL (0x8000 * k) (List.replicate 0x8000 0), save := none }
  | none => c

end Sys2Proof.Machine
end

