-- ==== Sys2Proof/Machine/Types.lean ====
section
/-! DEFINITION. The data types that the commands' operands and the state share: register cards and fields (00_scope.md
R7, R8), block pages (01_architecture.md R24), line and host blocks, frames, and the enumerations of the chapters. -/

namespace Sys2Proof.Machine

/-- The access types of a register field (R8). -/
inductive FType
  | rw | ro | wo | w1c | w1s | rcl | rwl | rsv
  deriving DecidableEq, Repr

/-- One field of one register: absolute normal-view address, lowest bit, width, access type and reset value. -/
structure Fld where
  addr : Nat
  lo : Nat
  width : Nat
  ty : FType
  reset : Nat
  deriving DecidableEq, Repr

/-- The clock domain a register lives in (01_architecture.md R35). -/
inductive ClkDom
  | reg | seq | line | cupc | bf | hl | ddr | fab
  deriving DecidableEq, Repr

/-- A register card: where its registers stand in the page, the power domain of each, whether a write to it is posted,
which alias views it honours, and its fields. `n`, `i`, `j` are the page's instance and the card's own indices. -/
structure Card where
  rel : Nat
  dims : List (Nat × Nat)
  clk : ClkDom
  pd : Nat → Nat → Nat → Nat
  posted : Bool
  vSet : Bool
  vClr : Bool
  vTgl : Bool
  ok : Nat → Nat → Nat → Bool := fun _ _ _ => true
  fields : Nat → Nat → Nat → List Fld

/-- The kinds of block page (R24). -/
inductive PageKind
  | ids | ckc | pwc | flt | mon | cal | evj | bwr | mbx | kep | bf | hl | cup | port | sqc | lnt
  deriving DecidableEq, Repr

/-- The four views of a register (R22). -/
inductive View
  | normal | set | clear | toggle
  deriving DecidableEq, Repr

end Sys2Proof.Machine
end

