-- ==== Sys2Proof/Machine/HifData.lean ====
section
/-! DEFINITION. The state of the register fabric and the host interfaces beside their registers
(15_host_access_mailboxes.md). -/

namespace Sys2Proof.Machine

/-- A posted write that a hold queue holds (R535): the identity and, for a core, the context that wrote it; the normal-view
offset and the view, the word, TB at acceptance. -/
structure Held where
  mid : Nat
  tag : Nat
  addr : Nat
  view : View
  data : Nat
  tb : Nat
  deriving DecidableEq, Repr

/-- A PCIe function (R542-R548). -/
structure PcieFn where
  /-- D3hot (R546); Function Mask of MSI-X -/
  d3 : Bool := false
  mask : Bool := false
  /-- MSI-X table words that differ from their reset value, by word of BAR4 -/
  table : Sparse Nat := []
  /-- the pending bits, the sources' levels as last seen, and the vectors whose message is due, by vector -/
  pba : Nat := 0
  level : Nat := 0
  due : Nat := 0
  /-- the message last sent: vector, address, data -/
  sent : Option (Nat × Nat × Nat) := none
  /-- what AER has logged: a Completer Abort, a poisoned completion (R545) -/
  aerAbort : Bool := false
  aerPoison : Bool := false
  deriving DecidableEq, Repr

/-- A completion of the host: the data words, how it ended. -/
inductive Cpl
  | none
  | data (ws : List Nat) (poison : Bool)
  | abort
  | unsupported
  deriving DecidableEq, Repr

/-- A memory or configuration request of the host (R543, R544): each DW of BAR0 and BAR4 with its byte enables and, for a
write, its data; a BAR2 request with its length or bytes; the power state and the Function Mask as configuration writes
set them; a read of a DW of configuration space (R542). -/
inductive PcieReq
  | bar0 (wr : Bool) (ofs : Nat) (dws : List (Nat × Nat))
  | bar2Read (ofs len : Nat)
  | bar2Write (ofs : Nat) (bytes : List Nat)
  | bar4 (wr : Bool) (ofs : Nat) (dws : List (Nat × Nat))
  | config (d3 mask : Bool)
  | configRead (dw : Nat)
  deriving DecidableEq, Repr

/-- A Clause 45 frame's operation (R551). -/
inductive MdioOp
  | address (a : Nat)
  | write (v : Nat)
  | read
  | readInc
  deriving DecidableEq, Repr

/-- The MDIO port (R551-R554). -/
structure Mdio where
  ofs : Nat := 0
  data : Nat := 0
  write : Bool := false
  inc : Bool := false
  busy : Bool := false
  err : Bool := false
  /-- the address register of each MMD of each port, by 32 n + MMD -/
  reg : Sparse Nat := []
  /-- what the last frame returned; none where no frame was answered -/
  out : Option Nat := none
  deriving DecidableEq, Repr

/-- The register fabric and the host interfaces. -/
structure Hif where
  linkUp : Bool := false
  fn : Vector PcieFn 2 := Vector.replicate 2 {}
  cpl : Cpl := .none
  mdio : Mdio := {}
  /-- the hold queues, by page base, oldest write first (R535) -/
  queue : Sparse (List Held) := []
  /-- high-word latches, by register address and identity (R534) -/
  latch : Sparse Nat := []
  /-- the levels whose rises ring the Lantern's doorbell (R556) -/
  rung : Nat := 0
  /-- INT_N is driven low (R555) -/
  intN : Bool := false
  deriving DecidableEq, Repr

end Sys2Proof.Machine
end

