-- ==== Sys2Proof/Config.lean ====
section
/-! DEFINITION. What the spec leaves open: free values and constants of the part, each without a body. -/

namespace Sys2Proof

/-- A free value: the value the spec leaves undefined at the `k`-th time one is needed (00_scope.md R6).
Log entry 1. -/
opaque Config.free : Nat → Nat

/-- The number of L2 macros with force bits of fault source `i`; 19_faults_availability.md R669 names the field and
gives no numbers. Log entry 6. -/
opaque Config.numUnits : Nat → Nat

/-- Which of the two nearest values a result takes where the spec gives its format and no rounding, or leaves a tie open: by
kind of result and its exact value. Log entry 84. -/
opaque Config.pick : Nat → Int → Bool

/-- The `i`-th output of the interpolator for a sequence of precoder outputs at a symbol rate, in 2^-15 of their units: the spec
names the interpolation to the DAC rate and not the filter (03_line_signal_path.md R81). Log entry 85. -/
opaque Config.interp : Nat → List Int → Nat → Int

/-- The sum of 2^16 squared slicer errors that a pair's demapper works with before the pair's first SNR block has completed
(05_spire_framing_ldpc.md R151), by port and pair. Log entry 84. -/
opaque Config.noise : Nat → Nat → Nat

/-- The long-term mean of criterion B after one more window of 16 samples: the time constant's exponent, the mean so far, the
window's sum in 2^-20 codes; the spec gives the time constant and no filter (03_line_signal_path.md R92). Log entry 87. -/
opaque Config.meanStep : Nat → Nat → Nat → Nat

/-- What decoding one LDPC frame of a standard mode gives: the iterations used, whether it decoded, whether its check passed,
and its blocks as (header bit, payload). -/
structure StdDecode where
  iters : Nat
  decoded : Bool
  good : Bool
  blks : List (Bool × Nat)
  deriving DecidableEq, Repr, Inhabited

/-- What a decoder half makes of one LDPC frame of a standard mode: the parity-check matrix in ROM, the demapper's constellation
and the mapping of 64B/65B blocks, CRC and uncoded bits are the clause's and not in the spec (05_spire_framing_ldpc.md R157).
Mode, NORM, iteration limit, ET_EN, ERASE_EN, the symbols as (pair, sample, flagged), the sums of squared errors of the pairs.
Log entry 92. -/
opaque Config.stdLdpc : Nat → Nat → Nat → Bool → Bool → List (Nat × Int × Bool) → List Nat → StdDecode

/-- The receive energy at a Belfry transceiver at a time TB, in mV peak-to-peak differential: what the train line brings
(09_belfry.md R301). Log entry 99. -/
opaque Config.bfEnergy : Nat → Nat → Nat

/-- The peak of pair A's (0) or pair B's (1) energy detector of a port at a time TB, in mV peak-to-peak differential: what the
line brings (10_diagnostics_lpi.md R353, R354). Log entry 99. -/
opaque Config.edLevel : Nat → Nat → Nat → Nat

/-- The device key that Fjarnyx has placed in the part (00_scope.md R2); its value is no part of the spec. Log entry 82. -/
opaque Config.devKey : Nat

end Sys2Proof
end

