-- ==== Sys2Proof/Machine/Blocks.lean ====
section
/-! DEFINITION. Blocks and Spire frames (05_spire_framing_ldpc.md): transcoding, frame layout, CRC-32, scrambler, the
LDPC code with its encoder and decoder; line mapping (03_line_signal_path.md R70-R77). All pure functions. -/

namespace Sys2Proof.Machine

/-- A 65-bit block (R144): header bit (control) and 64 payload bits. -/
structure Blk where
  ctl : Bool
  pay : Nat
  deriving DecidableEq, Repr

/-- A control block of eight equal 7-bit characters `c` behind block type 0x1E. -/
def charBlk (c : Nat) : Blk :=
  ⟨true, 0x1E + c * (2 ^ 8 + 2 ^ 15 + 2 ^ 22 + 2 ^ 29 + 2 ^ 36 + 2 ^ 43 + 2 ^ 50 + 2 ^ 57)⟩

/-- The Idle control block. -/
def idleBlk : Blk := ⟨true, 0x1E⟩
/-- The Error control block: block type 0x1E, eight /E/ characters 0x1E (R144). -/
def errorBlk : Blk := charBlk 0x1E
/-- The LPI control block: eight /LI/ characters 0x06. -/
def lpiBlk : Blk := charBlk 0x06
/-- The Local Fault sequence ordered set: type 0x4B, data 00 00 01. -/
def localFaultBlk : Blk := ⟨true, 0x4B + 2 ^ 24⟩

/-- The block type field of a block. -/
def Blk.type (b : Blk) : Nat := b.pay % 256
/-- An Idle control block. -/
def Blk.isIdle (b : Blk) : Bool := b == idleBlk
/-- A start block (Clause 49 block types). -/
def Blk.isStart (b : Blk) : Bool := b.ctl && (b.type == 0x78 || b.type == 0x33 || b.type == 0x66)
/-- A terminate block (Clause 49 block types). -/
def Blk.isTerm (b : Blk) : Bool :=
  b.ctl && (b.type == 0x87 || b.type == 0x99 || b.type == 0xAA || b.type == 0xB4 || b.type == 0xCC ||
    b.type == 0xD2 || b.type == 0xE1 || b.type == 0xFF)
/-- A sequence ordered-set block (Clause 49 block types). -/
def Blk.isOrdered (b : Blk) : Bool := b.ctl && (b.type == 0x4B || b.type == 0x2D || b.type == 0x55)

/-- The 65-bit block of a 66-bit host block with sync header `sync` (R144), and whether the header was invalid. -/
def transcodeIn (sync pay : Nat) : Blk × Bool :=
  if sync = 1 then (⟨false, pay⟩, false)
  else if sync = 2 then (⟨true, pay⟩, false)
  else (errorBlk, true)

/-- The sync header sent toward the host for a 65-bit block (R144). -/
def Blk.sync (b : Blk) : Nat := if b.ctl then 2 else 1

/-! ### Frames (R136-R141) -/

/-- TYPE codes of CTL (R138). -/
abbrev typDATA : Nat := 0
abbrev typFILLER : Nat := 1
abbrev typSKIP : Nat := 2

/-- LCMD codes (R141). -/
abbrev lcNONE : Nat := 0
abbrev lcREQ_RUNG : Nat := 1
abbrev lcREQ_LOAD : Nat := 2
abbrev lcANNOUNCE : Nat := 3

/-- A Spire frame's fields (R136, R138); the CRC and the parity are functions of them. -/
structure Frame where
  seq : Nat
  ack : Nat
  typ : Nat
  nak : Bool
  lock : Bool
  lcmd : Nat
  larg : Nat
  blks : List Blk
  deriving DecidableEq, Repr

/-- The 12-bit control field (R138). -/
def Frame.ctl (f : Frame) : Nat :=
  f.typ % 4 * 1024 + b2n f.nak * 512 + b2n f.lock * 256 + f.lcmd % 4 * 64 + f.larg % 64

/-- The low `k` bits of `v`, lowest first. -/
def bitsLE (k v : Nat) : List Bool := (List.range k).map fun i => bitB v i

/-- The information bits without the CRC: 0-43, then the 52 blocks (R136). -/
def Frame.headBits (f : Frame) : List Bool := bitsLE 16 f.seq ++ bitsLE 16 f.ack ++ bitsLE 12 f.ctl
/-- The block bits 76-3455 (R136): header bit, then payload. -/
def Frame.blkBits (f : Frame) : List Bool := f.blks.flatMap fun b => b.ctl :: bitsLE 64 b.pay

/-- One step of the IEEE 802.3 frame check sequence register, most significant bit first (R142). -/
def crc32Step (r : BitVec 32) (b : Bool) : BitVec 32 :=
  let x := r.msb ^^ b
  if x then (r <<< 1) ^^^ 0x04C11DB7#32 else r <<< 1

/-- The IEEE 802.3 CRC-32 of bits in order: initial ones, result complemented (R142). -/
def crc32 (bits : List Bool) : BitVec 32 := ~~~ (bits.foldl crc32Step 0xFFFFFFFF#32)

/-- The CRC of a frame (R142). -/
def Frame.crc (f : Frame) : BitVec 32 := crc32 (f.headBits ++ f.blkBits)

/-- The 32 CRC bits in index order: bit 44 carries the coefficient of x^31 (R136). -/
def crcBits (c : BitVec 32) : List Bool := (List.range 32).map fun i => c.getLsbD (31 - i)

/-- The 3,456 information bits of a frame (R136). -/
def Frame.infoBits (f : Frame) : List Bool := f.headBits ++ crcBits f.crc ++ f.blkBits

/-! ### Scrambler (R143) -/

/-- The scrambler state after reset at the first frame of FRAME_SYNC: all ones. -/
def scrOnes : BitVec 58 := BitVec.allOnes 58

/-- One step: the bit sent and the next state. -/
def scrStep (scr : BitVec 58) : Bool × BitVec 58 :=
  let b := scr.getLsbD 57 ^^ scr.getLsbD 38
  (b, (scr <<< 1) ||| (if b then 1#58 else 0#58))

/-- Scramble (or descramble: the scrambler is additive) bits in order. -/
def scramble : BitVec 58 → List Bool → List Bool
  | _, [] => []
  | scr, b :: bs => (b ^^ (scrStep scr).1) :: scramble (scrStep scr).2 bs

/-- The state `k` steps on. -/
def scrAdvance : Nat → BitVec 58 → BitVec 58
  | 0, scr => scr
  | k + 1, scr => scrAdvance k (scrStep scr).2

/-! ### The LDPC code (R147-R150) -/

/-- The offsets d_r of R148. -/
def ldpcD (r : Nat) : Nat := match r with | 0 => 0 | 1 => 17 | 2 => 41 | 3 => 73 | _ => 101

/-- The base-matrix entry at row `r`, column `j`: a shift, or none for zero (R148, R149). -/
def ldpcBase (r j : Nat) : Option Nat :=
  if j < 27 then (if j % 5 = r then none else some ((r * (j + 1) + ldpcD r) % 128))
  else
    match j, r with
    | 27, 0 => some 1
    | 27, 2 => some 0
    | 27, 4 => some 1
    | 28, 0 => some 0
    | 28, 1 => some 0
    | 29, 1 => some 0
    | 29, 2 => some 0
    | 30, 2 => some 0
    | 30, 3 => some 0
    | 31, 3 => some 0
    | 31, 4 => some 0
    | _, _ => none

/-- Exclusive-or of the booleans `f j`, `j < k`. -/
def xorUpTo (k : Nat) (f : Nat → Bool) : Bool := (List.range k).foldl (fun a j => a ^^ f j) false

/-- lam[r] of R150 for information bits `u`. -/
def ldpcLam (u : Nat → Bool) (r i : Nat) : Bool :=
  xorUpTo 27 fun j => match ldpcBase r j with | some s => u (128 * j + (i + s) % 128) | none => false

/-- The parity block columns 27-31 of R150. -/
def ldpcP27 (u : Nat → Bool) (i : Nat) : Bool := xorUpTo 5 fun r => ldpcLam u r i
def ldpcP28 (u : Nat → Bool) (i : Nat) : Bool := ldpcLam u 0 i ^^ ldpcP27 u ((i + 1) % 128)
def ldpcP29 (u : Nat → Bool) (i : Nat) : Bool := ldpcLam u 1 i ^^ ldpcP28 u i
def ldpcP30 (u : Nat → Bool) (i : Nat) : Bool := ldpcLam u 2 i ^^ ldpcP27 u i ^^ ldpcP29 u i
def ldpcP31 (u : Nat → Bool) (i : Nat) : Bool := ldpcLam u 3 i ^^ ldpcP30 u i

/-- The codeword of information bits `u` (R147, R150). -/
def ldpcEncode (u : Nat → Bool) (v : Nat) : Bool :=
  if v < 3456 then u v
  else
    match v / 128 with
    | 27 => ldpcP27 u (v % 128)
    | 28 => ldpcP28 u (v % 128)
    | 29 => ldpcP29 u (v % 128)
    | 30 => ldpcP30 u (v % 128)
    | _ => ldpcP31 u (v % 128)

/-- A quasi-cyclic code (R147): circulant width, block columns and rows, and the base matrix by row and column. -/
structure QC where
  width : Nat
  cols : Nat
  rows : Nat
  base : Nat → Nat → Option Nat

/-- The line code of R147. -/
def lineCode : QC := ⟨128, 32, 5, ldpcBase⟩

/-- Check `i` of block row `r` on word `c` (R147): true where the check holds. -/
def QC.check (g : QC) (c : Nat → Bool) (r i : Nat) : Bool :=
  !(xorUpTo g.cols fun j => match g.base r j with | some s => c (g.width * j + (i + s) % g.width) | none => false)

/-- The codeword that goes to the line for a frame, under scrambler state `scr` (R136, R143, R150). -/
def Frame.codeword (f : Frame) (scr : BitVec 58) : Nat → Bool :=
  let w := (scramble scr f.infoBits).toArray
  ldpcEncode fun v => w.getD v false

/-! ### The decoder (R152) -/

/-- The bits of check `i` of block row `r`. -/
def QC.bitsOf (g : QC) (r i : Nat) : List Nat :=
  (List.range g.cols).filterMap fun j => (g.base r j).map fun s => g.width * j + (i + s) % g.width

/-- Limit an integer to ±m. -/
def clampI (m z : Int) : Int := if z < -m then -m else if z > m then m else z

/-- sign(v): +1 for v ≥ 0, else -1. -/
def sgnI (z : Int) : Int := if z < 0 then -1 else 1

/-- The decoder's working values: posteriors, and the check-to-bit message of each check and block column. -/
structure MinSum where
  post : Array Int
  msg : Array Int

/-- Process one check of row `r` (R152). -/
def QC.sumCheck (g : QC) (norm r : Nat) (st : MinSum) (i : Nat) : MinSum :=
  let c := g.width * r + i
  let vs := g.bitsOf r i
  let q := vs.map fun v => (v, clampI 255 (st.post.getD v 0 - st.msg.getD (g.cols * c + v / g.width) 0))
  let sg := q.foldl (fun a p => a * sgnI p.2) 1
  let m1 := q.foldl (fun (a : Nat × Nat × Nat) p =>
    let z := p.2.natAbs
    if z < a.1 then (z, p.1, a.1) else if z < a.2.2 then (a.1, a.2.1, z) else a) (256, 5000, 256)
  q.foldl (fun st p =>
    let mag := if p.1 = m1.2.1 then m1.2.2 else m1.1
    let m := clampI 31 (sg * sgnI p.2 * ((norm * mag / 16 : Nat) : Int))
    ⟨st.post.setIfInBounds p.1 (clampI 255 (p.2 + m)), st.msg.setIfInBounds (g.cols * c + p.1 / g.width) m⟩) st

/-- One iteration: the layers in order. -/
def QC.sumIter (g : QC) (norm : Nat) (st : MinSum) : MinSum :=
  (List.range g.rows).foldl (fun st r => (List.range g.width).foldl (g.sumCheck norm r) st) st

/-- The hard decisions of the posteriors. -/
def MinSum.hard (st : MinSum) (v : Nat) : Bool := decide (st.post.getD v 0 < 0)

/-- Whether the syndrome of the hard decisions is zero. -/
def QC.clean (g : QC) (st : MinSum) : Bool :=
  (List.range g.rows).all fun r => (List.range g.width).all fun i => g.check st.hard r i

/-- Up to `limit` iterations, stopping at a zero syndrome when `et`; answers the state and the iterations used. -/
def QC.sumRun (g : QC) (norm : Nat) (et : Bool) : Nat → Nat → MinSum → MinSum × Nat
  | 0, used, st => (st, used)
  | k + 1, used, st =>
    let st' := g.sumIter norm st
    if et && g.clean st' then (st', used + 1) else g.sumRun norm et k (used + 1) st'

/-- Decode the LLRs of a word: the information bits where the syndrome is zero, and the iterations used (R152). -/
def QC.decode (g : QC) (norm limit : Nat) (et : Bool) (llr : List Int) : Option (List Bool) × Nat :=
  let r := g.sumRun norm et limit 0
    ⟨(llr.map (clampI 31)).toArray, Array.replicate (g.rows * g.width * g.cols) 0⟩
  (if g.clean r.1 then some ((List.range (g.width * (g.cols - g.rows))).map r.1.hard) else none, r.2)

/-- Decode a list of 4,096 LLRs (R152). -/
def ldpcDecode (norm limit : Nat) (et : Bool) (llr : List Int) : Option (List Bool) × Nat :=
  lineCode.decode norm limit et llr

/-- The number whose bits, lowest first, are the list. -/
def natOfBits : List Bool → Nat
  | [] => 0
  | b :: bs => b2n b + 2 * natOfBits bs

/-- The IEEE 802.3 CRC-32 of bytes, as a 32-bit number (R142, 10_diagnostics_lpi.md R352). -/
def byteCrc (bs : List Byte) : Nat := natOfBits (crcBits (crc32 (bs.flatMap fun b => bitsLE 8 b.toNat)))

/-- The blocks of a list of block bits. -/
def blksOfBits : Nat → List Bool → List Blk
  | 0, _ => []
  | k + 1, bs => ⟨bs.headD false, natOfBits ((bs.drop 1).take 64)⟩ :: blksOfBits k (bs.drop 65)

/-- The frame that descrambled information bits spell (R136, R138). -/
def frameOfBits (bs : List Bool) : Frame :=
  let ctl := natOfBits ((bs.drop 32).take 12)
  { seq := natOfBits (bs.take 16), ack := natOfBits ((bs.drop 16).take 16), typ := bitsOf ctl 11 10,
    nak := bitB ctl 9, lock := bitB ctl 8, lcmd := bitsOf ctl 7 6, larg := bitsOf ctl 5 0,
    blks := blksOfBits 52 (bs.drop 76) }

/-- The CRC check of descrambled information bits (R142, R155). -/
def crcGood (bs : List Bool) : Bool := decide ((bs.drop 44).take 32 = crcBits (crc32 (bs.take 44 ++ bs.drop 76)))

/-! ### Line mapping (R70-R77) -/

/-- Binary-reflected Gray code of an index. -/
def grayOf (i : Nat) : Nat := i ^^^ (i / 2)

/-- The index whose Gray code is `g`, for up to 5 bits (R70). -/
def grayIndex (g : Nat) : Nat := g ^^^ (g / 2) ^^^ (g / 4) ^^^ (g / 8) ^^^ (g / 16)

/-- The level of a group `g` in PAM-M (R70). -/
def pamLevel (m g : Nat) : Int := 2 * (grayIndex g : Int) - ((m : Int) - 1)

/-- Bits per pair at positions 1-4 for total `b`, balanced or skewed (R72). -/
def loading (b : Nat) (skew : Bool) : List Nat :=
  match b, skew with
  | 12, true => [4, 3, 3, 2]
  | 13, true => [5, 3, 3, 2]
  | 14, true => [5, 4, 3, 2]
  | 15, true => [5, 4, 4, 2]
  | 16, true => [5, 4, 4, 3]
  | 8, _ => [2, 2, 2, 2]
  | 9, _ => [3, 2, 2, 2]
  | 10, _ => [3, 3, 2, 2]
  | 11, _ => [3, 3, 3, 2]
  | 12, _ => [3, 3, 3, 3]
  | 13, _ => [4, 3, 3, 3]
  | 14, _ => [4, 4, 3, 3]
  | 15, _ => [4, 4, 4, 3]
  | _, _ => [4, 4, 4, 4]

/-- The alignment period of `b`, in symbol times (R72). -/
def alignSymbols (b : Nat) : Nat := 4096 / Nat.gcd b 4096
/-- The alignment period of `b`, in frames (R75). -/
def alignFrames (b : Nat) : Nat := b / Nat.gcd b 4096

/-- The tier (0, 1, 2) and total bits of rung `r` (R74). -/
def rungTier (r : Nat) : Nat := r / 9
def rungBits (r : Nat) : Nat := 8 + r % 9
/-- Symbol rate of tier `k`, MBd (R74). -/
def tierRate (k : Nat) : Nat := if k = 0 then 500 else if k = 1 then 1000 else 2000
/-- Frame time of a rung in picoseconds, rounded down: 4,096 / (b × S) µs (R74). -/
def framePs (r : Nat) : Nat := 4096 * 1000000 / (rungBits r * tierRate (rungTier r))

/-- Keep the low 16 bits, signed (R76). -/
def wrap16 (z : Int) : Int := signedOf 16 (unsignedOf 16 z)

/-- A Q2.13 coefficient times a Q0.15 sample, rounded to Q0.15 (R76); ties away from zero. -/
def roundQ15 (p x : Int) : Int :=
  let z := p * x
  if z ≥ 0 then (z + 4096) / 8192 else -((-z + 4096) / 8192)

/-- One precoder output (R76): level `a` of PAM-`m`, coefficients p1… and history x[k−1]…. -/
def precode (a : Int) (m : Nat) (p hist : List Int) : Int :=
  wrap16 ((p.zip hist).foldl (fun acc c => acc - roundQ15 c.1 c.2) (a * 32768 / (m : Int)))

/-! ### Pair order and loading index (R141) -/

/-- The pair-order index of an order of the pairs 0-3 at positions 1-4 (R141). -/
def orderIndex (o : List Nat) : Nat :=
  match o with
  | p :: q :: r :: _ =>
    let l1 := [0, 1, 2, 3].filter (· ≠ p)
    let l2 := l1.filter (· ≠ q)
    6 * p + 2 * l1.idxOf q + l2.idxOf r
  | _ => 0

/-- The pair order of an index 0-23 (R141). -/
def orderOf (i : Nat) : List Nat :=
  let p := i / 6 % 4
  let l1 := [0, 1, 2, 3].filter (· ≠ p)
  let q := l1.getD (i % 6 / 2) 0
  let l2 := l1.filter (· ≠ q)
  let r := l2.getD (i % 2) 0
  [p, q, r] ++ l2.filter (· ≠ r)

/-- The loading code of a pair order and skew (R141). -/
def loadCode (o : List Nat) (skew : Bool) : Nat := orderIndex o + 24 * b2n skew

/-- Serial-number distance of 16-bit sequence numbers (07_retransmission_spill.md R207). -/
def seqDist (x y : Nat) : Int := (((x : Int) - y + 32768) % 65536) - 32768

/-- The next 16-bit sequence number. -/
def seqNext (x : Nat) : Nat := (x + 1) % 65536

end Sys2Proof.Machine
end

