-- ==== Sys2Proof/Machine/Line.lean ====
section
/-! DEFINITION. What a pair channel sends and makes of what it receives (03_line_signal_path.md R69-R71, R76-R78, R81,
04_equalisation_cancellation.md R104-R118, R126, 05_spire_framing_ldpc.md R151): mapper, precoder, converter codes, training
sequence, INFO block, receive chain, slicer, quality figure and demapper. All pure functions. -/

namespace Sys2Proof.Machine

/-! ### Numbers -/

/-- One of the two integers nearest below and above `z / 2^k`, where the spec gives a format and no rounding: a free choice
(log entry 84). -/
def narrow (z : Int) (k : Nat) : Int :=
  if z % (2 ^ k : Nat) = 0 then z / (2 ^ k : Nat) else z / (2 ^ k : Nat) + (b2n (Config.pick k z) : Int)

/-- A value in S0.15 (R105). -/
def toS15 (z : Int) : Int := saturate 16 z

/-- Sum of the products of coefficients and regressors. -/
def dot (cs rs : List Int) : Int := ((cs.zip rs).map fun p => p.1 * p.2).foldl (· + ·) 0

/-! ### Constellations per mode (R69) -/

/-- How a pair channel is driven in a mode. -/
inductive Constel
  | mlt3
  | pam5
  | dsq128
  /-- PAM-M by the loading, M = 2^n -/
  | pam
  deriving DecidableEq, Repr

/-- One row of R69: symbol rate in MBd, the pairs that transmit and that receive, constellation, precoder. -/
structure LineForm where
  rate : Nat
  tx : List Nat
  rx : List Nat
  constel : Constel
  thp : Bool
  deriving DecidableEq, Repr

/-- The rows of R69, by mode code and, in Spire, by tier; pairs by their identity after MDI-X correction (R118). -/
def lineForm (mode tier : Nat) : LineForm :=
  match mode with
  | 1 => ⟨125, [0], [1], .mlt3, false⟩
  | 2 => ⟨125, [0, 1, 2, 3], [0, 1, 2, 3], .pam5, false⟩
  | 3 => ⟨200, [0, 1, 2, 3], [0, 1, 2, 3], .dsq128, true⟩
  | 4 => ⟨400, [0, 1, 2, 3], [0, 1, 2, 3], .dsq128, true⟩
  | 5 => ⟨800, [0, 1, 2, 3], [0, 1, 2, 3], .dsq128, true⟩
  | 6 => ⟨2000, [0, 1, 2, 3], [0, 1, 2, 3], .dsq128, true⟩
  | _ => ⟨tierRate tier, [0, 1, 2, 3], [0, 1, 2, 3], .pam, true⟩

/-! ### Mapper (R70-R73) -/

/-- Bits of each pair A-D under a loading (R72, R73). -/
def pairBits (b load : Nat) : List Nat :=
  let l := loading b (decide (24 ≤ load))
  let o := orderOf (load % 24)
  [0, 1, 2, 3].map fun x => l.getD (o.idxOf x) 2

/-- A group of bits, most significant bit first (R70). -/
def groupOf (bs : List Bool) : Nat := bs.foldl (fun a b => 2 * a + b2n b) 0

/-- The levels of one symbol time by pair A-D: the pair at position 1 takes the first bits (R70, R71). -/
def symLevels (b load : Nat) (bits : List Bool) : List Int :=
  let l := loading b (decide (24 ≤ load))
  let o := orderOf (load % 24)
  [0, 1, 2, 3].map fun x =>
    let p := o.idxOf x
    pamLevel (2 ^ l.getD p 2) (groupOf ((bits.drop ((l.take p).foldl (· + ·) 0)).take (l.getD p 2)))

/-- The whole symbol times of a bit stream, and the bits that wait for the next one (R71). -/
def symTimes (b load : Nat) (bits : List Bool) : List (List Int) × List Bool :=
  ((List.range (bits.length / b)).map fun i => symLevels b load ((bits.drop (b * i)).take b), bits.drop (bits.length / b * b))

/-! ### Precoder and converter (R76, R77, R81) -/

/-- Taps of a precoder at most. -/
abbrev maxTaps : Nat := 48

/-- The precoder over successive levels of one pair: the outputs, and the history, newest first (R76, R77). -/
def precodeRun (m : Nat) (p : List Int) : List Int → List Int → List Int × List Int
  | hist, [] => ([], hist)
  | hist, a :: as =>
    let x := precode a m p hist
    let r := precodeRun m p ((x :: hist).take maxTaps) as
    (x :: r.1, r.2)

/-- What one pair sends beyond the frames' bits: the last precoder outputs, newest first. -/
structure LineTx where
  /-- bits of the frame stream that wait for the rest of their symbol time (R71) -/
  rest : List Bool := []
  /-- precoder outputs x[k-1], x[k-2], ... of pairs A-D (R77) -/
  hist : List (List Int) := []
  /-- precoder outputs of the symbol times that the last frame completed, by pair -/
  x : List (List Int) := []
  /-- the DAC codes of those symbol times, by pair (R81) -/
  codes : List (List Int) := []
  deriving DecidableEq, Repr

/-- DAC samples per symbol: 4 GS/s over the symbol rate (R81). -/
def dacPerSymbol (rate : Nat) : Nat := 4000 / rate

/-- The DAC code of a sample `s` in 2^-15 of the units of x (R81). -/
def dacCode (s : Int) : Int :=
  let c := narrow (s * 448) 15
  if c < -512 then -512 else if 511 < c then 511 else c

/-- The DAC codes of successive precoder outputs: the interpolator's samples are not given by the spec (log entry 85). -/
def dacCodes (rate : Nat) (hist xs : List Int) : List Int :=
  (List.range (dacPerSymbol rate * xs.length)).map fun i => dacCode (Config.interp rate (hist.reverse ++ xs) i)

/-- Bits of the frame stream go to the line at a rate, under a loading, with the precoder coefficients of pairs A-D. -/
def LineTx.send (t : LineTx) (rate b load : Nat) (p : List (List Int)) (bits : List Bool) : LineTx :=
  let st := symTimes b load (t.rest ++ bits)
  let n := pairBits b load
  let run (x : Nat) : List Int × List Int :=
    precodeRun (2 ^ n.getD x 2) (p.getD x []) (t.hist.getD x []) (st.1.map fun l => l.getD x 0)
  { rest := st.2
    hist := [0, 1, 2, 3].map fun x => (run x).2
    x := [0, 1, 2, 3].map fun x => (run x).1
    codes := [0, 1, 2, 3].map fun x => dacCodes rate (t.hist.getD x []) (run x).1 }

/-! ### Training sequence (R115, R116) -/

/-- One step of PRBS31, x^31 + x^28 + 1, and its bit; the register shifts as that of R143 does (log entry 77). -/
def prbs31Step (r : Nat) : Bool × Nat :=
  let b := bitB r 30 != bitB r 27
  (b, r % 2 ^ 30 * 2 + b2n b)

/-- The next `k` bits of the sequence, in order. -/
def prbs31 : Nat → Nat → List Bool × Nat
  | 0, r => ([], r)
  | k + 1, r =>
    let t := prbs31 k (prbs31Step r).2
    ((prbs31Step r).1 :: t.1, t.2)

/-- The seeds of pairs A-D (R115). -/
def trainSeeds : List Nat := [0x00000001, 0x00000003, 0x00000007, 0x0000000F]

/-- The level of the next training symbol of PAM-2 or PAM-4, and the register; `inv` in the marker of R116. -/
def trainSymbol (m : Nat) (inv : Bool) (r : Nat) : Int × Nat :=
  let t := prbs31 (if m = 2 then 1 else 2) r
  let a := pamLevel m (groupOf t.1)
  (if inv then -a else a, t.2)

/-- What an end sends in a training phase (R115). -/
inductive TrnTx
  | silent
  /-- the training sequence in PAM-2 or PAM-4, through the THP or not, from the shift registers of pairs A-D -/
  | prbs (m : Nat) (thp : Bool) (regs : List Nat)
  /-- the INFO block, over and over, in PAM-2 -/
  | info (bits : List Bool)
  | frames
  /-- the sequence of the standard mode's clause (R122) -/
  | clause
  deriving DecidableEq, Repr

/-- `k` levels of the training sequence from a register. -/
def trainRun (m : Nat) (inv : Bool) : Nat → Nat → List Int
  | 0, _ => []
  | k + 1, r => (trainSymbol m inv r).1 :: trainRun m inv k (trainSymbol m inv r).2

/-- The signals of low-power idle in Spire (10_diagnostics_lpi.md R357, R358). -/
inductive LpiSignal
  | sleep
  | wake
  deriving DecidableEq, Repr

/-- Their length in symbol times. -/
def LpiSignal.symbols : LpiSignal → Nat
  | .sleep => 2048
  | .wake => 512

/-- The pairs on which they are inverted: A, or C and D. -/
def LpiSignal.inverts : LpiSignal → Nat → Bool
  | .sleep, x => x == 0
  | .wake, x => x == 2 || x == 3

/-- What pair `x` sends: the PAM-2 training sequence, from its seed (log entry 77). -/
def LpiSignal.levels (g : LpiSignal) (x : Nat) : List Int := trainRun 2 (g.inverts x) g.symbols (trainSeeds.getD x 1)

/-! ### INFO block (R118) -/

/-- The INFO block's content (R118). -/
structure Info where
  coef : List Nat
  order : List Nat
  skew : Bool
  rung : Nat
  deriving DecidableEq, Repr

/-- The 3,104 bits that the CRC of the INFO block covers (R118). -/
def Info.bits (i : Info) : List Bool :=
  i.coef.flatMap (bitsLE 16) ++ i.order.flatMap (bitsLE 2) ++ [i.skew] ++ bitsLE 5 i.rung ++ bitsLE 18 0

/-- The block as sent: the CRC is the last field, least significant bit first (R118). -/
def Info.block (i : Info) : List Bool := i.bits ++ bitsLE 32 (crc32 i.bits).toNat

/-- The content that 3,136 bits spell. -/
def infoOf (bs : List Bool) : Info :=
  { coef := (List.range 192).map fun j => natOfBits ((bs.drop (16 * j)).take 16)
    order := (List.range 4).map fun j => natOfBits ((bs.drop (3072 + 2 * j)).take 2)
    skew := (bs.drop 3080).headD false
    rung := natOfBits ((bs.drop 3081).take 5) }

/-- The CRC of a repetition checks (R118). -/
def infoCrcGood (bs : List Bool) : Bool := bs.length == 3136 && natOfBits (bs.drop 3104) == (crc32 (bs.take 3104)).toNat

/-- A bit by majority over the 256 symbols that carry it, given how many of them spell 1; an even split decides neither way
(R118; log entry 84). -/
def majority (k ones : Nat) : Bool := if ones = 128 then Config.pick 256 k else decide (128 < ones)

/-- The bits of a repetition from the counts of ones of its 3,136 positions. -/
def majorityBits (votes : List Nat) : List Bool := (List.range 3136).map fun k => majority k (votes.getD k 0)

/-! ### Slicer and replica (R76, R104, R114) -/

/-- The point of PAM-M nearest to a sample of the reduced domain, in S0.15; a sample half-way belongs to either
(R76; log entry 84). -/
def slice (m : Nat) (y : Int) : Int :=
  let t := (y + 32768) * m
  let i := t / 65536
  let j := if t % 65536 = 0 ∧ 0 < i ∧ Config.pick 0 y then i - 1 else i
  let k := if j < 0 then 0 else if (m : Int) ≤ j then (m : Int) - 1 else j
  (2 * k - ((m : Int) - 1)) * 32768 / m

/-- The precoder replica's output for a decided value (R114). -/
def replica (u : Int) (p hist : List Int) : Int :=
  wrap16 ((p.zip hist).foldl (fun acc c => acc - roundQ15 c.1 c.2) u)

/-! ### Receive chain (R104, R105) -/

/-- The samples and sequences that one symbol time k of the chain works on, newest first, in S0.15: the decimator's output
from r[2k + 64] down, the transmitted x of pairs A-D from x[k + 32] down, the tentative far-end
sequences from x̂[k + 15] down with the tentative slicer inputs z[k + 16] of pairs A-D, the far-end replica of this pair (or the
decided levels) from k - 1 down, and the known or clause-decided symbol k, if there is one. -/
structure RxWin where
  r : List Int := []
  x : List (List Int) := []
  tent : List (List Int) := []
  zt : List Int := []
  rep : List Int := []
  sym : Option Int := none
  deriving DecidableEq, Repr

/-- What the chain makes of one symbol time: e[n] from e[2k + 64] down, z[k], the slicer input, the decision, ε[k], x̂[k], and the
tentative x̂[k + 16] of pairs A-D. -/
structure RxSymbol where
  e : List Int := []
  z : Int := 0
  y : Int := 0
  dec : Int := 0
  eps : Int := 0
  rep : Int := 0
  tent : List Int := []
  deriving DecidableEq, Repr

/-- The filters of a pair as the chain uses them: coefficients as 16-bit values in the order of the window, none where the
filter is off or its estimate is not subtracted; the precoder replica's coefficients, own and by pair; PAM order; whether the
mode reduces modulo 2. -/
structure RxFilters where
  main : Nat := 16
  echo : List Int := []
  /-- NEXT1-NEXT3 with the source pairs -/
  next : List (Nat × List Int) := []
  fext : List (Nat × List Int) := []
  ffe : List Int := []
  dfe : List Int := []
  thp : List (List Int) := []
  pair : Nat := 0
  m : Nat := 2
  reduce : Bool := false
  deriving DecidableEq, Repr

/-- The coefficients of one phase of an echo or NEXT canceller (R127: word 2j + ph). -/
def ofPhase (ph : Nat) (cs : List Int) : List Int := (List.range (cs.length / 2)).map fun j => cs.getD (2 * j + ph) 0

/-- e[2k + 64 - i] (R104 step 2): echo in S1.14, NEXT in S0.15. -/
def RxWin.err (w : RxWin) (f : RxFilters) (i : Nat) : Int :=
  let reg (p : Nat) : List Int := (w.x.getD p []).drop ((i + 1) / 2)
  let echo := 2 * dot (ofPhase (i % 2) f.echo) (reg f.pair)
  let nxt := (f.next.map fun q => dot (ofPhase (i % 2) q.2) (reg q.1)).foldl (· + ·) 0
  toS15 (narrow (w.r.getD i 0 * 2 ^ 15 - echo - nxt) 15)

/-- One symbol time of the receive chain (R104). -/
def rxChain (f : RxFilters) (w : RxWin) : RxSymbol :=
  let e := (List.range 128).map (w.err f)
  let z := toS15 (narrow (dot f.ffe (e.drop (64 - f.main))) 13)
  let tent := [0, 1, 2, 3].map fun p => replica (slice f.m (w.zt.getD p 0)) (f.thp.getD p []) (w.tent.getD p [])
  let fext := (f.fext.map fun q => dot q.2 (tent.getD q.1 0 :: w.tent.getD q.1 [])).foldl (· + ·) 0
  let y0 := narrow (z * 2 ^ 15 - fext - 2 * dot f.dfe w.rep) 15
  let y := if f.reduce then wrap16 y0 else toS15 y0
  let dec := match w.sym with | some v => v | none => slice f.m y
  { e := e, z := z, y := y, dec := dec, eps := toS15 (y - dec), rep := replica dec (f.thp.getD f.pair []) w.rep, tent := tent }

/-! ### Quality figure (R126) -/

/-- The largest value below `2^(k + 1)` from `a` up whose tenth of a bel in sixteenths `num / den` reaches:
10^(v/160) at most num / den. -/
def logSearch (num den : Nat) : Nat → Nat → Nat
  | 0, a => a
  | k + 1, a => if 10 ^ (a + 2 ^ k) * den ^ 160 ≤ num ^ 160 then logSearch num den k (a + 2 ^ k) else logSearch num den k a

/-- 10 × log10(num / den) in 1/16 dB: one of the two nearest values where it is not exact (log entry 84); below 0 dB, 0, and at
most 12 bits (R126, R132). -/
def snrOf (num den : Nat) : Nat :=
  if num < den then 0
  else if den = 0 then 4095
  else
    let v := logSearch num den 12 0
    if 10 ^ v * den ^ 160 = num ^ 160 then v else min 4095 (v + b2n (Config.pick 160 (num * 2 ^ 64 / den : Nat)))

/-- A run of symbols of an SNR block: how many, their slicer error in S0.15, taken under the port impulse flag or not. -/
structure ErrRun where
  count : Nat
  eps : Int
  flagged : Bool
  deriving DecidableEq, Repr

/-- The symbols that count, and the sum of their squared errors (R126). -/
def errTotals (rs : List ErrRun) : Nat × Nat :=
  rs.foldl (fun a r => if r.flagged then a else (a.1 + r.count, a.2 + r.count * (r.eps * r.eps).toNat)) (0, 0)

/-- SLC_SNR of a block: the mean power of PAM-M, (M² - 1) / (3 M²), or of the clause's constellation in S0.30, over the mean
of ε² (R126). -/
def slcSnr (ps : Nat ⊕ Nat) (sum : Nat) : Nat :=
  match ps with
  | .inl m => snrOf ((m * m - 1) * 2 ^ 46) (3 * (m * m) * sum)
  | .inr p => snrOf (p * 2 ^ 16) sum

/-! ### Demapper (R151) -/

/-- One symbol of a frame at the demapper: the pair, the reduced equalised sample, taken under the impulse flag or not. -/
structure RxSym where
  pair : Nat
  y : Int
  flagged : Bool
  deriving DecidableEq, Repr

/-- The squared distance to the nearest point of PAM-M, with `n` bits, whose bit `k` (the most significant is 0) is `v`. -/
def nearSq (n k : Nat) (v : Bool) (y : Int) : Nat :=
  let ds := ((List.range (2 ^ n)).filter fun g => bitB g (n - 1 - k) == v).map fun g =>
    let d := y - pamLevel (2 ^ n) g * 32768 / (2 ^ n : Nat)
    (d * d).toNat
  ds.foldl min (ds.headD 0)

/-- An LLR in units of 0.5, positive toward 0, saturated to ±31 (R151): the difference of the squared distances over 2σ², with
σ² the mean of 2^16 squared errors. The sign is the one that `positive toward 0' and the decoder ask for (log entry 86). -/
def llrOf (sum : Nat) (d0 d1 : Nat) : Int :=
  let z : Int := ((d1 : Int) - d0) * 2 ^ 16
  if sum = 0 then (if 0 < z then 31 else if z < 0 then -31 else 0)
  else
    let q := z / (sum : Nat)
    clampI 31 (if z % (sum : Nat) = 0 then q else q + b2n (Config.pick sum z))

/-- The LLRs of one symbol with `n` bits; a flagged symbol gives 0 where erasure is on (R151). -/
def symLlrs (n sum : Nat) (erase : Bool) (s : RxSym) : List Int :=
  (List.range n).map fun k => if erase && s.flagged then 0 else llrOf sum (nearSq n k false s.y) (nearSq n k true s.y)

/-- The LLRs of a frame's symbols in the order of the bits, given the bits and the sums of squared errors of the pairs; a frame
may begin part-way through its first symbol time, of which `skip` bits belong to the frame before (R71, R151). -/
def demap (bits sums : List Nat) (erase : Bool) (skip : Nat) (ss : List RxSym) : List Int :=
  ((ss.flatMap fun s => symLlrs (bits.getD s.pair 2) (sums.getD s.pair 0) erase s).drop skip).take 4096

end Sys2Proof.Machine
end

