-- ==== Sys2Proof/Machine/PortData.lean ====
section
/-! DEFINITION. The state of a port beside its registers (02-08, 10): negotiation, training, slices, framer, ladder,
retransmission, host side with spill, diagnostics and low-power idle; and the twin engine of a pair. -/

namespace Sys2Proof.Machine

/-- A page of the auto-negotiation exchange as received whole (R42, R43). `std` stands for the base page and the next
pages of the standard clauses: the mode codes it advertises, the Extended Next Page bit and the EEE ability. -/
inductive AnPage
  | std (modes : List Nat) (extNp eee : Bool)
  | ext (mp : Bool) (d u : Nat)
  | null
  deriving DecidableEq, Repr

/-- The pages that a port sends after its base page, by kind (R42): the next pages of the standard clauses, which the spec
gives by reference, and the Spire pages. -/
inductive OwnKind
  | clauses | s1 | s2
  deriving DecidableEq, Repr

/-- A page as sent (R42, R43): the base page as a 16-bit word, the abilities that the clauses' next pages carry, an extended
next page with D[15:0] and U[31:0], a null message page with D[15:0]. -/
inductive SentPage
  | base (w : Nat)
  | clauses (modes : List Nat) (eee : Bool)
  | ext (d u : Nat)
  | null (d : Nat)
  deriving DecidableEq, Repr

/-- Negotiation state (R42-R49, R58). -/
structure Neg where
  /-- NEG_CTRL bits 15-9 and 21, SPIRE_ADV and SPIRE_EXPECT as they stood at entry to AN (R49) -/
  advModes : List Nat := []
  spireOnly : Bool := false
  srates : Nat := 0
  topRung : Nat := 0
  twinCap : Bool := false
  msForce : Bool := false
  msValue : Bool := false
  inpMs : Nat := 0
  ldtMs : Nat := 0
  expectMode : Nat := 0
  expNode : Nat := 0
  expPort : Nat := 0
  /-- MS_SEED of this end -/
  seed : Nat := 0
  ties : Nat := 0
  /-- ADV_EEE of this end, and the partner's EEE ability (R355) -/
  advEee : Bool := false
  partnerEee : Bool := false
  partnerExtNp : Bool := false
  partnerModes : List Nat := []
  s1 : Option (Nat × Nat) := none
  s2 : Option (Nat × Nat) := none
  /-- the port has left DORMANT at least once, and has set PARTNER_ARRIVE since (R52, R58) -/
  woke : Bool := false
  arrived : Bool := false
  /-- a PARTNER_ARRIVE has not yet had its PARTNER_LEAVE (R58) -/
  leaveDue : Bool := false
  /-- the break silence after leaving TRAIN, UP or HOLD runs (R53) -/
  breakSilence : Bool := false
  /-- FLP bursts sent in SENSE and DORMANT (R51): the model's own count of that line activity -/
  flpSent : Nat := 0
  /-- what the port sends in AN: the page on the line, the pages that are to follow it, and the Toggle bit of the next one
  (R42, R43) -/
  sending : Option SentPage := none
  toSend : List OwnKind := []
  toggle : Bool := false
  /-- PARTNER_INFO holds the identity of a Spire resolution (R49, R65) -/
  recorded : Bool := false
  deriving DecidableEq, Repr

/-- Training state (R46, R114-R121). -/
structure Train where
  /-- tier (0, 1, 2) of the current or next attempt; the symbol rate in MBd at which coefficients were last adapted (R121) -/
  tier : Nat := 0
  adaptedRate : Option Nat := none
  /-- what this end sends in the phase (R115) -/
  sends : TrnTx := .silent
  /-- the noise floor that QUIET recorded (R115) -/
  noise : Int := 0
  /-- FFE_MAIN of pairs A-D and the shadow set as they stood at the attempt's start (R131) -/
  main : List Nat := [16, 16, 16, 16, 16]
  /-- TRN_MU_OVR as it stood at the attempt's start (R133) -/
  muOvr : Bool := false
  /-- the silence after a failed attempt runs (R46) -/
  silence : Bool := false
  /-- TB at the attempt's start -/
  startTb : Nat := 0
  /-- a stay in UP has ended since TRN_ATTEMPTS last cleared (R134) -/
  upSince : Bool := false
  /-- INFO received from the partner (R118) -/
  info : Option Info := none
  /-- SLC_SNR of pairs A-D at the end of DUPLEX4 (R120) -/
  snrD4 : List Nat := []
  /-- this receiver's own choices at the end of DUPLEX4 (R115, R192) -/
  ownOrder : List Nat := [0, 1, 2, 3]
  ownSkew : Bool := false
  ownRung : Nat := 0
  /-- the precoder coefficients sent to the partner, 48 for each of pairs A-D (R114, R115) -/
  ownCoef : List Nat := []
  /-- resolved partner values kept for the link: INP_MS of both ends -/
  inpBoth : Nat := 0
  /-- coefficients hold known values: an attempt has started since the domain came ON (R121) -/
  coefKnown : Bool := false
  deriving DecidableEq, Repr

/-- Adaptation and freeze state (R123, R126). -/
structure Eq where
  /-- coefficient window: window offset / 4 to the 24-bit accumulator (R127, R128) -/
  coef : Sparse Nat := []
  /-- FRZ_HANG runs for the IMPULSE and the HOLD cause -/
  hangImp : Bool := false
  hangHold : Bool := false
  /-- consecutive frames decoded since the DECODE cause began -/
  decGood : Nat := 0
  /-- pairs that have completed an SNR block since the last shift (R186) -/
  snrValid : List Bool := [false, false, false, false]
  /-- sums of the 2^16 squared slicer errors of the last completed SNR blocks of pairs A-D and the shadow set (R126) -/
  errSq : Sparse Nat := []
  /-- ADAPT words as they stood before their last write, by 8x + f: updates computed before it complete with them (R125) -/
  prevAdapt : Sparse Nat := []
  /-- what the receive chain made of the symbol of the last update, by pair or shadow set (R104) -/
  chain : Sparse RxSymbol := []
  deriving DecidableEq, Repr

/-- A crossbar request that waits for its switch point (R89, R90). -/
inductive XbPend
  | swap (p : Nat)
  | handback (p : Nat)
  deriving DecidableEq, Repr

/-- Slice and crossbar state (R85-R93). -/
structure Slices where
  xbPend : Option XbPend := none
  /-- the pending request is CAL's own (18_calibration_monitors.md R636) -/
  xbCal : Bool := false
  /-- TB at the rise of each slice's impulse flag, A-D and S -/
  impStart : List Nat := [0, 0, 0, 0, 0]
  /-- long-term mean of the sum of 16 magnitudes, in 2^-20, by slice (R92) -/
  impMean : Sparse Nat := []
  deriving DecidableEq, Repr

/-- What became of one received frame (R155). -/
inductive RxResult
  | good (f : Frame)
  | failed
  deriving DecidableEq, Repr

/-- One decoded frame that waits for its place in received order (R156). -/
structure RxDone where
  result : RxResult
  /-- some symbol was taken while the port impulse flag was set -/
  flagged : Bool
  /-- its failure has already counted toward R216 (R183) -/
  counted : Bool
  /-- it decoded and failed its CRC; the half that decoded it -/
  crc : Bool := false
  half : Nat := 0
  deriving DecidableEq, Repr

/-- Framer state (R136-R163, R206-R217). -/
structure Framer where
  txScr : BitVec 58 := scrOnes
  rxScr : BitVec 58 := scrOnes
  /-- frames sent and received since the first frame of FRAME_SYNC; frames sent since the current rung took effect, and
  the index of the first received frame of the current rung -/
  txIdx : Nat := 0
  txRungIdx : Nat := 0
  rxIdx : Nat := 0
  rxStart : Nat := 0
  /-- the frame last begun on the line, and what the pairs send of the frame stream (R71, R76, R81) -/
  txFrame : Option Frame := none
  tx : LineTx := {}
  /-- frames decoded, by place in received order -/
  done : Sparse RxDone := []
  lockCount : Nat := 0
  /-- frames sent since entry to UP (R140) -/
  upFrames : Nat := 0
  /-- HALF_SEL in effect (R165) -/
  halfSel : Nat := 0
  /-- alternation of both halves: (h + k) mod 2 of frame k at half h, once the first frame has been assigned (R153) -/
  par : Option Nat := none
  /-- deselected halves that still complete a frame (R162, R163) -/
  drain : List Nat := []
  /-- FRM_CTRL as it stood before its last write: decodings begun before it keep those values (R153) -/
  ctlOld : Option Nat := none
  deriving DecidableEq, Repr

/-- Ladder state (R178-R195). -/
structure Ladder where
  /-- transmitter: requests held since the last shift or abort -/
  gotRung : Option Nat := none
  gotLoad : Option Nat := none
  /-- shift boundary, in frames since the current rung took effect -/
  txBound : Nat := 0
  /-- requests are ignored until 16 µs after the shift boundary (R182) -/
  txIgnore : Bool := false
  /-- receiver: the request made -/
  reqRung : Nat := 0
  reqLoad : Nat := 0
  /-- the next odd frame of a request carries REQ_RUNG -/
  reqPhase : Bool := false
  rxBound : Nat := 0
  /-- 32 µs after a resolution to the old path run (R183) -/
  rxHoldoff : Bool := false
  /-- dual tracking: failures held back on each path; paths coincide -/
  oldHeld : Sparse RxDone := []
  newHeld : Sparse RxDone := []
  same : Bool := false
  /-- previous rung and loading, and frames since an upshift resolved to the new path (R191) -/
  prevRung : Nat := 0
  prevLoad : Nat := 0
  sinceUp : Option Nat := none
  fallback : Bool := false
  /-- the pending request is a fallback, at whose resolution UP_HOLDOFF restarts -/
  reqFallback : Bool := false
  /-- policy runs: consecutive ticks (R189, R190, R193), ticks since HOLD exit, TB of the last downshift or abort -/
  dnRun : Nat := 0
  upRun : Nat := 0
  lowRun : Nat := 0
  highRun : Nat := 0
  skipTicks : Nat := 0
  holdoffTb : Option Nat := none
  cleanFails : Nat := 0
  lastFrames : Nat := 0
  lastIter : Nat := 0
  deriving DecidableEq, Repr

/-- Retransmission state (R206-R217). -/
structure Retrans where
  /-- the window: SEQ to the blocks of the slot -/
  win : Sparse (List Blk) := []
  next : Nat := 0
  oldest : Nat := 0
  /-- replay pointer while a replay runs -/
  replay : Option Nat := none
  /-- the value and TB of the last replay started by a NAK (R211) -/
  lastReplay : Option (Nat × Nat) := none
  expect : Nat := 0
  gap : Bool := false
  /-- consecutive failed frames, consecutive clean good frames -/
  fails : Nat := 0
  goods : Nat := 0
  holdStart : Nat := 0
  /-- total time in HOLD of finished stays, in TB units -/
  holdTotal : Nat := 0
  winSize : Nat := 512
  deriving DecidableEq, Repr

/-- One spill page held by an owner (R222): its pool index, the groups written, the blocks in them, closed or not, the
groups read back, its blocks that stand in the read buffer, and the blocks not yet read, for the count of R146. -/
structure SpillPage where
  page : Nat
  groups : Nat := 0
  blocks : Nat := 0
  closed : Bool := false
  readG : Nat := 0
  inBuf : Nat := 0
  held : List Blk := []
  deriving DecidableEq, Repr

/-- The host side of a port or of a twin engine: ingress FIFO, spill interface, egress FIFO (R219-R226, R381-R383). -/
structure HostSide where
  ingress : List Blk := []
  /-- the block just before in the rate-matching stream -/
  rmPrev : Option Blk := none
  /-- inside an Ethernet frame at the FIFO input; that frame is being dropped or was truncated -/
  inFrame : Bool := false
  dropping : Bool := false
  /-- inside an Ethernet frame at the FIFO output, and at the framer -/
  outFrame : Bool := false
  lineIn : Bool := false
  wbuf : List Blk := []
  pages : List SpillPage := []
  /-- pages that link down left to be returned (R232) -/
  toRelease : List Nat := []
  rbuf : List Blk := []
  egress : List Blk := []
  /-- a released Ethernet frame is part-way out toward the host -/
  egFrame : Bool := false
  /-- one Error block is to end a cut frame toward the host (R232) -/
  egError : Bool := false
  egUnderPend : Bool := false
  /-- the channel of the owner's last allocated page (R499) -/
  lastCh : Option Nat := none
  /-- a PAUSE frame that waits to be sent, with its pause_time (R384) -/
  pause : Option Nat := none
  /-- blocks of a PAUSE frame still to be sent -/
  pauseOut : List Blk := []
  /-- TB from which PAUSE_REFRESH counts -/
  pauseTb : Nat := 0
  /-- an EG_BACKOFF has been counted for the waiting merge slot (R383) -/
  backoff : Bool := false
  deriving DecidableEq, Repr

/-- Cable diagnostics in progress (R343-R352). -/
inductive DiagKind
  | tdr | snapshot | loss | wear | pchk
  deriving DecidableEq, Repr

structure Diag where
  run : Option DiagKind := none
  /-- what the run took at its start: pairs as a bit set, CAP_EN, TDR_AVG and TDR_LEN as they act, the symbol rate in MBd
  where its source is the echo, TB -/
  pairs : Nat := 0
  cap : Bool := false
  avg : Nat := 0
  len : Nat := 0
  rate : Nat := 0
  tb0 : Nat := 0
  /-- the pair of the presence check in progress (R56) -/
  pchkPair : Nat := 0
  /-- a WEAR scan fell due during the run (R350) -/
  scanDue : Bool := false
  /-- landmarks that have had their first scan, and scans beyond the threshold in a row (R350), by 8x + i -/
  lmSeen : List Nat := []
  lmRuns : Sparse Nat := []
  deriving DecidableEq, Repr

/-- A host lane beside its registers (R380-R392). -/
structure Lane where
  /-- left in electrical idle by PROTO_BAD (R386) -/
  protoBad : Bool := false
  /-- electrical idle in low-power idle (R387) -/
  lpiEi : Bool := false
  /-- the line's receive direction is QUIET: LPI is sent toward the host (R362) -/
  lpiTx : Bool := false
  /-- the block last sent toward the host -/
  out : Option Blk := none
  /-- the shift register of the PRBS generator, newest bit lowest, and the bits it sent in the last block time (R390) -/
  prbs : Nat := 0
  prbsOut : List Bool := []
  /-- block times in which the lane has delivered no host block, for want of signal or lock (R391) -/
  lostTimes : Nat := 0
  deriving DecidableEq, Repr

/-- Low-power idle (R355-R363). -/
structure Lpi where
  /-- TB at which the transmit direction fell quiet, and the time spent quiet before, in ns (R377) -/
  txStart : Nat := 0
  quietNs : Nat := 0
  /-- TB at which the transmit direction last woke (R356) -/
  wokeTb : Option Nat := none
  /-- frames still to send of a refresh (R357) -/
  refreshLeft : Nat := 0
  /-- a trigger of R359 has occurred in LPI -/
  wakeDue : Bool := false
  /-- the signal that was last sent (R357) -/
  sent : Option LpiSignal := none
  deriving DecidableEq, Repr

/-- A port (01_architecture.md R15) beside its registers. -/
structure Port where
  neg : Neg := {}
  trn : Train := {}
  eq : Eq := {}
  sl : Slices := {}
  fr : Framer := {}
  lad : Ladder := {}
  rtx : Retrans := {}
  diag : Diag := {}
  lpi : Lpi := {}
  mem0 : Mem := []
  mem1 : Mem := []
  deriving DecidableEq, Repr

/-- One member of a twin pair as the engine sees it (R264-R270). -/
structure Member where
  sp : Nat := 0
  pe : Nat := 0
  gap : Bool := false
  gapStall : Bool := false
  gapTb : Nat := 0
  /-- join point while JOINING -/
  join : Option Nat := none
  txReady : Bool := false
  rxReady : Bool := false
  /-- a SKIP has been received since the member became JOINING or IN, accepted or not -/
  skipTried : Bool := false
  /-- a SKIP has been accepted since the member became JOINING or IN -/
  skipSeen : Bool := false
  /-- the highest SEQ passed over by skips, plus one -/
  skipped : Option Nat := none
  deriving DecidableEq, Repr

/-- The twin engine of a pair (R256-R275). -/
structure Twin where
  /-- TW_EN and PRIMARY in effect -/
  primary : Nat := 0
  held : Sparse (List Blk) := []
  /-- the member that brought each held frame (R280) -/
  heldBy : Sparse Nat := []
  m0 : Member := {}
  m1 : Member := {}
  /-- delivery record: SEQ, member and TB of recent deliveries, newest first (R280) -/
  recent : List (Nat × Nat × Nat) := []
  deriving DecidableEq, Repr

end Sys2Proof.Machine
end

