-- ==== Sys2Proof/Machine/Operands.lean ====
section
/-! DEFINITION. The operand types of the commands: what the environment measured, decided or delivered. -/

namespace Sys2Proof.Machine

/-- What an end measures at the end of a training phase (R115, R120, R126, R192, R213): mean power of e[n] in 1/16 dBFS, the
sums of the last 2^16 squared slicer errors of pairs A-D, the cable delay of FRAME_SYNC in ns, the power of the signal at each
pair's ADC in 1/16 dBFS RMS, and the noise floor in 1/16 dBFS. -/
structure PhaseMeas where
  residual : Int
  sums : List Nat
  cableDly : Nat
  rms : List Int := []
  noise : Int := 0
  deriving DecidableEq, Repr

/-- What reaches a decoder half for one frame (R151, R155): the equalised samples of the symbols that carry it, in the order of
the mapper, of which the first `skip` bits belong to the frame before; or what decoding them came to. -/
inductive RxWord
  | samples (ss : List RxSym) (skip : Nat)
  | decided (f : Frame) (iters : Nat)
  | crcBad (iters : Nat)
  | lost (iters : Nat)
  deriving DecidableEq, Repr

/-- What a decoding holds fixed from its beginning, and what befell it (R153, R163, R165): some symbol was taken under the
port impulse flag; it began before the last write of
FRM_CTRL; the iterations it had run, the current one included, when the other half left service. -/
structure DecCtx where
  flagged : Bool := false
  early : Bool := false
  ran : Option Nat := none
  deriving DecidableEq, Repr

/-- The frame that a decoder half held when it failed (05_spire_framing_ldpc.md R162, R163): its index if the half held one, its
path where a lone half decodes both (R184), and whether some of its symbols were taken under the impulse flag. -/
structure HeldFrame where
  k : Option Nat := none
  newPath : Bool := false
  flagged : Bool := false
  deriving DecidableEq, Repr

/-- What the partner and this receiver sent under the precoder exchange of a clause (03_line_signal_path.md R78): the same number
of values for each pair. -/
structure StdExchange where
  coef : List Nat := []
  own : List Nat := []
  deriving DecidableEq, Repr

/-- What a presence check takes from its pair (10_diagnostics_lpi.md R748): the sum over the shots of each sample position, and
where the averaged response has its peaks. -/
structure PchkMeas where
  sums : List Int := []
  peaks : List Nat := []
  deriving DecidableEq, Repr

/-- An SNR block (04_equalisation_cancellation.md R126): the slicer errors in runs, and the mean power of the clause's
constellation in 2^-30, which a standard mode takes. -/
structure SnrBlock where
  errs : List ErrRun
  ps : Nat := 0
  deriving DecidableEq, Repr

/-- What a Belfry receiver has at the SFD end beside its times (09_belfry.md R298-R300): the despread SNR in 0.25 dB, and the
chip samples from detection to the SFD end with the 8 that follow, which train the equaliser. -/
structure SfdMeas where
  snr : Nat
  ys : List (Int × Int) := []
  deriving DecidableEq, Repr

/-- A host block time of a lane (11_host_lanes.md R382): the lane, the merge slots that prove uncorrectable if this block's
going releases them (08_twin_paths.md R268), and the RS-FEC codeword of the host that ends in it, corrected (true) or
uncorrectable (false), if any (R391). -/
structure BlockTime where
  n : Fin 8
  bad : List Nat := []
  fec : Option Bool := none
  deriving DecidableEq, Repr

/-- What the DRAM itself does to one codeword (14_cupola.md R488, R493): nothing, an error that the code corrects,
located at a device or not, or one that it cannot correct. -/
inductive Ecc
  | ok
  | ce (dev : Option Nat)
  | ue
  | poison
  deriving DecidableEq, Repr

/-- Where a channel's training stands at CH_TRAIN_DONE (R486): steps 0x1-0x7 are done and step 0x8 begins; the step of
a code failed with failing byte lanes; step 0x8 is done. -/
inductive TrainEnd
  | toInit
  | failed (code lanes : Nat)
  | trained
  deriving DecidableEq, Repr

/-- What a Belfry receiver takes of one codeword (09_belfry.md R292, R297, R300): the complex chip samples from its first chip on,
with the 8 that follow its last, in units of 2^-14; or what equalising and decoding them came to: the information bits as a
number, or no codeword. -/
inductive BfWord
  | chips (ys : List (Int × Int))
  | decided (v iters : Nat)
  | lost (iters : Nat)
  deriving DecidableEq, Repr

/-- What a LOSS run finds of the signal received on one pair, in 1/16 dB (10_diagnostics_lpi.md R348). -/
structure LossFig where
  ilq : Nat
  ilh : Nat
  iln : Nat
  deriving DecidableEq, Repr

/-- What a diagnostic run takes from the line, by the pairs treated in order (10_diagnostics_lpi.md R344-R348): a partner
signal was found during the pulses; the sums over the shots of each sample position; where the response has its peaks, as
sample or echo word positions; the figures of a LOSS run. -/
structure DiagMeas where
  active : Bool := false
  sums : List (List Int) := []
  peaks : List (List Nat) := []
  loss : List LossFig := []
  deriving DecidableEq, Repr

end Sys2Proof.Machine
end

