-- ==== Sys2Proof/Syntax.lean ====
section
/-! DEFINITION. The commands of the block: one constructor per row of spec/opcode_table.json, in the table's order. -/

namespace Sys2Proof

open Sys2Proof.Machine

/-- A command, with the operands its row's rule needs. -/
inductive Instr
  /-- REGISTER_WRITE (R746): A write to a register that has no row of its own is judged by the ordered checks and then acts on each field by its type. -/
  | registerWrite (mid ofs len data : Nat)
  /-- POSTED_WRITE_DELIVERY (R535): The hold queue delivers its oldest write to the block, where checks 7 and 8 are made and the write takes effect. -/
  | postedWriteDelivery (page : Nat)
  /-- POSTED_WRITE_DISCARD (R537): An accepted posted write is discarded as dropped when its domain leaves ON, its clock stops or the register access bound runs out. -/
  | postedWriteDiscard (page : Nat) (bound : Bool)
  /-- RCL_READ (R8): A read of an RCL field returns its value and clears it to its Reset value, except for identities that R550 exempts. -/
  | rclRead (mid ofs len : Nat)
  /-- COUNTER_LOW_READ (R534): A read of the low word of a designated 64-bit counter latches the high word for the reading identity. -/
  | counterLowRead (mid ofs len : Nat)
  /-- REGISTER_READ_TIMEOUT (R37): A read of a register whose domain clock has stopped ends with a bus error and raises the register-fabric timeout source. -/
  | registerReadTimeout (mid ofs len : Nat)
  /-- PORT_ENABLE (R52): PORT_EN written 1 moves a DISABLED port to SENSE. -/
  | portEnable (n : Fin 8)
  /-- PORT_DISABLE (R52): PORT_EN written 0 moves the port to DISABLED with LINK_DOWN, reason HOST_DISABLE, if it was in TRAIN, UP or HOLD. -/
  | portDisable (n : Fin 8)
  /-- AN_RESTART (R52): AN_RESTART written 1 sends a port in AN, TRAIN, UP or HOLD to SENSE after the break silence. -/
  | anRestart (n : Fin 8)
  /-- EXPECT_ENFORCE_WRITE (R49): EXPECT_MODE written to enforce while the link is up takes effect at once and downs the link if the partner identity differs. -/
  | expectEnforceWrite (n : Fin 8) (node prt : Nat)
  /-- ENERGY_QUALIFIED (R55): The pair A or B signal crosses ED_THRESH three times within 500 µs, waking a DORMANT port to SENSE. -/
  | energyQualified (n : Fin 8)
  /-- FLP_BURST_RECEIVED (R52): A valid FLP burst received in SENSE moves the port to AN and sets PARTNER_ARRIVE. -/
  | flpBurstReceived (n : Fin 8)
  /-- PARALLEL_DETECT (R52): 100BASE-TX idle received for the parallel-detect time with PARDET_EN = 1 moves SENSE to TRAIN with PD_FD set. -/
  | parallelDetect (n : Fin 8)
  /-- FORCE_100_TRAIN (R52): FORCE_100 = 1 in SENSE moves the port straight to 100BASE-TX training. -/
  | force100Train (n : Fin 8)
  /-- AN_WAIT_EXPIRY (R53): AN_WAIT expires in SENSE or AN, returning to SENSE or falling to DORMANT with the reason and FALSE_WAKE effects of R52. -/
  | anWaitExpiry (n : Fin 8) (nlp : Bool)
  /-- AN_PAGE_RECEIVED (R42): A Clause 28 base page, next page or Spire page S1 or S2 is received whole during the page exchange. -/
  | anPageReceived (n : Fin 8) (pg : AnPage) (last mdix : Bool)
  /-- TRAIN_PHASE_END (R119): The master's symbol count for a training phase runs out and it moves to the next phase, taking the DUPLEX4 decisions where due. -/
  | trainPhaseEnd (n : Fin 8) (m : PhaseMeas)
  /-- TRAIN_PHASE_RECOGNISED (R116): The slave recognises the master's energy, silence, marker or elapsed count and enters the next phase. -/
  | trainPhaseRecognised (n : Fin 8) (m : PhaseMeas)
  /-- INFO_BLOCK_RECEIVED (R118): An INFO repetition whose CRC checks is accepted, giving the precoder coefficients, pair order, skew and initial rung. -/
  | infoBlockReceived (n : Fin 8) (content crc : List Nat)
  /-- PARTNER_SILENT_EXPIRY (R120): No partner energy is seen within the window, failing the attempt with PARTNER_SILENT. -/
  | partnerSilentExpiry (n : Fin 8)
  /-- TRAIN_WAIT_EXPIRY (R120): TRAIN_WAIT at the master or the slave's attempt timer expires, failing the attempt with ATTEMPT_TIMEOUT. -/
  | trainWaitExpiry (n : Fin 8)
  /-- FRAME_SYNC_TIMEOUT (R120): FRAME_SYNC does not complete within 2^20 symbol times, failing the attempt with SYNC. -/
  | frameSyncTimeout (n : Fin 8)
  /-- TRAIN_SILENCE_END (R46): The silence after a failed attempt ends and both ends start the next attempt at the next lower rate. -/
  | trainSilenceEnd (n : Fin 8)
  /-- STD_TRAIN_COMPLETE (R122): Training of a standard mode completes as its clause gives and the port enters UP. -/
  | stdTrainComplete (n : Fin 8) (e : StdExchange)
  /-- STD_LINK_FAIL (R52): A standard-mode link failure as the clause defines sends the port to SENSE after the break silence with reason STD_LINK_FAIL. -/
  | stdLinkFail (n : Fin 8)
  /-- BREAK_SILENCE_END (R53): The break silence after leaving TRAIN, UP or HOLD ends and the port enters SENSE. -/
  | breakSilenceEnd (n : Fin 8)
  /-- DORM_BURST_EXPIRY (R53): The DORM_BURST period expires and the dormant port sends an FLP burst. -/
  | dormBurstExpiry (n : Fin 8)
  /-- LINK_DOWN_TIMER_EXPIRY (R52): The link-down timer expires in HOLD and the port goes to SENSE after the break silence with reason SPIRE_LDT. -/
  | linkDownTimerExpiry (n : Fin 8)
  /-- FAST_DEPARTURE (R55): The residual signal stays below ED_THRESH on all four pairs for ABSENT_T in HOLD, ending the link with reason PARTNER_GONE. -/
  | fastDeparture (n : Fin 8)
  /-- PCHK_GO (R56): PCHK_GO written 1 starts a presence check, or completes at once with REFUSED. -/
  | pchkGo (n : Fin 8) (pair : Fin 4)
  /-- PCHK_PERIOD_EXPIRY (R56): A presence check falls due under PCHK_PERIOD in DORMANT. -/
  | pchkPeriodExpiry (n : Fin 8)
  /-- PCHK_DONE (R748): The presence probe ends and its result and distance are classified and written, setting PCHK_DONE. -/
  | pchkDone (n : Fin 8) (active : Bool) (m : PchkMeas)
  /-- TRIM_APPLY (R85): TRIM_APPLY written 1 requests a copy of the shadow trims, setting TRIM_PEND. -/
  | trimApply (n : Fin 8) (x : Fin 5)
  /-- TRIM_COPY (R85): At its boundary or within 1 µs the shadow trims are copied to the active set and TRIM_PEND clears. -/
  | trimCopy (n : Fin 8) (x : Fin 5)
  /-- XB_SHADOW (R89): XB_GO with XB_REQ SHADOW requests the spare slice to tap a pair. -/
  | xbShadow (n : Fin 8) (p : Fin 4)
  /-- XB_SWAP (R89): XB_GO with XB_REQ SWAP requests the spare slice to carry a pair while its native slice goes onto the calibration load. -/
  | xbSwap (n : Fin 8) (p : Fin 4)
  /-- XB_HANDBACK (R89): XB_GO with XB_REQ SHADOW from SWAP requests the pair back to its native slice. -/
  | xbHandback (n : Fin 8) (p : Fin 4)
  /-- XB_SPARE (R89): XB_GO with XB_REQ SPARE replaces a pair's native slice by the spare slice within 1 µs. -/
  | xbSpare (n : Fin 8) (p : Fin 4)
  /-- XB_IDLE (R89): XB_GO with XB_REQ IDLE disconnects the spare slice where R89 admits it. -/
  | xbIdle (n : Fin 8) (p : Fin 4)
  /-- XB_SWITCH_POINT (R90): A pending SWAP or handback switches at its symbol-aligned frame boundary with the ramped driver handover. -/
  | xbSwitchPoint (n : Fin 8)
  /-- IMPULSE_FLAG_RISE (R92): A slice's impulse detector criterion holds and its flag asserts, reaching retransmission, freeze and CAL. -/
  | impulseFlagRise (n : Fin 8) (x : Fin 5) (past last : List Nat)
  /-- IMPULSE_FLAG_CLEAR (R93): The impulse flag clears once neither criterion has held for IMP_HANG. -/
  | impulseFlagClear (n : Fin 8) (x : Fin 5)
  /-- IMP_EN_CLEAR (R92): IMP_EN written 0 clears a set flag within one sample and stops flagging and counting. -/
  | impEnClear (n : Fin 8) (x : Fin 5)
  /-- IMPB_VALID_SET (R92): One full time constant after the domain came ON or a block reset, criterion B becomes valid. -/
  | impbValidSet (n : Fin 8) (x : Fin 5)
  /-- ADAPT_COMMIT (R124): An adaptation update is committed to its accumulator 32 ns after its newest sample unless a freeze cause discards it. -/
  | adaptCommit (n : Fin 8) (w k : Nat) (half2 early : Bool) (win : RxWin)
  /-- GUARD_END (R123): 256 symbol times after the latest guard event the GUARD freeze cause ends. -/
  | guardEnd (n : Fin 8) (p : Fin 5)
  /-- FREEZE_HANG_EXPIRY (R123): FRZ_HANG after the impulse flag clears or HOLD exit, the IMPULSE or HOLD freeze cause ends. -/
  | freezeHangExpiry (n : Fin 8) (hold : Bool)
  /-- PGA_GAIN_WRITE (R121): PGA_GAIN written in TRAIN or UP takes effect within 1 µs and starts the guard freeze on that pair. -/
  | pgaGainWrite (n : Fin 8) (x : Fin 5) (gain : Nat)
  /-- SNR_BLOCK_DONE (R126): A block of 2^16 unflagged symbols completes and SLC_SNR of the pair is updated. -/
  | snrBlockDone (n : Fin 8) (x : Fin 5) (m : SnrBlock)
  /-- TX_FRAME_START (R209): At a frame start the transmitter chooses a replay slot, a SKIP, a new DATA frame or a FILLER and fills in ACK and CTL. -/
  | txFrameStart (n : Fin 8) (ue : Bool)
  /-- FRAME_DECODE (R155): A decoder half ends a frame, which decodes and passes its CRC or is reported as a decode or CRC failure. -/
  | frameDecode (n : Fin 8) (h : Fin 2) (k : Nat) (newPath : Bool) (c : DecCtx) (w : RxWord)
  /-- FRAME_HANDOFF (R214): The next frame in received order reaches the retransmission engine, which acts on ACK, NAK and ladder fields and accepts, holds or discards it. -/
  | frameHandoff (n : Fin 8) (bad : List Nat)
  /-- DECODER_HALF_FAIL (R162): A decoder half's checker reports an error and the framer takes it out of service, failing its frame. -/
  | decoderHalfFail (n : Fin 8) (h : Fin 2) (f : HeldFrame)
  /-- HALF_SEL_CHANGE (R163): A HALF_SEL write takes effect at the next frame boundary, deselecting or reselecting a decoder half. -/
  | halfSelChange (n : Fin 8)
  /-- LADDER_TICK (R186): Every 2^18 symbol times the receiving policy evaluates SNR, iterations and failures and may request a shift or set TIER_HINT. -/
  | ladderTick (n : Fin 8)
  /-- LREQ_GO (R195): LREQ_GO written 1 issues a ladder request for LREQ_RUNG and LREQ_LOAD or records REFUSED. -/
  | lreqGo (n : Fin 8) (rung load : Nat)
  /-- SHIFT_ABORT (R182): No confirmation has arrived 64 ns before the shift boundary, so the transmitter aborts and keeps the old rung. -/
  | shiftAbort (n : Fin 8)
  /-- SHIFT_BOUNDARY (R181): A committed transmitter reaches the shift boundary and sends at the new rung and loading. -/
  | shiftBoundary (n : Fin 8)
  /-- DUAL_TRACK_START (R183): An armed receiver reaches the shift boundary and decodes both the old and the new path. -/
  | dualTrackStart (n : Fin 8)
  /-- RX_REQUEST_HOLDOFF_END (R183): 32 µs after resolution to the old path the receiver may request again. -/
  | rxRequestHoldoffEnd (n : Fin 8)
  /-- TX_REQ_IGNORE_END (R182): 16 µs after the shift boundary an aborted transmitter acts on requests again. -/
  | txReqIgnoreEnd (n : Fin 8)
  /-- ACK_TIMER_EXPIRY (R212): The acknowledgement timer expires and the transmitter starts a replay at OLDEST, counting GB_TIMEOUT. -/
  | ackTimerExpiry (n : Fin 8)
  /-- INGRESS_BLOCK (R381): A block from the host passes rate matching into the ingress FIFO, where deletion, drop or truncation may act. -/
  | ingressBlock (n : Fin 8) (sync pay fill : Nat) (nextStart : Bool)
  /-- SPILL_PAGE_ALLOC (R499): An owner needing a page takes the head of a free list under the limits of R223, or is spill-full. -/
  | spillPageAlloc (o : Fin 12)
  /-- SPILL_WRITE_DONE (R219): A group of spilled blocks has been written to its Cupola page. -/
  | spillWriteDone (o : Fin 12)
  /-- SPILL_READ_DONE (R219): A spill read returns blocks to the spill read buffer, replacing groups with Error blocks on an uncorrectable error. -/
  | spillReadDone (o : Fin 12) (ue : Bool)
  /-- SPILL_RSV_WRITE (R223): A write of SPILL_RSV is admitted or refused against the pool, setting or clearing RSV_REFUSED. -/
  | spillRsvWrite (n : Fin 8) (rsv mx : Nat)
  /-- SPILL_PAGES_RELEASE (R232): Pages held at link down are returned to the free list within 1 ms. -/
  | spillPagesRelease (o : Fin 12)
  /-- TWIN_CFG_APPLY (R259): TW_EN and PRIMARY take effect once neither member is in TRAIN, UP or HOLD, clearing CFG_PEND. -/
  | twinCfgApply (k : Fin 4)
  /-- MERGE_STALL (R270): E_M has not advanced for MRG_WAIT while a member is ahead, setting GAP and counting STALLS. -/
  | mergeStall (k : Fin 4)
  /-- BF_ENABLE (R302): BF_EN rises: SERVED := 1, the idle edge is set, node number and ring settings take effect and ring heads reset. -/
  | bfEnable (b : Fin 2)
  /-- BF_DISABLE (R318): BF_EN written 0 stops a transmission as ABORTED or abandons a reception. -/
  | bfDisable (b : Fin 2)
  /-- BF_TX_DISABLE (R318): TX_EN written 0 stops the driver within one chip and completes a running descriptor ABORTED. -/
  | bfTxDisable (b : Fin 2)
  /-- IDLE_EDGE (R301): The channel becomes idle at a packet end or after 32 µs of energy below CS_ED. -/
  | idleEdge (b : Fin 2) (energy : Bool)
  /-- ACCESS_SLOT (R302): The access gap (IFS + NODE) slots after the idle edge arrives and an unserved transceiver starts its contended packet. -/
  | accessSlot (b : Fin 2) (tb : Nat)
  /-- ROUND_GAP (R302): The channel stays idle for (IFS + 66) slots, clearing SERVED and making a virtual idle edge. -/
  | roundGap (b : Fin 2)
  /-- PACKET_TX_DONE (R316): A packet or copy has been sent and its TX descriptor completes when all copies are done. -/
  | packetTxDone (b : Fin 2)
  /-- TX_RING_POLL (R315): Every 32 µs the TX ring head descriptor is read again for OWN. -/
  | txRingPoll (b : Fin 2)
  /-- TX_KICK (R315): TX_KICK written 1 reads the head TX descriptor at once. -/
  | txKick (b : Fin 2)
  /-- BEACON_PERIOD (R311): BCN_PERIOD expires and a beacon is queued. -/
  | beaconPeriod (b : Fin 2)
  /-- BCN_NOW (R311): BCN_NOW written 1 queues a beacon at once, one pending beacon absorbing further triggers. -/
  | bcnNow (b : Fin 2)
  /-- PREAMBLE_DETECT (R298): The SF63 despread output exceeds DET_TH on four consecutive symbols and a preamble is detected. -/
  | preambleDetect (b : Fin 2)
  /-- SFD_DETECT (R298): At least 7 of 8 SFD symbol signs match and the frequency and timing estimates are frozen. -/
  | sfdDetect (b : Fin 2) (tb since : Nat) (fofs : Int) (m : SfdMeas)
  /-- SFD_TIMEOUT (R298): No SFD is found within 40 symbols of detection and the receiver searches again. -/
  | sfdTimeout (b : Fin 2)
  /-- CAPTURE (R304): A stronger preamble qualifies during a reception and the current packet is abandoned for it. -/
  | capture (b : Fin 2) (db : Nat)
  /-- HEADER_DECODE (R292): The header codeword is decoded and checked, discarding the packet on a header failure. -/
  | headerDecode (b : Fin 2) (w : BfWord)
  /-- CODEWORD_DECODE (R297): A payload codeword is decoded as soon as its last bit arrives. -/
  | codewordDecode (b : Fin 2) (w : BfWord)
  /-- RNG_GO (R309): RNG_GO written 1 queues a RANGE_REQ to RNG_DST or records REFUSED. -/
  | rngGo (b : Fin 2) (v : Nat)
  /-- RANGE_RSP_SEND (R309): The responder sends its RANGE_RSP so that its SFD end falls 3,635,200 ns after the request's. -/
  | rangeRspSend (b : Fin 2) (tB tb : Nat)
  /-- RANGE_TIMEOUT (R309): No RSP header decodes by 3,850 µs after the request and the exchange ends NO_RESPONSE. -/
  | rangeTimeout (b : Fin 2)
  /-- BF_KEY_SLOT_LOAD (R702): The Keep loads the Belfry key slots into a transceiver when its domain comes ON or at KEY_LOAD. -/
  | bfKeySlotLoad (b : Fin 2)
  /-- DIAG_TDR (R343): DIAG_GO with DIAG_KIND TDR starts a reflectometry run or records REFUSED. -/
  | diagTdr (n : Fin 8) (pairs : Nat) (cap : Bool) (avg len : Nat)
  /-- DIAG_SNAPSHOT (R343): DIAG_GO with DIAG_KIND SNAPSHOT derives reflections from the echo coefficients or records REFUSED. -/
  | diagSnapshot (n : Fin 8) (pairs : Nat) (cap : Bool)
  /-- DIAG_LOSS (R348): DIAG_GO with DIAG_KIND LOSS measures return and insertion loss over 2^16 symbols or records REFUSED. -/
  | diagLoss (n : Fin 8) (pairs : Nat)
  /-- DIAG_WEAR (R349): DIAG_GO with DIAG_KIND WEAR scans the enabled landmarks or records REFUSED. -/
  | diagWear (n : Fin 8) (pairs : Nat)
  /-- DIAG_RUN_END (R344): A diagnostic run ends DONE, ABORTED, ACTIVE or BUS_ERROR, writing results and any capture record. -/
  | diagRunEnd (n : Fin 8) (m : DiagMeas)
  /-- WEAR_SCAN (R350): WEAR_PERIOD hours pass and a landmark scan runs, setting LM_ALARM on two consecutive excesses. -/
  | wearScan (n : Fin 8)
  /-- LM_SET (R350): LM_SET written 1 clears BASE_VALID and LM_ALARM so the next scan sets the baseline. -/
  | lmSet (n : Fin 8) (x : Fin 4) (i : Fin 8)
  /-- LPI_TX_ENTRY (R356): The LPI entry conditions have held for ENTRY_T and the transmitter sends a sleep signal and falls quiet. -/
  | lpiTxEntry (n : Fin 8)
  /-- LPI_REFRESH (R357): A quiet period ends and the transmitter sends a wake signal, 16 FILLER frames and a sleep signal. -/
  | lpiRefresh (n : Fin 8)
  /-- LPI_WAKE (R359): A wake trigger ends the quiet or refresh and the transmitter sends a wake signal and then frames. -/
  | lpiWake (n : Fin 8)
  /-- LPI_RX_SLEEP (R360): The receiver recognises a sleep signal and its direction goes QUIET with slices stopped. -/
  | lpiRxSleep (n : Fin 8)
  /-- LPI_RX_WAKE (R362): The receiver recognises an unexpected wake signal and the host lane exits LPI, sending Idle within 200 ns. -/
  | lpiRxWake (n : Fin 8)
  /-- EGRESS_BLOCK_TX (R382): At each host block time the lane sends the next egress block, releasing a frame start only under the cut-through rule. -/
  | egressBlockTx (e : BlockTime)
  /-- PAUSE_REFRESH (R384): PAUSE_REFRESH expires while ICONG = 1 and a further PAUSE frame is sent. -/
  | pauseRefresh (n : Fin 8)
  /-- LB_NEAR_SERIAL (R389): LB_MODE 0b001 selects the near-end serial loopback at a block boundary or is refused. -/
  | lbNearSerial (n : Fin 8)
  /-- LB_NEAR_PARALLEL (R389): LB_MODE 0b010 selects the near-end parallel loopback or is refused. -/
  | lbNearParallel (n : Fin 8)
  /-- LB_FAR_END (R389): LB_MODE 0b011 selects the far-end loopback in UP or HOLD outside twin operation or is refused. -/
  | lbFarEnd (n : Fin 8)
  /-- LB_OFF (R389): LB_MODE 0b000 ends the loopback at a block boundary. -/
  | lbOff (n : Fin 8)
  /-- LOS_RISE (R391): The lane signal stays below 65 mV for 100 ns and LOS sets. -/
  | losRise (n : Fin 8)
  /-- LOS_CLEAR (R391): The lane signal stays above 85 mV for 1 µs and LOS clears. -/
  | losClear (n : Fin 8)
  /-- LOL_RISE (R391): The CDR frequency or phase detector loses lock and LOL sets. -/
  | lolRise (n : Fin 8)
  /-- LOL_CLEAR (R391): 10 µs after both lock conditions end LOL clears. -/
  | lolClear (n : Fin 8)
  /-- EYE_UPDATE (R392): Every 2^26 UI the eye monitor publishes a new EYE_W. -/
  | eyeUpdate (n : Fin 8) (w : Nat)
  /-- ADD (R420): gd := gs1 + gs2. -/
  | add (i : Fin 11) (rd rs1 rs2 : Fin 32)
  /-- SUB (R420): gd := gs1 − gs2. -/
  | sub (i : Fin 11) (rd rs1 rs2 : Fin 32)
  /-- AND (R420): gd := gs1 and gs2. -/
  | and (i : Fin 11) (rd rs1 rs2 : Fin 32)
  /-- OR (R420): gd := gs1 or gs2. -/
  | or (i : Fin 11) (rd rs1 rs2 : Fin 32)
  /-- XOR (R420): gd := gs1 xor gs2. -/
  | xor (i : Fin 11) (rd rs1 rs2 : Fin 32)
  /-- ANDN (R420): gd := gs1 and not gs2. -/
  | andn (i : Fin 11) (rd rs1 rs2 : Fin 32)
  /-- SLL (R420): gd := gs1 shifted left by gs2[4:0]. -/
  | sll (i : Fin 11) (rd rs1 rs2 : Fin 32)
  /-- SRL (R420): gd := gs1 shifted logical right by gs2[4:0]. -/
  | srl (i : Fin 11) (rd rs1 rs2 : Fin 32)
  /-- SRA (R420): gd := gs1 shifted arithmetic right by gs2[4:0]. -/
  | sra (i : Fin 11) (rd rs1 rs2 : Fin 32)
  /-- ROR (R420): gd := gs1 rotated right by gs2[4:0]. -/
  | ror (i : Fin 11) (rd rs1 rs2 : Fin 32)
  /-- CLT (R420): gd := 1 if gs1 < gs2 signed, else 0. -/
  | clt (i : Fin 11) (rd rs1 rs2 : Fin 32)
  /-- CLTU (R420): gd := 1 if gs1 < gs2 unsigned, else 0. -/
  | cltu (i : Fin 11) (rd rs1 rs2 : Fin 32)
  /-- MIN (R420): gd := the signed lesser of gs1 and gs2. -/
  | min (i : Fin 11) (rd rs1 rs2 : Fin 32)
  /-- MAX (R420): gd := the signed greater of gs1 and gs2. -/
  | max (i : Fin 11) (rd rs1 rs2 : Fin 32)
  /-- MINU (R420): gd := the unsigned lesser of gs1 and gs2. -/
  | minu (i : Fin 11) (rd rs1 rs2 : Fin 32)
  /-- MAXU (R420): gd := the unsigned greater of gs1 and gs2. -/
  | maxu (i : Fin 11) (rd rs1 rs2 : Fin 32)
  /-- ADDS (R420): gd := sat32(gs1 + gs2), setting SSAT on clamping. -/
  | adds (i : Fin 11) (rd rs1 rs2 : Fin 32)
  /-- SUBS (R420): gd := sat32(gs1 − gs2), setting SSAT on clamping. -/
  | subs (i : Fin 11) (rd rs1 rs2 : Fin 32)
  /-- CLZ (R420): gd := the number of leading zero bits of gs1. -/
  | clz (i : Fin 11) (rd rs1 : Fin 32)
  /-- MUL (R420): gd := low 32 bits of gs1 × gs2. -/
  | mul (i : Fin 11) (rd rs1 rs2 : Fin 32)
  /-- MULH (R420): gd := high 32 bits of the signed product. -/
  | mulh (i : Fin 11) (rd rs1 rs2 : Fin 32)
  /-- MULHU (R420): gd := high 32 bits of the unsigned product. -/
  | mulhu (i : Fin 11) (rd rs1 rs2 : Fin 32)
  /-- DIV (R420): Signed division with saturating results on zero divisor or overflow, setting DZ or SSAT. -/
  | div (i : Fin 11) (rd rs1 rs2 : Fin 32)
  /-- DIVU (R420): Unsigned division with a saturated result and DZ on a zero divisor. -/
  | divu (i : Fin 11) (rd rs1 rs2 : Fin 32)
  /-- REM (R420): Signed remainder, 0 on a zero divisor with DZ set. -/
  | rem (i : Fin 11) (rd rs1 rs2 : Fin 32)
  /-- REMU (R420): Unsigned remainder, 0 on a zero divisor with DZ set. -/
  | remu (i : Fin 11) (rd rs1 rs2 : Fin 32)
  /-- ADDI (R420): gd := gs1 + sign-extended imm. -/
  | addi (i : Fin 11) (rd rs1 : Fin 32) (imm : Half)
  /-- CLTI (R420): gd := 1 if gs1 < imm signed, else 0. -/
  | clti (i : Fin 11) (rd rs1 : Fin 32) (imm : Half)
  /-- CLTIU (R420): gd := 1 if gs1 < sign-extended imm unsigned, else 0. -/
  | cltiu (i : Fin 11) (rd rs1 : Fin 32) (imm : Half)
  /-- ANDI (R420): gd := gs1 and zero-extended imm. -/
  | andi (i : Fin 11) (rd rs1 : Fin 32) (imm : Half)
  /-- ORI (R420): gd := gs1 or zero-extended imm. -/
  | ori (i : Fin 11) (rd rs1 : Fin 32) (imm : Half)
  /-- XORI (R420): gd := gs1 xor zero-extended imm. -/
  | xori (i : Fin 11) (rd rs1 : Fin 32) (imm : Half)
  /-- LHI (R420): gd := imm << 16. -/
  | lhi (i : Fin 11) (rd : Fin 32) (imm : Half)
  /-- SLLI (R420): gd := gs1 shifted left by imm[4:0]. -/
  | slli (i : Fin 11) (rd rs1 : Fin 32) (k : Fin 32)
  /-- SRLI (R420): gd := gs1 shifted logical right by imm[4:0]. -/
  | srli (i : Fin 11) (rd rs1 : Fin 32) (k : Fin 32)
  /-- SRAI (R420): gd := gs1 shifted arithmetic right by imm[4:0]. -/
  | srai (i : Fin 11) (rd rs1 : Fin 32) (k : Fin 32)
  /-- RORI (R420): gd := gs1 rotated right by imm[4:0]. -/
  | rori (i : Fin 11) (rd rs1 : Fin 32) (k : Fin 32)
  /-- LB (R422): Loads a sign-extended byte from gs1 + imm. -/
  | lb (i : Fin 11) (rd rs1 : Fin 32) (imm : Half) (e : Ecc)
  /-- LBU (R422): Loads a zero-extended byte from gs1 + imm. -/
  | lbu (i : Fin 11) (rd rs1 : Fin 32) (imm : Half) (e : Ecc)
  /-- LH (R422): Loads a sign-extended aligned halfword. -/
  | lh (i : Fin 11) (rd rs1 : Fin 32) (imm : Half) (e : Ecc)
  /-- LHU (R422): Loads a zero-extended aligned halfword. -/
  | lhu (i : Fin 11) (rd rs1 : Fin 32) (imm : Half) (e : Ecc)
  /-- LW (R422): Loads an aligned word. -/
  | lw (i : Fin 11) (rd rs1 : Fin 32) (imm : Half) (e : Ecc)
  /-- SB (R422): Stores the low byte of gs2 at gs1 + imm. -/
  | sb (i : Fin 11) (rs2 rs1 : Fin 32) (imm : Half)
  /-- SH (R422): Stores the low halfword of gs2 at an aligned address. -/
  | sh (i : Fin 11) (rs2 rs1 : Fin 32) (imm : Half)
  /-- SW (R422): Stores gs2 at an aligned word address. -/
  | sw (i : Fin 11) (rs2 rs1 : Fin 32) (imm : Half)
  /-- LOAD_COMPLETE (R414): A load waiting on the fabric returns its data into the register of its own context. -/
  | loadComplete (i : Fin 11) (c : Fin 4) (errs : List Ecc)
  /-- LDX (R427): Loads a word and sets the context's exclusive monitor on its granule with the TB time. -/
  | ldx (i : Fin 11) (rd rs1 : Fin 32) (imm : Half) (e : Ecc)
  /-- STX (R427): Stores only while the monitor holds on the granule within 10 µs, writing 0 or 1 to gd and clearing the monitor. -/
  | stx (i : Fin 11) (rd rs2 rs1 : Fin 32)
  /-- MONITOR_EXPIRY (R428): 10 µs of TB after an LDX the exclusive monitor expires. -/
  | monitorExpiry (i : Fin 11) (c : Fin 4)
  /-- BEQ (R423): Branches by off if gs1 = gs2. -/
  | beq (i : Fin 11) (rs1 rs2 : Fin 32) (off : Half)
  /-- BNE (R423): Branches by off if gs1 ≠ gs2. -/
  | bne (i : Fin 11) (rs1 rs2 : Fin 32) (off : Half)
  /-- BLT (R423): Branches if gs1 < gs2 signed. -/
  | blt (i : Fin 11) (rs1 rs2 : Fin 32) (off : Half)
  /-- BGE (R423): Branches if gs1 ≥ gs2 signed. -/
  | bge (i : Fin 11) (rs1 rs2 : Fin 32) (off : Half)
  /-- BLTU (R423): Branches if gs1 < gs2 unsigned. -/
  | bltu (i : Fin 11) (rs1 rs2 : Fin 32) (off : Half)
  /-- BGEU (R423): Branches if gs1 ≥ gs2 unsigned. -/
  | bgeu (i : Fin 11) (rs1 rs2 : Fin 32) (off : Half)
  /-- CALL (R423): g31 := PC + 4 and PC := PC + off. -/
  | call (i : Fin 11) (off : BitVec 26)
  /-- CALLR (R423): Jumps to gs1 + imm, linking into gd, or raises IALIGN. -/
  | callr (i : Fin 11) (rd rs1 : Fin 32) (imm : Half)
  /-- SYSCALL (R421): Raises SYSCALL with ARG recorded. -/
  | syscall (i : Fin 11) (arg : Fin 32)
  /-- BREAK (R421): Raises BREAK with ARG recorded. -/
  | brk (i : Fin 11) (arg : Fin 32)
  /-- ERET (R447): Returns to EPC at level PLV with IE := PIE, EXL := 0, clearing the monitor. -/
  | eret (i : Fin 11)
  /-- FENCE (R426): Completes every earlier access before any later one issues. -/
  | fence (i : Fin 11)
  /-- FENCE_P (R426): As FENCE, and waits until the context's posted writes have taken effect or been dropped. -/
  | fenceP (i : Fin 11)
  /-- IFENCE (R426): Discards fetched instructions so later fetches follow earlier stores. -/
  | ifence (i : Fin 11)
  /-- CLRX (R421): Clears the context's exclusive monitor. -/
  | clrx (i : Fin 11)
  /-- SEV (R436): Sets the software event flag of context gs1[1:0] of the same core. -/
  | sev (i : Fin 11) (rs1 : Fin 32)
  /-- TLBI (R454): Removes the TLB entries for the address in gs1 of the context's ASID or global. -/
  | tlbi (i : Fin 11) (rs1 : Fin 32)
  /-- TLBI_ALL (R454): TLBI with ARG[0] = 1 removes every TLB entry. -/
  | tlbiAll (i : Fin 11)
  /-- CACHE_INVAL_ILINE (R421): CACHE ARG 0 invalidates the I-cache line holding gs1. -/
  | cacheInvalIline (i : Fin 11) (rs1 : Fin 32)
  /-- CACHE_CLEAN_DLINE (R421): CACHE ARG 1 writes back the D-cache line if dirty. -/
  | cacheCleanDline (i : Fin 11) (rs1 : Fin 32)
  /-- CACHE_INVAL_DLINE (R421): CACHE ARG 2 invalidates the D-cache line without write-back, level S only. -/
  | cacheInvalDline (i : Fin 11) (rs1 : Fin 32)
  /-- CACHE_CLEAN_INVAL_DLINE (R421): CACHE ARG 3 cleans and invalidates the D-cache line. -/
  | cacheCleanInvalDline (i : Fin 11) (rs1 : Fin 32)
  /-- CACHE_INVAL_ICACHE (R421): CACHE ARG 8 invalidates the whole I-cache. -/
  | cacheInvalIcache (i : Fin 11)
  /-- CACHE_CLEAN_DCACHE (R421): CACHE ARG 9 cleans the whole D-cache. -/
  | cacheCleanDcache (i : Fin 11)
  /-- CACHE_CLEAN_INVAL_DCACHE (R421): CACHE ARG 11 cleans and invalidates the whole D-cache. -/
  | cacheCleanInvalDcache (i : Fin 11)
  /-- CSRW (R429): Reads the old CSR into gd and writes gs1. -/
  | csrw (i : Fin 11) (rd rs1 : Fin 32) (csr : BitVec 12)
  /-- CSRS (R429): Reads the old CSR into gd and sets the bits of gs1. -/
  | csrs (i : Fin 11) (rd rs1 : Fin 32) (csr : BitVec 12)
  /-- CSRC (R429): Reads the old CSR into gd and clears the bits of gs1. -/
  | csrc (i : Fin 11) (rd rs1 : Fin 32) (csr : BitVec 12)
  /-- WFE (R434): Waits on the event mask {gs2, gs1}, optionally after a drain. -/
  | wfe (i : Fin 11) (rd rs1 rs2 : Fin 32) (drain : Bool)
  /-- WFEV (R434): Waits on a single event, optionally after a drain. -/
  | wfev (i : Fin 11) (rd : Fin 32) (ev : Fin 64) (drain : Bool)
  /-- WAIT_WAKE (R434): An event of a waiting context's mask becomes pending and the wait retires with its number. -/
  | waitWake (i : Fin 11) (c : Fin 4)
  /-- WAIT_TIMEOUT (R434): WAIT_LIMIT expires with no event pending and the wait retires with 64. -/
  | waitTimeout (i : Fin 11) (c : Fin 4)
  /-- VLD (R425): Loads 32 aligned bytes into a vector register. -/
  | vld (i : Fin 11) (vd : Fin 8) (rs1 : Fin 32) (imm : Half) (e : Ecc)
  /-- VST (R425): Stores a vector register to 32 aligned bytes. -/
  | vst (i : Fin 11) (vs : Fin 8) (rs1 : Fin 32) (imm : Half)
  /-- CLD (R430): Reads a coefficient word of the port's window into gd. -/
  | cld (i : Fin 11) (rd rs1 : Fin 32) (imm : Half)
  /-- CST (R430): Writes a coefficient word of the port's window. -/
  | cst (i : Fin 11) (rs2 rs1 : Fin 32) (imm : Half)
  /-- VCLD (R430): Reads the coefficients of 16 consecutive window words into a vector register. -/
  | vcld (i : Fin 11) (vd : Fin 8) (rs1 : Fin 32) (imm : Half)
  /-- VCST (R430): Writes 16 consecutive coefficient words from a vector register. -/
  | vcst (i : Fin 11) (vs : Fin 8) (rs1 : Fin 32) (imm : Half)
  /-- VADD (R424): Lane-wise wrapping addition. -/
  | vadd (i : Fin 11) (vd vs1 vs2 : Fin 8)
  /-- VSUB (R424): Lane-wise wrapping subtraction. -/
  | vsub (i : Fin 11) (vd vs1 vs2 : Fin 8)
  /-- VADDS (R424): Lane-wise saturating addition, setting VSAT. -/
  | vadds (i : Fin 11) (vd vs1 vs2 : Fin 8)
  /-- VSUBS (R424): Lane-wise saturating subtraction, setting VSAT. -/
  | vsubs (i : Fin 11) (vd vs1 vs2 : Fin 8)
  /-- VMULQ (R424): Lane-wise rounded Q15 multiplication with saturation. -/
  | vmulq (i : Fin 11) (vd vs1 vs2 : Fin 8)
  /-- VMACQ (R424): Lane-wise rounded Q15 multiply-accumulate with saturation. -/
  | vmacq (i : Fin 11) (vd vs1 vs2 : Fin 8)
  /-- VAND (R424): Bitwise and of two vectors. -/
  | vand (i : Fin 11) (vd vs1 vs2 : Fin 8)
  /-- VOR (R424): Bitwise or of two vectors. -/
  | vor (i : Fin 11) (vd vs1 vs2 : Fin 8)
  /-- VXOR (R424): Bitwise xor of two vectors. -/
  | vxor (i : Fin 11) (vd vs1 vs2 : Fin 8)
  /-- VMIN (R424): Lane-wise lesser value. -/
  | vmin (i : Fin 11) (vd vs1 vs2 : Fin 8)
  /-- VMAX (R424): Lane-wise greater value. -/
  | vmax (i : Fin 11) (vd vs1 vs2 : Fin 8)
  /-- VABS (R424): Lane-wise saturating absolute value. -/
  | vabs (i : Fin 11) (vd vs1 : Fin 8)
  /-- VSRA (R424): Lane-wise arithmetic right shift by gs2[3:0]. -/
  | vsra (i : Fin 11) (vd vs1 : Fin 8) (rs2 : Fin 32)
  /-- VSLL (R424): Lane-wise left shift by gs2[3:0]. -/
  | vsll (i : Fin 11) (vd vs1 : Fin 8) (rs2 : Fin 32)
  /-- VSRAR (R424): Lane-wise rounded arithmetic right shift. -/
  | vsrar (i : Fin 11) (vd vs1 : Fin 8) (rs2 : Fin 32)
  /-- VBCAST (R424): Broadcasts gs1[15:0] into every lane. -/
  | vbcast (i : Fin 11) (vd : Fin 8) (rs1 : Fin 32)
  /-- VEXT (R424): Extracts a sign-extended lane into gd. -/
  | vext (i : Fin 11) (rd : Fin 32) (vs1 : Fin 8) (l : Fin 16)
  /-- VINS (R424): Inserts gs1[15:0] into one lane. -/
  | vins (i : Fin 11) (vd : Fin 8) (rs1 : Fin 32) (l : Fin 16)
  /-- VSUM (R424): gd := exact sum of the lanes. -/
  | vsum (i : Fin 11) (rd : Fin 32) (vs1 : Fin 8)
  /-- VDOT (R424): gd := saturated dot product of two vectors. -/
  | vdot (i : Fin 11) (rd : Fin 32) (vs1 vs2 : Fin 8)
  /-- VMOV (R424): Copies a vector register. -/
  | vmov (i : Fin 11) (vd vs1 : Fin 8)
  /-- VCMPGT (R424): gd gets one bit per lane where vs1 > vs2. -/
  | vcmpgt (i : Fin 11) (rd : Fin 32) (vs1 vs2 : Fin 8)
  /-- INTERRUPT_ENTRY (R448): An unmasked pending event is taken as INTERRUPT at an instruction boundary. -/
  | interruptEntry (i : Fin 11) (c : Fin 4)
  /-- CONTEXT_SWITCH (R449): The core switches issue to the highest-priority runnable context after four cycles. -/
  | contextSwitch (i : Fin 11)
  /-- DMA_DESCRIPTOR_DONE (R457): A channel completes or stops on a descriptor, writing its result and setting CPL. -/
  | dmaDescriptorDone (i : Fin 11) (ch : Fin 4)
  /-- WDOG_EXPIRY (R463): The watchdog period expires and the core fails with cause WDOG. -/
  | wdogExpiry (i : Fin 11)
  /-- CORE_FAIL (R463): A core fails on a checker, IMEM error, double fault, watchdog, power or lockstep cause and halts within 20 ns. -/
  | coreFail (i : Fin 11) (cause : Nat)
  /-- LOCKSTEP_MISMATCH (R471): The Lantern cores disagree, the request is held back and both halt with LOCKSTEP. -/
  | lockstepMismatch
  /-- MEM_PATROL (R443): The IMEM and TCM patrol reads a word, correcting single-bit errors or raising an uncorrectable source. -/
  | memPatrol (i : Fin 11) (w : Nat) (e : Ecc)
  /-- TURRET_TAKEOVER (R464): A Turret takes over a failed port sequencer once one is available, loading image and checkpoint and resuming. -/
  | turretTakeover
  /-- CKPT_PERIOD_EXPIRY (R461): CKPT_PERIOD expires and an automatic checkpoint starts. -/
  | ckptPeriodExpiry (i : Fin 11)
  /-- CKPT_DONE (R461): The checkpoint is written with its CRC and its buffer marked valid, or CKPT_FAIL is set. -/
  | ckptDone (i : Fin 11) (held : Nat)
  /-- TAKE (R468): SQC_CMD TAKE makes a Turret take over a running port sequencer. -/
  | take (n : Fin 8) (held : Nat)
  /-- RELEASE (R468): SQC_CMD RELEASE returns the serving Turret to STANDBY and resumes the port sequencer. -/
  | release (n : Fin 8) (held : Nat)
  /-- RELOAD (R468): SQC_CMD RELOAD reloads the core of a slot from IMG_BASE and resumes it. -/
  | reload (k : Fin 11) (held : Nat)
  /-- CORE_RUN (R444): CORE_CTRL.RUN written 1 starts context 0 at RESET_PC. -/
  | coreRun (i : Fin 11)
  /-- CORE_HALT (R479): CORE_CTRL.RUN written 0 halts the core at an instruction boundary. -/
  | coreHalt (i : Fin 11)
  /-- CORE_RESET (R479): CORE_RESET written 1 resets the core and clears RUN. -/
  | coreReset (i : Fin 11)
  /-- CH_TRAIN_GO (R486): TRAIN_GO starts training of a DRAM channel or records REFUSED. -/
  | chTrainGo (c : Fin 4)
  /-- CH_TRAIN_DONE (R486): Training ends with IN_SERVICE or a failed step, possibly ending the first training round. -/
  | chTrainDone (c : Fin 4) (e : TrainEnd)
  /-- DRAM_REFRESH (R487): tREFI elapses and a refresh is issued or postponed within the JESD79-4 limit. -/
  | dramRefresh (c : Fin 4) (k : Nat)
  /-- ZQCS (R487): Every 128 ms a ZQCS is issued. -/
  | zqcs (c : Fin 4)
  /-- RECENTRE (R487): Every RETRAIN_S seconds read centring is checked and corrected on each rank. -/
  | recentre (c : Fin 4) (ok : Bool)
  /-- CA_PARITY_ERROR (R487): A CA parity error retries the command, the sixteenth retry being a channel failure. -/
  | caParityError (c : Fin 4) (same : Bool)
  /-- MEMORY_REQUEST (R491): A request to DDR4 is split into 64-byte units, granted by the BWR and served by its channel. -/
  | memoryRequest (mid cl a len : Nat) (wr : Bool) (data : List Nat)
  /-- MEMORY_REQUEST_DONE (R491): A unit completes with data, correction, poison or an error status. -/
  | memoryRequestDone (c : Fin 4) (errs : List Ecc)
  /-- BWR_GRANT (R502): A channel grants the next unit by class and round-robin, fixing its class. -/
  | bwrGrant (c : Fin 4)
  /-- BWR_WINDOW (R502): A budget window of WIN × 250 ns ends and every client's count restarts. -/
  | bwrWindow
  /-- BWR_CLIENT_WRITE (R505): A BWR_CLIENT write is admitted or refused against LIMIT, setting ADM_REFUSED. -/
  | bwrClientWrite (i : Fin 32) (v : Nat)
  /-- BWR_CTRL_WRITE (R505): A BWR_CTRL write, WIN included, is admitted or refused against LIMIT. -/
  | bwrCtrlWrite (v : Nat)
  /-- SCRUB_READ (R492): The patrol reads a codeword, writing back a corrected one. -/
  | scrubRead (a : Nat) (e : Ecc)
  /-- CHANNEL_FAILURE (R493): A controller or PHY checker, CA retry limit, failed re-centring or power loss raises the channel failure source. -/
  | channelFailure (c : Fin 4) (cause : Nat)
  /-- RETIRE_GO (R495): RETIRE_GO written 1 retires channel RETIRE_CH. -/
  | retireGo (c : Fin 4)
  /-- SPL_ENABLE (R497): SPL_EN rises and the Spill Page Table is built. -/
  | splEnable (pages : Nat)
  /-- SPL_TABLE_READY (R497): The Spill Page Table build ends and SPL_RDY sets. -/
  | splTableReady
  /-- SPL_DISABLE (R497): SPL_EN written 0 takes effect, or is refused with CFG_REFUSED while a page is HELD. -/
  | splDisable
  /-- SPT_OWNER_SCAN (R500): After an uncorrectable Spill Page Table entry the owner's pages are found by a scan and released. -/
  | sptOwnerScan (k : Nat)
  /-- PCIE_MEM_REQUEST (R544): A host memory request to BAR0 or BAR2 is split into accesses and completed. -/
  | pcieMemRequest (f : Fin 2) (q : PcieReq)
  /-- PCIE_FLR (R546): An FLR resets a function's configuration, MSI-X table and mailbox endpoint. -/
  | pcieFlr (f : Fin 2)
  /-- PCIE_HOT_RESET (R546): Hot reset, link down or fundamental reset acts as an FLR of both functions. -/
  | pcieHotReset (down : Bool)
  /-- MSIX_SEND (R548): A vector whose source rises unmasked, or is unmasked with PBA set, sends its message. -/
  | msixSend (f : Fin 2) (v : Fin 64)
  /-- MDIO_FRAME (R551): A Clause 45 frame to one of the port addresses is answered in its MMD. -/
  | mdioFrame (prt mmd : Nat) (op : MdioOp)
  /-- MDIO_WIN_DONE (R554): The window access ends, clearing BUSY and setting ERR on a bus error. -/
  | mdioWinDone
  /-- MB_SEND (R558): MB_SEND with GO sets FULL, records the length, advances MSEQ and may ring the doorbell. -/
  | mbSend (mid : Nat) (c : Fin 16) (len1 : Fin 16) (db : Fin 32) (dbEn : Bool)
  /-- MB_RECEIVE_LAST (R559): The receiver's read of word LEN − 1 returns it, clears FULL and zeroes the words. -/
  | mbReceiveLast (mid : Nat) (c : Fin 16)
  /-- MB_RRESET (R562): RRESET empties the channel and sets the sender's ABORT bit. -/
  | mbRreset (mid : Nat) (c : Fin 16)
  /-- MBX_BIND_WRITE (R557): A write of MBX_BIND empties the channel without an ABORT bit. -/
  | mbxBindWrite (mid : Nat) (c : Fin 16) (v : Nat)
  /-- XTAL_START_CHECK (R580): The start delay ends and each crystal is declared READY or FAILED by its amplitude. -/
  | xtalStartCheck (a b : Bool)
  /-- XTAL_LOST (R581): A ready crystal shows no edge for 200 ns or a frequency error over 3 % and is declared LOST. -/
  | xtalLost (x : Fin 2)
  /-- XTAL_RECOVER (R581): A LOST crystal passes the count for 1 ms and returns to READY. -/
  | xtalRecover (x : Fin 2)
  /-- REF_SWITCH (R583): REF_SEL changes and every PLL using it goes through holdover to the new reference. -/
  | refSwitch (sel : Bool)
  /-- HOLDOVER_EXPIRY (R583): 50 µs of holdover pass with no ready reference and the PLLs lose lock. -/
  | holdoverExpiry
  /-- PLL_LOCK_LOSS (R582): A PLL's phase error exceeds 2 ns for 1 µs and it loses lock. -/
  | pllLockLoss (p : Fin 12)
  /-- PLL_LOCK (R582): A PLL runs 10 µs without phase error and is locked again. -/
  | pllLock (p : Fin 12)
  /-- FAMILY_SWITCH (R586): SW_GO starts a stop-switch-restart of the core family or records REFUSED. -/
  | familySwitch (src ramp : Bool) (rampUs : Nat)
  /-- FAMILY_SWITCH_DONE (R586): The new family restarts, TB advances by the gap and SW_DONE sets. -/
  | familySwitchDone
  /-- SWITCH_FORCED (R588): The old source gives no edge for 64 new cycles and the switch is forced with TB_INEXACT. -/
  | switchForced
  /-- RAMP_STEP (R587): Each RAMP_STEP µs the family dividers halve until RAMP_DONE. -/
  | rampStep
  /-- GATE_ON (R591): GATE_GO with GATE_ON = 1 turns a gate on or is refused. -/
  | gateOn (g : Nat) (force : Bool) (tmo : Nat)
  /-- GATE_OFF (R591): GATE_GO with GATE_ON = 0 asks the bus-idle handshake or is refused. -/
  | gateOff (g : Nat) (force : Bool) (tmo : Nat)
  /-- GATE_HANDSHAKE_ACK (R591): The gated blocks acknowledge and the gate stops with DONE. -/
  | gateHandshakeAck
  /-- GATE_TIMEOUT (R591): GATE_TO expires without acknowledgement, ending TIMEOUT or FORCED. -/
  | gateTimeout
  /-- FC_GO (R593): FC_GO starts a frequency count over FC_N XTAL_A cycles or is refused. -/
  | fcGo (sel n : Nat)
  /-- FC_WINDOW_END (R593): The count window ends and FC_DONE sets. -/
  | fcWindowEnd (cnt : Nat)
  /-- PD_REQUEST_ON (R610): PWC_REQ for a domain to ON is started, queued or supersedes the queued request. -/
  | pdRequestOn (i tag who : Nat)
  /-- PD_REQUEST_RETAIN (R610): PWC_REQ for a domain to RETAIN is started, queued or supersedes the queued request. -/
  | pdRequestRetain (i tag who : Nat)
  /-- PD_REQUEST_OFF (R610): PWC_REQ for a domain to OFF is started, queued or supersedes the queued request. -/
  | pdRequestOff (i tag who : Nat)
  /-- MODE_RUN (R617): A mode request for RUN restores the recorded domain states. -/
  | modeRun (tag who : Nat)
  /-- MODE_QUIET (R617): A mode request for QUIET records states and lowers domains to QUIET_TGT. -/
  | modeQuiet (tag who : Nat)
  /-- MODE_DEPOT (R617): A mode request for DEPOT halts every core and brings domains to DEPOT_TGT with clocks stopped. -/
  | modeDepot (tag who : Nat)
  /-- PWC_REQUEST_START (R611): A request starts and is checked for refusal before running. -/
  | pwcRequestStart
  /-- PWC_COMMIT (R612): After the handshake or 10 µs a lowering request commits and the domain is counted as lowered. -/
  | pwcCommit
  /-- PD_STEP_READY (R608): A domain's regulator, oscillator, memory or logic step signals ready, ending the request at its last step. -/
  | pdStepReady (i : Nat)
  /-- PD_READY_TIMEOUT (R613): A domain misses its ready signal within four times the bound and the request completes FAILED. -/
  | pdReadyTimeout (i : Nat)
  /-- WAKE_N_ASSERT (R614): WAKE_N held low for two SOSC cycles wakes the device or aborts a lowering request. -/
  | wakeNAssert
  /-- DEPOT_TIMER_EXPIRY (R614): The DEPOT timer expires and wakes the device. -/
  | depotTimerExpiry
  /-- AVS_UPDATE (R621): The PWC recomputes AVS_TARGET from the monitors, changing it by one step at most once per second. -/
  | avsUpdate
  /-- PORST_ASSERT (R620): PORST_N goes low and the device is held in reset. -/
  | porstAssert
  /-- PORST_RELEASE (R620): PORST_N is released, straps are sampled and start-up begins. -/
  | porstRelease (dly : Fin 8)
  /-- VDD_AON_LOW (R620): VDD_AON falls below 0.68 V and the device acts as if PORST_N were low. -/
  | vddAonLow
  /-- CAL_GO (R634): CAL_GO starts a calibration in place or by handover, or records REFUSED. -/
  | calGo (port : Fin 8) (pair : Nat)
  /-- CAL_CONVERGED (R635): The shadow SLC_SNR reaches that of the pair less CAL_REVERT and SWAP is requested. -/
  | calConverged
  /-- CAL_CONV_TIMEOUT (R635): CONV_MAX expires before convergence and the handover ends CONV_TIMEOUT. -/
  | calConvTimeout
  /-- CAL_MEASURE_DONE (R635): The slice measurement ends, new trims are written and TRIM_APPLY follows. -/
  | calMeasureDone (m : Option CalMeas)
  /-- CAL_CHECK (R635): After two SNR blocks the pair's SNR is compared and the calibration ends DONE or REVERTED. -/
  | calCheck
  /-- CAL_SAVE (R638): CAL_SAVE writes a field record to a slot or is refused. -/
  | calSave
  /-- CAL_SAVE_DONE (R638): The record write and verification end, setting CAL_SAVE_DONE or SLOT_BAD. -/
  | calSaveDone (ok : Bool)
  /-- CAL_RECORD_LOAD (R639): When PD_MON comes ON, CAL loads the newest qualifying record or uses Reset trims. -/
  | calRecordLoad
  /-- VREF_CHECK (R632): Every 100 ms the reference ADC checks CAL_VREF and CAL_RES, setting VREF_BAD or RES_BAD. -/
  | vrefCheck (v r : Bool)
  /-- TEMP_CONVERSION (R642): A thermal sensor is converted and checked against T_WARN and T_CRIT. -/
  | tempConversion (i : Fin 24) (t : Int)
  /-- VOLT_CONVERSION (R642): A voltage monitor is converted and checked against UV and OV. -/
  | voltConversion (i : Fin 16) (mv : Nat)
  /-- PROC_CONVERSION (R642): A ring-oscillator count over 10 µs completes and feeds AVS. -/
  | procConversion (j : Fin 6) (edges : Nat)
  /-- OVERTEMP_TRIP (R643): The 135 °C comparator trips and raises the class F over-temperature source. -/
  | overtempTrip (i : Fin 24)
  /-- FAULT_REPORT (R663): A checker's dual-rail wire rises to error, latching, capturing, journalling and reacting as configured. -/
  | faultReport (i : Nat) (data : List Nat)
  /-- WIRE_FAULT (R662): A dual-rail wire shows 0b00 or 0b11, setting WIRE and latching source 0x230. -/
  | wireFault (i : Nat) (ones : Bool)
  /-- REPAIR_SPARE (R666): The copy ends and SPARE of the failed pair is requested. -/
  | repairSpare (n : Fin 8)
  /-- BLOCK_RESET (R659): BLK_RST_GO or a BLK_RST reaction returns one L4 block's registers to Reset. -/
  | blockReset (b : Fin 64)
  /-- CHIP_RESET (R659): CHIP_RST_GO, a reaction or the Keep resets the die, keeping TB, journal and FLT_PERSIST. -/
  | chipReset
  /-- FLT_INJ_ARM (R669): INJ_GO arms a FORCE1, FORCE2 or INVCHK injection or records REFUSED. -/
  | fltInjArm (mode id unit bit : Nat)
  /-- INJECTION_ACT (R669): The armed injection acts on the unit's next word or check and INJ_RESULT reads DONE. -/
  | injectionAct (seen : Option Nat) (data : List Nat)
  /-- EVJ_SWGO (R673): EVJ_SWGO writes a software record under 0x2F0 + SW_SRC. -/
  | evjSwgo (k : Fin 16)
  /-- EVJ_MIRROR_WRITE (R675): A queued record is written to the memory mirror ring, clearing MIRROR_EN on a bus error. -/
  | evjMirrorWrite
  /-- PROVISION (R703): PROVISION blows the ROOT_HASH fuses, sets SECURE and makes a chip reset, or is refused. -/
  | provision (who : Nat) (args : List Nat)
  /-- BOOT_HOST (R706): BOOT_HOST makes the Keep check the host image in shared SRAM. -/
  | bootHost (who : Nat)
  /-- VERIFY (R707): VERIFY checks an image at a given address and returns the R705 code. -/
  | verify (who : Nat) (args : List Nat)
  /-- SVN_ADVANCE (R707): SVN_ADVANCE blows fuses up to a value or is refused. -/
  | svnAdvance (who v : Nat)
  /-- FC_RESERVE (R704): FC_RESERVE moves the freshness reservation to current FC + 2^32. -/
  | fcReserve (who : Nat)
  /-- KEY_LOAD (R714): KEY_LOAD stores a Belfry key slot where admitted. -/
  | keyLoad (who : Nat) (args : List Nat)
  /-- DEV_KEY_GEN (R714): DEV_KEY_GEN creates a new device key and returns its public key. -/
  | devKeyGen (who : Nat)
  /-- DBG_NONCE (R711): DBG_NONCE returns a fresh 128-bit nonce valid for 60 s and one DBG_OPEN. -/
  | dbgNonce (who : Nat)
  /-- DBG_NONCE_EXPIRY (R711): 60 s after issue the debug nonce expires. -/
  | dbgNonceExpiry
  /-- DBG_OPEN (R711): DBG_OPEN checks root key and signature, then zeroises secrets and opens debug, or ends DENIED. -/
  | dbgOpen (who : Nat) (args : List Nat)
  /-- DBG_CLOSE (R713): DBG_CLOSE closes debug access, or is refused on an ENG part. -/
  | dbgClose (who : Nat)
  /-- BOOT_LOCK (R709): LOCK written 1 sets the boot lock, freezing every RWL field until chip reset. -/
  | bootLock (who : Nat)
  /-- BOOT_LOCK_TIMEOUT (R709): 2 s after step 4 of start-up the Keep sets the boot lock itself. -/
  | bootLockTimeout
  /-- BOOT_IMAGE_SEARCH (R706): Once crystals and ROOT are settled the ROM seeks, checks and loads the Lantern image and sets RUN. -/
  | bootImageSearch
  /-- JTAG_EXTEST (R741): EXTEST takes the balls from their functions and stops ports, lanes and channels. -/
  | jtagExtest
  /-- EXTEST_PULSE (R741): EXTEST_PULSE takes the balls from their functions for 1149.6 test. -/
  | extestPulse
  /-- EXTEST_TRAIN (R741): EXTEST_TRAIN takes the balls from their functions for 1149.6 test. -/
  | extestTrain
  /-- CLAMP (R741): CLAMP holds the balls at boundary values. -/
  | clamp
  /-- HIGHZ (R741): HIGHZ puts the balls in high impedance. -/
  | highz
  /-- TAP_RESET (R741): TRST_N low or five TCK cycles with TMS high return the TAP and balls to their functions. -/
  | tapReset
  /-- SENSE_FLP_BURST (R51): In SENSE the port sends an FLP burst every 16 ms ± 8 ms as Clause 28 gives. -/
  | senseFlpBurst (n : Fin 8)
  /-- INP_EXCEEDED (R231): A stay in HOLD passes INP_MS and INP_EXCEEDED is set. -/
  | inpExceeded (n : Fin 8)
  /-- LPI_REFRESH_EXPECTED (R360): 64 symbol times before an expected refresh the quiet receiver restarts its slices and looks for the refresh. -/
  | lpiRefreshExpected (n : Fin 8)
  /-- LPI_EI_ENTRY (R387): With LPI_EI = 1 the host lane, after at least 2 µs of LPI control blocks, enters electrical idle. -/
  | lpiEiEntry (n : Fin 8)
  /-- BLOCK_LOCK_GAIN (R391): The host-lane receiver gains block lock or sync status and stops delivering Local Fault. -/
  | blockLockGain (n : Fin 8)
  /-- BLOCK_LOCK_LOSS (R391): The host-lane receiver loses block lock and delivers Local Fault blocks to the ingress stream. -/
  | blockLockLoss (n : Fin 8)
  /-- HI_BER_CHANGE (R391): Clause 49 hi_ber rises or falls on the host lane, setting the HI_BER event on a rise. -/
  | hiBerChange (n : Fin 8) (up : Bool)
  /-- PRBS_LOCK_GAIN (R390): After 64 consecutive correct bits the PRBS checker sets PRBS_LOCK and starts counting. -/
  | prbsLockGain (n : Fin 8)
  /-- PRBS_LOCK_LOST (R390): 32 or more errors in 64 bits make the checker lose lock, reseed and set PRBS_LOCK_LOST. -/
  | prbsLockLost (n : Fin 8) (bits errs : Nat)
  /-- ILLEGAL_INSTRUCTION (R416): A fetched word whose opcode or func no table lists raises ILLEGAL and has no other effect. -/
  | illegalInstruction (i : Fin 11) (w : Word)
  /-- DRAM_POWER_DOWN (R617): In QUIET a DRAM channel without a request for 1 µs enters DRAM power-down. -/
  | dramPowerDown (c : Fin 4)
  /-- VDD_AON_RESTORE (R620): VDD_AON has been above 0.72 V for 1 ms and the device leaves its internal reset. -/
  | vddAonRestore (dly : Fin 8)
  /-- SUPPLY_LOSS (R620): A supply other than VDD_AON leaves tolerance, taking its domains from ON with core or channel failure and possible write loss. -/
  | supplyLoss (sup : Fin 7)
  /-- CAL_PERIOD_EXPIRY (R633): CAL_PERIOD hours of TB pass since a slice's calibration and the slice becomes due with cause PERIOD. -/
  | calPeriodExpiry (n : Fin 8) (x : Fin 5)
  /-- FAULT_SOURCE_CLEAR (R663): A source's dual-rail wire returns to idle, clearing ACTIVE (or WIRE) so that LATCHED may then be cleared. -/
  | faultSourceClear (i : Nat)
  /-- KEEP_COMMAND_DONE (R717): A Keep command finishes its MTP, fuse or check work, clearing BUSY and setting RESULT. -/
  | keepCommandDone (ok : Bool)
  /-- PCIE_LINK_UP (R542): PCIe link training completes and the link comes up, putting gate G_PCIE in use. -/
  | pcieLinkUp
  deriving DecidableEq, Repr

end Sys2Proof
end

