-- ==== Sys2Proof/Machine/Crypto.lean ====
section
/-! DEFINITION. AES-128 and CMAC (09_belfry.md R306), SHA-256 and ECDSA P-256 verification (20_keep_startup.md R701,
R705, R711), as pure functions over bytes and naturals. -/

namespace Sys2Proof.Machine

/-! ### AES-128 (FIPS 197) -/

/-- Times x in GF(2^8). -/
def gfX (b : Nat) : Nat := if 128 ≤ b then (2 * b) % 256 ^^^ 0x1B else 2 * b

/-- The product in GF(2^8), over `k` bits of the second factor. -/
def gfMul : Nat → Nat → Nat → Nat
  | 0, _, _ => 0
  | k + 1, a, b => (if b % 2 = 1 then a else 0) ^^^ gfMul k (gfX a) (b / 2)

/-- The inverse in GF(2^8): the 254th power. -/
def gfInv (a : Nat) : Nat :=
  let sq (x : Nat) : Nat := gfMul 8 x x
  let a2 := sq a
  let a4 := sq a2
  let a8 := sq a4
  let a16 := sq a8
  let a32 := sq a16
  let a64 := sq a32
  let a128 := sq a64
  gfMul 8 (gfMul 8 (gfMul 8 a2 a4) (gfMul 8 a8 a16)) (gfMul 8 (gfMul 8 a32 a64) a128)

/-- A byte turned left by `k`. -/
def rol8 (v k : Nat) : Nat := (v * 2 ^ k) % 256 + v / 2 ^ (8 - k)

/-- The S-box. -/
def aesS (a : Nat) : Nat :=
  let b := gfInv a
  b ^^^ rol8 b 1 ^^^ rol8 b 2 ^^^ rol8 b 3 ^^^ rol8 b 4 ^^^ 0x63

/-- Bytes exclusive-or bytes. -/
def xorB (a b : List Nat) : List Nat := List.zipWith (· ^^^ ·) a b

/-- The next round key of one, with round constant `rc`. -/
def nextKey (k : List Nat) (rc : Nat) : List Nat :=
  let t := [aesS (k.getD 13 0) ^^^ rc, aesS (k.getD 14 0), aesS (k.getD 15 0), aesS (k.getD 12 0)]
  let w0 := xorB (k.take 4) t
  let w1 := xorB ((k.drop 4).take 4) w0
  let w2 := xorB ((k.drop 8).take 4) w1
  w0 ++ w1 ++ w2 ++ xorB (k.drop 12) w2

/-- SubBytes and ShiftRows, column by column. -/
def subShift (s : List Nat) : List Nat := (List.range 16).map fun i => aesS (s.getD ((i + 4 * (i % 4)) % 16) 0)

/-- MixColumns. -/
def mixCols (s : List Nat) : List Nat :=
  (List.range 16).map fun i =>
    let at' (r : Nat) : Nat := s.getD (i / 4 * 4 + (i + r) % 4) 0
    gfX (at' 0) ^^^ gfX (at' 1) ^^^ at' 1 ^^^ at' 2 ^^^ at' 3

/-- The rounds from the one with constant `rc` on: the block, the key of the round before. -/
def aesRounds : Nat → Nat → List Nat → List Nat → List Nat
  | 0, _, s, _ => s
  | n + 1, rc, s, k =>
    let k' := nextKey k rc
    let t := subShift s
    aesRounds n (gfX rc) (xorB (if n = 0 then t else mixCols t) k') k'

/-- AES-128 of a 16-byte block under a 16-byte key. -/
def aes (key blk : List Nat) : List Nat := aesRounds 10 1 (xorB blk key) key

/-! ### CMAC (NIST SP 800-38B) -/

/-- A byte string as a number, first byte most significant, and back. -/
def natBE (bs : List Nat) : Nat := bs.foldl (fun a b => 256 * a + b) 0
def bytesBE : Nat → Nat → List Nat
  | 0, _ => []
  | k + 1, v => bytesBE k (v / 256) ++ [v % 256]

/-- Doubling of a 128-bit block. -/
def cmacDbl (v : Nat) : Nat := if v / 2 ^ 127 % 2 = 1 then (2 * v) % 2 ^ 128 ^^^ 0x87 else 2 * v

/-- The chain over the blocks of a message but its last. -/
def cmacChain (key : List Nat) : Nat → List Nat → List Nat → List Nat × List Nat
  | 0, x, m => (x, m)
  | k + 1, x, m => if m.length ≤ 16 then (x, m) else cmacChain key k (aes key (xorB x (m.take 16))) (m.drop 16)

/-- CMAC-AES-128 of a message: 16 bytes. -/
def cmac (key msg : List Nat) : List Nat :=
  let k1 := cmacDbl (natBE (aes key (List.replicate 16 0)))
  let r := cmacChain key (msg.length / 16 + 1) (List.replicate 16 0) msg
  let last := if r.2.length = 16 then xorB r.2 (bytesBE 16 k1)
    else xorB (r.2 ++ [0x80] ++ List.replicate (15 - r.2.length) 0) (bytesBE 16 (cmacDbl k1))
  aes key (xorB r.1 last)

/-! ### SHA-256 (FIPS 180-4) -/

/-- Turn a 32-bit word right. -/
def ror32 (v k : Nat) : Nat := v / 2 ^ k + v % 2 ^ k * 2 ^ (32 - k)

/-- The first `k` primes from `n` on. -/
def primesFrom : Nat → Nat → Nat → List Nat
  | 0, _, _ => []
  | _, 0, _ => []
  | fuel + 1, k + 1, n =>
    if (List.range n).all fun d => d < 2 || n % d != 0 then n :: primesFrom fuel k (n + 1)
    else primesFrom fuel (k + 1) (n + 1)

/-- The largest r with r^e ≤ v, by `k` bits of r. -/
def rootBits (e v : Nat) : Nat → Nat → Nat
  | 0, r => r
  | k + 1, r => rootBits e v k (if (r + 2 ^ k) ^ e ≤ v then r + 2 ^ k else r)

/-- The first 32 bits of the fraction of a root of `p`. -/
def fracRoot (e p : Nat) : Nat := rootBits e (p * 2 ^ (32 * e)) 40 0 % 2 ^ 32

/-- The constants of SHA-256, and its initial value. -/
def shaK : List Nat := (primesFrom 320 64 2).map (fracRoot 3)
def shaH0 : List Nat := (primesFrom 20 8 2).map (fracRoot 2)

/-- Extend the message schedule by `k` words; the list holds the newest first. -/
def shaSched : Nat → List Nat → List Nat
  | 0, w => w
  | k + 1, w =>
    let a := w.getD 1 0
    let b := w.getD 14 0
    let s1 := ror32 a 17 ^^^ ror32 a 19 ^^^ a / 2 ^ 10
    let s0 := ror32 b 7 ^^^ ror32 b 18 ^^^ b / 2 ^ 3
    shaSched k ((s1 + w.getD 6 0 + s0 + w.getD 15 0) % 2 ^ 32 :: w)

/-- One round on the eight working words. -/
def shaRound (h : List Nat) (kw : Nat) : List Nat :=
  let a := h.getD 0 0
  let b := h.getD 1 0
  let d := h.getD 2 0
  let x := h.getD 4 0
  let y := h.getD 5 0
  let z := h.getD 6 0
  let t1 := h.getD 7 0 + (ror32 x 6 ^^^ ror32 x 11 ^^^ ror32 x 25) + ((x &&& y) ^^^ ((2 ^ 32 - 1 - x) &&& z)) + kw
  let t2 := (ror32 a 2 ^^^ ror32 a 13 ^^^ ror32 a 22) + ((a &&& b) ^^^ (a &&& d) ^^^ (b &&& d))
  [(t1 + t2) % 2 ^ 32, a, b, d, (h.getD 3 0 + t1) % 2 ^ 32, x, y, z]

/-- One 64-byte block. -/
def shaBlock (h blk : List Nat) : List Nat :=
  let w0 := ((List.range 16).map fun i => natBE ((blk.drop (4 * i)).take 4)).reverse
  let w := (shaSched 48 w0).reverse
  let r := (List.zip shaK w).foldl (fun v p => shaRound v (p.1 + p.2)) h
  List.zipWith (fun x y => (x + y) % 2 ^ 32) h r

/-- All blocks of a padded message. -/
def shaBlocks : Nat → List Nat → List Nat → List Nat
  | 0, h, _ => h
  | k + 1, h, m => shaBlocks k (shaBlock h (m.take 64)) (m.drop 64)

/-- SHA-256 of bytes: 32 bytes. -/
def sha256 (m : List Nat) : List Nat :=
  let p := m ++ [0x80] ++ List.replicate ((119 - m.length % 64) % 64) 0 ++ bytesBE 8 (8 * m.length)
  (shaBlocks (p.length / 64) shaH0 p).flatMap (bytesBE 4)

/-! ### ECDSA P-256 (FIPS 186-4) -/

/-- The prime, the order, the coefficient b and the base point of P-256. -/
def p256 : Nat := 2 ^ 256 - 2 ^ 224 + 2 ^ 192 + 2 ^ 96 - 1
def n256 : Nat := 0xffffffff00000000ffffffffffffffffbce6faada7179e84f3b9cac2fc632551
def b256 : Nat := 0x5ac635d8aa3a93e7b3ebbd55769886bc651d06b0cc53b0f63bce3c3e27d2604b
def g256 : Nat × Nat :=
  (0x6b17d1f2e12c4247f8bce6e563a440f277037d812deb33a0f4a13945d898c296,
   0x4fe342e2fe1a7f9b8ee7eb4a7c0f9e162bce33576b315ececbb6406837bf51f5)

/-- The power of `a` modulo `m` by `k` bits of the exponent. -/
def powMod (m : Nat) : Nat → Nat → Nat → Nat
  | 0, _, _ => 1 % m
  | k + 1, a, e => (if e % 2 = 1 then a else 1) * powMod m k (a * a % m) (e / 2) % m

/-- The inverse modulo a 256-bit prime. -/
def invMod (m a : Nat) : Nat := powMod m 256 (a % m) (m - 2)

/-- Subtraction modulo p. -/
def subP (a b : Nat) : Nat := (a + p256 - b % p256) % p256

/-- The sum of two points; none is the point at infinity. -/
def ecAdd : Option (Nat × Nat) → Option (Nat × Nat) → Option (Nat × Nat)
  | none, q => q
  | p, none => p
  | some (x1, y1), some (x2, y2) =>
    if x1 = x2 ∧ (y1 + y2) % p256 = 0 then none
    else
      let l := if x1 = x2 then subP (3 * x1 * x1) 3 * invMod p256 (2 * y1) % p256
        else subP y2 y1 * invMod p256 (subP x2 x1) % p256
      let x3 := subP (subP (l * l) x1) x2
      some (x3, subP (l * subP x1 x3) y1)

/-- A multiple of a point by `k` bits of the factor. -/
def ecMul : Nat → Nat → Option (Nat × Nat) → Option (Nat × Nat)
  | 0, _, _ => none
  | k + 1, v, p => ecAdd (if v % 2 = 1 then p else none) (ecMul k (v / 2) (ecAdd p p))

/-- A point of the curve. -/
def onCurve (x y : Nat) : Bool :=
  decide (x < p256 ∧ y < p256) && y * y % p256 == subP (x * x % p256 * x + b256) (3 * x)

/-- ECDSA P-256 verification of a digest, by a public key and a signature. -/
def ecdsaOk (pub : Nat × Nat) (digest : List Nat) (r s : Nat) : Bool :=
  if r = 0 ∨ n256 ≤ r ∨ s = 0 ∨ n256 ≤ s ∨ !onCurve pub.1 pub.2 then false
  else
    let w := invMod n256 s
    let e := natBE digest
    match ecAdd (ecMul 256 (e * w % n256) (some g256)) (ecMul 256 (r * w % n256) (some pub)) with
    | none => false
    | some (x, _) => x % n256 == r

end Sys2Proof.Machine
end

