-- ==== Sys2Proof/Machine/Despread.lean ====
section
/-! DEFINITION. The Belfry's line signal as pure functions (09_belfry.md): chip sequences, symbols and their chips (R287, R288),
the chip equaliser (R300) and the LLRs of despread symbols (R297). -/

namespace Sys2Proof.Machine

/-- A complex value as real and imaginary part. Chip samples, equaliser coefficients and amplitudes count units of 2^-14. -/
abbrev Cx : Type := Int × Int

/-! ### Chips (R287, R288) -/

/-- Bits of the state and the tap beside its top bit, for SF15, SF31 and SF63. -/
def bfDegree (sf : Nat) : Nat := if sf = 0 then 4 else if sf = 1 then 5 else 6
def bfTap (sf : Nat) : Nat := if sf = 2 then 4 else 2

/-- The spreading factor L. -/
def bfLen (sf : Nat) : Nat := 2 ^ bfDegree sf - 1

/-- `k` chips of a sequence from a state of the generator, where bit i of the number is s[i]. -/
def bfGen (sf : Nat) : Nat → Nat → List Int
  | 0, _ => []
  | k + 1, st =>
    let fb := bitB st (bfDegree sf - 1) ^^ bitB st (bfTap sf)
    (if fb then -1 else 1) :: bfGen sf k ((2 * st + b2n fb) % 2 ^ bfDegree sf)

/-- The chips of one symbol, from the all-ones state (R287). -/
def bfSeq (sf : Nat) : List Int := bfGen sf (bfLen sf) (2 ^ bfDegree sf - 1)

/-- A symbol on the line: its spreading factor, the bit of I, and in QPSK that of Q (R288). -/
structure BfSym where
  sf : Nat
  i : Bool
  q : Option Bool := none
  deriving DecidableEq, Repr

/-- A bit mapped as for BPSK. -/
def bpsk (b : Bool) : Int := if b then -1 else 1

/-- The symbol's value, in QPSK in units of 1/√2 (R288). -/
def BfSym.value (y : BfSym) : Cx := (bpsk y.i, match y.q with | some b => bpsk b | none => 0)

/-- The symbols of bits in order: in QPSK I carries the first bit and Q the second (R288). -/
def bfSyms (sf : Nat) (qpsk : Bool) (bits : List Bool) : List BfSym :=
  if qpsk then
    (List.range (bits.length / 2)).map fun k => ⟨sf, bits.getD (2 * k) false, some (bits.getD (2 * k + 1) false)⟩
  else bits.map fun b => ⟨sf, b, none⟩

/-- The SFD's signs, from the most significant bit of 0b01001101 (R290). -/
def sfdBits : List Bool := [false, true, false, false, true, true, false, true]

/-- The preamble and the SFD (R290). -/
def bfLead : List BfSym := bfSyms 2 false (List.replicate 32 false ++ sfdBits)

/-- a_m of R288, chip by chip, each with whether it is in units of 1/√2. -/
def bfWave (ys : List BfSym) : List (Cx × Bool) :=
  ys.flatMap fun y => (bfSeq y.sf).map fun c => ((c * y.value.1, c * y.value.2), y.q.isSome)

/-! ### The chip equaliser (R300) -/

def cxMul (a b : Cx) : Cx := (a.1 * b.1 - a.2 * b.2, a.1 * b.2 + a.2 * b.1)
def cxConj (a : Cx) : Cx := (a.1, -a.2)
def cxAdd (a b : Cx) : Cx := (a.1 + b.1, a.2 + b.2)
def cxSub (a b : Cx) : Cx := (a.1 - b.1, a.2 - b.2)
def cxScale (k : Int) (a : Cx) : Cx := (k * a.1, k * a.2)
def cxSum (l : List Cx) : Cx := l.foldl cxAdd (0, 0)
/-- The square of the magnitude. -/
def cxSq (a : Cx) : Nat := (a.1 * a.1 + a.2 * a.2).toNat
/-- Divided by 2^k, and held as S1.14; the rounding is free (log entry 84), the saturation log entry 97. -/
def cxNarrow (a : Cx) (k : Nat) : Cx := (narrow a.1 k, narrow a.2 k)
def cxSat (a : Cx) : Cx := (saturate 16 a.1, saturate 16 a.2)

/-- The root of a number, rounded down or up (log entry 84). -/
def rootPick (v : Nat) : Nat :=
  let r := rootBits 2 v (v.log2 / 2 + 1) 0
  if r * r = v then r else r + b2n (Config.pick 300 v)

/-- The quotient, rounded down or up (log entry 84). -/
def divPick (n d : Nat) : Nat := if d = 0 then 0 else if n % d = 0 then n / d else n / d + b2n (Config.pick d n)

/-- The state of a receiver's equaliser: f[0…23], b[1…8], and, newest first, the last 15 chip samples, the last 8 decided chips
as symbol value times chip, and |z| / SF of the last 8 symbols. -/
structure BfEq where
  f : List Cx := List.replicate 8 (0, 0) ++ (16384, 0) :: List.replicate 15 (0, 0)
  b : List Cx := List.replicate 8 (0, 0)
  past : List Cx := []
  dec : List Cx := []
  mags : List Nat := []
  deriving DecidableEq, Repr

/-- A: the mean of |z| / SF over the last 8 symbols. -/
def BfEq.amp (e : BfEq) : Nat := divPick (e.mags.foldl (· + ·) 0) e.mags.length

/-- A times a decided value, which in QPSK stands in units of 1/√2. -/
def bfDecided (a : Nat) (c : Cx) : Cx := if c.2 = 0 then cxScale a c else cxScale (rootPick (a * a / 2)) c

/-- Sample m + 8 - i of the symbol whose first chip is `ys`' first. -/
def BfEq.tap (e : BfEq) (ys : List Cx) (m i : Nat) : Cx :=
  if i ≤ m + 8 then ys.getD (m + 8 - i) (0, 0) else e.past.getD (i - m - 9) (0, 0)

/-- dhat[m - i] once the chips `own` of the symbol itself are decided, or none of them. -/
def BfEq.dhat (e : BfEq) (a : Nat) (own : List Cx) (m i : Nat) : Cx :=
  if i ≤ m then bfDecided a (own.getD (m - i) (0, 0)) else bfDecided a (e.dec.getD (i - m - 1) (0, 0))

/-- u[m]. -/
def BfEq.ffe (e : BfEq) (ys : List Cx) (m : Nat) : Cx :=
  cxNarrow (cxSum ((List.range 24).map fun i => cxMul (e.f.getD i (0, 0)) (e.tap ys m i))) 14

/-- v[m]. -/
def BfEq.out (e : BfEq) (dfeOn : Bool) (ys : List Cx) (m : Nat) : Cx :=
  let u := e.ffe ys m
  if dfeOn then
    cxSub u (cxNarrow (cxSum ((List.range 8).map fun i => cxMul (e.b.getD i (0, 0)) (e.dhat e.amp [] m (i + 1)))) 14)
  else u

/-- The update for chip m of a decided symbol, from its error. -/
def BfEq.adapt (e : BfEq) (muF muD a : Nat) (ys own : List Cx) (m : Nat) (err : Cx) : BfEq :=
  { e with
    f := e.f.mapIdx fun i c => cxSat (cxSub c (cxNarrow (cxMul err (cxConj (e.tap ys m i))) (14 + muF)))
    b := e.b.mapIdx fun i c => cxSat (cxAdd c (cxNarrow (cxMul err (cxConj (e.dhat a own m (i + 1)))) (14 + muD))) }

/-- A hard decision on z: its sign in each component the modulation carries; zero is taken as either (log entry 84). -/
def bfHard (qpsk : Bool) (z : Cx) : Cx :=
  let sgn (v : Int) : Int := if v = 0 then bpsk (Config.pick 301 v) else if v < 0 then -1 else 1
  (sgn z.1, if qpsk then sgn z.2 else 0)

/-- One symbol through the equaliser: z, and the equaliser after it. `known` is the symbol's value where it is known. -/
def BfEq.symbol (e : BfEq) (muF muD : Nat) (dfeOn : Bool) (sf : Nat) (qpsk : Bool) (known : Option Cx) (ys : List Cx) :
    Cx × BfEq :=
  let chips := bfSeq sf
  let vs := (List.range (bfLen sf)).map fun m => e.out dfeOn ys m
  let z := cxSum (List.zipWith cxScale chips vs)
  let mags := (divPick (rootPick (cxSq z)) (bfLen sf) :: e.mags).take 8
  let sym := known.getD (bfHard qpsk z)
  let own := chips.map fun c => cxScale c sym
  let a := { e with mags := mags }.amp
  let e1 := ((vs.zip own).zipIdx).foldl
    (fun (t : BfEq) p => t.adapt muF muD a ys own p.2 (cxSub p.1.1 (bfDecided a p.1.2))) { e with mags := mags }
  (z, { e1 with dec := (own.reverse ++ e.dec).take 8, past := ((ys.take (bfLen sf)).reverse ++ e.past).take 15 })

/-- Symbols in order: their z with A after each, and the equaliser after them. -/
def BfEq.run (muF muD : Nat) (dfeOn : Bool) (sf : Nat) (qpsk : Bool) :
    List (Option Cx) → BfEq → List Cx → List (Cx × Nat) × BfEq
  | [], e, _ => ([], e)
  | k :: ks, e, ys =>
    let r := e.symbol muF muD dfeOn sf qpsk k ys
    let t := BfEq.run muF muD dfeOn sf qpsk ks r.2 (ys.drop (bfLen sf))
    ((r.1, r.2.amp) :: t.1, t.2)

/-! ### LLRs (R297) -/

/-- What the despread preamble symbols say of the noise: how many they are, the square of their sum, the sum of their squares. -/
structure BfNoise where
  n : Nat := 0
  sumSq : Nat := 0
  sqSum : Nat := 0
  deriving DecidableEq, Repr

/-- The same of a list of despread symbols. -/
def bfNoise (zs : List Cx) : BfNoise := ⟨zs.length, cxSq (cxSum zs), (zs.map cxSq).foldl (· + ·) 0⟩

/-- 2x/σ² in units of 0.5, saturated to ±31, for a component `c` of a despread symbol of amplitude `a` · L: with N preamble
symbols of sum S and squares Q, x is c / (a L) and σ² is (N Q - |S|²) / (2 |S|²). -/
def bfLlr (ns : BfNoise) (a sf : Nat) (c : Int) : Int :=
  let num : Int := 8 * c * ns.sumSq
  let den := a * bfLen sf * (ns.n * ns.sqSum - ns.sumSq)
  if den = 0 then (if c = 0 then 0 else if c < 0 then -31 else 31)
  else clampI 31 (if num % (den : Nat) = 0 then num / (den : Nat) else num / (den : Nat) + b2n (Config.pick 297 (num / (den : Nat))))

/-- The LLRs of despread symbols, in the order of the bits. -/
def bfLlrs (ns : BfNoise) (sf : Nat) (qpsk : Bool) (zs : List (Cx × Nat)) : List Int :=
  zs.flatMap fun z =>
    if qpsk then [bfLlr ns z.2 sf z.1.1, bfLlr ns z.2 sf z.1.2] else [bfLlr ns z.2 sf z.1.1]

end Sys2Proof.Machine
end

