-- ==== Sys2Proof/Machine/BelfryData.lean ====
section
/-! DEFINITION. Belfry packets and the state of a transceiver beside its registers (09_belfry.md). -/

namespace Sys2Proof.Machine

/-! ### Packets (R290-R296) -/

/-- A header (R291) without its CRC. -/
structure BfHdr where
  ver : Nat := 1
  ptype : Nat
  src : Nat
  dst : Nat
  bcast : Bool
  ncw : Nat
  qpsk : Bool
  sf : Nat
  pseq : Nat
  len : Nat
  keyId : Nat
  auth : Bool
  deriving DecidableEq, Repr

/-- H[47:0]. -/
def BfHdr.low (h : BfHdr) : Nat :=
  h.ver % 4 + h.ptype % 16 * 2 ^ 2 + h.src % 64 * 2 ^ 6 + h.dst % 64 * 2 ^ 12 + b2n h.bcast * 2 ^ 18 + h.ncw % 4 * 2 ^ 19 +
    b2n h.qpsk * 2 ^ 21 + h.sf % 4 * 2 ^ 22 + h.pseq % 2 ^ 12 * 2 ^ 24 + h.len % 256 * 2 ^ 36 + h.keyId % 8 * 2 ^ 44 +
    b2n h.auth * 2 ^ 47

/-- The header that 48 bits spell. -/
def hdrOf (v : Nat) : BfHdr :=
  { ver := bitsOf v 1 0, ptype := bitsOf v 5 2, src := bitsOf v 11 6, dst := bitsOf v 17 12, bcast := bitB v 18,
    ncw := bitsOf v 20 19, qpsk := bitB v 21, sf := bitsOf v 23 22, pseq := bitsOf v 35 24, len := bitsOf v 43 36,
    keyId := bitsOf v 46 44, auth := bitB v 47 }

/-- One step of the CRC-16 of R292. -/
def crc16Step (r : BitVec 16) (b : Bool) : BitVec 16 := if r.msb ^^ b then (r <<< 1) ^^^ 0x1021#16 else r <<< 1

/-- The CRC-16 of bits in order (R292). -/
def crc16 (bits : List Bool) : BitVec 16 := bits.foldl crc16Step 0xFFFF#16

/-- H[63:48] as a number: H[48] carries the coefficient of x^15 (R292). -/
def hdrCrc (low : Nat) : Nat :=
  let r := crc16 (bitsLE 48 low)
  (List.range 16).foldl (fun a i => a + b2n (r.getLsbD (15 - i)) * 2 ^ i) 0

/-- The 64-bit header. -/
def BfHdr.word (h : BfHdr) : Nat := h.low + hdrCrc h.low * 2 ^ 48

/-- A mode that R294 allows: SF15, SF31 or SF63, and at most three codewords in BPSK at SF63. -/
def modeOk (ncw sf : Nat) (qpsk : Bool) : Bool := sf < 3 && !(sf == 2 && !qpsk && ncw == 3)

/-- The body limit (R293). -/
def bodyMax (ncw : Nat) : Nat := 64 * (ncw + 1) - 14

/-- A header failure, given the 64 bits that decoded (R292). -/
def hdrBad (v : Nat) : Bool :=
  let h := hdrOf v
  hdrCrc (v % 2 ^ 48) != v / 2 ^ 48 % 2 ^ 16 || h.ver != 1 || !modeOk h.ncw h.sf h.qpsk ||
    decide (bodyMax h.ncw < h.len) || (h.ptype == 2 && h.len != 0)

/-- Bytes of a number, lowest first, as naturals. -/
def natsLE (k v : Nat) : List Nat := (bytesLE k v).map BitVec.toNat

/-- The number of bytes given as naturals, lowest first. -/
def natOfLE (bs : List Nat) : Nat := natLE (bs.map fun v => BitVec.ofNat 8 v)

/-- TAG (R306): the first eight bytes of the CMAC over header, FC and body. -/
def bfTag (key : List Nat) (h : BfHdr) (fc : Nat) (body : List Nat) : List Nat :=
  (cmac key (natsLE 6 h.low ++ natsLE 6 fc ++ body)).take 8

/-- The payload area (R293). -/
def bfArea (h : BfHdr) (fc : Nat) (body tag : List Nat) : List Nat :=
  let n := 64 * (h.ncw + 1)
  body ++ List.replicate (n - 14 - body.length) 0 ++ (if h.auth then natsLE 6 fc ++ tag else List.replicate 14 0)

/-- The base matrix of the code (R295, R296). -/
def bfBase (r j : Nat) : Option Nat :=
  if j < 8 then
    let d := (r + 8 - j) % 8
    if d = 0 ∨ d = 1 ∨ d = 3 ∨ d = 5 then some ((r * (2 * j + 3) + 5 * j) % 64) else none
  else if j = 8 then
    if r = 0 ∨ r = 7 then some 1 else if r = 4 then some 0 else none
  else if r + 8 = j ∨ r + 9 = j then some 0 else none

/-- The code of R295. -/
def bfCode : QC := ⟨64, 16, 8, bfBase⟩

/-- lam[r] of R296. -/
def bfLam (u : Nat → Bool) (r i : Nat) : Bool :=
  xorUpTo 8 fun j => match bfBase r j with | some s => u (64 * j + (i + s) % 64) | none => false

/-- p[8] to p[8 + k] of R296: the parity column `k` at bit `i`. -/
def bfPar (u : Nat → Bool) (i : Nat) : Nat → Bool
  | 0 => xorUpTo 8 fun r => bfLam u r i
  | 1 => bfLam u 0 i ^^ (xorUpTo 8 fun r => bfLam u r ((i + 1) % 64))
  | k + 2 => bfLam u (k + 1) i ^^ bfPar u i (k + 1) ^^ (if k = 3 then xorUpTo 8 fun r => bfLam u r i else false)

/-- The codeword of 512 information bits (R296). -/
def bfEncode (u : Nat → Bool) (v : Nat) : Bool := if v < 512 then u v else bfPar u (v % 64) (v / 64 - 8)

/-- The 576 header bits sent: c[0…63] and c[512…1023] (R292). -/
def BfHdr.bits (h : BfHdr) : List Bool :=
  let w := h.word
  let u (v : Nat) : Bool := decide (v < 64) && bitB w v
  (List.range 64).map u ++ (List.range 512).map fun v => bfEncode u (512 + v)

/-- The 1,024 bits sent for codeword `w` of an area (R293). -/
def areaBits (area : List Nat) (w : Nat) : List Bool :=
  let u (v : Nat) : Bool := bitB (area.getD (64 * w + v / 8) 0) (v % 8)
  (List.range 1024).map (bfEncode u)

/-- The bits sent for the payload (R293); a RANGE_REQ has none (R290). -/
def payloadBits (h : BfHdr) (area : List Nat) : List Bool :=
  if h.ptype = 2 then [] else (List.range (h.ncw + 1)).flatMap (areaBits area)

/-- The symbols of a packet: preamble, SFD, header and payload, in order with no gap (R290). -/
def bfLine (h : BfHdr) (area : List Nat) : List BfSym :=
  bfLead ++ bfSyms 0 false h.bits ++ bfSyms h.sf h.qpsk (payloadBits h area)

/-- Chips of a packet (R290, R294). -/
def bfChips (h : BfHdr) : Nat :=
  11160 + (if h.ptype = 2 then 0
    else (h.ncw + 1) * (if h.qpsk then 512 else 1024) * (if h.sf = 0 then 15 else if h.sf = 1 then 31 else 63))

/-! ### State -/

/-- Where a packet on the line comes from (R305). -/
inductive BfSrc
  | ring
  | dual
  | beacon
  | rangeReq
  | rsp
  deriving DecidableEq, Repr

/-- A packet being sent. -/
structure BfTx where
  src : BfSrc
  hdr : BfHdr
  fc : Nat := 0
  area : List Nat := []
  /-- TB at its SFD end -/
  sfdTb : Nat := 0
  deriving DecidableEq, Repr

/-- The TX descriptor in action (R316): its words 0-2, its body, whether a copy has been started, the PSEQ and FC that
its copies share, the lines sent, TB of the first SFD end, and which copies are still to come. -/
structure BfDesc where
  w0 : Nat
  w1 : Nat
  w2 : Nat
  body : List Nat := []
  started : Bool := false
  pseq : Nat := 0
  fc : Nat := 0
  lines : Nat := 0
  tb : Nat := 0
  own : Bool := true
  dual : Bool := false
  /-- where it lies in memory -/
  addr : Nat := 0
  /-- BF_EN has risen since it was taken: the head index is no longer its own (R315) -/
  old : Bool := false
  deriving DecidableEq, Repr

/-- A reception in progress (R298, R299, R308). -/
structure BfRx where
  tb : Nat := 0
  /-- time from the SFD end of this node's last request, in 1/16 ns -/
  since : Nat := 0
  fofs : Int := 0
  snr : Nat := 0
  hdr : Option BfHdr := none
  /-- codewords decoded: the 512 bits, or none where decoding failed -/
  words : List (Option Nat) := []
  iters : Nat := 0
  /-- BF_RXCFG as it stood at detection (R322) -/
  cfg : Nat := 0
  eq : BfEq := {}
  noise : BfNoise := {}
  deriving DecidableEq, Repr

/-- A ranging exchange of the requester (R309). -/
structure BfRng where
  dst : Nat
  form : BfHdr
  sent : Bool := false
  pseq : Nat := 0
  /-- an RSP's header has decoded -/
  heard : Bool := false
  deriving DecidableEq, Repr

/-- A RANGE_RSP to be sent (R309). -/
structure BfRsp where
  req : BfHdr
  snr : Nat
  fofs : Int
  deriving DecidableEq, Repr

/-- A transceiver. -/
structure Bf where
  /-- NODE and the ring settings in effect -/
  node : Nat := 0
  txBase : Nat := 0
  txLog : Nat := 4
  rxBase : Nat := 0
  rxLog : Nat := 4
  /-- the key slots' copies -/
  keys : List (Option (List Nat)) := List.replicate 8 none
  /-- the last idle edge, by TB, where the channel has stayed idle since; it came from the energy rule -/
  edge : Option Nat := none
  energy : Bool := false
  /-- a contended packet waits for the next idle edge (R318) -/
  ring : Option BfDesc := none
  dual : Option BfTx := none
  /-- beacon (true) and RANGE_REQ (false) in order of arrival (R305) -/
  third : List Bool := []
  rsp : Option BfRsp := none
  tx : Option BfTx := none
  /-- the symbols of the packet on the line (R288, R290) -/
  line : List BfSym := []
  rx : Option BfRx := none
  rng : Option BfRng := none
  deriving DecidableEq, Repr

end Sys2Proof.Machine
end

