-- ==== Sys2Proof/Machine/Tables.lean ====
section
/-! DEFINITION. The spec's constant tables: power domains (17_power.md R606-R608), fault sources
(19_faults_availability.md R660, R661, R667), reset values that depend on an index (R130, R630, R656), core regions
(13_molx_system.md R441) and block pages (01_architecture.md R24). -/

namespace Sys2Proof.Machine

/-! ### Power domains (R606, R607) -/

/-- The classes of power domain (R608). -/
inductive DomClass
  | lg | mb | af | afClock | sd | pl | dr | bf | aon
  deriving DecidableEq, Repr

/-- The number of power domains. -/
def numDomains : Nat := 142

/-- The class of domain `i` (R606, R607). -/
def domClass (i : Nat) : DomClass :=
  if i < 112 then
    match i % 14 with
    | 0 => .afClock
    | 1 | 2 | 3 | 4 => .af
    | 7 | 8 | 9 => .lg
    | _ => .mb
  else if i < 120 then .sd
  else if i < 124 then .dr
  else if i = 124 then .mb
  else if i < 127 then .bf
  else if i < 131 then .mb
  else if i = 131 then .lg
  else if i = 132 then .sd
  else if i = 133 then .aon
  else if i < 138 then .pl
  else .mb

/-- The parents of domain `i`: the domains that must be ON for it to come ON (R606, R607). -/
def domParents (i : Nat) : List Nat :=
  if i < 112 then
    let b := 14 * (i / 14)
    match i % 14 with
    | 0 | 1 | 2 | 3 | 4 => [b + 9]
    | 5 | 6 | 7 | 8 => [b]
    | 10 => [b + 9]
    | 12 | 13 => [b + 11]
    | _ => []
  else if i < 116 then [136]
  else if i < 120 then [137]
  else if i < 124 then [124, 135]
  else []

/-- How many banks RET_SEL of domain `i` selects from; 0 where the domain has no RETAIN (R606, R607). -/
def domRetBanks (i : Nat) : Nat :=
  if i < 112 then (if 11 ≤ i % 14 then 4 else 0)
  else if 120 ≤ i ∧ i < 124 then 1
  else if 127 ≤ i ∧ i < 130 then 4
  else if 138 ≤ i then 8
  else 0

/-- State codes of PWC_DOM.STATE (R630). -/
abbrev domOFF : Nat := 0
abbrev domRETAIN : Nat := 1
abbrev domON : Nat := 2
abbrev domCHANGING : Nat := 3

/-- PWC_DOM(i).STATE after PORST_N release and after chip reset (R606, R607). -/
def domResetCode (i : Nat) : Nat :=
  if i = 127 ∨ i = 130 ∨ i = 131 ∨ i = 132 ∨ i = 133 ∨ i = 134 ∨ i = 138 then domON else domOFF

/-- PWC_DOM(i).DEPOT_TGT at reset (R630). -/
def domDepotTgt (i : Nat) : Nat :=
  if i = 127 ∨ (138 ≤ i ∧ i < 142) ∨ (120 ≤ i ∧ i < 124) then 1 else if i = 133 then 2 else 0

/-- The power domain of core `i`: 0-7 the port sequencers, 8 and 9 the Turrets, 10 the Lantern (R606, R607). -/
def coreDom (i : Nat) : Nat := if i < 8 then 14 * i + 11 else if i = 8 then 128 else if i = 9 then 129 else 127

/-- The base of the register region of core `i` (13_molx_system.md, "Registers"). -/
def coreBase (i : Nat) : Nat := if i = 10 then 0xC00000 else 0xA10000 + 0x30000 * i

/-! ### Reset values by index -/

/-- ADAPT(f).LAW at reset (R130). -/
def adaptLawReset (f : Nat) : Nat := if f = 2 then 1 else if f = 3 then 3 else 0
/-- ADAPT(f).MU at reset (R130). -/
def adaptMuReset (f : Nat) : Nat :=
  match f with | 0 => 16 | 1 => 17 | 2 => 20 | 3 => 12 | _ => 11
/-- ADAPT(f).LEAK at reset (R130). -/
def adaptLeakReset (f : Nat) : Nat := if f = 3 then 4 else 0
/-- ADAPT(f).DECIM at reset (R130). -/
def adaptDecimReset (f : Nat) : Nat := if f < 2 then 2 else 0

/-- MON_VLIM(i).UV at reset, mV (R656). -/
def vlimUv (i : Nat) : Nat :=
  if i ≤ 2 then 700 else if i = 5 ∨ i = 6 then 1730 else if i = 10 ∨ i = 11 then 1150 else if i = 12 then 1700
  else if i = 13 then 3120 else if i = 14 then 770 else if i = 15 then 1194 else 860
/-- MON_VLIM(i).OV at reset, mV (R656). -/
def vlimOv (i : Nat) : Nat :=
  if i ≤ 2 then 900 else if i = 5 ∨ i = 6 then 1870 else if i = 10 ∨ i = 11 then 1250 else if i = 12 then 1900
  else if i = 13 then 3480 else if i = 14 then 830 else if i = 15 then 1206 else 940

/-! ### Fault sources (R660, R661, R667) -/

/-- The classes of fault source (R661). -/
inductive SrcClass
  | c | u | f | record
  deriving DecidableEq, Repr

/-- Classes of the sources of one Centre block, by the source number; past the list, not implemented (R661). -/
def centreSources (b : Nat) : List SrcClass :=
  match b with
  | 0x0 => [.c, .c, .c, .u]
  | 0x1 => [.u, .c, .u, .u, .u]
  | 0x2 => [.u, .u]
  | 0x3 => [.u, .f, .c]
  | 0x4 => [.c, .u, .f, .u, .u, .u, .u, .c]
  | 0x5 => [.c, .u, .u]
  | 0x6 => [.u, .u]
  | 0x7 | 0x8 => [.u, .u, .u]
  | 0x9 => [.u, .u, .u, .c, .u, .u, .u]
  | 0xA => [.u, .u, .u, .c, .u, .c]
  | 0xB => [.u, .u, .c, .u, .u]
  | 0xC => [.c, .u]
  | 0xF => List.replicate 16 .record
  | _ => []

/-- Classes of the sources of one East or West block (R660). -/
def sideSources (b : Nat) : List SrcClass :=
  if b < 4 then [.u, .u, .u, .u, .u, .u, .u, .u, .u, .c, .u, .u, .u, .u, .u, .record]
  else if b < 8 then [.c, .c, .u, .u]
  else if b < 10 then [.c, .u, .u]
  else if b = 10 then [.u, .u]
  else []

/-- The class of fault source `i`, or none where it is not implemented (R660, R661). -/
def srcClass? (i : Nat) : Option SrcClass :=
  if i < 512 then (sideSources (i / 16 % 16))[i % 16]?
  else if i < 768 then (centreSources (i / 16 % 16))[i % 16]?
  else none

/-- The code of a class in FLT_SRC_CFG.CLASS (R689). -/
def SrcClass.code : SrcClass → Nat
  | .c => 0 | .u => 1 | .f => 2 | .record => 3

/-- FLT_SRC_CFG(i).IMPL (R689). -/
def srcImplBit (i : Nat) : Nat := if (srcClass? i).isSome then 1 else 0
/-- FLT_SRC_CFG(i).CLASS (R689). -/
def srcClassCode (i : Nat) : Nat := match srcClass? i with | some k => k.code | none => 0
/-- FLT_SRC_CFG(i).NUNITS: a constant of the part (R669). -/
def srcUnits (i : Nat) : Nat := if (srcClass? i).isSome then Config.numUnits i % 2048 else 0
/-- A slice source: 0x0-0x4 of a port (R667). -/
def srcIsSlice (i : Nat) : Bool := i < 512 && i / 16 % 16 < 4 && i % 16 < 5
/-- REPAIR at reset (R667). -/
def srcRepairReset (i : Nat) : Nat := if srcIsSlice i then 1 else 0
/-- PIN at reset (R667). -/
def srcPinReset (i : Nat) : Nat :=
  if i ∈ [0x210, 0x212, 0x220, 0x230, 0x241, 0x243, 0x2B0, 0x2B1, 0x082, 0x092, 0x182, 0x192] then 1 else 0
/-- LNT_NMI at reset (R667). -/
def srcNmiReset (i : Nat) : Nat := if i = 0x241 ∨ i = 0x243 then 1 else 0
/-- LNT_INT at reset (R667): every class C and class U source. -/
def srcLntIntReset (i : Nat) : Nat :=
  match srcClass? i with | some .c => 1 | some .u => 1 | _ => 0
/-- HOST_INT at reset (R667): every class U source. -/
def srcHostIntReset (i : Nat) : Nat := match srcClass? i with | some .u => 1 | _ => 0
/-- Sources held by no block with a block reset (R689). -/
def srcNoBlock (i : Nat) : Bool :=
  i ∈ [0x0A0, 0x0A1, 0x1A0, 0x1A1, 0x200, 0x201, 0x202, 0x203, 0x230, 0x231, 0x232, 0x2C0, 0x2C1]

/-- The fault source base of port `n`: East ports are blocks 0-3, West ports the same blocks of West (R660). -/
def portSrc (n k : Nat) : Nat := 256 * (n / 4) + 16 * (n % 4) + k
/-- A source of host lane `n` (R660). -/
def laneSrc (n k : Nat) : Nat := 256 * (n / 4) + 16 * (4 + n % 4) + k
/-- A source of Cupola channel `c` (R660). -/
def chanSrc (c k : Nat) : Nat := 256 * (c / 2) + 16 * (8 + c % 2) + k

/-! ### Block pages (R24) -/

/-- One kind of page: base and size of the first instance, number of instances, identity, version, BUSY column. -/
structure PageInfo where
  kind : PageKind
  base : Nat
  size : Nat
  count : Nat
  blockId : Nat
  major : Nat
  minor : Nat
  busy : Bool
  deriving DecidableEq, Repr

/-- The block pages of stepping B1 (R24). -/
def pages : List PageInfo := [
  ⟨.ids, 0x00000000, 0x1000, 1, 0x0101, 1, 0, false⟩,
  ⟨.ckc, 0x00001000, 0x1000, 1, 0x0102, 2, 1, true⟩,
  ⟨.pwc, 0x00002000, 0x1000, 1, 0x0103, 2, 0, true⟩,
  ⟨.flt, 0x00004000, 0x4000, 1, 0x0104, 1, 2, false⟩,
  ⟨.mon, 0x00008000, 0x1000, 1, 0x0105, 1, 1, true⟩,
  ⟨.cal, 0x00009000, 0x1000, 1, 0x0106, 1, 0, true⟩,
  ⟨.evj, 0x0000A000, 0x1000, 1, 0x0107, 1, 0, false⟩,
  ⟨.bwr, 0x0000B000, 0x1000, 1, 0x0108, 1, 0, false⟩,
  ⟨.mbx, 0x00010000, 0x10000, 1, 0x0109, 1, 1, false⟩,
  ⟨.kep, 0x00020000, 0x20000, 1, 0x010A, 1, 0, true⟩,
  ⟨.bf, 0x00040000, 0x10000, 2, 0x0120, 1, 0, true⟩,
  ⟨.hl, 0x00080000, 0x2000, 8, 0x0130, 1, 2, true⟩,
  ⟨.cup, 0x00100000, 0x100000, 1, 0x0140, 1, 0, true⟩,
  ⟨.port, 0x00200000, 0x100000, 8, 0x0150, 3, 0, true⟩,
  ⟨.sqc, 0x00A00000, 0x200000, 1, 0x0160, 1, 0, true⟩,
  ⟨.lnt, 0x00C00000, 0x100000, 1, 0x0170, 1, 0, true⟩ ]

/-- A page instance and an offset within it. -/
structure PageRef where
  info : PageInfo
  inst : Nat
  off : Nat
  deriving DecidableEq, Repr

/-- The page that holds normal-view offset `a`, if any (R23, R25). -/
def pageOf (a : Nat) : Option PageRef :=
  (pages.find? fun p => decide (p.base ≤ a ∧ a < p.base + p.size * p.count)).map fun p =>
    ⟨p, (a - p.base) / p.size, (a - p.base) % p.size⟩

/-- The base address of the page that holds `a`. -/
def PageRef.pageBase (r : PageRef) : Nat := r.info.base + r.info.size * r.inst

/-- The fault source "posted write dropped" of a page, where it has posted registers (R12, R660, R661). -/
def PageRef.dropSrc (r : PageRef) : Nat :=
  match r.info.kind with
  | .ckc => 0x214
  | .pwc => 0x221
  | .mon => 0x245
  | .cal => 0x246
  | .kep => 0x261
  | .bf => 0x272 + 16 * r.inst
  | .hl => laneSrc r.inst 3
  | .cup => 0x295
  | .port => portSrc r.inst 0xE
  | .sqc => 0x2A4
  | .lnt => 0x2B4
  | _ => 0x203

/-! ### Coefficient window (04_equalisation_cancellation.md R127) -/

/-- Whether window offset `w` (port-page offset less 0x2_0000) is a coefficient word. -/
def coefWordB (w : Nat) : Bool :=
  if w < 0x18000 then
    let r := w % 0x6000
    r < 0x5400 ||
    (0x5400 ≤ r && r < 0x5A00 && r % 0x200 < 0x100) ||
    (0x5A00 ≤ r && r < 0x5BC0) ||
    (0x5C00 ≤ r && r < 0x5CC0)
  else decide (w < 0x1B100)

/-- Whether window offset `w` belongs to the canceller domain rather than the equaliser domain (R127). -/
def coefIsCanc (w : Nat) : Bool :=
  if w < 0x18000 then decide (w % 0x6000 < 0x5A00) else decide (w < 0x1B000)

end Sys2Proof.Machine
end

