-- ==== Sys2Proof/Machine/Fields.lean ====
section
/-! DEFINITION. Every field of every register card of the spec, under the manual's own register and field names. The
comment before a register names its rule. Reserved fields are named RSV with their highest bit. `n` is a port or lane,
`b` a Belfry transceiver, the other letters are the card's own indices. -/

namespace Sys2Proof.Machine

/-! BUSY of every page that holds posted registers (00_scope.md R12); `p` is the page base. -/

abbrev F.BUSY.RSV31 (p : Nat) : Fld := ⟨p + 0xffc, 2, 30, .rsv, 0⟩
abbrev F.BUSY.WDROP (p : Nat) : Fld := ⟨p + 0xffc, 1, 1, .w1c, 0⟩
abbrev F.BUSY.WPEND (p : Nat) : Fld := ⟨p + 0xffc, 0, 1, .ro, 0⟩

-- R29 IDS_PART (01_architecture.md)
abbrev F.IDS_PART.PART_NUM : Fld := ⟨4, 16, 16, .ro, 0x8a25⟩
abbrev F.IDS_PART.STEP_LETTER : Fld := ⟨4, 12, 4, .ro, 2⟩
abbrev F.IDS_PART.STEP_NUM : Fld := ⟨4, 8, 4, .ro, 1⟩
abbrev F.IDS_PART.RSV7 : Fld := ⟨4, 0, 8, .rsv, 0⟩
-- R30 IDS_ORDER (01_architecture.md)
abbrev F.IDS_ORDER.RSV31 : Fld := ⟨8, 8, 24, .rsv, 0⟩
abbrev F.IDS_ORDER.ORDER_CODE : Fld := ⟨8, 0, 8, .ro, 0x01⟩
-- R31 IDS_STRAP (01_architecture.md)
abbrev F.IDS_STRAP.RSV31 : Fld := ⟨0xc, 3, 29, .rsv, 0⟩
abbrev F.IDS_STRAP.XTAL_DLY : Fld := ⟨0xc, 0, 3, .ro, 0⟩
-- R59 NEG_CTRL (02_port_modes_negotiation.md)
abbrev F.NEG_CTRL.RSV31 (n : Nat) : Fld := ⟨0x201000 + 0x100000 * n, 24, 8, .rsv, 0⟩
abbrev F.NEG_CTRL.PARDET_EN (n : Nat) : Fld := ⟨0x201000 + 0x100000 * n, 23, 1, .rw, 0⟩
abbrev F.NEG_CTRL.FORCE_100 (n : Nat) : Fld := ⟨0x201000 + 0x100000 * n, 22, 1, .rw, 0⟩
abbrev F.NEG_CTRL.SPIRE_ONLY (n : Nat) : Fld := ⟨0x201000 + 0x100000 * n, 21, 1, .rw, 0⟩
abbrev F.NEG_CTRL.DORM_EN (n : Nat) : Fld := ⟨0x201000 + 0x100000 * n, 20, 1, .rw, 1⟩
abbrev F.NEG_CTRL.RSV19 (n : Nat) : Fld := ⟨0x201000 + 0x100000 * n, 16, 4, .rsv, 0⟩
abbrev F.NEG_CTRL.ADV_SPIRE (n : Nat) : Fld := ⟨0x201000 + 0x100000 * n, 15, 1, .rw, 1⟩
abbrev F.NEG_CTRL.ADV_25G (n : Nat) : Fld := ⟨0x201000 + 0x100000 * n, 14, 1, .rw, 1⟩
abbrev F.NEG_CTRL.ADV_10G (n : Nat) : Fld := ⟨0x201000 + 0x100000 * n, 13, 1, .rw, 1⟩
abbrev F.NEG_CTRL.ADV_5G (n : Nat) : Fld := ⟨0x201000 + 0x100000 * n, 12, 1, .rw, 1⟩
abbrev F.NEG_CTRL.ADV_2P5G (n : Nat) : Fld := ⟨0x201000 + 0x100000 * n, 11, 1, .rw, 1⟩
abbrev F.NEG_CTRL.ADV_1G (n : Nat) : Fld := ⟨0x201000 + 0x100000 * n, 10, 1, .rw, 1⟩
abbrev F.NEG_CTRL.ADV_100 (n : Nat) : Fld := ⟨0x201000 + 0x100000 * n, 9, 1, .rw, 1⟩
abbrev F.NEG_CTRL.ADV_EEE (n : Nat) : Fld := ⟨0x201000 + 0x100000 * n, 8, 1, .rw, 1⟩
abbrev F.NEG_CTRL.RSV7 (n : Nat) : Fld := ⟨0x201000 + 0x100000 * n, 2, 6, .rsv, 0⟩
abbrev F.NEG_CTRL.AN_RESTART (n : Nat) : Fld := ⟨0x201000 + 0x100000 * n, 1, 1, .wo, 0⟩
abbrev F.NEG_CTRL.PORT_EN (n : Nat) : Fld := ⟨0x201000 + 0x100000 * n, 0, 1, .rw, 0⟩
-- R60 SPIRE_ADV (02_port_modes_negotiation.md)
abbrev F.SPIRE_ADV.SRATES (n : Nat) : Fld := ⟨0x201004 + 0x100000 * n, 29, 3, .rw, 7⟩
abbrev F.SPIRE_ADV.TOP_RUNG (n : Nat) : Fld := ⟨0x201004 + 0x100000 * n, 24, 5, .rw, 0x1a⟩
abbrev F.SPIRE_ADV.TWIN_CAP (n : Nat) : Fld := ⟨0x201004 + 0x100000 * n, 23, 1, .rw, 0⟩
abbrev F.SPIRE_ADV.MS_FORCE (n : Nat) : Fld := ⟨0x201004 + 0x100000 * n, 22, 1, .rw, 0⟩
abbrev F.SPIRE_ADV.MS_VALUE (n : Nat) : Fld := ⟨0x201004 + 0x100000 * n, 21, 1, .rw, 0⟩
abbrev F.SPIRE_ADV.INP_MS (n : Nat) : Fld := ⟨0x201004 + 0x100000 * n, 16, 5, .rw, 0x10⟩
abbrev F.SPIRE_ADV.LDT_MS (n : Nat) : Fld := ⟨0x201004 + 0x100000 * n, 8, 8, .rw, 0x40⟩
abbrev F.SPIRE_ADV.RSV7 (n : Nat) : Fld := ⟨0x201004 + 0x100000 * n, 0, 8, .rsv, 0⟩
-- R61 SPIRE_EXPECT (02_port_modes_negotiation.md)
abbrev F.SPIRE_EXPECT.RSV31 (n : Nat) : Fld := ⟨0x201008 + 0x100000 * n, 16, 16, .rsv, 0⟩
abbrev F.SPIRE_EXPECT.EXPECT_MODE (n : Nat) : Fld := ⟨0x201008 + 0x100000 * n, 14, 2, .rw, 0⟩
abbrev F.SPIRE_EXPECT.EXP_NODE (n : Nat) : Fld := ⟨0x201008 + 0x100000 * n, 8, 6, .rw, 0⟩
abbrev F.SPIRE_EXPECT.EXP_PORT (n : Nat) : Fld := ⟨0x201008 + 0x100000 * n, 5, 3, .rw, 0⟩
abbrev F.SPIRE_EXPECT.RSV4 (n : Nat) : Fld := ⟨0x201008 + 0x100000 * n, 0, 5, .rsv, 0⟩
-- R62 SENSE_CTRL (02_port_modes_negotiation.md)
abbrev F.SENSE_CTRL.RSV31 (n : Nat) : Fld := ⟨0x20100c + 0x100000 * n, 28, 4, .rsv, 0⟩
abbrev F.SENSE_CTRL.AN_WAIT (n : Nat) : Fld := ⟨0x20100c + 0x100000 * n, 24, 4, .rw, 3⟩
abbrev F.SENSE_CTRL.TRAIN_WAIT (n : Nat) : Fld := ⟨0x20100c + 0x100000 * n, 16, 8, .rw, 0x78⟩
abbrev F.SENSE_CTRL.DORM_BURST (n : Nat) : Fld := ⟨0x20100c + 0x100000 * n, 13, 3, .rw, 2⟩
abbrev F.SENSE_CTRL.ED_THRESH (n : Nat) : Fld := ⟨0x20100c + 0x100000 * n, 10, 3, .rw, 2⟩
abbrev F.SENSE_CTRL.ABSENT_T (n : Nat) : Fld := ⟨0x20100c + 0x100000 * n, 5, 5, .rw, 4⟩
abbrev F.SENSE_CTRL.FAST_DEPART (n : Nat) : Fld := ⟨0x20100c + 0x100000 * n, 4, 1, .rw, 1⟩
abbrev F.SENSE_CTRL.PCHK_PERIOD (n : Nat) : Fld := ⟨0x20100c + 0x100000 * n, 0, 4, .rw, 0⟩
-- R63 PCHK (02_port_modes_negotiation.md)
abbrev F.PCHK.PCHK_GO (n : Nat) : Fld := ⟨0x201010 + 0x100000 * n, 31, 1, .wo, 0⟩
abbrev F.PCHK.PCHK_PAIR (n : Nat) : Fld := ⟨0x201010 + 0x100000 * n, 29, 2, .rw, 0⟩
abbrev F.PCHK.RSV28 (n : Nat) : Fld := ⟨0x201010 + 0x100000 * n, 24, 5, .rsv, 0⟩
abbrev F.PCHK.PCHK_RESULT (n : Nat) : Fld := ⟨0x201010 + 0x100000 * n, 20, 4, .ro, 0⟩
abbrev F.PCHK.PCHK_BUSY (n : Nat) : Fld := ⟨0x201010 + 0x100000 * n, 19, 1, .ro, 0⟩
abbrev F.PCHK.RSV18 (n : Nat) : Fld := ⟨0x201010 + 0x100000 * n, 11, 8, .rsv, 0⟩
abbrev F.PCHK.PCHK_DIST (n : Nat) : Fld := ⟨0x201010 + 0x100000 * n, 0, 11, .ro, 0⟩
-- R64 LINK_STATUS (02_port_modes_negotiation.md)
abbrev F.LINK_STATUS.RSV31 (n : Nat) : Fld := ⟨0x201020 + 0x100000 * n, 28, 4, .rsv, 0⟩
abbrev F.LINK_STATUS.LAST_DOWN (n : Nat) : Fld := ⟨0x201020 + 0x100000 * n, 24, 4, .ro, 0⟩
abbrev F.LINK_STATUS.RSV23 (n : Nat) : Fld := ⟨0x201020 + 0x100000 * n, 21, 3, .rsv, 0⟩
abbrev F.LINK_STATUS.LDT_RAISED (n : Nat) : Fld := ⟨0x201020 + 0x100000 * n, 20, 1, .ro, 0⟩
abbrev F.LINK_STATUS.MS_MASTER (n : Nat) : Fld := ⟨0x201020 + 0x100000 * n, 19, 1, .ro, 0⟩
abbrev F.LINK_STATUS.MDIX (n : Nat) : Fld := ⟨0x201020 + 0x100000 * n, 18, 1, .ro, 0⟩
abbrev F.LINK_STATUS.PD_FD (n : Nat) : Fld := ⟨0x201020 + 0x100000 * n, 17, 1, .ro, 0⟩
abbrev F.LINK_STATUS.RSV16 (n : Nat) : Fld := ⟨0x201020 + 0x100000 * n, 16, 1, .rsv, 0⟩
abbrev F.LINK_STATUS.MODE (n : Nat) : Fld := ⟨0x201020 + 0x100000 * n, 12, 4, .ro, 0⟩
abbrev F.LINK_STATUS.RSV11 (n : Nat) : Fld := ⟨0x201020 + 0x100000 * n, 11, 1, .rsv, 0⟩
abbrev F.LINK_STATUS.STATE (n : Nat) : Fld := ⟨0x201020 + 0x100000 * n, 8, 3, .ro, 0⟩
abbrev F.LINK_STATUS.LDT_RES (n : Nat) : Fld := ⟨0x201020 + 0x100000 * n, 0, 8, .ro, 0⟩
-- R65 PARTNER_INFO (02_port_modes_negotiation.md)
abbrev F.PARTNER_INFO.P_VER (n : Nat) : Fld := ⟨0x201024 + 0x100000 * n, 28, 4, .ro, 0⟩
abbrev F.PARTNER_INFO.P_SRATES (n : Nat) : Fld := ⟨0x201024 + 0x100000 * n, 25, 3, .ro, 0⟩
abbrev F.PARTNER_INFO.RES_TOP_RUNG (n : Nat) : Fld := ⟨0x201024 + 0x100000 * n, 20, 5, .ro, 0⟩
abbrev F.PARTNER_INFO.RES_SRATES (n : Nat) : Fld := ⟨0x201024 + 0x100000 * n, 17, 3, .ro, 0⟩
abbrev F.PARTNER_INFO.P_TWIN_CAP (n : Nat) : Fld := ⟨0x201024 + 0x100000 * n, 16, 1, .ro, 0⟩
abbrev F.PARTNER_INFO.P_NODE (n : Nat) : Fld := ⟨0x201024 + 0x100000 * n, 10, 6, .ro, 0⟩
abbrev F.PARTNER_INFO.P_PORT (n : Nat) : Fld := ⟨0x201024 + 0x100000 * n, 7, 3, .ro, 0⟩
abbrev F.PARTNER_INFO.RSV6 (n : Nat) : Fld := ⟨0x201024 + 0x100000 * n, 0, 7, .rsv, 0⟩
-- R66 LINK_EVENT (02_port_modes_negotiation.md)
abbrev F.LINK_EVENT.RSV31 (n : Nat) : Fld := ⟨0x201028 + 0x100000 * n, 8, 24, .rsv, 0⟩
abbrev F.LINK_EVENT.EXPECT_MISMATCH (n : Nat) : Fld := ⟨0x201028 + 0x100000 * n, 7, 1, .w1c, 0⟩
abbrev F.LINK_EVENT.PCHK_DONE (n : Nat) : Fld := ⟨0x201028 + 0x100000 * n, 6, 1, .w1c, 0⟩
abbrev F.LINK_EVENT.HOLD_ENTER (n : Nat) : Fld := ⟨0x201028 + 0x100000 * n, 5, 1, .w1c, 0⟩
abbrev F.LINK_EVENT.HOLD_EXIT (n : Nat) : Fld := ⟨0x201028 + 0x100000 * n, 4, 1, .w1c, 0⟩
abbrev F.LINK_EVENT.LINK_DOWN (n : Nat) : Fld := ⟨0x201028 + 0x100000 * n, 3, 1, .w1c, 0⟩
abbrev F.LINK_EVENT.LINK_UP (n : Nat) : Fld := ⟨0x201028 + 0x100000 * n, 2, 1, .w1c, 0⟩
abbrev F.LINK_EVENT.PARTNER_LEAVE (n : Nat) : Fld := ⟨0x201028 + 0x100000 * n, 1, 1, .w1c, 0⟩
abbrev F.LINK_EVENT.PARTNER_ARRIVE (n : Nat) : Fld := ⟨0x201028 + 0x100000 * n, 0, 1, .w1c, 0⟩
-- R67 LINK_EVENT_MASK (02_port_modes_negotiation.md)
abbrev F.LINK_EVENT_MASK.RSV31 (n : Nat) : Fld := ⟨0x20102c + 0x100000 * n, 8, 24, .rsv, 0⟩
abbrev F.LINK_EVENT_MASK.EV_MASK (n : Nat) : Fld := ⟨0x20102c + 0x100000 * n, 0, 8, .rw, 0x8f⟩
-- R68 LINK_COUNT (02_port_modes_negotiation.md)
abbrev F.LINK_COUNT.UP_CNT (n : Nat) : Fld := ⟨0x201030 + 0x100000 * n, 16, 16, .ro, 0⟩
abbrev F.LINK_COUNT.FALSE_WAKE (n : Nat) : Fld := ⟨0x201030 + 0x100000 * n, 0, 16, .ro, 0⟩
-- R95 SLICE_CTRL (03_line_signal_path.md)
abbrev F.SLICE_CTRL.TRIM_APPLY (n x : Nat) : Fld := ⟨0x208000 + 0x100000 * n + 0x800 * x, 31, 1, .wo, 0⟩
abbrev F.SLICE_CTRL.TRIM_PEND (n x : Nat) : Fld := ⟨0x208000 + 0x100000 * n + 0x800 * x, 30, 1, .ro, 0⟩
abbrev F.SLICE_CTRL.TRIM_VIEW (n x : Nat) : Fld := ⟨0x208000 + 0x100000 * n + 0x800 * x, 29, 1, .rw, 0⟩
abbrev F.SLICE_CTRL.RSV28 (n x : Nat) : Fld := ⟨0x208000 + 0x100000 * n + 0x800 * x, 22, 7, .rsv, 0⟩
abbrev F.SLICE_CTRL.PGA_GAIN (n x : Nat) : Fld := ⟨0x208000 + 0x100000 * n + 0x800 * x, 16, 6, .rw, 0xc⟩
abbrev F.SLICE_CTRL.RSV15 (n x : Nat) : Fld := ⟨0x208000 + 0x100000 * n + 0x800 * x, 13, 3, .rsv, 0⟩
abbrev F.SLICE_CTRL.TX_AMP (n x : Nat) : Fld := ⟨0x208000 + 0x100000 * n + 0x800 * x, 8, 5, .rw, 0x14⟩
abbrev F.SLICE_CTRL.RSV7 (n x : Nat) : Fld := ⟨0x208000 + 0x100000 * n + 0x800 * x, 0, 8, .rsv, 0⟩
-- R96 SLICE_TRIM (03_line_signal_path.md)
abbrev F.SLICE_TRIM.RSV31 (n x : Nat) : Fld := ⟨0x208004 + 0x100000 * n + 0x800 * x, 30, 2, .rsv, 0⟩
abbrev F.SLICE_TRIM.DAC_I (n x : Nat) : Fld := ⟨0x208004 + 0x100000 * n + 0x800 * x, 24, 6, .rw, 0⟩
abbrev F.SLICE_TRIM.TXA_TRIM (n x : Nat) : Fld := ⟨0x208004 + 0x100000 * n + 0x800 * x, 18, 6, .rw, 0⟩
abbrev F.SLICE_TRIM.HYB_R (n x : Nat) : Fld := ⟨0x208004 + 0x100000 * n + 0x800 * x, 12, 6, .rw, 0x20⟩
abbrev F.SLICE_TRIM.HYB_C (n x : Nat) : Fld := ⟨0x208004 + 0x100000 * n + 0x800 * x, 6, 6, .rw, 0x20⟩
abbrev F.SLICE_TRIM.RSV5 (n x : Nat) : Fld := ⟨0x208004 + 0x100000 * n + 0x800 * x, 0, 6, .rsv, 0⟩
-- R97 SUBADC_TRIM_A (03_line_signal_path.md)
abbrev F.SUBADC_TRIM_A.OFS (n x k : Nat) : Fld := ⟨0x208100 + 0x100000 * n + 0x800 * x + 8 * k, 24, 8, .rw, 0⟩
abbrev F.SUBADC_TRIM_A.GAIN (n x k : Nat) : Fld := ⟨0x208100 + 0x100000 * n + 0x800 * x + 8 * k, 16, 8, .rw, 0⟩
abbrev F.SUBADC_TRIM_A.SKEW (n x k : Nat) : Fld := ⟨0x208100 + 0x100000 * n + 0x800 * x + 8 * k, 9, 7, .rw, 0⟩
abbrev F.SUBADC_TRIM_A.RSV8 (n x k : Nat) : Fld := ⟨0x208100 + 0x100000 * n + 0x800 * x + 8 * k, 0, 9, .rsv, 0⟩
-- R98 SUBADC_TRIM_B (03_line_signal_path.md)
abbrev F.SUBADC_TRIM_B.RSV31 (n x k : Nat) : Fld := ⟨0x208104 + 0x100000 * n + 0x800 * x + 8 * k, 15, 17, .rsv, 0⟩
abbrev F.SUBADC_TRIM_B.THR2 (n x k : Nat) : Fld := ⟨0x208104 + 0x100000 * n + 0x800 * x + 8 * k, 10, 5, .rw, 0⟩
abbrev F.SUBADC_TRIM_B.THR1 (n x k : Nat) : Fld := ⟨0x208104 + 0x100000 * n + 0x800 * x + 8 * k, 5, 5, .rw, 0⟩
abbrev F.SUBADC_TRIM_B.THR0 (n x k : Nat) : Fld := ⟨0x208104 + 0x100000 * n + 0x800 * x + 8 * k, 0, 5, .rw, 0⟩
-- R99 IMP_CTRL (03_line_signal_path.md)
abbrev F.IMP_CTRL.IMP_EN (n x : Nat) : Fld := ⟨0x208200 + 0x100000 * n + 0x800 * x, 31, 1, .rw, 1⟩
abbrev F.IMP_CTRL.IMP_HANG (n x : Nat) : Fld := ⟨0x208200 + 0x100000 * n + 0x800 * x, 28, 3, .rw, 3⟩
abbrev F.IMP_CTRL.IMP_LEVEL (n x : Nat) : Fld := ⟨0x208200 + 0x100000 * n + 0x800 * x, 24, 4, .rw, 0xe⟩
abbrev F.IMP_CTRL.IMP_NCLIP (n x : Nat) : Fld := ⟨0x208200 + 0x100000 * n + 0x800 * x, 20, 4, .rw, 3⟩
abbrev F.IMP_CTRL.IMP_RATIO (n x : Nat) : Fld := ⟨0x208200 + 0x100000 * n + 0x800 * x, 18, 2, .rw, 1⟩
abbrev F.IMP_CTRL.IMPB_EN (n x : Nat) : Fld := ⟨0x208200 + 0x100000 * n + 0x800 * x, 17, 1, .rw, 1⟩
abbrev F.IMP_CTRL.IMP_TAU (n x : Nat) : Fld := ⟨0x208200 + 0x100000 * n + 0x800 * x, 13, 4, .rw, 6⟩
abbrev F.IMP_CTRL.RSV12 (n x : Nat) : Fld := ⟨0x208200 + 0x100000 * n + 0x800 * x, 0, 13, .rsv, 0⟩
-- R100 IMP_STATUS (03_line_signal_path.md)
abbrev F.IMP_STATUS.IMP_FLAG (n x : Nat) : Fld := ⟨0x208204 + 0x100000 * n + 0x800 * x, 31, 1, .ro, 0⟩
abbrev F.IMP_STATUS.IMPB_VALID (n x : Nat) : Fld := ⟨0x208204 + 0x100000 * n + 0x800 * x, 30, 1, .ro, 0⟩
abbrev F.IMP_STATUS.RSV29 (n x : Nat) : Fld := ⟨0x208204 + 0x100000 * n + 0x800 * x, 16, 14, .rsv, 0⟩
abbrev F.IMP_STATUS.IMP_LONGEST (n x : Nat) : Fld := ⟨0x208204 + 0x100000 * n + 0x800 * x, 0, 16, .rcl, 0⟩
-- R101 IMP_EVENTS (03_line_signal_path.md)
abbrev F.IMP_EVENTS.IMP_EVENTS (n x : Nat) : Fld := ⟨0x208208 + 0x100000 * n + 0x800 * x, 0, 32, .ro, 0⟩
-- R102 XB_CTRL (03_line_signal_path.md)
abbrev F.XB_CTRL.XB_GO (n : Nat) : Fld := ⟨0x20a400 + 0x100000 * n, 31, 1, .wo, 0⟩
abbrev F.XB_CTRL.RSV30 (n : Nat) : Fld := ⟨0x20a400 + 0x100000 * n, 27, 4, .rsv, 0⟩
abbrev F.XB_CTRL.XB_REQ (n : Nat) : Fld := ⟨0x20a400 + 0x100000 * n, 24, 3, .rw, 0⟩
abbrev F.XB_CTRL.XB_PAIR (n : Nat) : Fld := ⟨0x20a400 + 0x100000 * n, 22, 2, .rw, 0⟩
abbrev F.XB_CTRL.RSV21 (n : Nat) : Fld := ⟨0x20a400 + 0x100000 * n, 0, 22, .rsv, 0⟩
-- R103 XB_STATUS (03_line_signal_path.md)
abbrev F.XB_STATUS.XB_STATE (n : Nat) : Fld := ⟨0x20a404 + 0x100000 * n, 29, 3, .ro, 0⟩
abbrev F.XB_STATUS.XB_CUR_PAIR (n : Nat) : Fld := ⟨0x20a404 + 0x100000 * n, 27, 2, .ro, 0⟩
abbrev F.XB_STATUS.XB_BUSY (n : Nat) : Fld := ⟨0x20a404 + 0x100000 * n, 26, 1, .ro, 0⟩
abbrev F.XB_STATUS.XB_RESULT (n : Nat) : Fld := ⟨0x20a404 + 0x100000 * n, 24, 2, .ro, 0⟩
abbrev F.XB_STATUS.RSV23 (n : Nat) : Fld := ⟨0x20a404 + 0x100000 * n, 16, 8, .rsv, 0⟩
abbrev F.XB_STATUS.XB_SWAPS (n : Nat) : Fld := ⟨0x20a404 + 0x100000 * n, 0, 16, .ro, 0⟩
-- R130 ADAPT (04_equalisation_cancellation.md)
abbrev F.ADAPT.ADAPT_EN (n x f : Nat) : Fld := ⟨0x20c000 + 0x100000 * n + 0x100 * x + 4 * f, 31, 1, .rw, 1⟩
abbrev F.ADAPT.FREEZE (n x f : Nat) : Fld := ⟨0x20c000 + 0x100000 * n + 0x100 * x + 4 * f, 30, 1, .rw, 0⟩
abbrev F.ADAPT.LAW (n x f : Nat) : Fld := ⟨0x20c000 + 0x100000 * n + 0x100 * x + 4 * f, 28, 2, .rw, adaptLawReset f⟩
abbrev F.ADAPT.MU (n x f : Nat) : Fld := ⟨0x20c000 + 0x100000 * n + 0x100 * x + 4 * f, 23, 5, .rw, adaptMuReset f⟩
abbrev F.ADAPT.LEAK (n x f : Nat) : Fld := ⟨0x20c000 + 0x100000 * n + 0x100 * x + 4 * f, 19, 4, .rw, adaptLeakReset f⟩
abbrev F.ADAPT.DECIM (n x f : Nat) : Fld := ⟨0x20c000 + 0x100000 * n + 0x100 * x + 4 * f, 16, 3, .rw, adaptDecimReset f⟩
abbrev F.ADAPT.RSV15 (n x f : Nat) : Fld := ⟨0x20c000 + 0x100000 * n + 0x100 * x + 4 * f, 8, 8, .rsv, 0⟩
abbrev F.ADAPT.FRZ_CAUSE (n x f : Nat) : Fld := ⟨0x20c000 + 0x100000 * n + 0x100 * x + 4 * f, 0, 8, .ro, 2⟩
-- R131 EQ_CFG (04_equalisation_cancellation.md)
abbrev F.EQ_CFG.RSV31 (n x : Nat) : Fld := ⟨0x20c020 + 0x100000 * n + 0x100 * x, 16, 16, .rsv, 0⟩
abbrev F.EQ_CFG.FFE_MAIN (n x : Nat) : Fld := ⟨0x20c020 + 0x100000 * n + 0x100 * x, 10, 6, .rw, 0x10⟩
abbrev F.EQ_CFG.RSV9 (n x : Nat) : Fld := ⟨0x20c020 + 0x100000 * n + 0x100 * x, 3, 7, .rsv, 0⟩
abbrev F.EQ_CFG.FEXT_EN (n x : Nat) : Fld := ⟨0x20c020 + 0x100000 * n + 0x100 * x, 2, 1, .rw, 1⟩
abbrev F.EQ_CFG.NEXT_EN (n x : Nat) : Fld := ⟨0x20c020 + 0x100000 * n + 0x100 * x, 1, 1, .rw, 1⟩
abbrev F.EQ_CFG.ECHO_EN (n x : Nat) : Fld := ⟨0x20c020 + 0x100000 * n + 0x100 * x, 0, 1, .rw, 1⟩
-- R132 EQ_STATUS (04_equalisation_cancellation.md)
abbrev F.EQ_STATUS.SLC_SNR (n x : Nat) : Fld := ⟨0x20c024 + 0x100000 * n + 0x100 * x, 20, 12, .ro, 0⟩
abbrev F.EQ_STATUS.THP_LEN (n x : Nat) : Fld := ⟨0x20c024 + 0x100000 * n + 0x100 * x, 14, 6, .ro, 0⟩
abbrev F.EQ_STATUS.DFE_LEN (n x : Nat) : Fld := ⟨0x20c024 + 0x100000 * n + 0x100 * x, 8, 6, .ro, 0⟩
abbrev F.EQ_STATUS.RSV7 (n x : Nat) : Fld := ⟨0x20c024 + 0x100000 * n + 0x100 * x, 0, 8, .rsv, 0⟩
-- R133 TRN_CTRL (04_equalisation_cancellation.md)
abbrev F.TRN_CTRL.RSV31 (n : Nat) : Fld := ⟨0x20c800 + 0x100000 * n, 8, 24, .rsv, 0⟩
abbrev F.TRN_CTRL.TRN_MU_OVR (n : Nat) : Fld := ⟨0x20c800 + 0x100000 * n, 7, 1, .rw, 0⟩
abbrev F.TRN_CTRL.COEF_KEEP (n : Nat) : Fld := ⟨0x20c800 + 0x100000 * n, 6, 1, .rw, 0⟩
abbrev F.TRN_CTRL.RSV5 (n : Nat) : Fld := ⟨0x20c800 + 0x100000 * n, 2, 4, .rsv, 0⟩
abbrev F.TRN_CTRL.TRN_SCALE (n : Nat) : Fld := ⟨0x20c800 + 0x100000 * n, 0, 2, .rw, 0⟩
-- R134 TRN_STATUS (04_equalisation_cancellation.md)
abbrev F.TRN_STATUS.TRN_PHASE (n : Nat) : Fld := ⟨0x20c804 + 0x100000 * n, 28, 4, .ro, 0⟩
abbrev F.TRN_STATUS.TRN_FAIL (n : Nat) : Fld := ⟨0x20c804 + 0x100000 * n, 24, 4, .ro, 0⟩
abbrev F.TRN_STATUS.TRN_ATTEMPTS (n : Nat) : Fld := ⟨0x20c804 + 0x100000 * n, 16, 8, .ro, 0⟩
abbrev F.TRN_STATUS.TRN_ELAPSED (n : Nat) : Fld := ⟨0x20c804 + 0x100000 * n, 0, 16, .ro, 0⟩
-- R135 FRZ_CTRL (04_equalisation_cancellation.md)
abbrev F.FRZ_CTRL.RSV31 (n : Nat) : Fld := ⟨0x20c808 + 0x100000 * n, 8, 24, .rsv, 0⟩
abbrev F.FRZ_CTRL.FRZ_HANG (n : Nat) : Fld := ⟨0x20c808 + 0x100000 * n, 4, 4, .rw, 4⟩
abbrev F.FRZ_CTRL.IMP_FRZ_EN (n : Nat) : Fld := ⟨0x20c808 + 0x100000 * n, 3, 1, .rw, 1⟩
abbrev F.FRZ_CTRL.DEC_FRZ_EN (n : Nat) : Fld := ⟨0x20c808 + 0x100000 * n, 2, 1, .rw, 1⟩
abbrev F.FRZ_CTRL.RSV1 (n : Nat) : Fld := ⟨0x20c808 + 0x100000 * n, 0, 2, .rsv, 0⟩
-- R165 FRM_CTRL (05_spire_framing_ldpc.md)
abbrev F.FRM_CTRL.RSV31 (n : Nat) : Fld := ⟨0x202000 + 0x100000 * n, 21, 11, .rsv, 0⟩
abbrev F.FRM_CTRL.ERASE_EN (n : Nat) : Fld := ⟨0x202000 + 0x100000 * n, 20, 1, .rw, 1⟩
abbrev F.FRM_CTRL.NORM (n : Nat) : Fld := ⟨0x202000 + 0x100000 * n, 16, 4, .rw, 0xc⟩
abbrev F.FRM_CTRL.CUT_TH (n : Nat) : Fld := ⟨0x202000 + 0x100000 * n, 8, 8, .rw, 0x10⟩
abbrev F.FRM_CTRL.ET_EN (n : Nat) : Fld := ⟨0x202000 + 0x100000 * n, 7, 1, .rw, 1⟩
abbrev F.FRM_CTRL.HALF_SEL (n : Nat) : Fld := ⟨0x202000 + 0x100000 * n, 5, 2, .rw, 0⟩
abbrev F.FRM_CTRL.ITER_MAX (n : Nat) : Fld := ⟨0x202000 + 0x100000 * n, 0, 5, .rw, 0⟩
-- R166 FRM_STATUS (05_spire_framing_ldpc.md)
abbrev F.FRM_STATUS.RSV31 (n : Nat) : Fld := ⟨0x202004 + 0x100000 * n, 16, 16, .rsv, 0⟩
abbrev F.FRM_STATUS.ITER_LIMIT (n : Nat) : Fld := ⟨0x202004 + 0x100000 * n, 10, 6, .ro, 0⟩
abbrev F.FRM_STATUS.HALF1_FAIL (n : Nat) : Fld := ⟨0x202004 + 0x100000 * n, 9, 1, .ro, 0⟩
abbrev F.FRM_STATUS.HALF0_FAIL (n : Nat) : Fld := ⟨0x202004 + 0x100000 * n, 8, 1, .ro, 0⟩
abbrev F.FRM_STATUS.HALF1_UP (n : Nat) : Fld := ⟨0x202004 + 0x100000 * n, 7, 1, .ro, 0⟩
abbrev F.FRM_STATUS.HALF0_UP (n : Nat) : Fld := ⟨0x202004 + 0x100000 * n, 6, 1, .ro, 0⟩
abbrev F.FRM_STATUS.LOCK_RX (n : Nat) : Fld := ⟨0x202004 + 0x100000 * n, 5, 1, .ro, 0⟩
abbrev F.FRM_STATUS.LOCK_PARTNER (n : Nat) : Fld := ⟨0x202004 + 0x100000 * n, 4, 1, .ro, 0⟩
abbrev F.FRM_STATUS.RSV3 (n : Nat) : Fld := ⟨0x202004 + 0x100000 * n, 0, 4, .rsv, 0⟩
-- R167 FRM_GOOD_LO (05_spire_framing_ldpc.md)
abbrev F.FRM_GOOD_LO.GOOD_LO (n : Nat) : Fld := ⟨0x202010 + 0x100000 * n, 0, 32, .ro, 0⟩
-- R168 FRM_GOOD_HI (05_spire_framing_ldpc.md)
abbrev F.FRM_GOOD_HI.GOOD_HI (n : Nat) : Fld := ⟨0x202014 + 0x100000 * n, 0, 32, .ro, 0⟩
-- R169 FRM_DEC_FAIL (05_spire_framing_ldpc.md)
abbrev F.FRM_DEC_FAIL.DEC_FAIL (n : Nat) : Fld := ⟨0x202018 + 0x100000 * n, 0, 32, .ro, 0⟩
-- R170 FRM_CRC_FAIL (05_spire_framing_ldpc.md)
abbrev F.FRM_CRC_FAIL.CRC_FAIL (n : Nat) : Fld := ⟨0x20201c + 0x100000 * n, 0, 32, .ro, 0⟩
-- R171 FIELD_ERR (05_spire_framing_ldpc.md)
abbrev F.FIELD_ERR.TYPE_BAD (n : Nat) : Fld := ⟨0x202020 + 0x100000 * n, 16, 16, .ro, 0⟩
abbrev F.FIELD_ERR.CTL_BAD (n : Nat) : Fld := ⟨0x202020 + 0x100000 * n, 0, 16, .ro, 0⟩
-- R172 BLK_ERR (05_spire_framing_ldpc.md)
abbrev F.BLK_ERR.SYNC_BAD (n : Nat) : Fld := ⟨0x202024 + 0x100000 * n, 16, 16, .ro, 0⟩
abbrev F.BLK_ERR.UNDERRUN (n : Nat) : Fld := ⟨0x202024 + 0x100000 * n, 0, 16, .ro, 0⟩
-- R173 DEC_FRAMES (05_spire_framing_ldpc.md)
abbrev F.DEC_FRAMES.H_FRAMES (n h : Nat) : Fld := ⟨0x210010 + 0x100000 * n + 0x4000 * h, 0, 32, .ro, 0⟩
-- R174 DEC_ITER_SUM (05_spire_framing_ldpc.md)
abbrev F.DEC_ITER_SUM.H_ITER_SUM (n h : Nat) : Fld := ⟨0x210014 + 0x100000 * n + 0x4000 * h, 0, 32, .ro, 0⟩
-- R175 DEC_STAT (05_spire_framing_ldpc.md)
abbrev F.DEC_STAT.H_FAIL (n h : Nat) : Fld := ⟨0x210018 + 0x100000 * n + 0x4000 * h, 16, 16, .ro, 0⟩
abbrev F.DEC_STAT.RSV15 (n h : Nat) : Fld := ⟨0x210018 + 0x100000 * n + 0x4000 * h, 6, 10, .rsv, 0⟩
abbrev F.DEC_STAT.ITER_PEAK (n h : Nat) : Fld := ⟨0x210018 + 0x100000 * n + 0x4000 * h, 0, 6, .rcl, 0⟩
-- R196 LAD_CTRL (06_rate_ladder.md)
abbrev F.LAD_CTRL.LAD_MODE (n : Nat) : Fld := ⟨0x203000 + 0x100000 * n, 30, 2, .rw, 0⟩
abbrev F.LAD_CTRL.SHIFT_T (n : Nat) : Fld := ⟨0x203000 + 0x100000 * n, 24, 6, .rw, 8⟩
abbrev F.LAD_CTRL.UP_HOLDOFF (n : Nat) : Fld := ⟨0x203000 + 0x100000 * n, 16, 8, .rw, 0x10⟩
abbrev F.LAD_CTRL.UP_DWELL (n : Nat) : Fld := ⟨0x203000 + 0x100000 * n, 12, 4, .rw, 8⟩
abbrev F.LAD_CTRL.FAIL_DN (n : Nat) : Fld := ⟨0x203000 + 0x100000 * n, 8, 4, .rw, 4⟩
abbrev F.LAD_CTRL.ITER_UP (n : Nat) : Fld := ⟨0x203000 + 0x100000 * n, 5, 3, .rw, 3⟩
abbrev F.LAD_CTRL.ITER_DN (n : Nat) : Fld := ⟨0x203000 + 0x100000 * n, 2, 3, .rw, 6⟩
abbrev F.LAD_CTRL.FALLBACK_EN (n : Nat) : Fld := ⟨0x203000 + 0x100000 * n, 1, 1, .rw, 1⟩
abbrev F.LAD_CTRL.RSV0 (n : Nat) : Fld := ⟨0x203000 + 0x100000 * n, 0, 1, .rsv, 0⟩
-- R197 LAD_MARGIN (06_rate_ladder.md)
abbrev F.LAD_MARGIN.TGT_MARGIN (n : Nat) : Fld := ⟨0x203004 + 0x100000 * n, 24, 8, .rw, 0x30⟩
abbrev F.LAD_MARGIN.HYST (n : Nat) : Fld := ⟨0x203004 + 0x100000 * n, 16, 8, .rw, 0x18⟩
abbrev F.LAD_MARGIN.DN_MARGIN (n : Nat) : Fld := ⟨0x203004 + 0x100000 * n, 8, 8, .rw, 0x10⟩
abbrev F.LAD_MARGIN.RSV7 (n : Nat) : Fld := ⟨0x203004 + 0x100000 * n, 0, 8, .rsv, 0⟩
-- R198 LAD_REQSNR (06_rate_ladder.md)
abbrev F.LAD_REQSNR.REQ32 (n : Nat) : Fld := ⟨0x203008 + 0x100000 * n, 24, 8, .rw, 0xe8⟩
abbrev F.LAD_REQSNR.REQ16 (n : Nat) : Fld := ⟨0x203008 + 0x100000 * n, 16, 8, .rw, 0xb8⟩
abbrev F.LAD_REQSNR.REQ8 (n : Nat) : Fld := ⟨0x203008 + 0x100000 * n, 8, 8, .rw, 0x88⟩
abbrev F.LAD_REQSNR.REQ4 (n : Nat) : Fld := ⟨0x203008 + 0x100000 * n, 0, 8, .rw, 0x58⟩
-- R199 LAD_REQ (06_rate_ladder.md)
abbrev F.LAD_REQ.LREQ_GO (n : Nat) : Fld := ⟨0x20300c + 0x100000 * n, 31, 1, .wo, 0⟩
abbrev F.LAD_REQ.RSV30 (n : Nat) : Fld := ⟨0x20300c + 0x100000 * n, 29, 2, .rsv, 0⟩
abbrev F.LAD_REQ.LREQ_RUNG (n : Nat) : Fld := ⟨0x20300c + 0x100000 * n, 24, 5, .rw, 0⟩
abbrev F.LAD_REQ.LREQ_LOAD (n : Nat) : Fld := ⟨0x20300c + 0x100000 * n, 18, 6, .rw, 0⟩
abbrev F.LAD_REQ.LREQ_RESULT (n : Nat) : Fld := ⟨0x20300c + 0x100000 * n, 16, 2, .ro, 0⟩
abbrev F.LAD_REQ.RSV15 (n : Nat) : Fld := ⟨0x20300c + 0x100000 * n, 0, 16, .rsv, 0⟩
-- R200 LAD_STATUS (06_rate_ladder.md)
abbrev F.LAD_STATUS.TX_RUNG (n : Nat) : Fld := ⟨0x203010 + 0x100000 * n, 27, 5, .ro, 0⟩
abbrev F.LAD_STATUS.TX_LOAD (n : Nat) : Fld := ⟨0x203010 + 0x100000 * n, 21, 6, .ro, 0⟩
abbrev F.LAD_STATUS.RX_RUNG (n : Nat) : Fld := ⟨0x203010 + 0x100000 * n, 16, 5, .ro, 0⟩
abbrev F.LAD_STATUS.RX_LOAD (n : Nat) : Fld := ⟨0x203010 + 0x100000 * n, 10, 6, .ro, 0⟩
abbrev F.LAD_STATUS.TX_STATE (n : Nat) : Fld := ⟨0x203010 + 0x100000 * n, 8, 2, .ro, 0⟩
abbrev F.LAD_STATUS.RX_STATE (n : Nat) : Fld := ⟨0x203010 + 0x100000 * n, 6, 2, .ro, 0⟩
abbrev F.LAD_STATUS.TIER_HINT (n : Nat) : Fld := ⟨0x203010 + 0x100000 * n, 4, 2, .ro, 0⟩
abbrev F.LAD_STATUS.RSV3 (n : Nat) : Fld := ⟨0x203010 + 0x100000 * n, 0, 4, .rsv, 0⟩
-- R201 LAD_PROPOSE (06_rate_ladder.md)
abbrev F.LAD_PROPOSE.P_VALID (n : Nat) : Fld := ⟨0x203014 + 0x100000 * n, 31, 1, .ro, 0⟩
abbrev F.LAD_PROPOSE.P_RUNG (n : Nat) : Fld := ⟨0x203014 + 0x100000 * n, 26, 5, .ro, 0⟩
abbrev F.LAD_PROPOSE.P_LOAD (n : Nat) : Fld := ⟨0x203014 + 0x100000 * n, 20, 6, .ro, 0⟩
abbrev F.LAD_PROPOSE.P_MARGIN (n : Nat) : Fld := ⟨0x203014 + 0x100000 * n, 10, 10, .ro, 0⟩
abbrev F.LAD_PROPOSE.CUR_MARGIN (n : Nat) : Fld := ⟨0x203014 + 0x100000 * n, 0, 10, .ro, 0⟩
-- R202 LAD_EVENT (06_rate_ladder.md)
abbrev F.LAD_EVENT.RSV31 (n : Nat) : Fld := ⟨0x203018 + 0x100000 * n, 8, 24, .rsv, 0⟩
abbrev F.LAD_EVENT.PROPOSAL (n : Nat) : Fld := ⟨0x203018 + 0x100000 * n, 7, 1, .w1c, 0⟩
abbrev F.LAD_EVENT.TIER (n : Nat) : Fld := ⟨0x203018 + 0x100000 * n, 6, 1, .w1c, 0⟩
abbrev F.LAD_EVENT.FALLBACK (n : Nat) : Fld := ⟨0x203018 + 0x100000 * n, 5, 1, .w1c, 0⟩
abbrev F.LAD_EVENT.RX_ABORTED (n : Nat) : Fld := ⟨0x203018 + 0x100000 * n, 4, 1, .w1c, 0⟩
abbrev F.LAD_EVENT.TX_ABORTED (n : Nat) : Fld := ⟨0x203018 + 0x100000 * n, 3, 1, .w1c, 0⟩
abbrev F.LAD_EVENT.RX_SHIFT (n : Nat) : Fld := ⟨0x203018 + 0x100000 * n, 2, 1, .w1c, 0⟩
abbrev F.LAD_EVENT.TX_SHIFT (n : Nat) : Fld := ⟨0x203018 + 0x100000 * n, 1, 1, .w1c, 0⟩
abbrev F.LAD_EVENT.RSV0 (n : Nat) : Fld := ⟨0x203018 + 0x100000 * n, 0, 1, .rsv, 0⟩
-- R203 LAD_EVENT_MASK (06_rate_ladder.md)
abbrev F.LAD_EVENT_MASK.RSV31 (n : Nat) : Fld := ⟨0x20301c + 0x100000 * n, 8, 24, .rsv, 0⟩
abbrev F.LAD_EVENT_MASK.LEV_MASK (n : Nat) : Fld := ⟨0x20301c + 0x100000 * n, 0, 8, .rw, 0x60⟩
-- R204 LAD_COUNT (06_rate_ladder.md)
abbrev F.LAD_COUNT.RX_UP (n : Nat) : Fld := ⟨0x203020 + 0x100000 * n, 16, 16, .ro, 0⟩
abbrev F.LAD_COUNT.RX_DOWN (n : Nat) : Fld := ⟨0x203020 + 0x100000 * n, 0, 16, .ro, 0⟩
-- R205 LAD_ABORT (06_rate_ladder.md)
abbrev F.LAD_ABORT.TX_REQ_BAD (n : Nat) : Fld := ⟨0x203024 + 0x100000 * n, 24, 8, .ro, 0⟩
abbrev F.LAD_ABORT.TX_ABORT (n : Nat) : Fld := ⟨0x203024 + 0x100000 * n, 12, 12, .ro, 0⟩
abbrev F.LAD_ABORT.RX_ABORT (n : Nat) : Fld := ⟨0x203024 + 0x100000 * n, 0, 12, .ro, 0⟩
-- R234 RTX_CTRL (07_retransmission_spill.md)
abbrev F.RTX_CTRL.RSV31 (n : Nat) : Fld := ⟨0x218000 + 0x100000 * n, 28, 4, .rsv, 0⟩
abbrev F.RTX_CTRL.NAK_EN (n : Nat) : Fld := ⟨0x218000 + 0x100000 * n, 27, 1, .rw, 1⟩
abbrev F.RTX_CTRL.IMP_BLK_EN (n : Nat) : Fld := ⟨0x218000 + 0x100000 * n, 26, 1, .rw, 1⟩
abbrev F.RTX_CTRL.WIN_SIZE (n : Nat) : Fld := ⟨0x218000 + 0x100000 * n, 16, 10, .rw, 0⟩
abbrev F.RTX_CTRL.ACK_TO (n : Nat) : Fld := ⟨0x218000 + 0x100000 * n, 8, 8, .rw, 0x20⟩
abbrev F.RTX_CTRL.BLK_FAILS (n : Nat) : Fld := ⟨0x218000 + 0x100000 * n, 4, 4, .rw, 4⟩
abbrev F.RTX_CTRL.BLK_GOOD (n : Nat) : Fld := ⟨0x218000 + 0x100000 * n, 0, 4, .rw, 2⟩
-- R235 RTX_SEQ (07_retransmission_spill.md)
abbrev F.RTX_SEQ.RX_EXPECT (n : Nat) : Fld := ⟨0x218004 + 0x100000 * n, 16, 16, .ro, 0⟩
abbrev F.RTX_SEQ.TX_OLDEST (n : Nat) : Fld := ⟨0x218004 + 0x100000 * n, 0, 16, .ro, 0⟩
-- R236 RTX_STATUS (07_retransmission_spill.md)
abbrev F.RTX_STATUS.TX_NEXT (n : Nat) : Fld := ⟨0x218008 + 0x100000 * n, 16, 16, .ro, 0⟩
abbrev F.RTX_STATUS.OUTSTANDING (n : Nat) : Fld := ⟨0x218008 + 0x100000 * n, 6, 10, .ro, 0⟩
abbrev F.RTX_STATUS.REPLAY (n : Nat) : Fld := ⟨0x218008 + 0x100000 * n, 5, 1, .ro, 0⟩
abbrev F.RTX_STATUS.GAP (n : Nat) : Fld := ⟨0x218008 + 0x100000 * n, 4, 1, .ro, 0⟩
abbrev F.RTX_STATUS.ACK_TMR (n : Nat) : Fld := ⟨0x218008 + 0x100000 * n, 3, 1, .ro, 0⟩
abbrev F.RTX_STATUS.RSV2 (n : Nat) : Fld := ⟨0x218008 + 0x100000 * n, 0, 3, .rsv, 0⟩
-- R237 RTX_RTT (07_retransmission_spill.md)
abbrev F.RTX_RTT.CABLE_DLY (n : Nat) : Fld := ⟨0x21800c + 0x100000 * n, 20, 12, .ro, 0⟩
abbrev F.RTX_RTT.RSV19 (n : Nat) : Fld := ⟨0x21800c + 0x100000 * n, 16, 4, .rsv, 0⟩
abbrev F.RTX_RTT.RT_BOUND (n : Nat) : Fld := ⟨0x21800c + 0x100000 * n, 0, 16, .ro, 0⟩
-- R238 RTX_FRAMES (07_retransmission_spill.md)
abbrev F.RTX_FRAMES.RTX_FRAMES (n : Nat) : Fld := ⟨0x218010 + 0x100000 * n, 0, 32, .ro, 0⟩
-- R239 RTX_GOBACK (07_retransmission_spill.md)
abbrev F.RTX_GOBACK.GB_NAK (n : Nat) : Fld := ⟨0x218014 + 0x100000 * n, 16, 16, .ro, 0⟩
abbrev F.RTX_GOBACK.GB_TIMEOUT (n : Nat) : Fld := ⟨0x218014 + 0x100000 * n, 0, 16, .ro, 0⟩
-- R240 RTX_RX_CNT (07_retransmission_spill.md)
abbrev F.RTX_RX_CNT.RX_AHEAD (n : Nat) : Fld := ⟨0x218018 + 0x100000 * n, 16, 16, .ro, 0⟩
abbrev F.RTX_RX_CNT.ACK_BAD (n : Nat) : Fld := ⟨0x218018 + 0x100000 * n, 8, 8, .ro, 0⟩
abbrev F.RTX_RX_CNT.SEQ_FAR (n : Nat) : Fld := ⟨0x218018 + 0x100000 * n, 0, 8, .ro, 0⟩
-- R241 RTX_DUP (07_retransmission_spill.md)
abbrev F.RTX_DUP.RX_DUP (n : Nat) : Fld := ⟨0x21801c + 0x100000 * n, 0, 32, .ro, 0⟩
-- R242 HOLD_STAT (07_retransmission_spill.md)
abbrev F.HOLD_STAT.HOLD_CNT (n : Nat) : Fld := ⟨0x218020 + 0x100000 * n, 16, 16, .ro, 0⟩
abbrev F.HOLD_STAT.HOLD_LONGEST (n : Nat) : Fld := ⟨0x218020 + 0x100000 * n, 0, 16, .rcl, 0⟩
-- R243 HOLD_TIME (07_retransmission_spill.md)
abbrev F.HOLD_TIME.HOLD_TIME (n : Nat) : Fld := ⟨0x218024 + 0x100000 * n, 0, 32, .ro, 0⟩
-- R244 SPILL_CTRL (07_retransmission_spill.md)
abbrev F.SPILL_CTRL.SPILL_EN (n : Nat) : Fld := ⟨0x218040 + 0x100000 * n, 31, 1, .rw, 1⟩
abbrev F.SPILL_CTRL.FC_EN (n : Nat) : Fld := ⟨0x218040 + 0x100000 * n, 30, 1, .rw, 1⟩
abbrev F.SPILL_CTRL.RSV29 (n : Nat) : Fld := ⟨0x218040 + 0x100000 * n, 28, 2, .rsv, 0⟩
abbrev F.SPILL_CTRL.SPILL_ON (n : Nat) : Fld := ⟨0x218040 + 0x100000 * n, 24, 4, .rw, 4⟩
abbrev F.SPILL_CTRL.PAUSE_FIFO (n : Nat) : Fld := ⟨0x218040 + 0x100000 * n, 20, 4, .rw, 0xc⟩
abbrev F.SPILL_CTRL.RSV19 (n : Nat) : Fld := ⟨0x218040 + 0x100000 * n, 16, 4, .rsv, 0⟩
abbrev F.SPILL_CTRL.HEADROOM (n : Nat) : Fld := ⟨0x218040 + 0x100000 * n, 0, 16, .rw, 0x60⟩
-- R245 SPILL_PAGES (07_retransmission_spill.md)
abbrev F.SPILL_PAGES.SPILL_RSV (n : Nat) : Fld := ⟨0x218044 + 0x100000 * n, 16, 16, .rw, 0⟩
abbrev F.SPILL_PAGES.SPILL_MAX (n : Nat) : Fld := ⟨0x218044 + 0x100000 * n, 0, 16, .rw, 0⟩
-- R246 SPILL_STATUS (07_retransmission_spill.md)
abbrev F.SPILL_STATUS.IN_USE (n : Nat) : Fld := ⟨0x218048 + 0x100000 * n, 16, 16, .ro, 0⟩
abbrev F.SPILL_STATUS.SPILLING (n : Nat) : Fld := ⟨0x218048 + 0x100000 * n, 15, 1, .ro, 0⟩
abbrev F.SPILL_STATUS.ICONG (n : Nat) : Fld := ⟨0x218048 + 0x100000 * n, 14, 1, .ro, 0⟩
abbrev F.SPILL_STATUS.SPILL_FULL (n : Nat) : Fld := ⟨0x218048 + 0x100000 * n, 13, 1, .ro, 0⟩
abbrev F.SPILL_STATUS.WR_DEMOTED (n : Nat) : Fld := ⟨0x218048 + 0x100000 * n, 12, 1, .ro, 0⟩
abbrev F.SPILL_STATUS.RSV_REFUSED (n : Nat) : Fld := ⟨0x218048 + 0x100000 * n, 11, 1, .ro, 0⟩
abbrev F.SPILL_STATUS.RSV10 (n : Nat) : Fld := ⟨0x218048 + 0x100000 * n, 0, 11, .rsv, 0⟩
-- R247 SPILL_PEAK (07_retransmission_spill.md)
abbrev F.SPILL_PEAK.RSV31 (n : Nat) : Fld := ⟨0x21804c + 0x100000 * n, 16, 16, .rsv, 0⟩
abbrev F.SPILL_PEAK.PEAK (n : Nat) : Fld := ⟨0x21804c + 0x100000 * n, 0, 16, .rcl, 0⟩
-- R248 SPILL_BLOCKS_LO (07_retransmission_spill.md)
abbrev F.SPILL_BLOCKS_LO.SPB_LO (n : Nat) : Fld := ⟨0x218050 + 0x100000 * n, 0, 32, .ro, 0⟩
-- R249 SPILL_BLOCKS_HI (07_retransmission_spill.md)
abbrev F.SPILL_BLOCKS_HI.SPB_HI (n : Nat) : Fld := ⟨0x218054 + 0x100000 * n, 0, 32, .ro, 0⟩
-- R250 SPILL_EV (07_retransmission_spill.md)
abbrev F.SPILL_EV.SPILL_ENTRIES (n : Nat) : Fld := ⟨0x218058 + 0x100000 * n, 16, 16, .ro, 0⟩
abbrev F.SPILL_EV.ICONG_ON (n : Nat) : Fld := ⟨0x218058 + 0x100000 * n, 0, 16, .ro, 0⟩
-- R251 ING_DROP (07_retransmission_spill.md)
abbrev F.ING_DROP.DROP_FRAMES (n : Nat) : Fld := ⟨0x21805c + 0x100000 * n, 0, 32, .ro, 0⟩
-- R252 ING_LOSS (07_retransmission_spill.md)
abbrev F.ING_LOSS.TRUNC (n : Nat) : Fld := ⟨0x218060 + 0x100000 * n, 16, 16, .ro, 0⟩
abbrev F.ING_LOSS.SPILL_LOST (n : Nat) : Fld := ⟨0x218060 + 0x100000 * n, 0, 16, .ro, 0⟩
-- R253 DOWN_DISCARD (07_retransmission_spill.md)
abbrev F.DOWN_DISCARD.DOWN_DISCARD (n : Nat) : Fld := ⟨0x218064 + 0x100000 * n, 0, 32, .ro, 0⟩
-- R254 RTX_EVENT (07_retransmission_spill.md)
abbrev F.RTX_EVENT.RSV31 (n : Nat) : Fld := ⟨0x218070 + 0x100000 * n, 8, 24, .rsv, 0⟩
abbrev F.RTX_EVENT.INP_EXCEEDED (n : Nat) : Fld := ⟨0x218070 + 0x100000 * n, 7, 1, .w1c, 0⟩
abbrev F.RTX_EVENT.SPILL_FULL (n : Nat) : Fld := ⟨0x218070 + 0x100000 * n, 6, 1, .w1c, 0⟩
abbrev F.RTX_EVENT.DROP (n : Nat) : Fld := ⟨0x218070 + 0x100000 * n, 5, 1, .w1c, 0⟩
abbrev F.RTX_EVENT.SPILL_LOST (n : Nat) : Fld := ⟨0x218070 + 0x100000 * n, 4, 1, .w1c, 0⟩
abbrev F.RTX_EVENT.WIN_UE (n : Nat) : Fld := ⟨0x218070 + 0x100000 * n, 3, 1, .w1c, 0⟩
abbrev F.RTX_EVENT.ICONG_RISE (n : Nat) : Fld := ⟨0x218070 + 0x100000 * n, 2, 1, .w1c, 0⟩
abbrev F.RTX_EVENT.SPILL_START (n : Nat) : Fld := ⟨0x218070 + 0x100000 * n, 1, 1, .w1c, 0⟩
abbrev F.RTX_EVENT.RSV0 (n : Nat) : Fld := ⟨0x218070 + 0x100000 * n, 0, 1, .rsv, 0⟩
-- R255 RTX_EVENT_MASK (07_retransmission_spill.md)
abbrev F.RTX_EVENT_MASK.RSV31 (n : Nat) : Fld := ⟨0x218074 + 0x100000 * n, 8, 24, .rsv, 0⟩
abbrev F.RTX_EVENT_MASK.RTX_MASK (n : Nat) : Fld := ⟨0x218074 + 0x100000 * n, 0, 8, .rw, 0xf8⟩
-- R276 TW_CTRL (08_twin_paths.md)
abbrev F.TW_CTRL.TW_EN (k : Nat) : Fld := ⟨0x1f0000 + 0x100 * k, 31, 1, .rw, 0⟩
abbrev F.TW_CTRL.PRIMARY (k : Nat) : Fld := ⟨0x1f0000 + 0x100 * k, 30, 1, .rw, 0⟩
abbrev F.TW_CTRL.LANE_FO (k : Nat) : Fld := ⟨0x1f0000 + 0x100 * k, 29, 1, .rw, 0⟩
abbrev F.TW_CTRL.RSV28 (k : Nat) : Fld := ⟨0x1f0000 + 0x100 * k, 28, 1, .rsv, 0⟩
abbrev F.TW_CTRL.TW_LAG (k : Nat) : Fld := ⟨0x1f0000 + 0x100 * k, 20, 8, .rw, 0x10⟩
abbrev F.TW_CTRL.MRG_WAIT (k : Nat) : Fld := ⟨0x1f0000 + 0x100 * k, 14, 6, .rw, 8⟩
abbrev F.TW_CTRL.RSV13 (k : Nat) : Fld := ⟨0x1f0000 + 0x100 * k, 0, 14, .rsv, 0⟩
-- R277 TW_STATUS (08_twin_paths.md)
abbrev F.TW_STATUS.PAIR_STATE (k : Nat) : Fld := ⟨0x1f0004 + 0x100 * k, 30, 2, .ro, 0⟩
abbrev F.TW_STATUS.M1_STATE (k : Nat) : Fld := ⟨0x1f0004 + 0x100 * k, 28, 2, .ro, 0⟩
abbrev F.TW_STATUS.M0_STATE (k : Nat) : Fld := ⟨0x1f0004 + 0x100 * k, 26, 2, .ro, 0⟩
abbrev F.TW_STATUS.CFG_PEND (k : Nat) : Fld := ⟨0x1f0004 + 0x100 * k, 25, 1, .ro, 0⟩
abbrev F.TW_STATUS.LANE (k : Nat) : Fld := ⟨0x1f0004 + 0x100 * k, 24, 1, .ro, 0⟩
abbrev F.TW_STATUS.TW_ACTIVE (k : Nat) : Fld := ⟨0x1f0004 + 0x100 * k, 23, 1, .ro, 0⟩
abbrev F.TW_STATUS.RSV22 (k : Nat) : Fld := ⟨0x1f0004 + 0x100 * k, 0, 23, .rsv, 0⟩
-- R278 TW_SEQ (08_twin_paths.md)
abbrev F.TW_SEQ.TS (k : Nat) : Fld := ⟨0x1f0008 + 0x100 * k, 16, 16, .ro, 0⟩
abbrev F.TW_SEQ.TO (k : Nat) : Fld := ⟨0x1f0008 + 0x100 * k, 0, 16, .ro, 0⟩
-- R279 TW_MERGE (08_twin_paths.md)
abbrev F.TW_MERGE.E_M (k : Nat) : Fld := ⟨0x1f000c + 0x100 * k, 16, 16, .ro, 0⟩
abbrev F.TW_MERGE.RSV15 (k : Nat) : Fld := ⟨0x1f000c + 0x100 * k, 10, 6, .rsv, 0⟩
abbrev F.TW_MERGE.HELD (k : Nat) : Fld := ⟨0x1f000c + 0x100 * k, 0, 10, .ro, 0⟩
-- R280 TW_SKEW (08_twin_paths.md)
abbrev F.TW_SKEW.LEAD (k : Nat) : Fld := ⟨0x1f0010 + 0x100 * k, 31, 1, .ro, 0⟩
abbrev F.TW_SKEW.RSV30 (k : Nat) : Fld := ⟨0x1f0010 + 0x100 * k, 16, 15, .rsv, 0⟩
abbrev F.TW_SKEW.SKEW_MAX (k : Nat) : Fld := ⟨0x1f0010 + 0x100 * k, 0, 16, .rcl, 0⟩
-- R281 TW_DUP (08_twin_paths.md)
abbrev F.TW_DUP.MRG_DUP (k : Nat) : Fld := ⟨0x1f0014 + 0x100 * k, 0, 32, .ro, 0⟩
-- R282 TW_SKIP (08_twin_paths.md)
abbrev F.TW_SKIP.SKIP_TX1 (k : Nat) : Fld := ⟨0x1f0018 + 0x100 * k, 16, 16, .ro, 0⟩
abbrev F.TW_SKIP.SKIP_TX0 (k : Nat) : Fld := ⟨0x1f0018 + 0x100 * k, 0, 16, .ro, 0⟩
-- R283 TW_CNT (08_twin_paths.md)
abbrev F.TW_CNT.STALLS (k : Nat) : Fld := ⟨0x1f001c + 0x100 * k, 16, 16, .ro, 0⟩
abbrev F.TW_CNT.FAILOVERS (k : Nat) : Fld := ⟨0x1f001c + 0x100 * k, 8, 8, .ro, 0⟩
abbrev F.TW_CNT.SKIP_BAD (k : Nat) : Fld := ⟨0x1f001c + 0x100 * k, 0, 8, .ro, 0⟩
-- R284 TW_EVENT (08_twin_paths.md)
abbrev F.TW_EVENT.RSV31 (k : Nat) : Fld := ⟨0x1f0020 + 0x100 * k, 6, 26, .rsv, 0⟩
abbrev F.TW_EVENT.SKEW_HIGH (k : Nat) : Fld := ⟨0x1f0020 + 0x100 * k, 5, 1, .w1c, 0⟩
abbrev F.TW_EVENT.LANE_FO (k : Nat) : Fld := ⟨0x1f0020 + 0x100 * k, 4, 1, .w1c, 0⟩
abbrev F.TW_EVENT.STALL (k : Nat) : Fld := ⟨0x1f0020 + 0x100 * k, 3, 1, .w1c, 0⟩
abbrev F.TW_EVENT.EXCLUDED (k : Nat) : Fld := ⟨0x1f0020 + 0x100 * k, 2, 1, .w1c, 0⟩
abbrev F.TW_EVENT.SOLO (k : Nat) : Fld := ⟨0x1f0020 + 0x100 * k, 1, 1, .w1c, 0⟩
abbrev F.TW_EVENT.JOINED (k : Nat) : Fld := ⟨0x1f0020 + 0x100 * k, 0, 1, .w1c, 0⟩
-- R285 TW_EVENT_MASK (08_twin_paths.md)
abbrev F.TW_EVENT_MASK.RSV31 (k : Nat) : Fld := ⟨0x1f0024 + 0x100 * k, 6, 26, .rsv, 0⟩
abbrev F.TW_EVENT_MASK.TW_MASK (k : Nat) : Fld := ⟨0x1f0024 + 0x100 * k, 0, 6, .rw, 0x36⟩
-- R319 BF_CTRL (09_belfry.md)
abbrev F.BF_CTRL.BF_EN (b : Nat) : Fld := ⟨0x40100 + 0x10000 * b, 31, 1, .rw, 0⟩
abbrev F.BF_CTRL.TX_EN (b : Nat) : Fld := ⟨0x40100 + 0x10000 * b, 30, 1, .rw, 1⟩
abbrev F.BF_CTRL.RX_UNAUTH (b : Nat) : Fld := ⟨0x40100 + 0x10000 * b, 29, 1, .rw, 0⟩
abbrev F.BF_CTRL.RX_PROMISC (b : Nat) : Fld := ⟨0x40100 + 0x10000 * b, 28, 1, .rw, 0⟩
abbrev F.BF_CTRL.RX_ERR_DELIV (b : Nat) : Fld := ⟨0x40100 + 0x10000 * b, 27, 1, .rw, 0⟩
abbrev F.BF_CTRL.DUP_KEEP (b : Nat) : Fld := ⟨0x40100 + 0x10000 * b, 26, 1, .rw, 0⟩
abbrev F.BF_CTRL.RNG_RESP_EN (b : Nat) : Fld := ⟨0x40100 + 0x10000 * b, 25, 1, .rw, 1⟩
abbrev F.BF_CTRL.TERM_EN (b : Nat) : Fld := ⟨0x40100 + 0x10000 * b, 24, 1, .rw, 0⟩
abbrev F.BF_CTRL.TX_LVL (b : Nat) : Fld := ⟨0x40100 + 0x10000 * b, 20, 4, .rw, 0xa⟩
abbrev F.BF_CTRL.RSV19 (b : Nat) : Fld := ⟨0x40100 + 0x10000 * b, 0, 20, .rsv, 0⟩
-- R320 BF_NODE (09_belfry.md)
abbrev F.BF_NODE.RSV31 (b : Nat) : Fld := ⟨0x40104 + 0x10000 * b, 6, 26, .rsv, 0⟩
abbrev F.BF_NODE.NODE (b : Nat) : Fld := ⟨0x40104 + 0x10000 * b, 0, 6, .rw, 0⟩
-- R321 BF_ACCESS (09_belfry.md)
abbrev F.BF_ACCESS.IFS (b : Nat) : Fld := ⟨0x40108 + 0x10000 * b, 28, 4, .rw, 4⟩
abbrev F.BF_ACCESS.CAPT_EN (b : Nat) : Fld := ⟨0x40108 + 0x10000 * b, 27, 1, .rw, 1⟩
abbrev F.BF_ACCESS.CAPT_DB (b : Nat) : Fld := ⟨0x40108 + 0x10000 * b, 23, 4, .rw, 6⟩
abbrev F.BF_ACCESS.CS_ED (b : Nat) : Fld := ⟨0x40108 + 0x10000 * b, 19, 4, .rw, 4⟩
abbrev F.BF_ACCESS.DET_TH (b : Nat) : Fld := ⟨0x40108 + 0x10000 * b, 16, 3, .rw, 3⟩
abbrev F.BF_ACCESS.RSV15 (b : Nat) : Fld := ⟨0x40108 + 0x10000 * b, 0, 16, .rsv, 0⟩
-- R322 BF_RXCFG (09_belfry.md)
abbrev F.BF_RXCFG.FFE_MU (b : Nat) : Fld := ⟨0x4010c + 0x10000 * b, 27, 5, .rw, 0xa⟩
abbrev F.BF_RXCFG.DFE_MU (b : Nat) : Fld := ⟨0x4010c + 0x10000 * b, 22, 5, .rw, 0xb⟩
abbrev F.BF_RXCFG.DFE_EN (b : Nat) : Fld := ⟨0x4010c + 0x10000 * b, 21, 1, .rw, 1⟩
abbrev F.BF_RXCFG.BITER_MAX (b : Nat) : Fld := ⟨0x4010c + 0x10000 * b, 16, 5, .rw, 0x14⟩
abbrev F.BF_RXCFG.BNORM (b : Nat) : Fld := ⟨0x4010c + 0x10000 * b, 12, 4, .rw, 0xc⟩
abbrev F.BF_RXCFG.RSV11 (b : Nat) : Fld := ⟨0x4010c + 0x10000 * b, 0, 12, .rsv, 0⟩
-- R323 BF_BCN (09_belfry.md)
abbrev F.BF_BCN.BCN_EN (b : Nat) : Fld := ⟨0x40110 + 0x10000 * b, 31, 1, .rw, 0⟩
abbrev F.BF_BCN.BCN_NOW (b : Nat) : Fld := ⟨0x40110 + 0x10000 * b, 30, 1, .wo, 0⟩
abbrev F.BF_BCN.BCN_AUTH (b : Nat) : Fld := ⟨0x40110 + 0x10000 * b, 29, 1, .rw, 1⟩
abbrev F.BF_BCN.BCN_KEY (b : Nat) : Fld := ⟨0x40110 + 0x10000 * b, 26, 3, .rw, 0⟩
abbrev F.BF_BCN.BCN_NCW (b : Nat) : Fld := ⟨0x40110 + 0x10000 * b, 24, 2, .rw, 0⟩
abbrev F.BF_BCN.BCN_MOD (b : Nat) : Fld := ⟨0x40110 + 0x10000 * b, 23, 1, .rw, 1⟩
abbrev F.BF_BCN.BCN_SF (b : Nat) : Fld := ⟨0x40110 + 0x10000 * b, 21, 2, .rw, 0⟩
abbrev F.BF_BCN.BCN_LEN (b : Nat) : Fld := ⟨0x40110 + 0x10000 * b, 13, 8, .rw, 0x18⟩
abbrev F.BF_BCN.BCN_PERIOD (b : Nat) : Fld := ⟨0x40110 + 0x10000 * b, 0, 13, .rw, 0x64⟩
-- R324 TXR_BASE (09_belfry.md)
abbrev F.TXR_BASE.BASE_LO (b : Nat) : Fld := ⟨0x40120 + 0x10000 * b, 5, 27, .rw, 0⟩
abbrev F.TXR_BASE.RSV4 (b : Nat) : Fld := ⟨0x40120 + 0x10000 * b, 0, 5, .rsv, 0⟩
-- R325 TXR_CFG (09_belfry.md)
abbrev F.TXR_CFG.TX_KICK (b : Nat) : Fld := ⟨0x40124 + 0x10000 * b, 31, 1, .wo, 0⟩
abbrev F.TXR_CFG.RING_LOG (b : Nat) : Fld := ⟨0x40124 + 0x10000 * b, 27, 4, .rw, 4⟩
abbrev F.TXR_CFG.TX_HEAD (b : Nat) : Fld := ⟨0x40124 + 0x10000 * b, 17, 10, .ro, 0⟩
abbrev F.TXR_CFG.RSV16 (b : Nat) : Fld := ⟨0x40124 + 0x10000 * b, 8, 9, .rsv, 0⟩
abbrev F.TXR_CFG.BASE_HI (b : Nat) : Fld := ⟨0x40124 + 0x10000 * b, 0, 8, .rw, 0⟩
-- R326 RXR_BASE (09_belfry.md)
abbrev F.RXR_BASE.BASE_LO (b : Nat) : Fld := ⟨0x40128 + 0x10000 * b, 5, 27, .rw, 0⟩
abbrev F.RXR_BASE.RSV4 (b : Nat) : Fld := ⟨0x40128 + 0x10000 * b, 0, 5, .rsv, 0⟩
-- R327 RXR_CFG (09_belfry.md)
abbrev F.RXR_CFG.RSV31 (b : Nat) : Fld := ⟨0x4012c + 0x10000 * b, 31, 1, .rsv, 0⟩
abbrev F.RXR_CFG.RING_LOG (b : Nat) : Fld := ⟨0x4012c + 0x10000 * b, 27, 4, .rw, 4⟩
abbrev F.RXR_CFG.RX_HEAD (b : Nat) : Fld := ⟨0x4012c + 0x10000 * b, 17, 10, .ro, 0⟩
abbrev F.RXR_CFG.RSV16 (b : Nat) : Fld := ⟨0x4012c + 0x10000 * b, 8, 9, .rsv, 0⟩
abbrev F.RXR_CFG.BASE_HI (b : Nat) : Fld := ⟨0x4012c + 0x10000 * b, 0, 8, .rw, 0⟩
-- R328 TX_FC_LO (09_belfry.md)
abbrev F.TX_FC_LO.FC_LO (b : Nat) : Fld := ⟨0x40130 + 0x10000 * b, 0, 32, .rw, 0⟩
-- R329 TX_FC_HI (09_belfry.md)
abbrev F.TX_FC_HI.RSV31 (b : Nat) : Fld := ⟨0x40134 + 0x10000 * b, 16, 16, .rsv, 0⟩
abbrev F.TX_FC_HI.FC_HI (b : Nat) : Fld := ⟨0x40134 + 0x10000 * b, 0, 16, .rw, 0⟩
-- R330 RNG_CTRL (09_belfry.md)
abbrev F.RNG_CTRL.RNG_GO (b : Nat) : Fld := ⟨0x40140 + 0x10000 * b, 31, 1, .wo, 0⟩
abbrev F.RNG_CTRL.RNG_DST (b : Nat) : Fld := ⟨0x40140 + 0x10000 * b, 25, 6, .rw, 0⟩
abbrev F.RNG_CTRL.RNG_AUTH (b : Nat) : Fld := ⟨0x40140 + 0x10000 * b, 24, 1, .rw, 1⟩
abbrev F.RNG_CTRL.RNG_KEY (b : Nat) : Fld := ⟨0x40140 + 0x10000 * b, 21, 3, .rw, 0⟩
abbrev F.RNG_CTRL.RNG_MOD (b : Nat) : Fld := ⟨0x40140 + 0x10000 * b, 20, 1, .rw, 1⟩
abbrev F.RNG_CTRL.RNG_SF (b : Nat) : Fld := ⟨0x40140 + 0x10000 * b, 18, 2, .rw, 0⟩
abbrev F.RNG_CTRL.RNG_STATUS (b : Nat) : Fld := ⟨0x40140 + 0x10000 * b, 15, 3, .ro, 0⟩
abbrev F.RNG_CTRL.RSV14 (b : Nat) : Fld := ⟨0x40140 + 0x10000 * b, 0, 15, .rsv, 0⟩
-- R331 RNG_RESULT (09_belfry.md)
abbrev F.RNG_RESULT.FOFS (b : Nat) : Fld := ⟨0x40144 + 0x10000 * b, 16, 16, .ro, 0⟩
abbrev F.RNG_RESULT.DELAY (b : Nat) : Fld := ⟨0x40144 + 0x10000 * b, 0, 16, .ro, 0⟩
-- R332 RNG_RTT (09_belfry.md)
abbrev F.RNG_RTT.RTT (b : Nat) : Fld := ⟨0x40148 + 0x10000 * b, 0, 32, .ro, 0⟩
-- R333 RNG_TURN (09_belfry.md)
abbrev F.RNG_TURN.T_B (b : Nat) : Fld := ⟨0x4014c + 0x10000 * b, 0, 32, .ro, 0⟩
-- R334 BF_STATUS (09_belfry.md)
abbrev F.BF_STATUS.CH_BUSY (b : Nat) : Fld := ⟨0x40150 + 0x10000 * b, 31, 1, .ro, 0⟩
abbrev F.BF_STATUS.TX_ACTIVE (b : Nat) : Fld := ⟨0x40150 + 0x10000 * b, 30, 1, .ro, 0⟩
abbrev F.BF_STATUS.SERVED (b : Nat) : Fld := ⟨0x40150 + 0x10000 * b, 29, 1, .ro, 0⟩
abbrev F.BF_STATUS.RING_ERR_TX (b : Nat) : Fld := ⟨0x40150 + 0x10000 * b, 28, 1, .ro, 0⟩
abbrev F.BF_STATUS.RING_ERR_RX (b : Nat) : Fld := ⟨0x40150 + 0x10000 * b, 27, 1, .ro, 0⟩
abbrev F.BF_STATUS.RX_STATE (b : Nat) : Fld := ⟨0x40150 + 0x10000 * b, 24, 3, .ro, 0⟩
abbrev F.BF_STATUS.KEY_VALID (b : Nat) : Fld := ⟨0x40150 + 0x10000 * b, 16, 8, .ro, 0⟩
abbrev F.BF_STATUS.FOFS_LAST (b : Nat) : Fld := ⟨0x40150 + 0x10000 * b, 0, 16, .ro, 0⟩
-- R335 BF_EVENT (09_belfry.md)
abbrev F.BF_EVENT.RSV31 (b : Nat) : Fld := ⟨0x40154 + 0x10000 * b, 8, 24, .rsv, 0⟩
abbrev F.BF_EVENT.DUP_NODE (b : Nat) : Fld := ⟨0x40154 + 0x10000 * b, 7, 1, .w1c, 0⟩
abbrev F.BF_EVENT.RING_ERR (b : Nat) : Fld := ⟨0x40154 + 0x10000 * b, 6, 1, .w1c, 0⟩
abbrev F.BF_EVENT.RNG_DONE (b : Nat) : Fld := ⟨0x40154 + 0x10000 * b, 5, 1, .w1c, 0⟩
abbrev F.BF_EVENT.BCN_BAD (b : Nat) : Fld := ⟨0x40154 + 0x10000 * b, 4, 1, .w1c, 0⟩
abbrev F.BF_EVENT.RX_OVF (b : Nat) : Fld := ⟨0x40154 + 0x10000 * b, 3, 1, .w1c, 0⟩
abbrev F.BF_EVENT.SEC_FAIL (b : Nat) : Fld := ⟨0x40154 + 0x10000 * b, 2, 1, .w1c, 0⟩
abbrev F.BF_EVENT.RX_PKT (b : Nat) : Fld := ⟨0x40154 + 0x10000 * b, 1, 1, .w1c, 0⟩
abbrev F.BF_EVENT.TX_DONE (b : Nat) : Fld := ⟨0x40154 + 0x10000 * b, 0, 1, .w1c, 0⟩
-- R336 BF_EVENT_MASK (09_belfry.md)
abbrev F.BF_EVENT_MASK.RSV31 (b : Nat) : Fld := ⟨0x40158 + 0x10000 * b, 8, 24, .rsv, 0⟩
abbrev F.BF_EVENT_MASK.BEV_MASK (b : Nat) : Fld := ⟨0x40158 + 0x10000 * b, 0, 8, .rw, 0xe6⟩
-- R337 BF_CNT_TX (09_belfry.md)
abbrev F.BF_CNT_TX.TX_PKTS (b : Nat) : Fld := ⟨0x40160 + 0x10000 * b, 16, 16, .ro, 0⟩
abbrev F.BF_CNT_TX.TX_FAIL (b : Nat) : Fld := ⟨0x40160 + 0x10000 * b, 8, 8, .ro, 0⟩
abbrev F.BF_CNT_TX.RNG_RESP (b : Nat) : Fld := ⟨0x40160 + 0x10000 * b, 0, 8, .ro, 0⟩
-- R338 BF_CNT_RX (09_belfry.md)
abbrev F.BF_CNT_RX.RX_OK (b : Nat) : Fld := ⟨0x40164 + 0x10000 * b, 16, 16, .ro, 0⟩
abbrev F.BF_CNT_RX.RX_DET (b : Nat) : Fld := ⟨0x40164 + 0x10000 * b, 0, 16, .ro, 0⟩
-- R339 BF_CNT_ERR (09_belfry.md)
abbrev F.BF_CNT_ERR.HDR_FAIL (b : Nat) : Fld := ⟨0x40168 + 0x10000 * b, 24, 8, .ro, 0⟩
abbrev F.BF_CNT_ERR.LDPC_FAIL (b : Nat) : Fld := ⟨0x40168 + 0x10000 * b, 16, 8, .ro, 0⟩
abbrev F.BF_CNT_ERR.CAPT_AWAY (b : Nat) : Fld := ⟨0x40168 + 0x10000 * b, 8, 8, .ro, 0⟩
abbrev F.BF_CNT_ERR.RX_OVF (b : Nat) : Fld := ⟨0x40168 + 0x10000 * b, 0, 8, .ro, 0⟩
-- R340 BF_CNT_SEC (09_belfry.md)
abbrev F.BF_CNT_SEC.TAG_BAD (b : Nat) : Fld := ⟨0x4016c + 0x10000 * b, 24, 8, .ro, 0⟩
abbrev F.BF_CNT_SEC.REPLAY (b : Nat) : Fld := ⟨0x4016c + 0x10000 * b, 16, 8, .ro, 0⟩
abbrev F.BF_CNT_SEC.DUAL_DUP (b : Nat) : Fld := ⟨0x4016c + 0x10000 * b, 0, 16, .ro, 0⟩
-- R341 BF_TEMPLATE (09_belfry.md)
abbrev F.BF_TEMPLATE.WORD (b w : Nat) : Fld := ⟨0x40800 + 0x10000 * b + 4 * w, 0, 32, .rw, 0⟩
-- R342 BF_FRESH_LO (09_belfry.md)
abbrev F.BF_FRESH_LO.FC_LO (b s : Nat) : Fld := ⟨0x41000 + 0x10000 * b + 8 * s, 0, 32, .rw, 0⟩
-- R342 BF_FRESH_HI (09_belfry.md)
abbrev F.BF_FRESH_HI.VALID (b s : Nat) : Fld := ⟨0x41004 + 0x10000 * b + 8 * s, 31, 1, .rw, 0⟩
abbrev F.BF_FRESH_HI.LINE (b s : Nat) : Fld := ⟨0x41004 + 0x10000 * b + 8 * s, 30, 1, .rw, 0⟩
abbrev F.BF_FRESH_HI.Z (b s : Nat) : Fld := ⟨0x41004 + 0x10000 * b + 8 * s, 16, 14, .ro, 0⟩
abbrev F.BF_FRESH_HI.FC_HI (b s : Nat) : Fld := ⟨0x41004 + 0x10000 * b + 8 * s, 0, 16, .rw, 0⟩
-- R364 DIAG_CTRL (10_diagnostics_lpi.md)
abbrev F.DIAG_CTRL.DIAG_GO (n : Nat) : Fld := ⟨0x280000 + 0x100000 * n, 31, 1, .wo, 0⟩
abbrev F.DIAG_CTRL.DIAG_KIND (n : Nat) : Fld := ⟨0x280000 + 0x100000 * n, 28, 3, .rw, 0⟩
abbrev F.DIAG_CTRL.DIAG_PAIRS (n : Nat) : Fld := ⟨0x280000 + 0x100000 * n, 24, 4, .rw, 0xf⟩
abbrev F.DIAG_CTRL.CAP_EN (n : Nat) : Fld := ⟨0x280000 + 0x100000 * n, 23, 1, .rw, 0⟩
abbrev F.DIAG_CTRL.TDR_AVG (n : Nat) : Fld := ⟨0x280000 + 0x100000 * n, 19, 4, .rw, 6⟩
abbrev F.DIAG_CTRL.TDR_LEN (n : Nat) : Fld := ⟨0x280000 + 0x100000 * n, 16, 3, .rw, 4⟩
abbrev F.DIAG_CTRL.RSV15 (n : Nat) : Fld := ⟨0x280000 + 0x100000 * n, 0, 16, .rsv, 0⟩
-- R365 DIAG_STATUS (10_diagnostics_lpi.md)
abbrev F.DIAG_STATUS.DIAG_BUSY (n : Nat) : Fld := ⟨0x280004 + 0x100000 * n, 31, 1, .ro, 0⟩
abbrev F.DIAG_STATUS.DIAG_RESULT (n : Nat) : Fld := ⟨0x280004 + 0x100000 * n, 28, 3, .ro, 0⟩
abbrev F.DIAG_STATUS.RSV27 (n : Nat) : Fld := ⟨0x280004 + 0x100000 * n, 24, 4, .rsv, 0⟩
abbrev F.DIAG_STATUS.CAP_OFS (n : Nat) : Fld := ⟨0x280004 + 0x100000 * n, 0, 24, .ro, 0⟩
-- R366 DIAG_ADDR (10_diagnostics_lpi.md)
abbrev F.DIAG_ADDR.CAP_ADDR (n : Nat) : Fld := ⟨0x280008 + 0x100000 * n, 4, 28, .rw, 0⟩
abbrev F.DIAG_ADDR.RSV3 (n : Nat) : Fld := ⟨0x280008 + 0x100000 * n, 0, 4, .rsv, 0⟩
-- R367 DIAG_CFG (10_diagnostics_lpi.md)
abbrev F.DIAG_CFG.NVP_DLY (n : Nat) : Fld := ⟨0x28000c + 0x100000 * n, 19, 13, .rw, 0x1388⟩
abbrev F.DIAG_CFG.REFL_TH (n : Nat) : Fld := ⟨0x28000c + 0x100000 * n, 12, 7, .rw, 8⟩
abbrev F.DIAG_CFG.WEAR_TH (n : Nat) : Fld := ⟨0x28000c + 0x100000 * n, 8, 4, .rw, 6⟩
abbrev F.DIAG_CFG.WEAR_PERIOD (n : Nat) : Fld := ⟨0x28000c + 0x100000 * n, 0, 8, .rw, 0⟩
-- R368 REFL (10_diagnostics_lpi.md)
abbrev F.REFL.VALID (n x i : Nat) : Fld := ⟨0x280100 + 0x100000 * n + 0x40 * x + 4 * i, 31, 1, .ro, 0⟩
abbrev F.REFL.KIND (n x i : Nat) : Fld := ⟨0x280100 + 0x100000 * n + 0x40 * x + 4 * i, 29, 2, .ro, 0⟩
abbrev F.REFL.SRC (n x i : Nat) : Fld := ⟨0x280100 + 0x100000 * n + 0x40 * x + 4 * i, 28, 1, .ro, 0⟩
abbrev F.REFL.GAMMA (n x i : Nat) : Fld := ⟨0x280100 + 0x100000 * n + 0x40 * x + 4 * i, 16, 12, .ro, 0⟩
abbrev F.REFL.RSV15 (n x i : Nat) : Fld := ⟨0x280100 + 0x100000 * n + 0x40 * x + 4 * i, 11, 5, .rsv, 0⟩
abbrev F.REFL.DIST (n x i : Nat) : Fld := ⟨0x280100 + 0x100000 * n + 0x40 * x + 4 * i, 0, 11, .ro, 0⟩
-- R369 LOSS_A (10_diagnostics_lpi.md)
abbrev F.LOSS_A.RL (n x : Nat) : Fld := ⟨0x280200 + 0x100000 * n + 0x10 * x, 22, 10, .ro, 0⟩
abbrev F.LOSS_A.IL_Q (n x : Nat) : Fld := ⟨0x280200 + 0x100000 * n + 0x10 * x, 12, 10, .ro, 0⟩
abbrev F.LOSS_A.IL_H (n x : Nat) : Fld := ⟨0x280200 + 0x100000 * n + 0x10 * x, 2, 10, .ro, 0⟩
abbrev F.LOSS_A.RSV1 (n x : Nat) : Fld := ⟨0x280200 + 0x100000 * n + 0x10 * x, 0, 2, .rsv, 0⟩
-- R370 LOSS_B (10_diagnostics_lpi.md)
abbrev F.LOSS_B.IL_N (n x : Nat) : Fld := ⟨0x280204 + 0x100000 * n + 0x10 * x, 22, 10, .ro, 0⟩
abbrev F.LOSS_B.RSV21 (n x : Nat) : Fld := ⟨0x280204 + 0x100000 * n + 0x10 * x, 12, 10, .rsv, 0⟩
abbrev F.LOSS_B.LOSS_MBD (n x : Nat) : Fld := ⟨0x280204 + 0x100000 * n + 0x10 * x, 0, 12, .ro, 0⟩
-- R371 LM_CFG (10_diagnostics_lpi.md)
abbrev F.LM_CFG.LM_EN (n x i : Nat) : Fld := ⟨0x280400 + 0x100000 * n + 0x40 * x + 8 * i, 31, 1, .rw, 0⟩
abbrev F.LM_CFG.LM_SET (n x i : Nat) : Fld := ⟨0x280400 + 0x100000 * n + 0x40 * x + 8 * i, 30, 1, .wo, 0⟩
abbrev F.LM_CFG.BASE_SRC (n x i : Nat) : Fld := ⟨0x280400 + 0x100000 * n + 0x40 * x + 8 * i, 28, 2, .ro, 0⟩
abbrev F.LM_CFG.RSV27 (n x i : Nat) : Fld := ⟨0x280400 + 0x100000 * n + 0x40 * x + 8 * i, 11, 17, .rsv, 0⟩
abbrev F.LM_CFG.LM_DIST (n x i : Nat) : Fld := ⟨0x280400 + 0x100000 * n + 0x40 * x + 8 * i, 0, 11, .rw, 0⟩
-- R372 LM_VAL (10_diagnostics_lpi.md)
abbrev F.LM_VAL.LM_ALARM (n x i : Nat) : Fld := ⟨0x280404 + 0x100000 * n + 0x40 * x + 8 * i, 31, 1, .ro, 0⟩
abbrev F.LM_VAL.BASE_VALID (n x i : Nat) : Fld := ⟨0x280404 + 0x100000 * n + 0x40 * x + 8 * i, 30, 1, .ro, 0⟩
abbrev F.LM_VAL.RL_BASE (n x i : Nat) : Fld := ⟨0x280404 + 0x100000 * n + 0x40 * x + 8 * i, 20, 10, .ro, 0⟩
abbrev F.LM_VAL.RL_CUR (n x i : Nat) : Fld := ⟨0x280404 + 0x100000 * n + 0x40 * x + 8 * i, 10, 10, .ro, 0⟩
abbrev F.LM_VAL.DELTA (n x i : Nat) : Fld := ⟨0x280404 + 0x100000 * n + 0x40 * x + 8 * i, 0, 10, .ro, 0⟩
-- R373 ED_STATUS (10_diagnostics_lpi.md)
abbrev F.ED_STATUS.ED_A (n : Nat) : Fld := ⟨0x280800 + 0x100000 * n, 31, 1, .ro, 0⟩
abbrev F.ED_STATUS.ED_B (n : Nat) : Fld := ⟨0x280800 + 0x100000 * n, 30, 1, .ro, 0⟩
abbrev F.ED_STATUS.RSV29 (n : Nat) : Fld := ⟨0x280800 + 0x100000 * n, 16, 14, .rsv, 0⟩
abbrev F.ED_STATUS.ED_QUAL (n : Nat) : Fld := ⟨0x280800 + 0x100000 * n, 0, 16, .ro, 0⟩
-- R374 LPI_CTRL (10_diagnostics_lpi.md)
abbrev F.LPI_CTRL.LPI_EN (n : Nat) : Fld := ⟨0x281000 + 0x100000 * n, 31, 1, .rw, 1⟩
abbrev F.LPI_CTRL.LPI_QUIET (n : Nat) : Fld := ⟨0x281000 + 0x100000 * n, 29, 2, .rw, 2⟩
abbrev F.LPI_CTRL.ENTRY_T (n : Nat) : Fld := ⟨0x281000 + 0x100000 * n, 24, 5, .rw, 4⟩
abbrev F.LPI_CTRL.LPI_HOLDOFF (n : Nat) : Fld := ⟨0x281000 + 0x100000 * n, 16, 8, .rw, 0x10⟩
abbrev F.LPI_CTRL.RSV15 (n : Nat) : Fld := ⟨0x281000 + 0x100000 * n, 0, 16, .rsv, 0⟩
-- R375 LPI_STATUS (10_diagnostics_lpi.md)
abbrev F.LPI_STATUS.LPI_RES (n : Nat) : Fld := ⟨0x281004 + 0x100000 * n, 31, 1, .ro, 0⟩
abbrev F.LPI_STATUS.TX_LPI (n : Nat) : Fld := ⟨0x281004 + 0x100000 * n, 28, 3, .ro, 0⟩
abbrev F.LPI_STATUS.RX_LPI (n : Nat) : Fld := ⟨0x281004 + 0x100000 * n, 25, 3, .ro, 0⟩
abbrev F.LPI_STATUS.HOST_LPI (n : Nat) : Fld := ⟨0x281004 + 0x100000 * n, 24, 1, .ro, 0⟩
abbrev F.LPI_STATUS.RSV23 (n : Nat) : Fld := ⟨0x281004 + 0x100000 * n, 0, 24, .rsv, 0⟩
-- R376 LPI_COUNT (10_diagnostics_lpi.md)
abbrev F.LPI_COUNT.TX_ENTRIES (n : Nat) : Fld := ⟨0x281008 + 0x100000 * n, 16, 16, .ro, 0⟩
abbrev F.LPI_COUNT.RX_ENTRIES (n : Nat) : Fld := ⟨0x281008 + 0x100000 * n, 0, 16, .ro, 0⟩
-- R377 LPI_TIME (10_diagnostics_lpi.md)
abbrev F.LPI_TIME.TX_QUIET_US (n : Nat) : Fld := ⟨0x28100c + 0x100000 * n, 0, 32, .ro, 0⟩
-- R378 DIAG_EVENT (10_diagnostics_lpi.md)
abbrev F.DIAG_EVENT.RSV31 (n : Nat) : Fld := ⟨0x281010 + 0x100000 * n, 4, 28, .rsv, 0⟩
abbrev F.DIAG_EVENT.RX_LPI_ENTER (n : Nat) : Fld := ⟨0x281010 + 0x100000 * n, 3, 1, .w1c, 0⟩
abbrev F.DIAG_EVENT.TX_LPI_ENTER (n : Nat) : Fld := ⟨0x281010 + 0x100000 * n, 2, 1, .w1c, 0⟩
abbrev F.DIAG_EVENT.WEAR (n : Nat) : Fld := ⟨0x281010 + 0x100000 * n, 1, 1, .w1c, 0⟩
abbrev F.DIAG_EVENT.DIAG_DONE (n : Nat) : Fld := ⟨0x281010 + 0x100000 * n, 0, 1, .w1c, 0⟩
-- R379 DIAG_EVENT_MASK (10_diagnostics_lpi.md)
abbrev F.DIAG_EVENT_MASK.RSV31 (n : Nat) : Fld := ⟨0x281014 + 0x100000 * n, 4, 28, .rsv, 0⟩
abbrev F.DIAG_EVENT_MASK.DEV_MASK (n : Nat) : Fld := ⟨0x281014 + 0x100000 * n, 0, 4, .rw, 3⟩
-- R394 HL_CTRL (11_host_lanes.md)
abbrev F.HL_CTRL.PROTO (n : Nat) : Fld := ⟨0x80100 + 0x2000 * n, 30, 2, .rw, 0⟩
abbrev F.HL_CTRL.RSFEC_EN (n : Nat) : Fld := ⟨0x80100 + 0x2000 * n, 29, 1, .rw, 0⟩
abbrev F.HL_CTRL.DOWN_TX (n : Nat) : Fld := ⟨0x80100 + 0x2000 * n, 27, 2, .rw, 0⟩
abbrev F.HL_CTRL.LPI_EI (n : Nat) : Fld := ⟨0x80100 + 0x2000 * n, 26, 1, .rw, 0⟩
abbrev F.HL_CTRL.TX_POL (n : Nat) : Fld := ⟨0x80100 + 0x2000 * n, 25, 1, .rw, 0⟩
abbrev F.HL_CTRL.RX_POL (n : Nat) : Fld := ⟨0x80100 + 0x2000 * n, 24, 1, .rw, 0⟩
abbrev F.HL_CTRL.LB_MODE (n : Nat) : Fld := ⟨0x80100 + 0x2000 * n, 21, 3, .rw, 0⟩
abbrev F.HL_CTRL.EG_CUT (n : Nat) : Fld := ⟨0x80100 + 0x2000 * n, 13, 8, .rw, 0x10⟩
abbrev F.HL_CTRL.RSV12 (n : Nat) : Fld := ⟨0x80100 + 0x2000 * n, 0, 13, .rsv, 0⟩
-- R395 HL_PAUSE (11_host_lanes.md)
abbrev F.HL_PAUSE.PAUSE_QUANTA (n : Nat) : Fld := ⟨0x80104 + 0x2000 * n, 16, 16, .rw, 0x400⟩
abbrev F.HL_PAUSE.PAUSE_REFRESH (n : Nat) : Fld := ⟨0x80104 + 0x2000 * n, 8, 8, .rw, 8⟩
abbrev F.HL_PAUSE.XOFF_LVL (n : Nat) : Fld := ⟨0x80104 + 0x2000 * n, 4, 4, .rw, 0xc⟩
abbrev F.HL_PAUSE.XON_LVL (n : Nat) : Fld := ⟨0x80104 + 0x2000 * n, 0, 4, .rw, 4⟩
-- R396 HL_PAUSE_SA_LO (11_host_lanes.md)
abbrev F.HL_PAUSE_SA_LO.SA_LO (n : Nat) : Fld := ⟨0x80108 + 0x2000 * n, 0, 32, .rw, 0⟩
-- R397 HL_PAUSE_SA_HI (11_host_lanes.md)
abbrev F.HL_PAUSE_SA_HI.RSV31 (n : Nat) : Fld := ⟨0x8010c + 0x2000 * n, 16, 16, .rsv, 0⟩
abbrev F.HL_PAUSE_SA_HI.SA_HI (n : Nat) : Fld := ⟨0x8010c + 0x2000 * n, 0, 16, .rw, 0⟩
-- R398 HL_STATUS (11_host_lanes.md)
abbrev F.HL_STATUS.PROTO_CUR (n : Nat) : Fld := ⟨0x80110 + 0x2000 * n, 30, 2, .ro, 0⟩
abbrev F.HL_STATUS.FEC_ACT (n : Nat) : Fld := ⟨0x80110 + 0x2000 * n, 29, 1, .ro, 0⟩
abbrev F.HL_STATUS.LOS (n : Nat) : Fld := ⟨0x80110 + 0x2000 * n, 28, 1, .ro, 0⟩
abbrev F.HL_STATUS.LOL (n : Nat) : Fld := ⟨0x80110 + 0x2000 * n, 27, 1, .ro, 0⟩
abbrev F.HL_STATUS.BLOCK_LOCK (n : Nat) : Fld := ⟨0x80110 + 0x2000 * n, 26, 1, .ro, 0⟩
abbrev F.HL_STATUS.HI_BER (n : Nat) : Fld := ⟨0x80110 + 0x2000 * n, 25, 1, .ro, 0⟩
abbrev F.HL_STATUS.FEC_ALIGN (n : Nat) : Fld := ⟨0x80110 + 0x2000 * n, 24, 1, .ro, 0⟩
abbrev F.HL_STATUS.TX_EI (n : Nat) : Fld := ⟨0x80110 + 0x2000 * n, 23, 1, .ro, 0⟩
abbrev F.HL_STATUS.EI_CAUSE (n : Nat) : Fld := ⟨0x80110 + 0x2000 * n, 20, 3, .ro, 0⟩
abbrev F.HL_STATUS.LB_CUR (n : Nat) : Fld := ⟨0x80110 + 0x2000 * n, 18, 2, .ro, 0⟩
abbrev F.HL_STATUS.LB_RESULT (n : Nat) : Fld := ⟨0x80110 + 0x2000 * n, 16, 2, .ro, 0⟩
abbrev F.HL_STATUS.PRBS_LOCK (n : Nat) : Fld := ⟨0x80110 + 0x2000 * n, 15, 1, .ro, 0⟩
abbrev F.HL_STATUS.RSV14 (n : Nat) : Fld := ⟨0x80110 + 0x2000 * n, 7, 8, .rsv, 0⟩
abbrev F.HL_STATUS.EYE_W (n : Nat) : Fld := ⟨0x80110 + 0x2000 * n, 0, 7, .ro, 0⟩
-- R399 HL_PRBS_CTRL (11_host_lanes.md)
abbrev F.HL_PRBS_CTRL.GEN_EN (n : Nat) : Fld := ⟨0x80120 + 0x2000 * n, 31, 1, .rw, 0⟩
abbrev F.HL_PRBS_CTRL.GEN_POLY (n : Nat) : Fld := ⟨0x80120 + 0x2000 * n, 28, 3, .rw, 4⟩
abbrev F.HL_PRBS_CTRL.GEN_INV (n : Nat) : Fld := ⟨0x80120 + 0x2000 * n, 27, 1, .rw, 0⟩
abbrev F.HL_PRBS_CTRL.CHK_EN (n : Nat) : Fld := ⟨0x80120 + 0x2000 * n, 26, 1, .rw, 0⟩
abbrev F.HL_PRBS_CTRL.CHK_POLY (n : Nat) : Fld := ⟨0x80120 + 0x2000 * n, 23, 3, .rw, 4⟩
abbrev F.HL_PRBS_CTRL.CHK_INV (n : Nat) : Fld := ⟨0x80120 + 0x2000 * n, 22, 1, .rw, 0⟩
abbrev F.HL_PRBS_CTRL.RSV21 (n : Nat) : Fld := ⟨0x80120 + 0x2000 * n, 0, 22, .rsv, 0⟩
-- R400 HL_PRBS_ERR (11_host_lanes.md)
abbrev F.HL_PRBS_ERR.PRBS_ERR (n : Nat) : Fld := ⟨0x80124 + 0x2000 * n, 0, 32, .rcl, 0⟩
-- R401 HL_PRBS_BITS (11_host_lanes.md)
abbrev F.HL_PRBS_BITS.PRBS_BITS (n : Nat) : Fld := ⟨0x80128 + 0x2000 * n, 0, 32, .rcl, 0⟩
-- R402 HL_CNT_RM (11_host_lanes.md)
abbrev F.HL_CNT_RM.IDLE_INS (n : Nat) : Fld := ⟨0x80130 + 0x2000 * n, 16, 16, .ro, 0⟩
abbrev F.HL_CNT_RM.IDLE_DEL (n : Nat) : Fld := ⟨0x80130 + 0x2000 * n, 0, 16, .ro, 0⟩
-- R403 HL_CNT_PAUSE (11_host_lanes.md)
abbrev F.HL_CNT_PAUSE.PAUSE_TX (n : Nat) : Fld := ⟨0x80134 + 0x2000 * n, 0, 32, .ro, 0⟩
-- R404 HL_CNT_ERR (11_host_lanes.md)
abbrev F.HL_CNT_ERR.ERR_BLK (n : Nat) : Fld := ⟨0x80138 + 0x2000 * n, 16, 16, .ro, 0⟩
abbrev F.HL_CNT_ERR.LOS_CNT (n : Nat) : Fld := ⟨0x80138 + 0x2000 * n, 8, 8, .ro, 0⟩
abbrev F.HL_CNT_ERR.LOL_CNT (n : Nat) : Fld := ⟨0x80138 + 0x2000 * n, 0, 8, .ro, 0⟩
-- R405 HL_FEC_CORR (11_host_lanes.md)
abbrev F.HL_FEC_CORR.FEC_CORR (n : Nat) : Fld := ⟨0x8013c + 0x2000 * n, 0, 32, .ro, 0⟩
-- R406 HL_FEC_UNCORR (11_host_lanes.md)
abbrev F.HL_FEC_UNCORR.FEC_UNCORR (n : Nat) : Fld := ⟨0x80140 + 0x2000 * n, 0, 32, .ro, 0⟩
-- R407 HL_DISCARD (11_host_lanes.md)
abbrev F.HL_DISCARD.HL_DISCARD (n : Nat) : Fld := ⟨0x80144 + 0x2000 * n, 0, 32, .ro, 0⟩
-- R408 HL_CNT_EG (11_host_lanes.md)
abbrev F.HL_CNT_EG.EG_UNDERRUN (n : Nat) : Fld := ⟨0x80148 + 0x2000 * n, 16, 16, .ro, 0⟩
abbrev F.HL_CNT_EG.EG_BACKOFF (n : Nat) : Fld := ⟨0x80148 + 0x2000 * n, 0, 16, .ro, 0⟩
-- R409 HL_EVENT (11_host_lanes.md)
abbrev F.HL_EVENT.RSV31 (n : Nat) : Fld := ⟨0x80150 + 0x2000 * n, 8, 24, .rsv, 0⟩
abbrev F.HL_EVENT.PROTO_BAD (n : Nat) : Fld := ⟨0x80150 + 0x2000 * n, 7, 1, .w1c, 0⟩
abbrev F.HL_EVENT.PRBS_LOCK_LOST (n : Nat) : Fld := ⟨0x80150 + 0x2000 * n, 6, 1, .w1c, 0⟩
abbrev F.HL_EVENT.LB_END (n : Nat) : Fld := ⟨0x80150 + 0x2000 * n, 5, 1, .w1c, 0⟩
abbrev F.HL_EVENT.HI_BER (n : Nat) : Fld := ⟨0x80150 + 0x2000 * n, 4, 1, .w1c, 0⟩
abbrev F.HL_EVENT.LOL (n : Nat) : Fld := ⟨0x80150 + 0x2000 * n, 3, 1, .w1c, 0⟩
abbrev F.HL_EVENT.LOS (n : Nat) : Fld := ⟨0x80150 + 0x2000 * n, 2, 1, .w1c, 0⟩
abbrev F.HL_EVENT.UNDERRUN (n : Nat) : Fld := ⟨0x80150 + 0x2000 * n, 1, 1, .w1c, 0⟩
abbrev F.HL_EVENT.SIGNAL_OK (n : Nat) : Fld := ⟨0x80150 + 0x2000 * n, 0, 1, .w1c, 0⟩
-- R410 HL_EVENT_MASK (11_host_lanes.md)
abbrev F.HL_EVENT_MASK.RSV31 (n : Nat) : Fld := ⟨0x80154 + 0x2000 * n, 8, 24, .rsv, 0⟩
abbrev F.HL_EVENT_MASK.HEV_MASK (n : Nat) : Fld := ⟨0x80154 + 0x2000 * n, 0, 8, .rw, 0x8e⟩
-- R474 SQC_CTRL (13_molx_system.md)
abbrev F.SQC_CTRL.TKO_AUTO : Fld := ⟨0xa00100, 24, 8, .rw, 0xff⟩
abbrev F.SQC_CTRL.TUR_EN : Fld := ⟨0xa00100, 22, 2, .rw, 0⟩
abbrev F.SQC_CTRL.RSV21 : Fld := ⟨0xa00100, 0, 22, .rsv, 0⟩
-- R475 SQC_CMD (13_molx_system.md)
abbrev F.SQC_CMD.CMD_GO : Fld := ⟨0xa00104, 31, 1, .wo, 0⟩
abbrev F.SQC_CMD.CMD : Fld := ⟨0xa00104, 28, 3, .rw, 0⟩
abbrev F.SQC_CMD.TARGET : Fld := ⟨0xa00104, 24, 4, .rw, 0⟩
abbrev F.SQC_CMD.RESULT : Fld := ⟨0xa00104, 22, 2, .ro, 0⟩
abbrev F.SQC_CMD.RSV21 : Fld := ⟨0xa00104, 0, 22, .rsv, 0⟩
-- R476 SQC_STATUS (13_molx_system.md)
abbrev F.SQC_STATUS.T1_STATE : Fld := ⟨0xa00108, 29, 3, .ro, 0⟩
abbrev F.SQC_STATUS.T1_PORT : Fld := ⟨0xa00108, 26, 3, .ro, 0⟩
abbrev F.SQC_STATUS.T0_STATE : Fld := ⟨0xa00108, 23, 3, .ro, 0⟩
abbrev F.SQC_STATUS.T0_PORT : Fld := ⟨0xa00108, 20, 3, .ro, 0⟩
abbrev F.SQC_STATUS.RSV19 : Fld := ⟨0xa00108, 16, 4, .rsv, 0⟩
abbrev F.SQC_STATUS.PENDING : Fld := ⟨0xa00108, 8, 8, .ro, 0⟩
abbrev F.SQC_STATUS.SERVED : Fld := ⟨0xa00108, 0, 8, .ro, 0⟩
-- R477 SQC_EVENT (13_molx_system.md)
abbrev F.SQC_EVENT.RSV31 : Fld := ⟨0xa0010c, 8, 24, .rsv, 0⟩
abbrev F.SQC_EVENT.CORE_FAIL : Fld := ⟨0xa0010c, 7, 1, .w1c, 0⟩
abbrev F.SQC_EVENT.TUR_FAIL : Fld := ⟨0xa0010c, 6, 1, .w1c, 0⟩
abbrev F.SQC_EVENT.NO_TURRET : Fld := ⟨0xa0010c, 5, 1, .w1c, 0⟩
abbrev F.SQC_EVENT.CKPT_FAIL : Fld := ⟨0xa0010c, 4, 1, .w1c, 0⟩
abbrev F.SQC_EVENT.CMD_DONE : Fld := ⟨0xa0010c, 3, 1, .w1c, 0⟩
abbrev F.SQC_EVENT.RELOADED : Fld := ⟨0xa0010c, 2, 1, .w1c, 0⟩
abbrev F.SQC_EVENT.RELEASED : Fld := ⟨0xa0010c, 1, 1, .w1c, 0⟩
abbrev F.SQC_EVENT.TAKEOVER : Fld := ⟨0xa0010c, 0, 1, .w1c, 0⟩
-- R477 SQC_EVENT_MASK (13_molx_system.md)
abbrev F.SQC_EVENT_MASK.RSV31 : Fld := ⟨0xa00110, 8, 24, .rsv, 0⟩
abbrev F.SQC_EVENT_MASK.MASK : Fld := ⟨0xa00110, 0, 8, .rw, 0xff⟩
-- R478 SLOT_IMG_BASE (13_molx_system.md)
abbrev F.SLOT_IMG_BASE.IMG_BASE (s : Nat) : Fld := ⟨0xa01000 + 0x100 * s, 4, 28, .rw, 0⟩
abbrev F.SLOT_IMG_BASE.RSV3 (s : Nat) : Fld := ⟨0xa01000 + 0x100 * s, 0, 4, .rsv, 0⟩
-- R478 SLOT_IMG_ID_LO (13_molx_system.md)
abbrev F.SLOT_IMG_ID_LO.IMG_ID_LO (s : Nat) : Fld := ⟨0xa01004 + 0x100 * s, 0, 32, .rw, 0⟩
-- R478 SLOT_IMG_ID_HI (13_molx_system.md)
abbrev F.SLOT_IMG_ID_HI.IMG_ID_HI (s : Nat) : Fld := ⟨0xa01008 + 0x100 * s, 0, 32, .rw, 0⟩
-- R478 SLOT_CKPT_BASE (13_molx_system.md)
abbrev F.SLOT_CKPT_BASE.CKPT_BASE (s : Nat) : Fld := ⟨0xa0100c + 0x100 * s, 4, 28, .rw, 0⟩
abbrev F.SLOT_CKPT_BASE.RSV3 (s : Nat) : Fld := ⟨0xa0100c + 0x100 * s, 0, 4, .rsv, 0⟩
-- R478 SLOT_CKPT (13_molx_system.md)
abbrev F.SLOT_CKPT.CKPT_TCM (s : Nat) : Fld := ⟨0xa01010 + 0x100 * s, 26, 6, .rw, 4⟩
abbrev F.SLOT_CKPT.CKPT_PERIOD (s : Nat) : Fld := ⟨0xa01010 + 0x100 * s, 16, 10, .rw, 0⟩
abbrev F.SLOT_CKPT.RSV15 (s : Nat) : Fld := ⟨0xa01010 + 0x100 * s, 0, 16, .rsv, 0⟩
-- R478 SLOT_CKPT_STAT (13_molx_system.md)
abbrev F.SLOT_CKPT_STAT.GEN (s : Nat) : Fld := ⟨0xa01014 + 0x100 * s, 16, 16, .ro, 0⟩
abbrev F.SLOT_CKPT_STAT.VALID_B (s : Nat) : Fld := ⟨0xa01014 + 0x100 * s, 15, 1, .ro, 0⟩
abbrev F.SLOT_CKPT_STAT.VALID_A (s : Nat) : Fld := ⟨0xa01014 + 0x100 * s, 14, 1, .ro, 0⟩
abbrev F.SLOT_CKPT_STAT.CK_BUSY (s : Nat) : Fld := ⟨0xa01014 + 0x100 * s, 13, 1, .ro, 0⟩
abbrev F.SLOT_CKPT_STAT.HOLD_LAST (s : Nat) : Fld := ⟨0xa01014 + 0x100 * s, 0, 13, .ro, 0⟩
-- R479 CORE_CTRL (13_molx_system.md)
abbrev F.CORE_CTRL.RUN (i : Nat) : Fld := ⟨coreBase i + 0x100, 31, 1, .rw, 0⟩
abbrev F.CORE_CTRL.CORE_RESET (i : Nat) : Fld := ⟨coreBase i + 0x100, 30, 1, .wo, 0⟩
abbrev F.CORE_CTRL.MEM_SEL (i : Nat) : Fld := ⟨coreBase i + 0x100, 29, 1, .rw, 0⟩
abbrev F.CORE_CTRL.RSV28 (i : Nat) : Fld := ⟨coreBase i + 0x100, 0, 29, .rsv, 0⟩
-- R480 CORE_STATUS (13_molx_system.md)
abbrev F.CORE_STATUS.STATE (i : Nat) : Fld := ⟨coreBase i + 0x104, 29, 3, .ro, 1⟩
abbrev F.CORE_STATUS.FAIL_CAUSE (i : Nat) : Fld := ⟨coreBase i + 0x104, 25, 4, .ro, 0⟩
abbrev F.CORE_STATUS.CTX_STATE (i : Nat) : Fld := ⟨coreBase i + 0x104, 17, 8, .ro, 0⟩
abbrev F.CORE_STATUS.RSV16 (i : Nat) : Fld := ⟨coreBase i + 0x104, 0, 17, .rsv, 0⟩
-- R481 RESET_PC (13_molx_system.md)
abbrev F.RESET_PC.RESET_PC (i : Nat) : Fld := ⟨coreBase i + 0x108, 2, 30, .rw, 0⟩
abbrev F.RESET_PC.RSV1 (i : Nat) : Fld := ⟨coreBase i + 0x108, 0, 2, .rsv, 0⟩
-- R482 ECC_CNT (13_molx_system.md)
abbrev F.ECC_CNT.IMEM_CE (i : Nat) : Fld := ⟨coreBase i + 0x10c, 16, 16, .rcl, 0⟩
abbrev F.ECC_CNT.TCM_CE (i : Nat) : Fld := ⟨coreBase i + 0x10c, 0, 16, .rcl, 0⟩
-- R507 CUP_CTRL (14_cupola.md)
abbrev F.CUP_CTRL.RETIRE_GO : Fld := ⟨0x100100, 31, 1, .wo, 0⟩
abbrev F.CUP_CTRL.RETIRE_CH : Fld := ⟨0x100100, 29, 2, .rw, 0⟩
abbrev F.CUP_CTRL.AUTO_RET : Fld := ⟨0x100100, 28, 1, .rw, 1⟩
abbrev F.CUP_CTRL.RET_UE : Fld := ⟨0x100100, 24, 4, .rw, 4⟩
abbrev F.CUP_CTRL.RET_WIN : Fld := ⟨0x100100, 20, 4, .rw, 3⟩
abbrev F.CUP_CTRL.ECC_WB : Fld := ⟨0x100100, 19, 1, .rw, 1⟩
abbrev F.CUP_CTRL.RSV18 : Fld := ⟨0x100100, 0, 19, .rsv, 0⟩
-- R508 CUP_STATUS (14_cupola.md)
abbrev F.CUP_STATUS.IN_SVC : Fld := ⟨0x100104, 28, 4, .ro, 0⟩
abbrev F.CUP_STATUS.RETIRED : Fld := ⟨0x100104, 24, 4, .ro, 0⟩
abbrev F.CUP_STATUS.CAP_GIB : Fld := ⟨0x100104, 15, 9, .ro, 0⟩
abbrev F.CUP_STATUS.SPEED : Fld := ⟨0x100104, 12, 3, .ro, 0⟩
abbrev F.CUP_STATUS.X8 : Fld := ⟨0x100104, 11, 1, .ro, 0⟩
abbrev F.CUP_STATUS.RSV_SHORT : Fld := ⟨0x100104, 10, 1, .ro, 0⟩
abbrev F.CUP_STATUS.RSV9 : Fld := ⟨0x100104, 0, 10, .rsv, 0⟩
-- R509 CUP_EVENT (14_cupola.md)
abbrev F.CUP_EVENT.RSV31 : Fld := ⟨0x100108, 5, 27, .rsv, 0⟩
abbrev F.CUP_EVENT.ADM_OVER : Fld := ⟨0x100108, 4, 1, .w1c, 0⟩
abbrev F.CUP_EVENT.RETIRED : Fld := ⟨0x100108, 3, 1, .w1c, 0⟩
abbrev F.CUP_EVENT.RSV_SHORT : Fld := ⟨0x100108, 2, 1, .w1c, 0⟩
abbrev F.CUP_EVENT.UE : Fld := ⟨0x100108, 1, 1, .w1c, 0⟩
abbrev F.CUP_EVENT.TRAIN_DONE : Fld := ⟨0x100108, 0, 1, .w1c, 0⟩
-- R509 CUP_EVENT_MASK (14_cupola.md)
abbrev F.CUP_EVENT_MASK.RSV31 : Fld := ⟨0x10010c, 8, 24, .rsv, 0⟩
abbrev F.CUP_EVENT_MASK.MASK : Fld := ⟨0x10010c, 0, 8, .rw, 0x1e⟩
-- R510 SPL_BASE (14_cupola.md)
abbrev F.SPL_BASE.BASE : Fld := ⟨0x100200, 4, 28, .rw, 0⟩
abbrev F.SPL_BASE.RSV3 : Fld := ⟨0x100200, 0, 4, .rsv, 0⟩
-- R511 SPL_CFG (14_cupola.md)
abbrev F.SPL_CFG.SPL_EN : Fld := ⟨0x100204, 31, 1, .rw, 0⟩
abbrev F.SPL_CFG.RSV30 : Fld := ⟨0x100204, 18, 13, .rsv, 0⟩
abbrev F.SPL_CFG.SPL_PAGES : Fld := ⟨0x100204, 0, 18, .rw, 0⟩
-- R512 SPL_STATUS (14_cupola.md)
abbrev F.SPL_STATUS.SPL_FREE : Fld := ⟨0x100208, 14, 18, .ro, 0⟩
abbrev F.SPL_STATUS.SPL_RDY : Fld := ⟨0x100208, 13, 1, .ro, 0⟩
abbrev F.SPL_STATUS.CFG_REFUSED : Fld := ⟨0x100208, 12, 1, .ro, 0⟩
abbrev F.SPL_STATUS.RSV11 : Fld := ⟨0x100208, 0, 12, .rsv, 0⟩
-- R513 SPL_BAD (14_cupola.md)
abbrev F.SPL_BAD.RSV31 : Fld := ⟨0x10020c, 18, 14, .rsv, 0⟩
abbrev F.SPL_BAD.BAD_PAGES : Fld := ⟨0x10020c, 0, 18, .ro, 0⟩
-- R514 SPT (14_cupola.md)
abbrev F.SPT.STATE (k : Nat) : Fld := ⟨0x140000 + 4 * k, 30, 2, .rw, 3⟩
abbrev F.SPT.OWNER (k : Nat) : Fld := ⟨0x140000 + 4 * k, 26, 4, .rw, 0xf⟩
abbrev F.SPT.CH (k : Nat) : Fld := ⟨0x140000 + 4 * k, 24, 2, .rw, 0⟩
abbrev F.SPT.RSV23 (k : Nat) : Fld := ⟨0x140000 + 4 * k, 18, 6, .rsv, 0⟩
abbrev F.SPT.NEXT (k : Nat) : Fld := ⟨0x140000 + 4 * k, 0, 18, .rw, 0x20000⟩
-- R515 SCRUB_CTRL (14_cupola.md)
abbrev F.SCRUB_CTRL.SCRUB_EN : Fld := ⟨0x100300, 31, 1, .rw, 1⟩
abbrev F.SCRUB_CTRL.RSV30 : Fld := ⟨0x100300, 24, 7, .rsv, 0⟩
abbrev F.SCRUB_CTRL.SCRUB_H : Fld := ⟨0x100300, 16, 8, .rw, 0x18⟩
abbrev F.SCRUB_CTRL.RSV15 : Fld := ⟨0x100300, 0, 16, .rsv, 0⟩
-- R516 SCRUB_STATUS (14_cupola.md)
abbrev F.SCRUB_STATUS.PASSES : Fld := ⟨0x100304, 16, 16, .ro, 0⟩
abbrev F.SCRUB_STATUS.PROGRESS : Fld := ⟨0x100304, 8, 8, .ro, 0⟩
abbrev F.SCRUB_STATUS.BEHIND : Fld := ⟨0x100304, 7, 1, .ro, 0⟩
abbrev F.SCRUB_STATUS.RSV6 : Fld := ⟨0x100304, 0, 7, .rsv, 0⟩
-- R517 CH_CFG (14_cupola.md)
abbrev F.CH_CFG.CH_EN (c : Nat) : Fld := ⟨0x110000 + 0x8000 * c, 31, 1, .rw, 0⟩
abbrev F.CH_CFG.SPEED (c : Nat) : Fld := ⟨0x110000 + 0x8000 * c, 28, 3, .rw, 4⟩
abbrev F.CH_CFG.X8 (c : Nat) : Fld := ⟨0x110000 + 0x8000 * c, 27, 1, .rw, 0⟩
abbrev F.CH_CFG.RANKS2 (c : Nat) : Fld := ⟨0x110000 + 0x8000 * c, 26, 1, .rw, 0⟩
abbrev F.CH_CFG.DENS (c : Nat) : Fld := ⟨0x110000 + 0x8000 * c, 24, 2, .rw, 1⟩
abbrev F.CH_CFG.REF2X (c : Nat) : Fld := ⟨0x110000 + 0x8000 * c, 23, 1, .rw, 0⟩
abbrev F.CH_CFG.RETRAIN_S (c : Nat) : Fld := ⟨0x110000 + 0x8000 * c, 15, 8, .rw, 1⟩
abbrev F.CH_CFG.RSV14 (c : Nat) : Fld := ⟨0x110000 + 0x8000 * c, 0, 15, .rsv, 0⟩
-- R518 CH_CTRL (14_cupola.md)
abbrev F.CH_CTRL.TRAIN_GO (c : Nat) : Fld := ⟨0x110004 + 0x8000 * c, 31, 1, .wo, 0⟩
abbrev F.CH_CTRL.RSV30 (c : Nat) : Fld := ⟨0x110004 + 0x8000 * c, 0, 31, .rsv, 0⟩
-- R519 CH_STATUS (14_cupola.md)
abbrev F.CH_STATUS.CH_STATE (c : Nat) : Fld := ⟨0x110008 + 0x8000 * c, 29, 3, .ro, 0⟩
abbrev F.CH_STATUS.TRAIN_FAIL (c : Nat) : Fld := ⟨0x110008 + 0x8000 * c, 25, 4, .ro, 0⟩
abbrev F.CH_STATUS.TRAIN_RESULT (c : Nat) : Fld := ⟨0x110008 + 0x8000 * c, 23, 2, .ro, 0⟩
abbrev F.CH_STATUS.RET_CAUSE (c : Nat) : Fld := ⟨0x110008 + 0x8000 * c, 20, 3, .ro, 0⟩
abbrev F.CH_STATUS.LANE_FAIL (c : Nat) : Fld := ⟨0x110008 + 0x8000 * c, 11, 9, .ro, 0⟩
abbrev F.CH_STATUS.CAP_GIB (c : Nat) : Fld := ⟨0x110008 + 0x8000 * c, 4, 7, .ro, 0⟩
abbrev F.CH_STATUS.RSV3 (c : Nat) : Fld := ⟨0x110008 + 0x8000 * c, 0, 4, .rsv, 0⟩
-- R520 CH_ECC (14_cupola.md)
abbrev F.CH_ECC.CE_CNT (c : Nat) : Fld := ⟨0x11000c + 0x8000 * c, 16, 16, .ro, 0⟩
abbrev F.CH_ECC.UE_CNT (c : Nat) : Fld := ⟨0x11000c + 0x8000 * c, 8, 8, .ro, 0⟩
abbrev F.CH_ECC.CAP_RETRY (c : Nat) : Fld := ⟨0x11000c + 0x8000 * c, 0, 8, .ro, 0⟩
-- R521 CH_ERR_ADDR (14_cupola.md)
abbrev F.CH_ERR_ADDR.ERR_A (c : Nat) : Fld := ⟨0x110010 + 0x8000 * c, 0, 32, .ro, 0⟩
-- R522 CH_ERR_INFO (14_cupola.md)
abbrev F.CH_ERR_INFO.VALID (c : Nat) : Fld := ⟨0x110014 + 0x8000 * c, 31, 1, .w1c, 0⟩
abbrev F.CH_ERR_INFO.TYPE (c : Nat) : Fld := ⟨0x110014 + 0x8000 * c, 29, 2, .ro, 0⟩
abbrev F.CH_ERR_INFO.SRC (c : Nat) : Fld := ⟨0x110014 + 0x8000 * c, 27, 2, .ro, 0⟩
abbrev F.CH_ERR_INFO.MID (c : Nat) : Fld := ⟨0x110014 + 0x8000 * c, 21, 6, .ro, 0⟩
abbrev F.CH_ERR_INFO.RANK (c : Nat) : Fld := ⟨0x110014 + 0x8000 * c, 20, 1, .ro, 0⟩
abbrev F.CH_ERR_INFO.DEVICE (c : Nat) : Fld := ⟨0x110014 + 0x8000 * c, 15, 5, .ro, 0⟩
abbrev F.CH_ERR_INFO.CW (c : Nat) : Fld := ⟨0x110014 + 0x8000 * c, 13, 2, .ro, 0⟩
abbrev F.CH_ERR_INFO.RSV12 (c : Nat) : Fld := ⟨0x110014 + 0x8000 * c, 0, 13, .rsv, 0⟩
-- R523 CH_DEV_CE (14_cupola.md)
abbrev F.CH_DEV_CE.RANK1_CE (c i : Nat) : Fld := ⟨0x110020 + 0x8000 * c + 4 * i, 16, 16, .ro, 0⟩
abbrev F.CH_DEV_CE.RANK0_CE (c i : Nat) : Fld := ⟨0x110020 + 0x8000 * c + 4 * i, 0, 16, .ro, 0⟩
-- R524 CH_INJECT (14_cupola.md)
abbrev F.CH_INJECT.INJ_ARM (c : Nat) : Fld := ⟨0x110080 + 0x8000 * c, 31, 1, .rw, 0⟩
abbrev F.CH_INJECT.SYM_A (c : Nat) : Fld := ⟨0x110080 + 0x8000 * c, 25, 6, .rw, 0⟩
abbrev F.CH_INJECT.SYM_B (c : Nat) : Fld := ⟨0x110080 + 0x8000 * c, 19, 6, .rw, 0⟩
abbrev F.CH_INJECT.INJ_TWO (c : Nat) : Fld := ⟨0x110080 + 0x8000 * c, 18, 1, .rw, 0⟩
abbrev F.CH_INJECT.PAT (c : Nat) : Fld := ⟨0x110080 + 0x8000 * c, 14, 4, .rw, 0xf⟩
abbrev F.CH_INJECT.RSV13 (c : Nat) : Fld := ⟨0x110080 + 0x8000 * c, 0, 14, .rsv, 0⟩
-- R525 BWR_CTRL (14_cupola.md)
abbrev F.BWR_CTRL.WIN : Fld := ⟨0xb100, 26, 6, .rw, 4⟩
abbrev F.BWR_CTRL.URG_WR : Fld := ⟨0xb100, 22, 4, .rw, 8⟩
abbrev F.BWR_CTRL.URG_RD : Fld := ⟨0xb100, 18, 4, .rw, 4⟩
abbrev F.BWR_CTRL.RSV17 : Fld := ⟨0xb100, 0, 18, .rsv, 0⟩
-- R526 BWR_ADM (14_cupola.md)
abbrev F.BWR_ADM.LIMIT : Fld := ⟨0xb104, 16, 16, .ro, 0⟩
abbrev F.BWR_ADM.G_SUM : Fld := ⟨0xb104, 0, 16, .ro, 0⟩
-- R527 BWR_FLAGS (14_cupola.md)
abbrev F.BWR_FLAGS.ADM_OVER : Fld := ⟨0xb108, 31, 1, .ro, 0⟩
abbrev F.BWR_FLAGS.ADM_REFUSED : Fld := ⟨0xb108, 30, 1, .ro, 0⟩
abbrev F.BWR_FLAGS.RSV29 : Fld := ⟨0xb108, 0, 30, .rsv, 0⟩
-- R528 BWR_CLIENT (14_cupola.md)
abbrev F.BWR_CLIENT.CLASS (i : Nat) : Fld := ⟨0xb200 + 4 * i, 30, 2, .rw, 1⟩
abbrev F.BWR_CLIENT.RSV29 (i : Nat) : Fld := ⟨0xb200 + 4 * i, 16, 14, .rsv, 0⟩
abbrev F.BWR_CLIENT.BUDGET (i : Nat) : Fld := ⟨0xb200 + 4 * i, 0, 16, .rw, 0⟩
-- R529 BWR_OVER (14_cupola.md)
abbrev F.BWR_OVER.OVER_WIN (i : Nat) : Fld := ⟨0xb300 + 4 * i, 0, 32, .ro, 0⟩
-- R530 BWR_BYTES_LO (14_cupola.md)
abbrev F.BWR_BYTES_LO.BYTES_LO (k : Nat) : Fld := ⟨0xb400 + 8 * k, 0, 32, .ro, 0⟩
-- R531 BWR_BYTES_HI (14_cupola.md)
abbrev F.BWR_BYTES_HI.BYTES_HI (k : Nat) : Fld := ⟨0xb404 + 8 * k, 0, 32, .ro, 0⟩
-- R564 HIF_CTRL (15_host_access_mailboxes.md)
abbrev F.HIF_CTRL.MDIO_PRIV : Fld := ⟨0x10100, 31, 1, .rwl, 0⟩
abbrev F.HIF_CTRL.RSV30 : Fld := ⟨0x10100, 29, 2, .rsv, 0⟩
abbrev F.HIF_CTRL.MDIO_BASE : Fld := ⟨0x10100, 24, 5, .rw, 0⟩
abbrev F.HIF_CTRL.RSV23 : Fld := ⟨0x10100, 0, 24, .rsv, 0⟩
-- R565 HIF_WIN (15_host_access_mailboxes.md)
abbrev F.HIF_WIN.RSV31 : Fld := ⟨0x10104, 12, 20, .rsv, 0⟩
abbrev F.HIF_WIN.WIN_BASE : Fld := ⟨0x10104, 0, 12, .rw, 0⟩
-- R566 HIF_INTN_MASK (15_host_access_mailboxes.md)
abbrev F.HIF_INTN_MASK.RSV31 : Fld := ⟨0x10108, 20, 12, .rsv, 0⟩
abbrev F.HIF_INTN_MASK.INTN_EN : Fld := ⟨0x10108, 0, 20, .rw, 0⟩
-- R567 HIF_INT_SRC (15_host_access_mailboxes.md)
abbrev F.HIF_INT_SRC.RSV31 : Fld := ⟨0x1010c, 20, 12, .rsv, 0⟩
abbrev F.HIF_INT_SRC.ERR : Fld := ⟨0x1010c, 19, 1, .ro, 0⟩
abbrev F.HIF_INT_SRC.DB_MDIO : Fld := ⟨0x1010c, 18, 1, .ro, 0⟩
abbrev F.HIF_INT_SRC.DB_PF1 : Fld := ⟨0x1010c, 17, 1, .ro, 0⟩
abbrev F.HIF_INT_SRC.DB_PF0 : Fld := ⟨0x1010c, 16, 1, .ro, 0⟩
abbrev F.HIF_INT_SRC.SRC : Fld := ⟨0x1010c, 0, 16, .ro, 0⟩
-- R568 HIF_ERR_INFO (15_host_access_mailboxes.md)
abbrev F.HIF_ERR_INFO.VALID : Fld := ⟨0x10110, 31, 1, .w1c, 0⟩
abbrev F.HIF_ERR_INFO.WRITE : Fld := ⟨0x10110, 30, 1, .ro, 0⟩
abbrev F.HIF_ERR_INFO.CAUSE : Fld := ⟨0x10110, 27, 3, .ro, 0⟩
abbrev F.HIF_ERR_INFO.SAFE : Fld := ⟨0x10110, 26, 1, .ro, 0⟩
abbrev F.HIF_ERR_INFO.LOCK : Fld := ⟨0x10110, 25, 1, .ro, 0⟩
abbrev F.HIF_ERR_INFO.RSV24 : Fld := ⟨0x10110, 24, 1, .rsv, 0⟩
abbrev F.HIF_ERR_INFO.MID : Fld := ⟨0x10110, 18, 6, .ro, 0⟩
abbrev F.HIF_ERR_INFO.RSV17 : Fld := ⟨0x10110, 16, 2, .rsv, 0⟩
abbrev F.HIF_ERR_INFO.ERR_CNT : Fld := ⟨0x10110, 0, 16, .ro, 0⟩
-- R569 HIF_ERR_ADDR (15_host_access_mailboxes.md)
abbrev F.HIF_ERR_ADDR.ERR_OFS : Fld := ⟨0x10114, 0, 32, .ro, 0⟩
-- R570 MBX_BIND (15_host_access_mailboxes.md)
abbrev F.MBX_BIND.VALID (c : Nat) : Fld := ⟨0x10200 + 4 * c, 31, 1, .rwl, 0⟩
abbrev F.MBX_BIND.RSV30 (c : Nat) : Fld := ⟨0x10200 + 4 * c, 14, 17, .rsv, 0⟩
abbrev F.MBX_BIND.SND_ID (c : Nat) : Fld := ⟨0x10200 + 4 * c, 8, 6, .rwl, 0⟩
abbrev F.MBX_BIND.RSV7 (c : Nat) : Fld := ⟨0x10200 + 4 * c, 6, 2, .rsv, 0⟩
abbrev F.MBX_BIND.RCV_ID (c : Nat) : Fld := ⟨0x10200 + 4 * c, 0, 6, .rwl, 0⟩
-- R571 DB_PEND (15_host_access_mailboxes.md)
abbrev F.DB_PEND.DB (e : Nat) : Fld := ⟨0x10400 + 0x10 * e, 0, 32, .w1c, 0⟩
-- R572 DB_MASK (15_host_access_mailboxes.md)
abbrev F.DB_MASK.DB_EN (e : Nat) : Fld := ⟨0x10404 + 0x10 * e, 0, 32, .rw, 0⟩
-- R573 ABORT (15_host_access_mailboxes.md)
abbrev F.ABORT.RSV31 (e : Nat) : Fld := ⟨0x10408 + 0x10 * e, 16, 16, .rsv, 0⟩
abbrev F.ABORT.ABRT (e : Nat) : Fld := ⟨0x10408 + 0x10 * e, 0, 16, .w1c, 0⟩
-- R574 ABORT_MASK (15_host_access_mailboxes.md)
abbrev F.ABORT_MASK.RSV31 (e : Nat) : Fld := ⟨0x1040c + 0x10 * e, 16, 16, .rsv, 0⟩
abbrev F.ABORT_MASK.ABRT_EN (e : Nat) : Fld := ⟨0x1040c + 0x10 * e, 0, 16, .rw, 0xffff⟩
-- R575 MB_DATA (15_host_access_mailboxes.md)
abbrev F.MB_DATA.WORD (c w : Nat) : Fld := ⟨0x11000 + 0x100 * c + 4 * w, 0, 32, .rw, 0⟩
-- R576 MB_SEND (15_host_access_mailboxes.md)
abbrev F.MB_SEND.GO (c : Nat) : Fld := ⟨0x11040 + 0x100 * c, 31, 1, .wo, 0⟩
abbrev F.MB_SEND.RSV30 (c : Nat) : Fld := ⟨0x11040 + 0x100 * c, 29, 2, .rsv, 0⟩
abbrev F.MB_SEND.DB (c : Nat) : Fld := ⟨0x11040 + 0x100 * c, 24, 5, .wo, 0⟩
abbrev F.MB_SEND.DB_EN (c : Nat) : Fld := ⟨0x11040 + 0x100 * c, 23, 1, .wo, 0⟩
abbrev F.MB_SEND.RSV22 (c : Nat) : Fld := ⟨0x11040 + 0x100 * c, 20, 3, .rsv, 0⟩
abbrev F.MB_SEND.LEN_M1 (c : Nat) : Fld := ⟨0x11040 + 0x100 * c, 16, 4, .wo, 0⟩
abbrev F.MB_SEND.RSV15 (c : Nat) : Fld := ⟨0x11040 + 0x100 * c, 0, 16, .rsv, 0⟩
-- R577 MB_STATUS (15_host_access_mailboxes.md)
abbrev F.MB_STATUS.FULL (c : Nat) : Fld := ⟨0x11044 + 0x100 * c, 31, 1, .ro, 0⟩
abbrev F.MB_STATUS.RSV30 (c : Nat) : Fld := ⟨0x11044 + 0x100 * c, 24, 7, .rsv, 0⟩
abbrev F.MB_STATUS.MSEQ (c : Nat) : Fld := ⟨0x11044 + 0x100 * c, 16, 8, .ro, 0⟩
abbrev F.MB_STATUS.RSV15 (c : Nat) : Fld := ⟨0x11044 + 0x100 * c, 12, 4, .rsv, 0⟩
abbrev F.MB_STATUS.LEN_M1 (c : Nat) : Fld := ⟨0x11044 + 0x100 * c, 8, 4, .ro, 0⟩
abbrev F.MB_STATUS.RSV7 (c : Nat) : Fld := ⟨0x11044 + 0x100 * c, 5, 3, .rsv, 0⟩
abbrev F.MB_STATUS.DB (c : Nat) : Fld := ⟨0x11044 + 0x100 * c, 0, 5, .ro, 0⟩
-- R578 MB_RCTL (15_host_access_mailboxes.md)
abbrev F.MB_RCTL.RRESET (c : Nat) : Fld := ⟨0x11048 + 0x100 * c, 31, 1, .wo, 0⟩
abbrev F.MB_RCTL.RSV30 (c : Nat) : Fld := ⟨0x11048 + 0x100 * c, 0, 31, .rsv, 0⟩
-- R594 CKC_OSC_STATUS (16_clocks.md)
abbrev F.CKC_OSC_STATUS.XA_STATE : Fld := ⟨0x1100, 30, 2, .ro, 0⟩
abbrev F.CKC_OSC_STATUS.XB_STATE : Fld := ⟨0x1100, 28, 2, .ro, 0⟩
abbrev F.CKC_OSC_STATUS.FOSC_TRIM : Fld := ⟨0x1100, 27, 1, .ro, 0⟩
abbrev F.CKC_OSC_STATUS.RSV26 : Fld := ⟨0x1100, 16, 11, .rsv, 0⟩
abbrev F.CKC_OSC_STATUS.XA_LOST_CNT : Fld := ⟨0x1100, 8, 8, .ro, 0⟩
abbrev F.CKC_OSC_STATUS.XB_LOST_CNT : Fld := ⟨0x1100, 0, 8, .ro, 0⟩
-- R595 CKC_REF (16_clocks.md)
abbrev F.CKC_REF.REF_SEL : Fld := ⟨0x1104, 31, 1, .rw, 0⟩
abbrev F.CKC_REF.AUTO_REF : Fld := ⟨0x1104, 30, 1, .rw, 1⟩
abbrev F.CKC_REF.AUTO_FB : Fld := ⟨0x1104, 29, 1, .rw, 1⟩
abbrev F.CKC_REF.RSV28 : Fld := ⟨0x1104, 0, 29, .rsv, 0⟩
-- R596 CKC_PLL_STATUS (16_clocks.md)
abbrev F.CKC_PLL_STATUS.LOCK (p : Nat) : Fld := ⟨0x1110 + 4 * p, 31, 1, .ro, 0⟩
abbrev F.CKC_PLL_STATUS.HOLDOVER (p : Nat) : Fld := ⟨0x1110 + 4 * p, 30, 1, .ro, 0⟩
abbrev F.CKC_PLL_STATUS.RSV29 (p : Nat) : Fld := ⟨0x1110 + 4 * p, 16, 14, .rsv, 0⟩
abbrev F.CKC_PLL_STATUS.LOL_CNT (p : Nat) : Fld := ⟨0x1110 + 4 * p, 0, 16, .ro, 0⟩
-- R597 CKC_SW (16_clocks.md)
abbrev F.CKC_SW.SW_GO : Fld := ⟨0x1140, 31, 1, .wo, 0⟩
abbrev F.CKC_SW.SW_SRC : Fld := ⟨0x1140, 30, 1, .rw, 0⟩
abbrev F.CKC_SW.SW_MODE : Fld := ⟨0x1140, 29, 1, .rw, 0⟩
abbrev F.CKC_SW.RAMP_STEP : Fld := ⟨0x1140, 21, 8, .rw, 0xa⟩
abbrev F.CKC_SW.RSV20 : Fld := ⟨0x1140, 0, 21, .rsv, 0⟩
-- R598 CKC_SW_STATUS (16_clocks.md)
abbrev F.CKC_SW_STATUS.SRC_CUR : Fld := ⟨0x1144, 31, 1, .ro, 0⟩
abbrev F.CKC_SW_STATUS.SW_BUSY : Fld := ⟨0x1144, 30, 1, .ro, 0⟩
abbrev F.CKC_SW_STATUS.SW_RESULT : Fld := ⟨0x1144, 28, 2, .ro, 0⟩
abbrev F.CKC_SW_STATUS.SW_FORCED : Fld := ⟨0x1144, 27, 1, .ro, 0⟩
abbrev F.CKC_SW_STATUS.TB_INEXACT : Fld := ⟨0x1144, 26, 1, .ro, 0⟩
abbrev F.CKC_SW_STATUS.SW_AUTO : Fld := ⟨0x1144, 25, 1, .ro, 0⟩
abbrev F.CKC_SW_STATUS.RSV24 : Fld := ⟨0x1144, 8, 17, .rsv, 0⟩
abbrev F.CKC_SW_STATUS.SW_GAP : Fld := ⟨0x1144, 0, 8, .ro, 0⟩
-- R599 CKC_GATE (16_clocks.md)
abbrev F.CKC_GATE.GATE_GO : Fld := ⟨0x1180, 31, 1, .wo, 0⟩
abbrev F.CKC_GATE.GATE_ON : Fld := ⟨0x1180, 30, 1, .rw, 1⟩
abbrev F.CKC_GATE.GATE_FORCE : Fld := ⟨0x1180, 29, 1, .rw, 0⟩
abbrev F.CKC_GATE.GATE_ID : Fld := ⟨0x1180, 24, 5, .rw, 0⟩
abbrev F.CKC_GATE.GATE_TO : Fld := ⟨0x1180, 16, 8, .rw, 0xa⟩
abbrev F.CKC_GATE.RSV15 : Fld := ⟨0x1180, 0, 16, .rsv, 0⟩
-- R600 CKC_GATE_STATUS (16_clocks.md)
abbrev F.CKC_GATE_STATUS.GATE_BUSY : Fld := ⟨0x1184, 31, 1, .ro, 0⟩
abbrev F.CKC_GATE_STATUS.GATE_RESULT : Fld := ⟨0x1184, 28, 3, .ro, 0⟩
abbrev F.CKC_GATE_STATUS.RSV27 : Fld := ⟨0x1184, 26, 2, .rsv, 0⟩
abbrev F.CKC_GATE_STATUS.GATE_STATE : Fld := ⟨0x1184, 0, 26, .ro, 0x3ffffff⟩
-- R601 CKC_FCNT_CTRL (16_clocks.md)
abbrev F.CKC_FCNT_CTRL.FC_GO : Fld := ⟨0x11c0, 31, 1, .wo, 0⟩
abbrev F.CKC_FCNT_CTRL.FC_SEL : Fld := ⟨0x11c0, 25, 6, .rw, 0⟩
abbrev F.CKC_FCNT_CTRL.RSV24 : Fld := ⟨0x11c0, 16, 9, .rsv, 0⟩
abbrev F.CKC_FCNT_CTRL.FC_N : Fld := ⟨0x11c0, 0, 16, .rw, 1⟩
-- R602 CKC_FCNT_RESULT (16_clocks.md)
abbrev F.CKC_FCNT_RESULT.FC_DONE : Fld := ⟨0x11c4, 31, 1, .ro, 0⟩
abbrev F.CKC_FCNT_RESULT.FC_OVF : Fld := ⟨0x11c4, 30, 1, .ro, 0⟩
abbrev F.CKC_FCNT_RESULT.FC_ABORT : Fld := ⟨0x11c4, 29, 1, .ro, 0⟩
abbrev F.CKC_FCNT_RESULT.FC_BUSY : Fld := ⟨0x11c4, 28, 1, .ro, 0⟩
abbrev F.CKC_FCNT_RESULT.RSV27 : Fld := ⟨0x11c4, 24, 4, .rsv, 0⟩
abbrev F.CKC_FCNT_RESULT.FC_COUNT : Fld := ⟨0x11c4, 0, 24, .ro, 0⟩
-- R603 CKC_EVENT (16_clocks.md)
abbrev F.CKC_EVENT.RSV31 : Fld := ⟨0x11e0, 8, 24, .rsv, 0⟩
abbrev F.CKC_EVENT.REF_AUTO : Fld := ⟨0x11e0, 7, 1, .w1c, 0⟩
abbrev F.CKC_EVENT.PLL_LOL : Fld := ⟨0x11e0, 6, 1, .w1c, 0⟩
abbrev F.CKC_EVENT.XTAL_LOST : Fld := ⟨0x11e0, 5, 1, .w1c, 0⟩
abbrev F.CKC_EVENT.SW_FORCED : Fld := ⟨0x11e0, 4, 1, .w1c, 0⟩
abbrev F.CKC_EVENT.RAMP_DONE : Fld := ⟨0x11e0, 3, 1, .w1c, 0⟩
abbrev F.CKC_EVENT.SW_DONE : Fld := ⟨0x11e0, 2, 1, .w1c, 0⟩
abbrev F.CKC_EVENT.GATE_DONE : Fld := ⟨0x11e0, 1, 1, .w1c, 0⟩
abbrev F.CKC_EVENT.FC_DONE : Fld := ⟨0x11e0, 0, 1, .w1c, 0⟩
-- R604 CKC_EVENT_MASK (16_clocks.md)
abbrev F.CKC_EVENT_MASK.RSV31 : Fld := ⟨0x11e4, 8, 24, .rsv, 0⟩
abbrev F.CKC_EVENT_MASK.CEV_MASK : Fld := ⟨0x11e4, 0, 8, .rw, 0xf0⟩
-- R623 PWC_REQ (17_power.md)
abbrev F.PWC_REQ.GO : Fld := ⟨0x2100, 31, 1, .wo, 0⟩
abbrev F.PWC_REQ.KIND : Fld := ⟨0x2100, 30, 1, .rw, 0⟩
abbrev F.PWC_REQ.TARGET : Fld := ⟨0x2100, 28, 2, .rw, 2⟩
abbrev F.PWC_REQ.INDEX : Fld := ⟨0x2100, 20, 8, .rw, 0⟩
abbrev F.PWC_REQ.TAG : Fld := ⟨0x2100, 12, 8, .rw, 0⟩
abbrev F.PWC_REQ.RSV11 : Fld := ⟨0x2100, 0, 12, .rsv, 0⟩
-- R624 PWC_RESULT (17_power.md)
abbrev F.PWC_RESULT.INFLIGHT : Fld := ⟨0x2104, 31, 1, .ro, 0⟩
abbrev F.PWC_RESULT.QUEUED : Fld := ⟨0x2104, 30, 1, .ro, 0⟩
abbrev F.PWC_RESULT.INF_TAG : Fld := ⟨0x2104, 22, 8, .ro, 0⟩
abbrev F.PWC_RESULT.LAST_TAG : Fld := ⟨0x2104, 14, 8, .ro, 0⟩
abbrev F.PWC_RESULT.LAST_RESULT : Fld := ⟨0x2104, 11, 3, .ro, 0⟩
abbrev F.PWC_RESULT.WHY : Fld := ⟨0x2104, 8, 3, .ro, 0⟩
abbrev F.PWC_RESULT.SUP_TAG : Fld := ⟨0x2104, 0, 8, .ro, 0⟩
-- R625 PWC_MODE (17_power.md)
abbrev F.PWC_MODE.MODE : Fld := ⟨0x2108, 30, 2, .ro, 0⟩
abbrev F.PWC_MODE.WAKE_CAUSE : Fld := ⟨0x2108, 28, 2, .ro, 0⟩
abbrev F.PWC_MODE.RSV27 : Fld := ⟨0x2108, 0, 28, .rsv, 0⟩
-- R626 PWC_AUTO (17_power.md)
abbrev F.PWC_AUTO.AUTO_PD : Fld := ⟨0x210c, 24, 8, .rw, 0xff⟩
abbrev F.PWC_AUTO.HL_AUTO : Fld := ⟨0x210c, 16, 8, .rw, 0xff⟩
abbrev F.PWC_AUTO.RSV15 : Fld := ⟨0x210c, 0, 16, .rsv, 0⟩
-- R627 PWC_DEPOT (17_power.md)
abbrev F.PWC_DEPOT.DEP_WAKE_S : Fld := ⟨0x2110, 16, 16, .rw, 0⟩
abbrev F.PWC_DEPOT.WAKE_N_EN : Fld := ⟨0x2110, 15, 1, .rw, 1⟩
abbrev F.PWC_DEPOT.RSV14 : Fld := ⟨0x2110, 0, 15, .rsv, 0⟩
-- R628 PWC_AVS (17_power.md)
abbrev F.PWC_AVS.AVS_VALID : Fld := ⟨0x2114, 31, 1, .ro, 0⟩
abbrev F.PWC_AVS.AVS_TARGET : Fld := ⟨0x2114, 20, 11, .ro, 0x370⟩
abbrev F.PWC_AVS.RSV19 : Fld := ⟨0x2114, 0, 20, .rsv, 0⟩
-- R629 PWC_EVENT (17_power.md)
abbrev F.PWC_EVENT.RSV31 : Fld := ⟨0x2118, 6, 26, .rsv, 0⟩
abbrev F.PWC_EVENT.AVS_CHANGE : Fld := ⟨0x2118, 5, 1, .w1c, 0⟩
abbrev F.PWC_EVENT.FAILED : Fld := ⟨0x2118, 4, 1, .w1c, 0⟩
abbrev F.PWC_EVENT.WAKE_DONE : Fld := ⟨0x2118, 3, 1, .w1c, 0⟩
abbrev F.PWC_EVENT.ABORTED : Fld := ⟨0x2118, 2, 1, .w1c, 0⟩
abbrev F.PWC_EVENT.SUPERSEDED : Fld := ⟨0x2118, 1, 1, .w1c, 0⟩
abbrev F.PWC_EVENT.REQ_DONE : Fld := ⟨0x2118, 0, 1, .w1c, 0⟩
-- R629 PWC_EVENT_MASK (17_power.md)
abbrev F.PWC_EVENT_MASK.RSV31 : Fld := ⟨0x211c, 8, 24, .rsv, 0⟩
abbrev F.PWC_EVENT_MASK.MASK : Fld := ⟨0x211c, 0, 8, .rw, 0x3e⟩
-- R630 PWC_DOM (17_power.md)
abbrev F.PWC_DOM.STATE (i : Nat) : Fld := ⟨0x2400 + 4 * i, 30, 2, .ro, domResetCode i⟩
abbrev F.PWC_DOM.QUIET_TGT (i : Nat) : Fld := ⟨0x2400 + 4 * i, 28, 2, .rw, 2⟩
abbrev F.PWC_DOM.DEPOT_TGT (i : Nat) : Fld := ⟨0x2400 + 4 * i, 26, 2, .rw, domDepotTgt i⟩
abbrev F.PWC_DOM.RSV25 (i : Nat) : Fld := ⟨0x2400 + 4 * i, 24, 2, .rsv, 0⟩
abbrev F.PWC_DOM.RET_SEL (i : Nat) : Fld := ⟨0x2400 + 4 * i, 16, 8, .rw, 0xff⟩
abbrev F.PWC_DOM.RSV15 (i : Nat) : Fld := ⟨0x2400 + 4 * i, 0, 16, .rsv, 0⟩
-- R644 CAL_CTRL (18_calibration_monitors.md)
abbrev F.CAL_CTRL.CAL_GO : Fld := ⟨0x9100, 31, 1, .wo, 0⟩
abbrev F.CAL_CTRL.CAL_SAVE : Fld := ⟨0x9100, 30, 1, .wo, 0⟩
abbrev F.CAL_CTRL.CAL_PORT : Fld := ⟨0x9100, 27, 3, .rw, 0⟩
abbrev F.CAL_CTRL.CAL_PAIR : Fld := ⟨0x9100, 24, 3, .rw, 0⟩
abbrev F.CAL_CTRL.CAL_DT : Fld := ⟨0x9100, 19, 5, .rw, 0xc⟩
abbrev F.CAL_CTRL.CAL_PERIOD : Fld := ⟨0x9100, 11, 8, .rw, 0⟩
abbrev F.CAL_CTRL.CONV_MAX : Fld := ⟨0x9100, 5, 6, .rw, 8⟩
abbrev F.CAL_CTRL.CAL_REVERT : Fld := ⟨0x9100, 0, 5, .rw, 8⟩
-- R645 CAL_STATUS (18_calibration_monitors.md)
abbrev F.CAL_STATUS.CAL_BUSY : Fld := ⟨0x9104, 31, 1, .ro, 0⟩
abbrev F.CAL_STATUS.SAVE_BUSY : Fld := ⟨0x9104, 30, 1, .ro, 0⟩
abbrev F.CAL_STATUS.CAL_RESULT : Fld := ⟨0x9104, 27, 3, .ro, 0⟩
abbrev F.CAL_STATUS.CAL_SRC : Fld := ⟨0x9104, 25, 2, .ro, 0⟩
abbrev F.CAL_STATUS.VREF_BAD : Fld := ⟨0x9104, 24, 1, .ro, 0⟩
abbrev F.CAL_STATUS.RES_BAD : Fld := ⟨0x9104, 23, 1, .ro, 0⟩
abbrev F.CAL_STATUS.SAVE_REFUSED : Fld := ⟨0x9104, 22, 1, .ro, 0⟩
abbrev F.CAL_STATUS.RSV21 : Fld := ⟨0x9104, 16, 6, .rsv, 0⟩
abbrev F.CAL_STATUS.CUR_GEN : Fld := ⟨0x9104, 0, 16, .ro, 0⟩
-- R646 CAL_DUE (18_calibration_monitors.md)
abbrev F.CAL_DUE.DUE (n : Nat) : Fld := ⟨0x9110 + 4 * n, 27, 5, .ro, 0⟩
abbrev F.CAL_DUE.RSV26 (n : Nat) : Fld := ⟨0x9110 + 4 * n, 12, 15, .rsv, 0⟩
abbrev F.CAL_DUE.CAUSE (n : Nat) : Fld := ⟨0x9110 + 4 * n, 0, 12, .ro, 0⟩
-- R646 CAL_DUE2 (18_calibration_monitors.md)
abbrev F.CAL_DUE2.DUE (n : Nat) : Fld := ⟨0x9130 + 4 * n, 27, 5, .ro, 0⟩
abbrev F.CAL_DUE2.RSV26 (n : Nat) : Fld := ⟨0x9130 + 4 * n, 12, 15, .rsv, 0⟩
abbrev F.CAL_DUE2.CAUSE (n : Nat) : Fld := ⟨0x9130 + 4 * n, 0, 12, .ro, 0⟩
-- R647 REC_SLOT (18_calibration_monitors.md)
abbrev F.REC_SLOT.VALID (s : Nat) : Fld := ⟨0x9150 + 4 * s, 31, 1, .ro, 0⟩
abbrev F.REC_SLOT.SLOT_BAD (s : Nat) : Fld := ⟨0x9150 + 4 * s, 30, 1, .ro, 0⟩
abbrev F.REC_SLOT.WRITES (s : Nat) : Fld := ⟨0x9150 + 4 * s, 16, 14, .ro, 0⟩
abbrev F.REC_SLOT.GEN (s : Nat) : Fld := ⟨0x9150 + 4 * s, 0, 16, .ro, 0⟩
-- R648 CAL_COUNT (18_calibration_monitors.md)
abbrev F.CAL_COUNT.COUNT : Fld := ⟨0x9180, 0, 32, .ro, 0⟩
-- R649 CAL_LAST_LO (18_calibration_monitors.md)
abbrev F.CAL_LAST_LO.LAST_LO : Fld := ⟨0x9188, 0, 32, .ro, 0⟩
-- R649 CAL_LAST_HI (18_calibration_monitors.md)
abbrev F.CAL_LAST_HI.LAST_HI : Fld := ⟨0x918c, 0, 32, .ro, 0⟩
-- R650 QF_MARGIN (18_calibration_monitors.md)
abbrev F.QF_MARGIN.CUR (n x : Nat) : Fld := ⟨0x9200 + 0x20 * n + 4 * x, 22, 10, .ro, 0⟩
abbrev F.QF_MARGIN.PRE (n x : Nat) : Fld := ⟨0x9200 + 0x20 * n + 4 * x, 12, 10, .ro, 0⟩
abbrev F.QF_MARGIN.POST (n x : Nat) : Fld := ⟨0x9200 + 0x20 * n + 4 * x, 2, 10, .ro, 0⟩
abbrev F.QF_MARGIN.RSV1 (n x : Nat) : Fld := ⟨0x9200 + 0x20 * n + 4 * x, 0, 2, .rsv, 0⟩
-- R651 QF_EYE (18_calibration_monitors.md)
abbrev F.QF_EYE.RSV31 (n : Nat) : Fld := ⟨0x9300 + 4 * n, 15, 17, .rsv, 0⟩
abbrev F.QF_EYE.EYE_MIN (n : Nat) : Fld := ⟨0x9300 + 4 * n, 8, 7, .rcl, 0x40⟩
abbrev F.QF_EYE.RSV7 (n : Nat) : Fld := ⟨0x9300 + 4 * n, 7, 1, .rsv, 0⟩
abbrev F.QF_EYE.EYE_CUR (n : Nat) : Fld := ⟨0x9300 + 4 * n, 0, 7, .ro, 0⟩
-- R652 CAL_EVENT (18_calibration_monitors.md)
abbrev F.CAL_EVENT.RSV31 : Fld := ⟨0x91e0, 5, 27, .rsv, 0⟩
abbrev F.CAL_EVENT.REF_BAD : Fld := ⟨0x91e0, 4, 1, .w1c, 0⟩
abbrev F.CAL_EVENT.REVERTED : Fld := ⟨0x91e0, 3, 1, .w1c, 0⟩
abbrev F.CAL_EVENT.CAL_FAIL : Fld := ⟨0x91e0, 2, 1, .w1c, 0⟩
abbrev F.CAL_EVENT.CAL_SAVE_DONE : Fld := ⟨0x91e0, 1, 1, .w1c, 0⟩
abbrev F.CAL_EVENT.CAL_DONE : Fld := ⟨0x91e0, 0, 1, .w1c, 0⟩
-- R652 CAL_EVENT_MASK (18_calibration_monitors.md)
abbrev F.CAL_EVENT_MASK.RSV31 : Fld := ⟨0x91e4, 8, 24, .rsv, 0⟩
abbrev F.CAL_EVENT_MASK.MASK : Fld := ⟨0x91e4, 0, 8, .rw, 0x1e⟩
-- R653 MON_CTRL (18_calibration_monitors.md)
abbrev F.MON_CTRL.MON_EN : Fld := ⟨0x8100, 31, 1, .rw, 1⟩
abbrev F.MON_CTRL.T_WARN : Fld := ⟨0x8100, 23, 8, .rw, 0x6e⟩
abbrev F.MON_CTRL.T_CRIT : Fld := ⟨0x8100, 15, 8, .rw, 0x7d⟩
abbrev F.MON_CTRL.RSV14 : Fld := ⟨0x8100, 0, 15, .rsv, 0⟩
-- R654 MON_TEMP (18_calibration_monitors.md)
abbrev F.MON_TEMP.RSV31 (i : Nat) : Fld := ⟨0x8200 + 4 * i, 28, 4, .rsv, 0⟩
abbrev F.MON_TEMP.T_MAX (i : Nat) : Fld := ⟨0x8200 + 4 * i, 16, 12, .rcl, 0x800⟩
abbrev F.MON_TEMP.RSV15 (i : Nat) : Fld := ⟨0x8200 + 4 * i, 12, 4, .rsv, 0⟩
abbrev F.MON_TEMP.T_NOW (i : Nat) : Fld := ⟨0x8200 + 4 * i, 0, 12, .ro, 0⟩
-- R655 MON_VOLT (18_calibration_monitors.md)
abbrev F.MON_VOLT.RSV31 (i : Nat) : Fld := ⟨0x8300 + 4 * i, 16, 16, .rsv, 0⟩
abbrev F.MON_VOLT.RSV15 (i : Nat) : Fld := ⟨0x8300 + 4 * i, 12, 4, .rsv, 0⟩
abbrev F.MON_VOLT.V_NOW (i : Nat) : Fld := ⟨0x8300 + 4 * i, 0, 12, .ro, 0⟩
-- R656 MON_VLIM (18_calibration_monitors.md)
abbrev F.MON_VLIM.RSV31 (i : Nat) : Fld := ⟨0x8380 + 4 * i, 28, 4, .rsv, 0⟩
abbrev F.MON_VLIM.OV (i : Nat) : Fld := ⟨0x8380 + 4 * i, 16, 12, .rw, vlimOv i⟩
abbrev F.MON_VLIM.RSV15 (i : Nat) : Fld := ⟨0x8380 + 4 * i, 12, 4, .rsv, 0⟩
abbrev F.MON_VLIM.UV (i : Nat) : Fld := ⟨0x8380 + 4 * i, 0, 12, .rw, vlimUv i⟩
-- R657 MON_PROC (18_calibration_monitors.md)
abbrev F.MON_PROC.RSV31 (j : Nat) : Fld := ⟨0x8400 + 4 * j, 16, 16, .rsv, 0⟩
abbrev F.MON_PROC.RO_CNT (j : Nat) : Fld := ⟨0x8400 + 4 * j, 0, 16, .ro, 0⟩
-- R658 MON_EVENT (18_calibration_monitors.md)
abbrev F.MON_EVENT.RSV31 : Fld := ⟨0x81e0, 4, 28, .rsv, 0⟩
abbrev F.MON_EVENT.VOLT : Fld := ⟨0x81e0, 3, 1, .w1c, 0⟩
abbrev F.MON_EVENT.T_CRIT : Fld := ⟨0x81e0, 2, 1, .w1c, 0⟩
abbrev F.MON_EVENT.T_WARN : Fld := ⟨0x81e0, 1, 1, .w1c, 0⟩
abbrev F.MON_EVENT.AVS_IN : Fld := ⟨0x81e0, 0, 1, .w1c, 0⟩
-- R658 MON_EVENT_MASK (18_calibration_monitors.md)
abbrev F.MON_EVENT_MASK.RSV31 : Fld := ⟨0x81e4, 8, 24, .rsv, 0⟩
abbrev F.MON_EVENT_MASK.MASK : Fld := ⟨0x81e4, 0, 8, .rw, 0xe⟩
-- R683 FLT_CTRL (19_faults_availability.md)
abbrev F.FLT_CTRL.CHIP_RST_GO : Fld := ⟨0x4100, 31, 1, .wo, 0⟩
abbrev F.FLT_CTRL.BLK_RST_GO : Fld := ⟨0x4100, 30, 1, .wo, 0⟩
abbrev F.FLT_CTRL.BLK_SEL : Fld := ⟨0x4100, 24, 6, .rw, 0⟩
abbrev F.FLT_CTRL.INJ_QUIET : Fld := ⟨0x4100, 23, 1, .rw, 1⟩
abbrev F.FLT_CTRL.RSV22 : Fld := ⟨0x4100, 0, 23, .rsv, 0⟩
-- R684 FLT_STATUS (19_faults_availability.md)
abbrev F.FLT_STATUS.SAFE : Fld := ⟨0x4104, 31, 1, .ro, 0⟩
abbrev F.FLT_STATUS.FAULT_N_LOW : Fld := ⟨0x4104, 30, 1, .ro, 0⟩
abbrev F.FLT_STATUS.N_C : Fld := ⟨0x4104, 20, 10, .ro, 0⟩
abbrev F.FLT_STATUS.N_U : Fld := ⟨0x4104, 10, 10, .ro, 0⟩
abbrev F.FLT_STATUS.N_F : Fld := ⟨0x4104, 0, 10, .ro, 0⟩
-- R685 FLT_PERSIST (19_faults_availability.md)
abbrev F.FLT_PERSIST.LAST_RESET : Fld := ⟨0x4108, 28, 4, .ro, 0⟩
abbrev F.FLT_PERSIST.RSV27 : Fld := ⟨0x4108, 26, 2, .rsv, 0⟩
abbrev F.FLT_PERSIST.RST_ID : Fld := ⟨0x4108, 16, 10, .ro, 0⟩
abbrev F.FLT_PERSIST.CHIP_RESETS : Fld := ⟨0x4108, 0, 16, .ro, 0⟩
-- R686 FLT_INJ (19_faults_availability.md)
abbrev F.FLT_INJ.INJ_GO : Fld := ⟨0x410c, 31, 1, .wo, 0⟩
abbrev F.FLT_INJ.INJ_MODE : Fld := ⟨0x410c, 29, 2, .rw, 0⟩
abbrev F.FLT_INJ.INJ_ID : Fld := ⟨0x410c, 19, 10, .rw, 0⟩
abbrev F.FLT_INJ.INJ_UNIT : Fld := ⟨0x410c, 8, 11, .rw, 0⟩
abbrev F.FLT_INJ.INJ_RESULT : Fld := ⟨0x410c, 6, 2, .ro, 0⟩
abbrev F.FLT_INJ.INJ_BIT : Fld := ⟨0x410c, 0, 6, .rw, 0⟩
-- R687 FLT_FIRST_INFO (19_faults_availability.md)
abbrev F.FLT_FIRST_INFO.VALID (k : Nat) : Fld := ⟨0x4140 + 0x20 * k, 31, 1, .w1c, 0⟩
abbrev F.FLT_FIRST_INFO.OVF (k : Nat) : Fld := ⟨0x4140 + 0x20 * k, 30, 1, .ro, 0⟩
abbrev F.FLT_FIRST_INFO.RSV29 (k : Nat) : Fld := ⟨0x4140 + 0x20 * k, 26, 4, .rsv, 0⟩
abbrev F.FLT_FIRST_INFO.ID (k : Nat) : Fld := ⟨0x4140 + 0x20 * k, 16, 10, .ro, 0⟩
abbrev F.FLT_FIRST_INFO.OVF_CNT (k : Nat) : Fld := ⟨0x4140 + 0x20 * k, 0, 16, .ro, 0⟩
-- R688 FLT_FIRST_DATA (19_faults_availability.md)
abbrev F.FLT_FIRST_DATA.VALUE (k w : Nat) : Fld := ⟨0x4148 + 0x20 * k + 4 * w, 0, 32, .ro, 0⟩
-- R689 FLT_SRC_CFG (19_faults_availability.md)
abbrev F.FLT_SRC_CFG.IMPL (i : Nat) : Fld := ⟨0x5000 + 4 * i, 31, 1, .ro, srcImplBit i⟩
abbrev F.FLT_SRC_CFG.CLASS (i : Nat) : Fld := ⟨0x5000 + 4 * i, 29, 2, .ro, srcClassCode i⟩
abbrev F.FLT_SRC_CFG.REPAIR (i : Nat) : Fld := ⟨0x5000 + 4 * i, 28, 1, .rw, srcRepairReset i⟩
abbrev F.FLT_SRC_CFG.RSV27 (i : Nat) : Fld := ⟨0x5000 + 4 * i, 17, 11, .rsv, 0⟩
abbrev F.FLT_SRC_CFG.NUNITS (i : Nat) : Fld := ⟨0x5000 + 4 * i, 6, 11, .ro, srcUnits i⟩
abbrev F.FLT_SRC_CFG.PIN (i : Nat) : Fld := ⟨0x5000 + 4 * i, 5, 1, .rw, srcPinReset i⟩
abbrev F.FLT_SRC_CFG.CHIP_RST (i : Nat) : Fld := ⟨0x5000 + 4 * i, 4, 1, .rw, 0⟩
abbrev F.FLT_SRC_CFG.BLK_RST (i : Nat) : Fld := ⟨0x5000 + 4 * i, 3, 1, .rw, 0⟩
abbrev F.FLT_SRC_CFG.LNT_NMI (i : Nat) : Fld := ⟨0x5000 + 4 * i, 2, 1, .rw, srcNmiReset i⟩
abbrev F.FLT_SRC_CFG.LNT_INT (i : Nat) : Fld := ⟨0x5000 + 4 * i, 1, 1, .rw, srcLntIntReset i⟩
abbrev F.FLT_SRC_CFG.HOST_INT (i : Nat) : Fld := ⟨0x5000 + 4 * i, 0, 1, .rw, srcHostIntReset i⟩
-- R690 FLT_SRC_STAT (19_faults_availability.md)
abbrev F.FLT_SRC_STAT.LATCHED (i : Nat) : Fld := ⟨0x6000 + 4 * i, 31, 1, .w1c, 0⟩
abbrev F.FLT_SRC_STAT.ACTIVE (i : Nat) : Fld := ⟨0x6000 + 4 * i, 30, 1, .ro, 0⟩
abbrev F.FLT_SRC_STAT.WIRE (i : Nat) : Fld := ⟨0x6000 + 4 * i, 29, 1, .ro, 0⟩
abbrev F.FLT_SRC_STAT.INJ (i : Nat) : Fld := ⟨0x6000 + 4 * i, 28, 1, .ro, 0⟩
abbrev F.FLT_SRC_STAT.RSV27 (i : Nat) : Fld := ⟨0x6000 + 4 * i, 16, 12, .rsv, 0⟩
abbrev F.FLT_SRC_STAT.COUNT (i : Nat) : Fld := ⟨0x6000 + 4 * i, 0, 16, .ro, 0⟩
-- R691 EVJ_CTRL (19_faults_availability.md)
abbrev F.EVJ_CTRL.MIRROR_EN : Fld := ⟨0xa100, 31, 1, .rw, 0⟩
abbrev F.EVJ_CTRL.RSV30 : Fld := ⟨0xa100, 21, 10, .rsv, 0⟩
abbrev F.EVJ_CTRL.MEM_LOG : Fld := ⟨0xa100, 16, 5, .rw, 0xa⟩
abbrev F.EVJ_CTRL.RSV15 : Fld := ⟨0xa100, 0, 16, .rsv, 0⟩
-- R692 EVJ_MEM_BASE (19_faults_availability.md)
abbrev F.EVJ_MEM_BASE.BASE : Fld := ⟨0xa104, 4, 28, .rw, 0⟩
abbrev F.EVJ_MEM_BASE.RSV3 : Fld := ⟨0xa104, 0, 4, .rsv, 0⟩
-- R693 EVJ_SEQ (19_faults_availability.md)
abbrev F.EVJ_SEQ.NEXT_SEQ : Fld := ⟨0xa108, 0, 32, .ro, 0⟩
-- R694 EVJ_EPOCH (19_faults_availability.md)
abbrev F.EVJ_EPOCH.RSV31 : Fld := ⟨0xa10c, 16, 16, .rsv, 0⟩
abbrev F.EVJ_EPOCH.EPOCH : Fld := ⟨0xa10c, 0, 16, .ro, 0⟩
-- R695 EVJ_LOST (19_faults_availability.md)
abbrev F.EVJ_LOST.SUPPRESSED : Fld := ⟨0xa110, 16, 16, .rcl, 0⟩
abbrev F.EVJ_LOST.MIRROR_SKIP : Fld := ⟨0xa110, 0, 16, .rcl, 0⟩
-- R696 EVJ_TB_LO (19_faults_availability.md)
abbrev F.EVJ_TB_LO.TB_LO : Fld := ⟨0xa118, 0, 32, .ro, 0⟩
-- R696 EVJ_TB_HI (19_faults_availability.md)
abbrev F.EVJ_TB_HI.TB_HI : Fld := ⟨0xa11c, 0, 32, .ro, 0⟩
-- R697 EVJ_SWDATA (19_faults_availability.md)
abbrev F.EVJ_SWDATA.WORD (w : Nat) : Fld := ⟨0xa120 + 4 * w, 0, 32, .rw, 0⟩
-- R698 EVJ_SWGO (19_faults_availability.md)
abbrev F.EVJ_SWGO.GO : Fld := ⟨0xa130, 31, 1, .wo, 0⟩
abbrev F.EVJ_SWGO.RSV30 : Fld := ⟨0xa130, 4, 27, .rsv, 0⟩
abbrev F.EVJ_SWGO.SW_SRC : Fld := ⟨0xa130, 0, 4, .wo, 0⟩
-- R699 EVJ_RING (19_faults_availability.md)
abbrev F.EVJ_RING.WORD (r w : Nat) : Fld := ⟨0xa800 + 0x20 * r + 4 * w, 0, 32, .ro, 0⟩
-- R716 KEP_STATUS (20_keep_startup.md)
abbrev F.KEP_STATUS.LIFECYCLE : Fld := ⟨0x20100, 30, 2, .ro, 0b01⟩
abbrev F.KEP_STATUS.DBG_OPEN : Fld := ⟨0x20100, 29, 1, .ro, 0⟩
abbrev F.KEP_STATUS.LOCKED : Fld := ⟨0x20100, 28, 1, .ro, 0⟩
abbrev F.KEP_STATUS.BOOT_SRC : Fld := ⟨0x20100, 25, 3, .ro, 0⟩
abbrev F.KEP_STATUS.BOOT_RESULT : Fld := ⟨0x20100, 21, 4, .ro, 0⟩
abbrev F.KEP_STATUS.XTAL_FB : Fld := ⟨0x20100, 20, 1, .ro, 0⟩
abbrev F.KEP_STATUS.WARM : Fld := ⟨0x20100, 19, 1, .ro, 0⟩
abbrev F.KEP_STATUS.KEY_SLOTS : Fld := ⟨0x20100, 11, 8, .ro, 0⟩
abbrev F.KEP_STATUS.SVN : Fld := ⟨0x20100, 4, 7, .ro, 0⟩
abbrev F.KEP_STATUS.DEV_KEY : Fld := ⟨0x20100, 3, 1, .ro, 0⟩
abbrev F.KEP_STATUS.RSV2 : Fld := ⟨0x20100, 0, 3, .rsv, 0⟩
-- R717 KEP_CMD (20_keep_startup.md)
abbrev F.KEP_CMD.GO : Fld := ⟨0x20104, 31, 1, .wo, 0⟩
abbrev F.KEP_CMD.CMD : Fld := ⟨0x20104, 27, 4, .rw, 0⟩
abbrev F.KEP_CMD.BUSY : Fld := ⟨0x20104, 26, 1, .ro, 0⟩
abbrev F.KEP_CMD.RESULT : Fld := ⟨0x20104, 23, 3, .ro, 0⟩
abbrev F.KEP_CMD.RESULT_CODE : Fld := ⟨0x20104, 19, 4, .ro, 0⟩
abbrev F.KEP_CMD.RSV18 : Fld := ⟨0x20104, 0, 19, .rsv, 0⟩
-- R718 KEP_LOCK (20_keep_startup.md)
abbrev F.KEP_LOCK.RSV31 : Fld := ⟨0x20108, 1, 31, .rsv, 0⟩
abbrev F.KEP_LOCK.LOCK : Fld := ⟨0x20108, 0, 1, .w1s, 0⟩
-- R719 KEP_DEVID_LO (20_keep_startup.md)
abbrev F.KEP_DEVID_LO.DEVID_LO : Fld := ⟨0x20110, 0, 32, .ro, 0⟩
-- R719 KEP_DEVID_HI (20_keep_startup.md)
abbrev F.KEP_DEVID_HI.DEVID_HI : Fld := ⟨0x20114, 0, 32, .ro, 0⟩
-- R720 KEP_ARG (20_keep_startup.md)
abbrev F.KEP_ARG.WORD (w : Nat) : Fld := ⟨0x20140 + 4 * w, 0, 32, .rw, 0⟩
-- LNT_HOT, bit 28 of the Lantern's CORE_CTRL (13_molx_system.md, "Registers")
abbrev F.LNT_CORE_CTRL.LNT_HOT : Fld := ⟨0xc00100, 28, 1, .rw, 0⟩
abbrev F.LNT_CORE_CTRL.RSV27 : Fld := ⟨0xc00100, 0, 28, .rsv, 0⟩

end Sys2Proof.Machine
end

