-- ==== Sys2Proof/Machine/Cards.lean ====
section
/-! DEFINITION. The register cards of every page: place, power domain, posted or not, alias views and fields, as the
spec's cards give them, and the search for the register at an offset (01_architecture.md R23, R25). -/

namespace Sys2Proof.Machine

/-- Cards of the IDS page, part 0. -/
def cardsIds0 : List Card := [
  { rel := 4, dims := [], clk := .reg, pd := fun _ _ _ => 133, posted := false, vSet := false, vClr := false, vTgl := false,
    fields := fun _ _ _ => [F.IDS_PART.PART_NUM, F.IDS_PART.STEP_LETTER, F.IDS_PART.STEP_NUM, F.IDS_PART.RSV7] },
  { rel := 8, dims := [], clk := .reg, pd := fun _ _ _ => 133, posted := false, vSet := false, vClr := false, vTgl := false,
    fields := fun _ _ _ => [F.IDS_ORDER.RSV31, F.IDS_ORDER.ORDER_CODE] },
  { rel := 0xc, dims := [], clk := .reg, pd := fun _ _ _ => 133, posted := false, vSet := false, vClr := false, vTgl := false,
    fields := fun _ _ _ => [F.IDS_STRAP.RSV31, F.IDS_STRAP.XTAL_DLY] } ]

/-- Every card of the IDS page. -/
def cardsIds : List Card := cardsIds0

/-- Cards of the PORT page, part 0. -/
def cardsPort0 : List Card := [
  { rel := 0x1000, dims := [], clk := .seq, pd := fun n _ _ => 14 * n + 9, posted := true, vSet := true, vClr := true, vTgl := true,
    fields := fun n _ _ => [F.NEG_CTRL.RSV31 n, F.NEG_CTRL.PARDET_EN n, F.NEG_CTRL.FORCE_100 n, F.NEG_CTRL.SPIRE_ONLY n, F.NEG_CTRL.DORM_EN n, F.NEG_CTRL.RSV19 n, F.NEG_CTRL.ADV_SPIRE n, F.NEG_CTRL.ADV_25G n, F.NEG_CTRL.ADV_10G n, F.NEG_CTRL.ADV_5G n, F.NEG_CTRL.ADV_2P5G n, F.NEG_CTRL.ADV_1G n, F.NEG_CTRL.ADV_100 n, F.NEG_CTRL.ADV_EEE n, F.NEG_CTRL.RSV7 n, F.NEG_CTRL.AN_RESTART n, F.NEG_CTRL.PORT_EN n] },
  { rel := 0x1004, dims := [], clk := .seq, pd := fun n _ _ => 14 * n + 9, posted := true, vSet := true, vClr := true, vTgl := true,
    fields := fun n _ _ => [F.SPIRE_ADV.SRATES n, F.SPIRE_ADV.TOP_RUNG n, F.SPIRE_ADV.TWIN_CAP n, F.SPIRE_ADV.MS_FORCE n, F.SPIRE_ADV.MS_VALUE n, F.SPIRE_ADV.INP_MS n, F.SPIRE_ADV.LDT_MS n, F.SPIRE_ADV.RSV7 n] },
  { rel := 0x1008, dims := [], clk := .seq, pd := fun n _ _ => 14 * n + 9, posted := true, vSet := true, vClr := true, vTgl := false,
    fields := fun n _ _ => [F.SPIRE_EXPECT.RSV31 n, F.SPIRE_EXPECT.EXPECT_MODE n, F.SPIRE_EXPECT.EXP_NODE n, F.SPIRE_EXPECT.EXP_PORT n, F.SPIRE_EXPECT.RSV4 n] },
  { rel := 0x100c, dims := [], clk := .seq, pd := fun n _ _ => 14 * n + 9, posted := true, vSet := true, vClr := true, vTgl := false,
    fields := fun n _ _ => [F.SENSE_CTRL.RSV31 n, F.SENSE_CTRL.AN_WAIT n, F.SENSE_CTRL.TRAIN_WAIT n, F.SENSE_CTRL.DORM_BURST n, F.SENSE_CTRL.ED_THRESH n, F.SENSE_CTRL.ABSENT_T n, F.SENSE_CTRL.FAST_DEPART n, F.SENSE_CTRL.PCHK_PERIOD n] },
  { rel := 0x1010, dims := [], clk := .seq, pd := fun n _ _ => 14 * n + 9, posted := true, vSet := false, vClr := false, vTgl := false,
    fields := fun n _ _ => [F.PCHK.PCHK_GO n, F.PCHK.PCHK_PAIR n, F.PCHK.RSV28 n, F.PCHK.PCHK_RESULT n, F.PCHK.PCHK_BUSY n, F.PCHK.RSV18 n, F.PCHK.PCHK_DIST n] },
  { rel := 0x1020, dims := [], clk := .seq, pd := fun n _ _ => 14 * n + 9, posted := true, vSet := false, vClr := false, vTgl := false,
    fields := fun n _ _ => [F.LINK_STATUS.RSV31 n, F.LINK_STATUS.LAST_DOWN n, F.LINK_STATUS.RSV23 n, F.LINK_STATUS.LDT_RAISED n, F.LINK_STATUS.MS_MASTER n, F.LINK_STATUS.MDIX n, F.LINK_STATUS.PD_FD n, F.LINK_STATUS.RSV16 n, F.LINK_STATUS.MODE n, F.LINK_STATUS.RSV11 n, F.LINK_STATUS.STATE n, F.LINK_STATUS.LDT_RES n] },
  { rel := 0x1024, dims := [], clk := .seq, pd := fun n _ _ => 14 * n + 9, posted := true, vSet := false, vClr := false, vTgl := false,
    fields := fun n _ _ => [F.PARTNER_INFO.P_VER n, F.PARTNER_INFO.P_SRATES n, F.PARTNER_INFO.RES_TOP_RUNG n, F.PARTNER_INFO.RES_SRATES n, F.PARTNER_INFO.P_TWIN_CAP n, F.PARTNER_INFO.P_NODE n, F.PARTNER_INFO.P_PORT n, F.PARTNER_INFO.RSV6 n] },
  { rel := 0x1028, dims := [], clk := .seq, pd := fun n _ _ => 14 * n + 9, posted := true, vSet := false, vClr := true, vTgl := false,
    fields := fun n _ _ => [F.LINK_EVENT.RSV31 n, F.LINK_EVENT.EXPECT_MISMATCH n, F.LINK_EVENT.PCHK_DONE n, F.LINK_EVENT.HOLD_ENTER n, F.LINK_EVENT.HOLD_EXIT n, F.LINK_EVENT.LINK_DOWN n, F.LINK_EVENT.LINK_UP n, F.LINK_EVENT.PARTNER_LEAVE n, F.LINK_EVENT.PARTNER_ARRIVE n] },
  { rel := 0x102c, dims := [], clk := .seq, pd := fun n _ _ => 14 * n + 9, posted := true, vSet := true, vClr := true, vTgl := false,
    fields := fun n _ _ => [F.LINK_EVENT_MASK.RSV31 n, F.LINK_EVENT_MASK.EV_MASK n] },
  { rel := 0x1030, dims := [], clk := .reg, pd := fun _ _ _ => 133, posted := false, vSet := false, vClr := false, vTgl := false,
    fields := fun n _ _ => [F.LINK_COUNT.UP_CNT n, F.LINK_COUNT.FALSE_WAKE n] },
  { rel := 0x8000, dims := [(0x800, 5)], clk := .line, pd := fun n x _ => 14 * n + x, posted := true, vSet := true, vClr := true, vTgl := false,
    fields := fun n x _ => [F.SLICE_CTRL.TRIM_APPLY n x, F.SLICE_CTRL.TRIM_PEND n x, F.SLICE_CTRL.TRIM_VIEW n x, F.SLICE_CTRL.RSV28 n x, F.SLICE_CTRL.PGA_GAIN n x, F.SLICE_CTRL.RSV15 n x, F.SLICE_CTRL.TX_AMP n x, F.SLICE_CTRL.RSV7 n x] },
  { rel := 0x8004, dims := [(0x800, 5)], clk := .line, pd := fun n x _ => 14 * n + x, posted := true, vSet := false, vClr := false, vTgl := false,
    fields := fun n x _ => [F.SLICE_TRIM.RSV31 n x, F.SLICE_TRIM.DAC_I n x, F.SLICE_TRIM.TXA_TRIM n x, F.SLICE_TRIM.HYB_R n x, F.SLICE_TRIM.HYB_C n x, F.SLICE_TRIM.RSV5 n x] } ]

/-- Cards of the PORT page, part 1. -/
def cardsPort1 : List Card := [
  { rel := 0x8100, dims := [(0x800, 5), (8, 16)], clk := .line, pd := fun n x _ => 14 * n + x, posted := true, vSet := false, vClr := false, vTgl := false,
    fields := fun n x k => [F.SUBADC_TRIM_A.OFS n x k, F.SUBADC_TRIM_A.GAIN n x k, F.SUBADC_TRIM_A.SKEW n x k, F.SUBADC_TRIM_A.RSV8 n x k] },
  { rel := 0x8104, dims := [(0x800, 5), (8, 16)], clk := .line, pd := fun n x _ => 14 * n + x, posted := true, vSet := false, vClr := false, vTgl := false,
    fields := fun n x k => [F.SUBADC_TRIM_B.RSV31 n x k, F.SUBADC_TRIM_B.THR2 n x k, F.SUBADC_TRIM_B.THR1 n x k, F.SUBADC_TRIM_B.THR0 n x k] },
  { rel := 0x8200, dims := [(0x800, 5)], clk := .line, pd := fun n x _ => 14 * n + x, posted := true, vSet := true, vClr := true, vTgl := false,
    fields := fun n x _ => [F.IMP_CTRL.IMP_EN n x, F.IMP_CTRL.IMP_HANG n x, F.IMP_CTRL.IMP_LEVEL n x, F.IMP_CTRL.IMP_NCLIP n x, F.IMP_CTRL.IMP_RATIO n x, F.IMP_CTRL.IMPB_EN n x, F.IMP_CTRL.IMP_TAU n x, F.IMP_CTRL.RSV12 n x] },
  { rel := 0x8204, dims := [(0x800, 5)], clk := .line, pd := fun n x _ => 14 * n + x, posted := true, vSet := false, vClr := false, vTgl := false,
    fields := fun n x _ => [F.IMP_STATUS.IMP_FLAG n x, F.IMP_STATUS.IMPB_VALID n x, F.IMP_STATUS.RSV29 n x, F.IMP_STATUS.IMP_LONGEST n x] },
  { rel := 0x8208, dims := [(0x800, 5)], clk := .line, pd := fun n x _ => 14 * n + x, posted := true, vSet := false, vClr := false, vTgl := false,
    fields := fun n x _ => [F.IMP_EVENTS.IMP_EVENTS n x] },
  { rel := 0xa400, dims := [], clk := .line, pd := fun n _ _ => 14 * n + 4, posted := true, vSet := false, vClr := false, vTgl := false,
    fields := fun n _ _ => [F.XB_CTRL.XB_GO n, F.XB_CTRL.RSV30 n, F.XB_CTRL.XB_REQ n, F.XB_CTRL.XB_PAIR n, F.XB_CTRL.RSV21 n] },
  { rel := 0xa404, dims := [], clk := .line, pd := fun n _ _ => 14 * n + 4, posted := true, vSet := false, vClr := false, vTgl := false,
    fields := fun n _ _ => [F.XB_STATUS.XB_STATE n, F.XB_STATUS.XB_CUR_PAIR n, F.XB_STATUS.XB_BUSY n, F.XB_STATUS.XB_RESULT n, F.XB_STATUS.RSV23 n, F.XB_STATUS.XB_SWAPS n] },
  { rel := 0xc000, dims := [(0x100, 5), (4, 5)], clk := .line, pd := fun n _ f => if f < 3 then 14 * n + 5 else 14 * n + 6, posted := true, vSet := true, vClr := true, vTgl := false, ok := fun _ x f => decide (x < 4) || f == 0 || f == 3,
    fields := fun n x f => [F.ADAPT.ADAPT_EN n x f, F.ADAPT.FREEZE n x f, F.ADAPT.LAW n x f, F.ADAPT.MU n x f, F.ADAPT.LEAK n x f, F.ADAPT.DECIM n x f, F.ADAPT.RSV15 n x f, F.ADAPT.FRZ_CAUSE n x f] },
  { rel := 0xc020, dims := [(0x100, 5)], clk := .line, pd := fun n _ _ => 14 * n + 6, posted := true, vSet := true, vClr := true, vTgl := false,
    fields := fun n x _ => [F.EQ_CFG.RSV31 n x, F.EQ_CFG.FFE_MAIN n x, F.EQ_CFG.RSV9 n x, F.EQ_CFG.FEXT_EN n x, F.EQ_CFG.NEXT_EN n x, F.EQ_CFG.ECHO_EN n x] },
  { rel := 0xc024, dims := [(0x100, 5)], clk := .line, pd := fun n _ _ => 14 * n + 6, posted := true, vSet := false, vClr := false, vTgl := false,
    fields := fun n x _ => [F.EQ_STATUS.SLC_SNR n x, F.EQ_STATUS.THP_LEN n x, F.EQ_STATUS.DFE_LEN n x, F.EQ_STATUS.RSV7 n x] },
  { rel := 0xc800, dims := [], clk := .line, pd := fun n _ _ => 14 * n + 6, posted := true, vSet := true, vClr := true, vTgl := false,
    fields := fun n _ _ => [F.TRN_CTRL.RSV31 n, F.TRN_CTRL.TRN_MU_OVR n, F.TRN_CTRL.COEF_KEEP n, F.TRN_CTRL.RSV5 n, F.TRN_CTRL.TRN_SCALE n] },
  { rel := 0xc804, dims := [], clk := .line, pd := fun n _ _ => 14 * n + 6, posted := true, vSet := false, vClr := false, vTgl := false,
    fields := fun n _ _ => [F.TRN_STATUS.TRN_PHASE n, F.TRN_STATUS.TRN_FAIL n, F.TRN_STATUS.TRN_ATTEMPTS n, F.TRN_STATUS.TRN_ELAPSED n] } ]

/-- Cards of the PORT page, part 2. -/
def cardsPort2 : List Card := [
  { rel := 0xc808, dims := [], clk := .line, pd := fun n _ _ => 14 * n + 6, posted := true, vSet := true, vClr := true, vTgl := false,
    fields := fun n _ _ => [F.FRZ_CTRL.RSV31 n, F.FRZ_CTRL.FRZ_HANG n, F.FRZ_CTRL.IMP_FRZ_EN n, F.FRZ_CTRL.DEC_FRZ_EN n, F.FRZ_CTRL.RSV1 n] },
  { rel := 0x2000, dims := [], clk := .line, pd := fun n _ _ => 14 * n + 9, posted := true, vSet := true, vClr := true, vTgl := false,
    fields := fun n _ _ => [F.FRM_CTRL.RSV31 n, F.FRM_CTRL.ERASE_EN n, F.FRM_CTRL.NORM n, F.FRM_CTRL.CUT_TH n, F.FRM_CTRL.ET_EN n, F.FRM_CTRL.HALF_SEL n, F.FRM_CTRL.ITER_MAX n] },
  { rel := 0x2004, dims := [], clk := .line, pd := fun n _ _ => 14 * n + 9, posted := true, vSet := false, vClr := false, vTgl := false,
    fields := fun n _ _ => [F.FRM_STATUS.RSV31 n, F.FRM_STATUS.ITER_LIMIT n, F.FRM_STATUS.HALF1_FAIL n, F.FRM_STATUS.HALF0_FAIL n, F.FRM_STATUS.HALF1_UP n, F.FRM_STATUS.HALF0_UP n, F.FRM_STATUS.LOCK_RX n, F.FRM_STATUS.LOCK_PARTNER n, F.FRM_STATUS.RSV3 n] },
  { rel := 0x2010, dims := [], clk := .line, pd := fun n _ _ => 14 * n + 9, posted := true, vSet := false, vClr := false, vTgl := false,
    fields := fun n _ _ => [F.FRM_GOOD_LO.GOOD_LO n] },
  { rel := 0x2014, dims := [], clk := .line, pd := fun n _ _ => 14 * n + 9, posted := true, vSet := false, vClr := false, vTgl := false,
    fields := fun n _ _ => [F.FRM_GOOD_HI.GOOD_HI n] },
  { rel := 0x2018, dims := [], clk := .line, pd := fun n _ _ => 14 * n + 9, posted := true, vSet := false, vClr := false, vTgl := false,
    fields := fun n _ _ => [F.FRM_DEC_FAIL.DEC_FAIL n] },
  { rel := 0x201c, dims := [], clk := .line, pd := fun n _ _ => 14 * n + 9, posted := true, vSet := false, vClr := false, vTgl := false,
    fields := fun n _ _ => [F.FRM_CRC_FAIL.CRC_FAIL n] },
  { rel := 0x2020, dims := [], clk := .line, pd := fun n _ _ => 14 * n + 9, posted := true, vSet := false, vClr := false, vTgl := false,
    fields := fun n _ _ => [F.FIELD_ERR.TYPE_BAD n, F.FIELD_ERR.CTL_BAD n] },
  { rel := 0x2024, dims := [], clk := .line, pd := fun n _ _ => 14 * n + 9, posted := true, vSet := false, vClr := false, vTgl := false,
    fields := fun n _ _ => [F.BLK_ERR.SYNC_BAD n, F.BLK_ERR.UNDERRUN n] },
  { rel := 0x10010, dims := [(0x4000, 2)], clk := .line, pd := fun n h _ => 14 * n + 7 + h, posted := true, vSet := false, vClr := false, vTgl := false,
    fields := fun n h _ => [F.DEC_FRAMES.H_FRAMES n h] },
  { rel := 0x10014, dims := [(0x4000, 2)], clk := .line, pd := fun n h _ => 14 * n + 7 + h, posted := true, vSet := false, vClr := false, vTgl := false,
    fields := fun n h _ => [F.DEC_ITER_SUM.H_ITER_SUM n h] },
  { rel := 0x10018, dims := [(0x4000, 2)], clk := .line, pd := fun n h _ => 14 * n + 7 + h, posted := true, vSet := false, vClr := false, vTgl := false,
    fields := fun n h _ => [F.DEC_STAT.H_FAIL n h, F.DEC_STAT.RSV15 n h, F.DEC_STAT.ITER_PEAK n h] } ]

/-- Cards of the PORT page, part 3. -/
def cardsPort3 : List Card := [
  { rel := 0x3000, dims := [], clk := .line, pd := fun n _ _ => 14 * n + 9, posted := true, vSet := true, vClr := true, vTgl := false,
    fields := fun n _ _ => [F.LAD_CTRL.LAD_MODE n, F.LAD_CTRL.SHIFT_T n, F.LAD_CTRL.UP_HOLDOFF n, F.LAD_CTRL.UP_DWELL n, F.LAD_CTRL.FAIL_DN n, F.LAD_CTRL.ITER_UP n, F.LAD_CTRL.ITER_DN n, F.LAD_CTRL.FALLBACK_EN n, F.LAD_CTRL.RSV0 n] },
  { rel := 0x3004, dims := [], clk := .line, pd := fun n _ _ => 14 * n + 9, posted := true, vSet := false, vClr := false, vTgl := false,
    fields := fun n _ _ => [F.LAD_MARGIN.TGT_MARGIN n, F.LAD_MARGIN.HYST n, F.LAD_MARGIN.DN_MARGIN n, F.LAD_MARGIN.RSV7 n] },
  { rel := 0x3008, dims := [], clk := .line, pd := fun n _ _ => 14 * n + 9, posted := true, vSet := false, vClr := false, vTgl := false,
    fields := fun n _ _ => [F.LAD_REQSNR.REQ32 n, F.LAD_REQSNR.REQ16 n, F.LAD_REQSNR.REQ8 n, F.LAD_REQSNR.REQ4 n] },
  { rel := 0x300c, dims := [], clk := .line, pd := fun n _ _ => 14 * n + 9, posted := true, vSet := false, vClr := false, vTgl := false,
    fields := fun n _ _ => [F.LAD_REQ.LREQ_GO n, F.LAD_REQ.RSV30 n, F.LAD_REQ.LREQ_RUNG n, F.LAD_REQ.LREQ_LOAD n, F.LAD_REQ.LREQ_RESULT n, F.LAD_REQ.RSV15 n] },
  { rel := 0x3010, dims := [], clk := .line, pd := fun n _ _ => 14 * n + 9, posted := true, vSet := false, vClr := false, vTgl := false,
    fields := fun n _ _ => [F.LAD_STATUS.TX_RUNG n, F.LAD_STATUS.TX_LOAD n, F.LAD_STATUS.RX_RUNG n, F.LAD_STATUS.RX_LOAD n, F.LAD_STATUS.TX_STATE n, F.LAD_STATUS.RX_STATE n, F.LAD_STATUS.TIER_HINT n, F.LAD_STATUS.RSV3 n] },
  { rel := 0x3014, dims := [], clk := .line, pd := fun n _ _ => 14 * n + 9, posted := true, vSet := false, vClr := false, vTgl := false,
    fields := fun n _ _ => [F.LAD_PROPOSE.P_VALID n, F.LAD_PROPOSE.P_RUNG n, F.LAD_PROPOSE.P_LOAD n, F.LAD_PROPOSE.P_MARGIN n, F.LAD_PROPOSE.CUR_MARGIN n] },
  { rel := 0x3018, dims := [], clk := .line, pd := fun n _ _ => 14 * n + 9, posted := true, vSet := false, vClr := true, vTgl := false,
    fields := fun n _ _ => [F.LAD_EVENT.RSV31 n, F.LAD_EVENT.PROPOSAL n, F.LAD_EVENT.TIER n, F.LAD_EVENT.FALLBACK n, F.LAD_EVENT.RX_ABORTED n, F.LAD_EVENT.TX_ABORTED n, F.LAD_EVENT.RX_SHIFT n, F.LAD_EVENT.TX_SHIFT n, F.LAD_EVENT.RSV0 n] },
  { rel := 0x301c, dims := [], clk := .line, pd := fun n _ _ => 14 * n + 9, posted := true, vSet := true, vClr := true, vTgl := false,
    fields := fun n _ _ => [F.LAD_EVENT_MASK.RSV31 n, F.LAD_EVENT_MASK.LEV_MASK n] },
  { rel := 0x3020, dims := [], clk := .line, pd := fun n _ _ => 14 * n + 9, posted := true, vSet := false, vClr := false, vTgl := false,
    fields := fun n _ _ => [F.LAD_COUNT.RX_UP n, F.LAD_COUNT.RX_DOWN n] },
  { rel := 0x3024, dims := [], clk := .line, pd := fun n _ _ => 14 * n + 9, posted := true, vSet := false, vClr := false, vTgl := false,
    fields := fun n _ _ => [F.LAD_ABORT.TX_REQ_BAD n, F.LAD_ABORT.TX_ABORT n, F.LAD_ABORT.RX_ABORT n] },
  { rel := 0x18000, dims := [], clk := .line, pd := fun n _ _ => 14 * n + 10, posted := true, vSet := true, vClr := true, vTgl := false,
    fields := fun n _ _ => [F.RTX_CTRL.RSV31 n, F.RTX_CTRL.NAK_EN n, F.RTX_CTRL.IMP_BLK_EN n, F.RTX_CTRL.WIN_SIZE n, F.RTX_CTRL.ACK_TO n, F.RTX_CTRL.BLK_FAILS n, F.RTX_CTRL.BLK_GOOD n] },
  { rel := 0x18004, dims := [], clk := .line, pd := fun n _ _ => 14 * n + 10, posted := true, vSet := false, vClr := false, vTgl := false,
    fields := fun n _ _ => [F.RTX_SEQ.RX_EXPECT n, F.RTX_SEQ.TX_OLDEST n] } ]

/-- Cards of the PORT page, part 4. -/
def cardsPort4 : List Card := [
  { rel := 0x18008, dims := [], clk := .line, pd := fun n _ _ => 14 * n + 10, posted := true, vSet := false, vClr := false, vTgl := false,
    fields := fun n _ _ => [F.RTX_STATUS.TX_NEXT n, F.RTX_STATUS.OUTSTANDING n, F.RTX_STATUS.REPLAY n, F.RTX_STATUS.GAP n, F.RTX_STATUS.ACK_TMR n, F.RTX_STATUS.RSV2 n] },
  { rel := 0x1800c, dims := [], clk := .line, pd := fun n _ _ => 14 * n + 10, posted := true, vSet := false, vClr := false, vTgl := false,
    fields := fun n _ _ => [F.RTX_RTT.CABLE_DLY n, F.RTX_RTT.RSV19 n, F.RTX_RTT.RT_BOUND n] },
  { rel := 0x18010, dims := [], clk := .line, pd := fun n _ _ => 14 * n + 10, posted := true, vSet := false, vClr := false, vTgl := false,
    fields := fun n _ _ => [F.RTX_FRAMES.RTX_FRAMES n] },
  { rel := 0x18014, dims := [], clk := .line, pd := fun n _ _ => 14 * n + 10, posted := true, vSet := false, vClr := false, vTgl := false,
    fields := fun n _ _ => [F.RTX_GOBACK.GB_NAK n, F.RTX_GOBACK.GB_TIMEOUT n] },
  { rel := 0x18018, dims := [], clk := .line, pd := fun n _ _ => 14 * n + 10, posted := true, vSet := false, vClr := false, vTgl := false,
    fields := fun n _ _ => [F.RTX_RX_CNT.RX_AHEAD n, F.RTX_RX_CNT.ACK_BAD n, F.RTX_RX_CNT.SEQ_FAR n] },
  { rel := 0x1801c, dims := [], clk := .line, pd := fun n _ _ => 14 * n + 10, posted := true, vSet := false, vClr := false, vTgl := false,
    fields := fun n _ _ => [F.RTX_DUP.RX_DUP n] },
  { rel := 0x18020, dims := [], clk := .line, pd := fun n _ _ => 14 * n + 10, posted := true, vSet := false, vClr := false, vTgl := false,
    fields := fun n _ _ => [F.HOLD_STAT.HOLD_CNT n, F.HOLD_STAT.HOLD_LONGEST n] },
  { rel := 0x18024, dims := [], clk := .line, pd := fun n _ _ => 14 * n + 10, posted := true, vSet := false, vClr := false, vTgl := false,
    fields := fun n _ _ => [F.HOLD_TIME.HOLD_TIME n] },
  { rel := 0x18040, dims := [], clk := .cupc, pd := fun n _ _ => 14 * n + 10, posted := true, vSet := true, vClr := true, vTgl := false,
    fields := fun n _ _ => [F.SPILL_CTRL.SPILL_EN n, F.SPILL_CTRL.FC_EN n, F.SPILL_CTRL.RSV29 n, F.SPILL_CTRL.SPILL_ON n, F.SPILL_CTRL.PAUSE_FIFO n, F.SPILL_CTRL.RSV19 n, F.SPILL_CTRL.HEADROOM n] },
  { rel := 0x18044, dims := [], clk := .cupc, pd := fun n _ _ => 14 * n + 10, posted := true, vSet := false, vClr := false, vTgl := false,
    fields := fun n _ _ => [F.SPILL_PAGES.SPILL_RSV n, F.SPILL_PAGES.SPILL_MAX n] },
  { rel := 0x18048, dims := [], clk := .cupc, pd := fun n _ _ => 14 * n + 10, posted := true, vSet := false, vClr := false, vTgl := false,
    fields := fun n _ _ => [F.SPILL_STATUS.IN_USE n, F.SPILL_STATUS.SPILLING n, F.SPILL_STATUS.ICONG n, F.SPILL_STATUS.SPILL_FULL n, F.SPILL_STATUS.WR_DEMOTED n, F.SPILL_STATUS.RSV_REFUSED n, F.SPILL_STATUS.RSV10 n] },
  { rel := 0x1804c, dims := [], clk := .cupc, pd := fun n _ _ => 14 * n + 10, posted := true, vSet := false, vClr := false, vTgl := false,
    fields := fun n _ _ => [F.SPILL_PEAK.RSV31 n, F.SPILL_PEAK.PEAK n] } ]

/-- Cards of the PORT page, part 5. -/
def cardsPort5 : List Card := [
  { rel := 0x18050, dims := [], clk := .cupc, pd := fun n _ _ => 14 * n + 10, posted := true, vSet := false, vClr := false, vTgl := false,
    fields := fun n _ _ => [F.SPILL_BLOCKS_LO.SPB_LO n] },
  { rel := 0x18054, dims := [], clk := .cupc, pd := fun n _ _ => 14 * n + 10, posted := true, vSet := false, vClr := false, vTgl := false,
    fields := fun n _ _ => [F.SPILL_BLOCKS_HI.SPB_HI n] },
  { rel := 0x18058, dims := [], clk := .cupc, pd := fun n _ _ => 14 * n + 10, posted := true, vSet := false, vClr := false, vTgl := false,
    fields := fun n _ _ => [F.SPILL_EV.SPILL_ENTRIES n, F.SPILL_EV.ICONG_ON n] },
  { rel := 0x1805c, dims := [], clk := .cupc, pd := fun n _ _ => 14 * n + 10, posted := true, vSet := false, vClr := false, vTgl := false,
    fields := fun n _ _ => [F.ING_DROP.DROP_FRAMES n] },
  { rel := 0x18060, dims := [], clk := .cupc, pd := fun n _ _ => 14 * n + 10, posted := true, vSet := false, vClr := false, vTgl := false,
    fields := fun n _ _ => [F.ING_LOSS.TRUNC n, F.ING_LOSS.SPILL_LOST n] },
  { rel := 0x18064, dims := [], clk := .cupc, pd := fun n _ _ => 14 * n + 10, posted := true, vSet := false, vClr := false, vTgl := false,
    fields := fun n _ _ => [F.DOWN_DISCARD.DOWN_DISCARD n] },
  { rel := 0x18070, dims := [], clk := .line, pd := fun n _ _ => 14 * n + 10, posted := true, vSet := false, vClr := true, vTgl := false,
    fields := fun n _ _ => [F.RTX_EVENT.RSV31 n, F.RTX_EVENT.INP_EXCEEDED n, F.RTX_EVENT.SPILL_FULL n, F.RTX_EVENT.DROP n, F.RTX_EVENT.SPILL_LOST n, F.RTX_EVENT.WIN_UE n, F.RTX_EVENT.ICONG_RISE n, F.RTX_EVENT.SPILL_START n, F.RTX_EVENT.RSV0 n] },
  { rel := 0x18074, dims := [], clk := .line, pd := fun n _ _ => 14 * n + 10, posted := true, vSet := true, vClr := true, vTgl := false,
    fields := fun n _ _ => [F.RTX_EVENT_MASK.RSV31 n, F.RTX_EVENT_MASK.RTX_MASK n] },
  { rel := 0x80000, dims := [], clk := .seq, pd := fun n _ _ => 14 * n + 9, posted := true, vSet := true, vClr := true, vTgl := false,
    fields := fun n _ _ => [F.DIAG_CTRL.DIAG_GO n, F.DIAG_CTRL.DIAG_KIND n, F.DIAG_CTRL.DIAG_PAIRS n, F.DIAG_CTRL.CAP_EN n, F.DIAG_CTRL.TDR_AVG n, F.DIAG_CTRL.TDR_LEN n, F.DIAG_CTRL.RSV15 n] },
  { rel := 0x80004, dims := [], clk := .seq, pd := fun n _ _ => 14 * n + 9, posted := true, vSet := false, vClr := false, vTgl := false,
    fields := fun n _ _ => [F.DIAG_STATUS.DIAG_BUSY n, F.DIAG_STATUS.DIAG_RESULT n, F.DIAG_STATUS.RSV27 n, F.DIAG_STATUS.CAP_OFS n] },
  { rel := 0x80008, dims := [], clk := .seq, pd := fun n _ _ => 14 * n + 9, posted := true, vSet := false, vClr := false, vTgl := false,
    fields := fun n _ _ => [F.DIAG_ADDR.CAP_ADDR n, F.DIAG_ADDR.RSV3 n] },
  { rel := 0x8000c, dims := [], clk := .seq, pd := fun n _ _ => 14 * n + 9, posted := true, vSet := true, vClr := true, vTgl := false,
    fields := fun n _ _ => [F.DIAG_CFG.NVP_DLY n, F.DIAG_CFG.REFL_TH n, F.DIAG_CFG.WEAR_TH n, F.DIAG_CFG.WEAR_PERIOD n] } ]

/-- Cards of the PORT page, part 6. -/
def cardsPort6 : List Card := [
  { rel := 0x80100, dims := [(0x40, 4), (4, 8)], clk := .seq, pd := fun n _ _ => 14 * n + 9, posted := true, vSet := false, vClr := false, vTgl := false,
    fields := fun n x i => [F.REFL.VALID n x i, F.REFL.KIND n x i, F.REFL.SRC n x i, F.REFL.GAMMA n x i, F.REFL.RSV15 n x i, F.REFL.DIST n x i] },
  { rel := 0x80200, dims := [(0x10, 4)], clk := .seq, pd := fun n _ _ => 14 * n + 9, posted := true, vSet := false, vClr := false, vTgl := false,
    fields := fun n x _ => [F.LOSS_A.RL n x, F.LOSS_A.IL_Q n x, F.LOSS_A.IL_H n x, F.LOSS_A.RSV1 n x] },
  { rel := 0x80204, dims := [(0x10, 4)], clk := .seq, pd := fun n _ _ => 14 * n + 9, posted := true, vSet := false, vClr := false, vTgl := false,
    fields := fun n x _ => [F.LOSS_B.IL_N n x, F.LOSS_B.RSV21 n x, F.LOSS_B.LOSS_MBD n x] },
  { rel := 0x80400, dims := [(0x40, 4), (8, 8)], clk := .seq, pd := fun n _ _ => 14 * n + 9, posted := true, vSet := true, vClr := true, vTgl := false,
    fields := fun n x i => [F.LM_CFG.LM_EN n x i, F.LM_CFG.LM_SET n x i, F.LM_CFG.BASE_SRC n x i, F.LM_CFG.RSV27 n x i, F.LM_CFG.LM_DIST n x i] },
  { rel := 0x80404, dims := [(0x40, 4), (8, 8)], clk := .seq, pd := fun n _ _ => 14 * n + 9, posted := true, vSet := false, vClr := false, vTgl := false,
    fields := fun n x i => [F.LM_VAL.LM_ALARM n x i, F.LM_VAL.BASE_VALID n x i, F.LM_VAL.RL_BASE n x i, F.LM_VAL.RL_CUR n x i, F.LM_VAL.DELTA n x i] },
  { rel := 0x80800, dims := [], clk := .seq, pd := fun n _ _ => 14 * n + 9, posted := true, vSet := false, vClr := false, vTgl := false,
    fields := fun n _ _ => [F.ED_STATUS.ED_A n, F.ED_STATUS.ED_B n, F.ED_STATUS.RSV29 n, F.ED_STATUS.ED_QUAL n] },
  { rel := 0x81000, dims := [], clk := .line, pd := fun n _ _ => 14 * n + 9, posted := true, vSet := true, vClr := true, vTgl := false,
    fields := fun n _ _ => [F.LPI_CTRL.LPI_EN n, F.LPI_CTRL.LPI_QUIET n, F.LPI_CTRL.ENTRY_T n, F.LPI_CTRL.LPI_HOLDOFF n, F.LPI_CTRL.RSV15 n] },
  { rel := 0x81004, dims := [], clk := .line, pd := fun n _ _ => 14 * n + 9, posted := true, vSet := false, vClr := false, vTgl := false,
    fields := fun n _ _ => [F.LPI_STATUS.LPI_RES n, F.LPI_STATUS.TX_LPI n, F.LPI_STATUS.RX_LPI n, F.LPI_STATUS.HOST_LPI n, F.LPI_STATUS.RSV23 n] },
  { rel := 0x81008, dims := [], clk := .line, pd := fun n _ _ => 14 * n + 9, posted := true, vSet := false, vClr := false, vTgl := false,
    fields := fun n _ _ => [F.LPI_COUNT.TX_ENTRIES n, F.LPI_COUNT.RX_ENTRIES n] },
  { rel := 0x8100c, dims := [], clk := .line, pd := fun n _ _ => 14 * n + 9, posted := true, vSet := false, vClr := false, vTgl := false,
    fields := fun n _ _ => [F.LPI_TIME.TX_QUIET_US n] },
  { rel := 0x81010, dims := [], clk := .line, pd := fun n _ _ => 14 * n + 9, posted := true, vSet := false, vClr := true, vTgl := false,
    fields := fun n _ _ => [F.DIAG_EVENT.RSV31 n, F.DIAG_EVENT.RX_LPI_ENTER n, F.DIAG_EVENT.TX_LPI_ENTER n, F.DIAG_EVENT.WEAR n, F.DIAG_EVENT.DIAG_DONE n] },
  { rel := 0x81014, dims := [], clk := .line, pd := fun n _ _ => 14 * n + 9, posted := true, vSet := true, vClr := true, vTgl := false,
    fields := fun n _ _ => [F.DIAG_EVENT_MASK.RSV31 n, F.DIAG_EVENT_MASK.DEV_MASK n] } ]

/-- Every card of the PORT page. -/
def cardsPort : List Card := cardsPort0 ++ cardsPort1 ++ cardsPort2 ++ cardsPort3 ++ cardsPort4 ++ cardsPort5 ++ cardsPort6

/-- Cards of the TW page, part 0. -/
def cardsTw0 : List Card := [
  { rel := 0xf0000, dims := [(0x100, 4)], clk := .cupc, pd := fun _ _ _ => 124, posted := true, vSet := true, vClr := true, vTgl := false,
    fields := fun _ k _ => [F.TW_CTRL.TW_EN k, F.TW_CTRL.PRIMARY k, F.TW_CTRL.LANE_FO k, F.TW_CTRL.RSV28 k, F.TW_CTRL.TW_LAG k, F.TW_CTRL.MRG_WAIT k, F.TW_CTRL.RSV13 k] },
  { rel := 0xf0004, dims := [(0x100, 4)], clk := .cupc, pd := fun _ _ _ => 124, posted := true, vSet := false, vClr := false, vTgl := false,
    fields := fun _ k _ => [F.TW_STATUS.PAIR_STATE k, F.TW_STATUS.M1_STATE k, F.TW_STATUS.M0_STATE k, F.TW_STATUS.CFG_PEND k, F.TW_STATUS.LANE k, F.TW_STATUS.TW_ACTIVE k, F.TW_STATUS.RSV22 k] },
  { rel := 0xf0008, dims := [(0x100, 4)], clk := .cupc, pd := fun _ _ _ => 124, posted := true, vSet := false, vClr := false, vTgl := false,
    fields := fun _ k _ => [F.TW_SEQ.TS k, F.TW_SEQ.TO k] },
  { rel := 0xf000c, dims := [(0x100, 4)], clk := .cupc, pd := fun _ _ _ => 124, posted := true, vSet := false, vClr := false, vTgl := false,
    fields := fun _ k _ => [F.TW_MERGE.E_M k, F.TW_MERGE.RSV15 k, F.TW_MERGE.HELD k] },
  { rel := 0xf0010, dims := [(0x100, 4)], clk := .cupc, pd := fun _ _ _ => 124, posted := true, vSet := false, vClr := false, vTgl := false,
    fields := fun _ k _ => [F.TW_SKEW.LEAD k, F.TW_SKEW.RSV30 k, F.TW_SKEW.SKEW_MAX k] },
  { rel := 0xf0014, dims := [(0x100, 4)], clk := .cupc, pd := fun _ _ _ => 124, posted := true, vSet := false, vClr := false, vTgl := false,
    fields := fun _ k _ => [F.TW_DUP.MRG_DUP k] },
  { rel := 0xf0018, dims := [(0x100, 4)], clk := .cupc, pd := fun _ _ _ => 124, posted := true, vSet := false, vClr := false, vTgl := false,
    fields := fun _ k _ => [F.TW_SKIP.SKIP_TX1 k, F.TW_SKIP.SKIP_TX0 k] },
  { rel := 0xf001c, dims := [(0x100, 4)], clk := .cupc, pd := fun _ _ _ => 124, posted := true, vSet := false, vClr := false, vTgl := false,
    fields := fun _ k _ => [F.TW_CNT.STALLS k, F.TW_CNT.FAILOVERS k, F.TW_CNT.SKIP_BAD k] },
  { rel := 0xf0020, dims := [(0x100, 4)], clk := .cupc, pd := fun _ _ _ => 124, posted := true, vSet := false, vClr := true, vTgl := false,
    fields := fun _ k _ => [F.TW_EVENT.RSV31 k, F.TW_EVENT.SKEW_HIGH k, F.TW_EVENT.LANE_FO k, F.TW_EVENT.STALL k, F.TW_EVENT.EXCLUDED k, F.TW_EVENT.SOLO k, F.TW_EVENT.JOINED k] },
  { rel := 0xf0024, dims := [(0x100, 4)], clk := .cupc, pd := fun _ _ _ => 124, posted := true, vSet := true, vClr := true, vTgl := false,
    fields := fun _ k _ => [F.TW_EVENT_MASK.RSV31 k, F.TW_EVENT_MASK.TW_MASK k] } ]

/-- Every card of the TW page. -/
def cardsTw : List Card := cardsTw0

/-- Cards of the BF page, part 0. -/
def cardsBf0 : List Card := [
  { rel := 0x100, dims := [], clk := .bf, pd := fun b _ _ => 125 + b, posted := true, vSet := true, vClr := true, vTgl := false,
    fields := fun b _ _ => [F.BF_CTRL.BF_EN b, F.BF_CTRL.TX_EN b, F.BF_CTRL.RX_UNAUTH b, F.BF_CTRL.RX_PROMISC b, F.BF_CTRL.RX_ERR_DELIV b, F.BF_CTRL.DUP_KEEP b, F.BF_CTRL.RNG_RESP_EN b, F.BF_CTRL.TERM_EN b, F.BF_CTRL.TX_LVL b, F.BF_CTRL.RSV19 b] },
  { rel := 0x104, dims := [], clk := .reg, pd := fun _ _ _ => 133, posted := false, vSet := false, vClr := false, vTgl := false,
    fields := fun b _ _ => [F.BF_NODE.RSV31 b, F.BF_NODE.NODE b] },
  { rel := 0x108, dims := [], clk := .bf, pd := fun b _ _ => 125 + b, posted := true, vSet := true, vClr := true, vTgl := false,
    fields := fun b _ _ => [F.BF_ACCESS.IFS b, F.BF_ACCESS.CAPT_EN b, F.BF_ACCESS.CAPT_DB b, F.BF_ACCESS.CS_ED b, F.BF_ACCESS.DET_TH b, F.BF_ACCESS.RSV15 b] },
  { rel := 0x10c, dims := [], clk := .bf, pd := fun b _ _ => 125 + b, posted := true, vSet := true, vClr := true, vTgl := false,
    fields := fun b _ _ => [F.BF_RXCFG.FFE_MU b, F.BF_RXCFG.DFE_MU b, F.BF_RXCFG.DFE_EN b, F.BF_RXCFG.BITER_MAX b, F.BF_RXCFG.BNORM b, F.BF_RXCFG.RSV11 b] },
  { rel := 0x110, dims := [], clk := .bf, pd := fun b _ _ => 125 + b, posted := true, vSet := true, vClr := true, vTgl := false,
    fields := fun b _ _ => [F.BF_BCN.BCN_EN b, F.BF_BCN.BCN_NOW b, F.BF_BCN.BCN_AUTH b, F.BF_BCN.BCN_KEY b, F.BF_BCN.BCN_NCW b, F.BF_BCN.BCN_MOD b, F.BF_BCN.BCN_SF b, F.BF_BCN.BCN_LEN b, F.BF_BCN.BCN_PERIOD b] },
  { rel := 0x120, dims := [], clk := .bf, pd := fun b _ _ => 125 + b, posted := true, vSet := false, vClr := false, vTgl := false,
    fields := fun b _ _ => [F.TXR_BASE.BASE_LO b, F.TXR_BASE.RSV4 b] },
  { rel := 0x124, dims := [], clk := .bf, pd := fun b _ _ => 125 + b, posted := true, vSet := false, vClr := false, vTgl := false,
    fields := fun b _ _ => [F.TXR_CFG.TX_KICK b, F.TXR_CFG.RING_LOG b, F.TXR_CFG.TX_HEAD b, F.TXR_CFG.RSV16 b, F.TXR_CFG.BASE_HI b] },
  { rel := 0x128, dims := [], clk := .bf, pd := fun b _ _ => 125 + b, posted := true, vSet := false, vClr := false, vTgl := false,
    fields := fun b _ _ => [F.RXR_BASE.BASE_LO b, F.RXR_BASE.RSV4 b] },
  { rel := 0x12c, dims := [], clk := .bf, pd := fun b _ _ => 125 + b, posted := true, vSet := false, vClr := false, vTgl := false,
    fields := fun b _ _ => [F.RXR_CFG.RSV31 b, F.RXR_CFG.RING_LOG b, F.RXR_CFG.RX_HEAD b, F.RXR_CFG.RSV16 b, F.RXR_CFG.BASE_HI b] },
  { rel := 0x130, dims := [], clk := .reg, pd := fun _ _ _ => 133, posted := false, vSet := false, vClr := false, vTgl := false,
    fields := fun b _ _ => [F.TX_FC_LO.FC_LO b] },
  { rel := 0x134, dims := [], clk := .reg, pd := fun _ _ _ => 133, posted := false, vSet := false, vClr := false, vTgl := false,
    fields := fun b _ _ => [F.TX_FC_HI.RSV31 b, F.TX_FC_HI.FC_HI b] },
  { rel := 0x140, dims := [], clk := .bf, pd := fun b _ _ => 125 + b, posted := true, vSet := false, vClr := false, vTgl := false,
    fields := fun b _ _ => [F.RNG_CTRL.RNG_GO b, F.RNG_CTRL.RNG_DST b, F.RNG_CTRL.RNG_AUTH b, F.RNG_CTRL.RNG_KEY b, F.RNG_CTRL.RNG_MOD b, F.RNG_CTRL.RNG_SF b, F.RNG_CTRL.RNG_STATUS b, F.RNG_CTRL.RSV14 b] } ]

/-- Cards of the BF page, part 1. -/
def cardsBf1 : List Card := [
  { rel := 0x144, dims := [], clk := .bf, pd := fun b _ _ => 125 + b, posted := true, vSet := false, vClr := false, vTgl := false,
    fields := fun b _ _ => [F.RNG_RESULT.FOFS b, F.RNG_RESULT.DELAY b] },
  { rel := 0x148, dims := [], clk := .bf, pd := fun b _ _ => 125 + b, posted := true, vSet := false, vClr := false, vTgl := false,
    fields := fun b _ _ => [F.RNG_RTT.RTT b] },
  { rel := 0x14c, dims := [], clk := .bf, pd := fun b _ _ => 125 + b, posted := true, vSet := false, vClr := false, vTgl := false,
    fields := fun b _ _ => [F.RNG_TURN.T_B b] },
  { rel := 0x150, dims := [], clk := .bf, pd := fun b _ _ => 125 + b, posted := true, vSet := false, vClr := false, vTgl := false,
    fields := fun b _ _ => [F.BF_STATUS.CH_BUSY b, F.BF_STATUS.TX_ACTIVE b, F.BF_STATUS.SERVED b, F.BF_STATUS.RING_ERR_TX b, F.BF_STATUS.RING_ERR_RX b, F.BF_STATUS.RX_STATE b, F.BF_STATUS.KEY_VALID b, F.BF_STATUS.FOFS_LAST b] },
  { rel := 0x154, dims := [], clk := .bf, pd := fun b _ _ => 125 + b, posted := true, vSet := false, vClr := true, vTgl := false,
    fields := fun b _ _ => [F.BF_EVENT.RSV31 b, F.BF_EVENT.DUP_NODE b, F.BF_EVENT.RING_ERR b, F.BF_EVENT.RNG_DONE b, F.BF_EVENT.BCN_BAD b, F.BF_EVENT.RX_OVF b, F.BF_EVENT.SEC_FAIL b, F.BF_EVENT.RX_PKT b, F.BF_EVENT.TX_DONE b] },
  { rel := 0x158, dims := [], clk := .bf, pd := fun b _ _ => 125 + b, posted := true, vSet := true, vClr := true, vTgl := false,
    fields := fun b _ _ => [F.BF_EVENT_MASK.RSV31 b, F.BF_EVENT_MASK.BEV_MASK b] },
  { rel := 0x160, dims := [], clk := .bf, pd := fun b _ _ => 125 + b, posted := true, vSet := false, vClr := false, vTgl := false,
    fields := fun b _ _ => [F.BF_CNT_TX.TX_PKTS b, F.BF_CNT_TX.TX_FAIL b, F.BF_CNT_TX.RNG_RESP b] },
  { rel := 0x164, dims := [], clk := .bf, pd := fun b _ _ => 125 + b, posted := true, vSet := false, vClr := false, vTgl := false,
    fields := fun b _ _ => [F.BF_CNT_RX.RX_OK b, F.BF_CNT_RX.RX_DET b] },
  { rel := 0x168, dims := [], clk := .bf, pd := fun b _ _ => 125 + b, posted := true, vSet := false, vClr := false, vTgl := false,
    fields := fun b _ _ => [F.BF_CNT_ERR.HDR_FAIL b, F.BF_CNT_ERR.LDPC_FAIL b, F.BF_CNT_ERR.CAPT_AWAY b, F.BF_CNT_ERR.RX_OVF b] },
  { rel := 0x16c, dims := [], clk := .bf, pd := fun b _ _ => 125 + b, posted := true, vSet := false, vClr := false, vTgl := false,
    fields := fun b _ _ => [F.BF_CNT_SEC.TAG_BAD b, F.BF_CNT_SEC.REPLAY b, F.BF_CNT_SEC.DUAL_DUP b] },
  { rel := 0x800, dims := [(4, 64)], clk := .bf, pd := fun b _ _ => 125 + b, posted := true, vSet := false, vClr := false, vTgl := false,
    fields := fun b w _ => [F.BF_TEMPLATE.WORD b w] },
  { rel := 0x1000, dims := [(8, 64)], clk := .reg, pd := fun _ _ _ => 133, posted := false, vSet := false, vClr := false, vTgl := false,
    fields := fun b s _ => [F.BF_FRESH_LO.FC_LO b s] } ]

/-- Cards of the BF page, part 2. -/
def cardsBf2 : List Card := [
  { rel := 0x1004, dims := [(8, 64)], clk := .reg, pd := fun _ _ _ => 133, posted := false, vSet := false, vClr := false, vTgl := false,
    fields := fun b s _ => [F.BF_FRESH_HI.VALID b s, F.BF_FRESH_HI.LINE b s, F.BF_FRESH_HI.Z b s, F.BF_FRESH_HI.FC_HI b s] } ]

/-- Every card of the BF page. -/
def cardsBf : List Card := cardsBf0 ++ cardsBf1 ++ cardsBf2

/-- Cards of the HL page, part 0. -/
def cardsHl0 : List Card := [
  { rel := 0x100, dims := [], clk := .hl, pd := fun n _ _ => 112 + n, posted := true, vSet := true, vClr := true, vTgl := false,
    fields := fun n _ _ => [F.HL_CTRL.PROTO n, F.HL_CTRL.RSFEC_EN n, F.HL_CTRL.DOWN_TX n, F.HL_CTRL.LPI_EI n, F.HL_CTRL.TX_POL n, F.HL_CTRL.RX_POL n, F.HL_CTRL.LB_MODE n, F.HL_CTRL.EG_CUT n, F.HL_CTRL.RSV12 n] },
  { rel := 0x104, dims := [], clk := .hl, pd := fun n _ _ => 112 + n, posted := true, vSet := false, vClr := false, vTgl := false,
    fields := fun n _ _ => [F.HL_PAUSE.PAUSE_QUANTA n, F.HL_PAUSE.PAUSE_REFRESH n, F.HL_PAUSE.XOFF_LVL n, F.HL_PAUSE.XON_LVL n] },
  { rel := 0x108, dims := [], clk := .hl, pd := fun n _ _ => 112 + n, posted := true, vSet := false, vClr := false, vTgl := false,
    fields := fun n _ _ => [F.HL_PAUSE_SA_LO.SA_LO n] },
  { rel := 0x10c, dims := [], clk := .hl, pd := fun n _ _ => 112 + n, posted := true, vSet := false, vClr := false, vTgl := false,
    fields := fun n _ _ => [F.HL_PAUSE_SA_HI.RSV31 n, F.HL_PAUSE_SA_HI.SA_HI n] },
  { rel := 0x110, dims := [], clk := .hl, pd := fun n _ _ => 112 + n, posted := true, vSet := false, vClr := false, vTgl := false,
    fields := fun n _ _ => [F.HL_STATUS.PROTO_CUR n, F.HL_STATUS.FEC_ACT n, F.HL_STATUS.LOS n, F.HL_STATUS.LOL n, F.HL_STATUS.BLOCK_LOCK n, F.HL_STATUS.HI_BER n, F.HL_STATUS.FEC_ALIGN n, F.HL_STATUS.TX_EI n, F.HL_STATUS.EI_CAUSE n, F.HL_STATUS.LB_CUR n, F.HL_STATUS.LB_RESULT n, F.HL_STATUS.PRBS_LOCK n, F.HL_STATUS.RSV14 n, F.HL_STATUS.EYE_W n] },
  { rel := 0x120, dims := [], clk := .hl, pd := fun n _ _ => 112 + n, posted := true, vSet := true, vClr := true, vTgl := false,
    fields := fun n _ _ => [F.HL_PRBS_CTRL.GEN_EN n, F.HL_PRBS_CTRL.GEN_POLY n, F.HL_PRBS_CTRL.GEN_INV n, F.HL_PRBS_CTRL.CHK_EN n, F.HL_PRBS_CTRL.CHK_POLY n, F.HL_PRBS_CTRL.CHK_INV n, F.HL_PRBS_CTRL.RSV21 n] },
  { rel := 0x124, dims := [], clk := .hl, pd := fun n _ _ => 112 + n, posted := true, vSet := false, vClr := false, vTgl := false,
    fields := fun n _ _ => [F.HL_PRBS_ERR.PRBS_ERR n] },
  { rel := 0x128, dims := [], clk := .hl, pd := fun n _ _ => 112 + n, posted := true, vSet := false, vClr := false, vTgl := false,
    fields := fun n _ _ => [F.HL_PRBS_BITS.PRBS_BITS n] },
  { rel := 0x130, dims := [], clk := .hl, pd := fun n _ _ => 112 + n, posted := true, vSet := false, vClr := false, vTgl := false,
    fields := fun n _ _ => [F.HL_CNT_RM.IDLE_INS n, F.HL_CNT_RM.IDLE_DEL n] },
  { rel := 0x134, dims := [], clk := .hl, pd := fun n _ _ => 112 + n, posted := true, vSet := false, vClr := false, vTgl := false,
    fields := fun n _ _ => [F.HL_CNT_PAUSE.PAUSE_TX n] },
  { rel := 0x138, dims := [], clk := .hl, pd := fun n _ _ => 112 + n, posted := true, vSet := false, vClr := false, vTgl := false,
    fields := fun n _ _ => [F.HL_CNT_ERR.ERR_BLK n, F.HL_CNT_ERR.LOS_CNT n, F.HL_CNT_ERR.LOL_CNT n] },
  { rel := 0x13c, dims := [], clk := .hl, pd := fun n _ _ => 112 + n, posted := true, vSet := false, vClr := false, vTgl := false,
    fields := fun n _ _ => [F.HL_FEC_CORR.FEC_CORR n] } ]

/-- Cards of the HL page, part 1. -/
def cardsHl1 : List Card := [
  { rel := 0x140, dims := [], clk := .hl, pd := fun n _ _ => 112 + n, posted := true, vSet := false, vClr := false, vTgl := false,
    fields := fun n _ _ => [F.HL_FEC_UNCORR.FEC_UNCORR n] },
  { rel := 0x144, dims := [], clk := .hl, pd := fun n _ _ => 112 + n, posted := true, vSet := false, vClr := false, vTgl := false,
    fields := fun n _ _ => [F.HL_DISCARD.HL_DISCARD n] },
  { rel := 0x148, dims := [], clk := .hl, pd := fun n _ _ => 112 + n, posted := true, vSet := false, vClr := false, vTgl := false,
    fields := fun n _ _ => [F.HL_CNT_EG.EG_UNDERRUN n, F.HL_CNT_EG.EG_BACKOFF n] },
  { rel := 0x150, dims := [], clk := .hl, pd := fun n _ _ => 112 + n, posted := true, vSet := false, vClr := true, vTgl := false,
    fields := fun n _ _ => [F.HL_EVENT.RSV31 n, F.HL_EVENT.PROTO_BAD n, F.HL_EVENT.PRBS_LOCK_LOST n, F.HL_EVENT.LB_END n, F.HL_EVENT.HI_BER n, F.HL_EVENT.LOL n, F.HL_EVENT.LOS n, F.HL_EVENT.UNDERRUN n, F.HL_EVENT.SIGNAL_OK n] },
  { rel := 0x154, dims := [], clk := .hl, pd := fun n _ _ => 112 + n, posted := true, vSet := true, vClr := true, vTgl := false,
    fields := fun n _ _ => [F.HL_EVENT_MASK.RSV31 n, F.HL_EVENT_MASK.HEV_MASK n] } ]

/-- Every card of the HL page. -/
def cardsHl : List Card := cardsHl0 ++ cardsHl1

/-- Cards of the SQC page, part 0. -/
def cardsSqc0 : List Card := [
  { rel := 0x100, dims := [], clk := .reg, pd := fun _ _ _ => 133, posted := false, vSet := true, vClr := true, vTgl := false,
    fields := fun _ _ _ => [F.SQC_CTRL.TKO_AUTO, F.SQC_CTRL.TUR_EN, F.SQC_CTRL.RSV21] },
  { rel := 0x104, dims := [], clk := .reg, pd := fun _ _ _ => 133, posted := false, vSet := false, vClr := false, vTgl := false,
    fields := fun _ _ _ => [F.SQC_CMD.CMD_GO, F.SQC_CMD.CMD, F.SQC_CMD.TARGET, F.SQC_CMD.RESULT, F.SQC_CMD.RSV21] },
  { rel := 0x108, dims := [], clk := .reg, pd := fun _ _ _ => 133, posted := false, vSet := false, vClr := false, vTgl := false,
    fields := fun _ _ _ => [F.SQC_STATUS.T1_STATE, F.SQC_STATUS.T1_PORT, F.SQC_STATUS.T0_STATE, F.SQC_STATUS.T0_PORT, F.SQC_STATUS.RSV19, F.SQC_STATUS.PENDING, F.SQC_STATUS.SERVED] },
  { rel := 0x10c, dims := [], clk := .reg, pd := fun _ _ _ => 133, posted := false, vSet := false, vClr := true, vTgl := false,
    fields := fun _ _ _ => [F.SQC_EVENT.RSV31, F.SQC_EVENT.CORE_FAIL, F.SQC_EVENT.TUR_FAIL, F.SQC_EVENT.NO_TURRET, F.SQC_EVENT.CKPT_FAIL, F.SQC_EVENT.CMD_DONE, F.SQC_EVENT.RELOADED, F.SQC_EVENT.RELEASED, F.SQC_EVENT.TAKEOVER] },
  { rel := 0x110, dims := [], clk := .reg, pd := fun _ _ _ => 133, posted := false, vSet := true, vClr := true, vTgl := false,
    fields := fun _ _ _ => [F.SQC_EVENT_MASK.RSV31, F.SQC_EVENT_MASK.MASK] },
  { rel := 0x1000, dims := [(0x100, 11)], clk := .reg, pd := fun _ _ _ => 133, posted := false, vSet := false, vClr := false, vTgl := false,
    fields := fun _ s _ => [F.SLOT_IMG_BASE.IMG_BASE s, F.SLOT_IMG_BASE.RSV3 s] },
  { rel := 0x1004, dims := [(0x100, 11)], clk := .reg, pd := fun _ _ _ => 133, posted := false, vSet := false, vClr := false, vTgl := false,
    fields := fun _ s _ => [F.SLOT_IMG_ID_LO.IMG_ID_LO s] },
  { rel := 0x1008, dims := [(0x100, 11)], clk := .reg, pd := fun _ _ _ => 133, posted := false, vSet := false, vClr := false, vTgl := false,
    fields := fun _ s _ => [F.SLOT_IMG_ID_HI.IMG_ID_HI s] },
  { rel := 0x100c, dims := [(0x100, 11)], clk := .reg, pd := fun _ _ _ => 133, posted := false, vSet := false, vClr := false, vTgl := false,
    fields := fun _ s _ => [F.SLOT_CKPT_BASE.CKPT_BASE s, F.SLOT_CKPT_BASE.RSV3 s] },
  { rel := 0x1010, dims := [(0x100, 11)], clk := .reg, pd := fun _ _ _ => 133, posted := false, vSet := false, vClr := false, vTgl := false,
    fields := fun _ s _ => [F.SLOT_CKPT.CKPT_TCM s, F.SLOT_CKPT.CKPT_PERIOD s, F.SLOT_CKPT.RSV15 s] },
  { rel := 0x1014, dims := [(0x100, 11)], clk := .reg, pd := fun _ _ _ => 133, posted := false, vSet := false, vClr := false, vTgl := false,
    fields := fun _ s _ => [F.SLOT_CKPT_STAT.GEN s, F.SLOT_CKPT_STAT.VALID_B s, F.SLOT_CKPT_STAT.VALID_A s, F.SLOT_CKPT_STAT.CK_BUSY s, F.SLOT_CKPT_STAT.HOLD_LAST s] } ]

/-- Every card of the SQC page. -/
def cardsSqc : List Card := cardsSqc0

/-- Cards of the CORE page, part 0. -/
def cardsCore0 : List Card := [
  { rel := 0x100, dims := [], clk := .seq, pd := fun i _ _ => coreDom i, posted := true, vSet := true, vClr := true, vTgl := false,
    fields := fun i _ _ => [F.CORE_CTRL.RUN i, F.CORE_CTRL.CORE_RESET i, F.CORE_CTRL.MEM_SEL i, F.CORE_CTRL.RSV28 i] },
  { rel := 0x104, dims := [], clk := .seq, pd := fun i _ _ => coreDom i, posted := true, vSet := false, vClr := false, vTgl := false,
    fields := fun i _ _ => [F.CORE_STATUS.STATE i, F.CORE_STATUS.FAIL_CAUSE i, F.CORE_STATUS.CTX_STATE i, F.CORE_STATUS.RSV16 i] },
  { rel := 0x108, dims := [], clk := .seq, pd := fun i _ _ => coreDom i, posted := true, vSet := false, vClr := false, vTgl := false,
    fields := fun i _ _ => [F.RESET_PC.RESET_PC i, F.RESET_PC.RSV1 i] },
  { rel := 0x10c, dims := [], clk := .seq, pd := fun i _ _ => coreDom i, posted := true, vSet := false, vClr := false, vTgl := false,
    fields := fun i _ _ => [F.ECC_CNT.IMEM_CE i, F.ECC_CNT.TCM_CE i] } ]

/-- Every card of the CORE page. -/
def cardsCore : List Card := cardsCore0

/-- Cards of the CUP page, part 0. -/
def cardsCup0 : List Card := [
  { rel := 0x100, dims := [], clk := .cupc, pd := fun _ _ _ => 124, posted := true, vSet := true, vClr := true, vTgl := false,
    fields := fun _ _ _ => [F.CUP_CTRL.RETIRE_GO, F.CUP_CTRL.RETIRE_CH, F.CUP_CTRL.AUTO_RET, F.CUP_CTRL.RET_UE, F.CUP_CTRL.RET_WIN, F.CUP_CTRL.ECC_WB, F.CUP_CTRL.RSV18] },
  { rel := 0x104, dims := [], clk := .cupc, pd := fun _ _ _ => 124, posted := true, vSet := false, vClr := false, vTgl := false,
    fields := fun _ _ _ => [F.CUP_STATUS.IN_SVC, F.CUP_STATUS.RETIRED, F.CUP_STATUS.CAP_GIB, F.CUP_STATUS.SPEED, F.CUP_STATUS.X8, F.CUP_STATUS.RSV_SHORT, F.CUP_STATUS.RSV9] },
  { rel := 0x108, dims := [], clk := .cupc, pd := fun _ _ _ => 124, posted := true, vSet := false, vClr := true, vTgl := false,
    fields := fun _ _ _ => [F.CUP_EVENT.RSV31, F.CUP_EVENT.ADM_OVER, F.CUP_EVENT.RETIRED, F.CUP_EVENT.RSV_SHORT, F.CUP_EVENT.UE, F.CUP_EVENT.TRAIN_DONE] },
  { rel := 0x10c, dims := [], clk := .cupc, pd := fun _ _ _ => 124, posted := true, vSet := true, vClr := true, vTgl := false,
    fields := fun _ _ _ => [F.CUP_EVENT_MASK.RSV31, F.CUP_EVENT_MASK.MASK] },
  { rel := 0x200, dims := [], clk := .cupc, pd := fun _ _ _ => 124, posted := true, vSet := false, vClr := false, vTgl := false,
    fields := fun _ _ _ => [F.SPL_BASE.BASE, F.SPL_BASE.RSV3] },
  { rel := 0x204, dims := [], clk := .cupc, pd := fun _ _ _ => 124, posted := true, vSet := true, vClr := true, vTgl := false,
    fields := fun _ _ _ => [F.SPL_CFG.SPL_EN, F.SPL_CFG.RSV30, F.SPL_CFG.SPL_PAGES] },
  { rel := 0x208, dims := [], clk := .cupc, pd := fun _ _ _ => 124, posted := true, vSet := false, vClr := false, vTgl := false,
    fields := fun _ _ _ => [F.SPL_STATUS.SPL_FREE, F.SPL_STATUS.SPL_RDY, F.SPL_STATUS.CFG_REFUSED, F.SPL_STATUS.RSV11] },
  { rel := 0x20c, dims := [], clk := .cupc, pd := fun _ _ _ => 124, posted := true, vSet := false, vClr := false, vTgl := false,
    fields := fun _ _ _ => [F.SPL_BAD.RSV31, F.SPL_BAD.BAD_PAGES] },
  { rel := 0x40000, dims := [(4, 131072)], clk := .cupc, pd := fun _ _ _ => 124, posted := true, vSet := false, vClr := false, vTgl := false,
    fields := fun _ k _ => [F.SPT.STATE k, F.SPT.OWNER k, F.SPT.CH k, F.SPT.RSV23 k, F.SPT.NEXT k] },
  { rel := 0x300, dims := [], clk := .cupc, pd := fun _ _ _ => 124, posted := true, vSet := true, vClr := true, vTgl := false,
    fields := fun _ _ _ => [F.SCRUB_CTRL.SCRUB_EN, F.SCRUB_CTRL.RSV30, F.SCRUB_CTRL.SCRUB_H, F.SCRUB_CTRL.RSV15] },
  { rel := 0x304, dims := [], clk := .cupc, pd := fun _ _ _ => 124, posted := true, vSet := false, vClr := false, vTgl := false,
    fields := fun _ _ _ => [F.SCRUB_STATUS.PASSES, F.SCRUB_STATUS.PROGRESS, F.SCRUB_STATUS.BEHIND, F.SCRUB_STATUS.RSV6] } ]

/-- Every card of the CUP page. -/
def cardsCup : List Card := cardsCup0

/-- Cards of the CH page, part 0. -/
def cardsCh0 : List Card := [
  { rel := 0x10000, dims := [(0x8000, 4)], clk := .ddr, pd := fun _ c _ => 120 + c, posted := true, vSet := true, vClr := true, vTgl := false,
    fields := fun _ c _ => [F.CH_CFG.CH_EN c, F.CH_CFG.SPEED c, F.CH_CFG.X8 c, F.CH_CFG.RANKS2 c, F.CH_CFG.DENS c, F.CH_CFG.REF2X c, F.CH_CFG.RETRAIN_S c, F.CH_CFG.RSV14 c] },
  { rel := 0x10004, dims := [(0x8000, 4)], clk := .ddr, pd := fun _ c _ => 120 + c, posted := true, vSet := false, vClr := false, vTgl := false,
    fields := fun _ c _ => [F.CH_CTRL.TRAIN_GO c, F.CH_CTRL.RSV30 c] },
  { rel := 0x10008, dims := [(0x8000, 4)], clk := .ddr, pd := fun _ c _ => 120 + c, posted := true, vSet := false, vClr := false, vTgl := false,
    fields := fun _ c _ => [F.CH_STATUS.CH_STATE c, F.CH_STATUS.TRAIN_FAIL c, F.CH_STATUS.TRAIN_RESULT c, F.CH_STATUS.RET_CAUSE c, F.CH_STATUS.LANE_FAIL c, F.CH_STATUS.CAP_GIB c, F.CH_STATUS.RSV3 c] },
  { rel := 0x1000c, dims := [(0x8000, 4)], clk := .ddr, pd := fun _ c _ => 120 + c, posted := true, vSet := false, vClr := false, vTgl := false,
    fields := fun _ c _ => [F.CH_ECC.CE_CNT c, F.CH_ECC.UE_CNT c, F.CH_ECC.CAP_RETRY c] },
  { rel := 0x10010, dims := [(0x8000, 4)], clk := .ddr, pd := fun _ c _ => 120 + c, posted := true, vSet := false, vClr := false, vTgl := false,
    fields := fun _ c _ => [F.CH_ERR_ADDR.ERR_A c] },
  { rel := 0x10014, dims := [(0x8000, 4)], clk := .ddr, pd := fun _ c _ => 120 + c, posted := true, vSet := false, vClr := true, vTgl := false,
    fields := fun _ c _ => [F.CH_ERR_INFO.VALID c, F.CH_ERR_INFO.TYPE c, F.CH_ERR_INFO.SRC c, F.CH_ERR_INFO.MID c, F.CH_ERR_INFO.RANK c, F.CH_ERR_INFO.DEVICE c, F.CH_ERR_INFO.CW c, F.CH_ERR_INFO.RSV12 c] },
  { rel := 0x10020, dims := [(0x8000, 4), (4, 18)], clk := .ddr, pd := fun _ c _ => 120 + c, posted := true, vSet := false, vClr := false, vTgl := false,
    fields := fun _ c i => [F.CH_DEV_CE.RANK1_CE c i, F.CH_DEV_CE.RANK0_CE c i] },
  { rel := 0x10080, dims := [(0x8000, 4)], clk := .ddr, pd := fun _ c _ => 120 + c, posted := true, vSet := true, vClr := true, vTgl := false,
    fields := fun _ c _ => [F.CH_INJECT.INJ_ARM c, F.CH_INJECT.SYM_A c, F.CH_INJECT.SYM_B c, F.CH_INJECT.INJ_TWO c, F.CH_INJECT.PAT c, F.CH_INJECT.RSV13 c] } ]

/-- Every card of the CH page. -/
def cardsCh : List Card := cardsCh0

/-- Cards of the BWR page, part 0. -/
def cardsBwr0 : List Card := [
  { rel := 0x100, dims := [], clk := .reg, pd := fun _ _ _ => 124, posted := false, vSet := false, vClr := false, vTgl := false,
    fields := fun _ _ _ => [F.BWR_CTRL.WIN, F.BWR_CTRL.URG_WR, F.BWR_CTRL.URG_RD, F.BWR_CTRL.RSV17] },
  { rel := 0x104, dims := [], clk := .reg, pd := fun _ _ _ => 124, posted := false, vSet := false, vClr := false, vTgl := false,
    fields := fun _ _ _ => [F.BWR_ADM.LIMIT, F.BWR_ADM.G_SUM] },
  { rel := 0x108, dims := [], clk := .reg, pd := fun _ _ _ => 124, posted := false, vSet := false, vClr := false, vTgl := false,
    fields := fun _ _ _ => [F.BWR_FLAGS.ADM_OVER, F.BWR_FLAGS.ADM_REFUSED, F.BWR_FLAGS.RSV29] },
  { rel := 0x200, dims := [(4, 32)], clk := .reg, pd := fun _ _ _ => 124, posted := false, vSet := false, vClr := false, vTgl := false,
    fields := fun _ i _ => [F.BWR_CLIENT.CLASS i, F.BWR_CLIENT.RSV29 i, F.BWR_CLIENT.BUDGET i] },
  { rel := 0x300, dims := [(4, 32)], clk := .reg, pd := fun _ _ _ => 124, posted := false, vSet := false, vClr := false, vTgl := false,
    fields := fun _ i _ => [F.BWR_OVER.OVER_WIN i] },
  { rel := 0x400, dims := [(8, 5)], clk := .reg, pd := fun _ _ _ => 124, posted := false, vSet := false, vClr := false, vTgl := false,
    fields := fun _ k _ => [F.BWR_BYTES_LO.BYTES_LO k] },
  { rel := 0x404, dims := [(8, 5)], clk := .reg, pd := fun _ _ _ => 124, posted := false, vSet := false, vClr := false, vTgl := false,
    fields := fun _ k _ => [F.BWR_BYTES_HI.BYTES_HI k] } ]

/-- Every card of the BWR page. -/
def cardsBwr : List Card := cardsBwr0

/-- Cards of the MBX page, part 0. -/
def cardsMbx0 : List Card := [
  { rel := 0x100, dims := [], clk := .reg, pd := fun _ _ _ => 133, posted := false, vSet := false, vClr := false, vTgl := false,
    fields := fun _ _ _ => [F.HIF_CTRL.MDIO_PRIV, F.HIF_CTRL.RSV30, F.HIF_CTRL.MDIO_BASE, F.HIF_CTRL.RSV23] },
  { rel := 0x104, dims := [], clk := .reg, pd := fun _ _ _ => 133, posted := false, vSet := false, vClr := false, vTgl := false,
    fields := fun _ _ _ => [F.HIF_WIN.RSV31, F.HIF_WIN.WIN_BASE] },
  { rel := 0x108, dims := [], clk := .reg, pd := fun _ _ _ => 133, posted := false, vSet := true, vClr := true, vTgl := false,
    fields := fun _ _ _ => [F.HIF_INTN_MASK.RSV31, F.HIF_INTN_MASK.INTN_EN] },
  { rel := 0x10c, dims := [], clk := .reg, pd := fun _ _ _ => 133, posted := false, vSet := false, vClr := false, vTgl := false,
    fields := fun _ _ _ => [F.HIF_INT_SRC.RSV31, F.HIF_INT_SRC.ERR, F.HIF_INT_SRC.DB_MDIO, F.HIF_INT_SRC.DB_PF1, F.HIF_INT_SRC.DB_PF0, F.HIF_INT_SRC.SRC] },
  { rel := 0x110, dims := [], clk := .reg, pd := fun _ _ _ => 133, posted := false, vSet := false, vClr := true, vTgl := false,
    fields := fun _ _ _ => [F.HIF_ERR_INFO.VALID, F.HIF_ERR_INFO.WRITE, F.HIF_ERR_INFO.CAUSE, F.HIF_ERR_INFO.SAFE, F.HIF_ERR_INFO.LOCK, F.HIF_ERR_INFO.RSV24, F.HIF_ERR_INFO.MID, F.HIF_ERR_INFO.RSV17, F.HIF_ERR_INFO.ERR_CNT] },
  { rel := 0x114, dims := [], clk := .reg, pd := fun _ _ _ => 133, posted := false, vSet := false, vClr := false, vTgl := false,
    fields := fun _ _ _ => [F.HIF_ERR_ADDR.ERR_OFS] },
  { rel := 0x200, dims := [(4, 16)], clk := .reg, pd := fun _ _ _ => 133, posted := false, vSet := false, vClr := false, vTgl := false,
    fields := fun _ c _ => [F.MBX_BIND.VALID c, F.MBX_BIND.RSV30 c, F.MBX_BIND.SND_ID c, F.MBX_BIND.RSV7 c, F.MBX_BIND.RCV_ID c] },
  { rel := 0x400, dims := [(0x10, 16)], clk := .reg, pd := fun _ _ _ => 133, posted := false, vSet := false, vClr := true, vTgl := false,
    fields := fun _ e _ => [F.DB_PEND.DB e] },
  { rel := 0x404, dims := [(0x10, 16)], clk := .reg, pd := fun _ _ _ => 133, posted := false, vSet := true, vClr := true, vTgl := false,
    fields := fun _ e _ => [F.DB_MASK.DB_EN e] },
  { rel := 0x408, dims := [(0x10, 16)], clk := .reg, pd := fun _ _ _ => 133, posted := false, vSet := false, vClr := true, vTgl := false,
    fields := fun _ e _ => [F.ABORT.RSV31 e, F.ABORT.ABRT e] },
  { rel := 0x40c, dims := [(0x10, 16)], clk := .reg, pd := fun _ _ _ => 133, posted := false, vSet := true, vClr := true, vTgl := false,
    fields := fun _ e _ => [F.ABORT_MASK.RSV31 e, F.ABORT_MASK.ABRT_EN e] },
  { rel := 0x1000, dims := [(0x100, 16), (4, 16)], clk := .reg, pd := fun _ _ _ => 133, posted := false, vSet := false, vClr := false, vTgl := false,
    fields := fun _ c w => [F.MB_DATA.WORD c w] } ]

/-- Cards of the MBX page, part 1. -/
def cardsMbx1 : List Card := [
  { rel := 0x1040, dims := [(0x100, 16)], clk := .reg, pd := fun _ _ _ => 133, posted := false, vSet := false, vClr := false, vTgl := false,
    fields := fun _ c _ => [F.MB_SEND.GO c, F.MB_SEND.RSV30 c, F.MB_SEND.DB c, F.MB_SEND.DB_EN c, F.MB_SEND.RSV22 c, F.MB_SEND.LEN_M1 c, F.MB_SEND.RSV15 c] },
  { rel := 0x1044, dims := [(0x100, 16)], clk := .reg, pd := fun _ _ _ => 133, posted := false, vSet := false, vClr := false, vTgl := false,
    fields := fun _ c _ => [F.MB_STATUS.FULL c, F.MB_STATUS.RSV30 c, F.MB_STATUS.MSEQ c, F.MB_STATUS.RSV15 c, F.MB_STATUS.LEN_M1 c, F.MB_STATUS.RSV7 c, F.MB_STATUS.DB c] },
  { rel := 0x1048, dims := [(0x100, 16)], clk := .reg, pd := fun _ _ _ => 133, posted := false, vSet := false, vClr := false, vTgl := false,
    fields := fun _ c _ => [F.MB_RCTL.RRESET c, F.MB_RCTL.RSV30 c] } ]

/-- Every card of the MBX page. -/
def cardsMbx : List Card := cardsMbx0 ++ cardsMbx1

/-- Cards of the CKC page, part 0. -/
def cardsCkc0 : List Card := [
  { rel := 0x100, dims := [], clk := .reg, pd := fun _ _ _ => 133, posted := true, vSet := false, vClr := false, vTgl := false,
    fields := fun _ _ _ => [F.CKC_OSC_STATUS.XA_STATE, F.CKC_OSC_STATUS.XB_STATE, F.CKC_OSC_STATUS.FOSC_TRIM, F.CKC_OSC_STATUS.RSV26, F.CKC_OSC_STATUS.XA_LOST_CNT, F.CKC_OSC_STATUS.XB_LOST_CNT] },
  { rel := 0x104, dims := [], clk := .reg, pd := fun _ _ _ => 133, posted := true, vSet := true, vClr := true, vTgl := false,
    fields := fun _ _ _ => [F.CKC_REF.REF_SEL, F.CKC_REF.AUTO_REF, F.CKC_REF.AUTO_FB, F.CKC_REF.RSV28] },
  { rel := 0x110, dims := [(4, 4)], clk := .reg, pd := fun _ _ _ => 133, posted := true, vSet := false, vClr := false, vTgl := false,
    fields := fun _ p _ => [F.CKC_PLL_STATUS.LOCK p, F.CKC_PLL_STATUS.HOLDOVER p, F.CKC_PLL_STATUS.RSV29 p, F.CKC_PLL_STATUS.LOL_CNT p] },
  { rel := 0x140, dims := [], clk := .reg, pd := fun _ _ _ => 133, posted := true, vSet := false, vClr := false, vTgl := false,
    fields := fun _ _ _ => [F.CKC_SW.SW_GO, F.CKC_SW.SW_SRC, F.CKC_SW.SW_MODE, F.CKC_SW.RAMP_STEP, F.CKC_SW.RSV20] },
  { rel := 0x144, dims := [], clk := .reg, pd := fun _ _ _ => 133, posted := true, vSet := false, vClr := false, vTgl := false,
    fields := fun _ _ _ => [F.CKC_SW_STATUS.SRC_CUR, F.CKC_SW_STATUS.SW_BUSY, F.CKC_SW_STATUS.SW_RESULT, F.CKC_SW_STATUS.SW_FORCED, F.CKC_SW_STATUS.TB_INEXACT, F.CKC_SW_STATUS.SW_AUTO, F.CKC_SW_STATUS.RSV24, F.CKC_SW_STATUS.SW_GAP] },
  { rel := 0x180, dims := [], clk := .reg, pd := fun _ _ _ => 133, posted := true, vSet := false, vClr := false, vTgl := false,
    fields := fun _ _ _ => [F.CKC_GATE.GATE_GO, F.CKC_GATE.GATE_ON, F.CKC_GATE.GATE_FORCE, F.CKC_GATE.GATE_ID, F.CKC_GATE.GATE_TO, F.CKC_GATE.RSV15] },
  { rel := 0x184, dims := [], clk := .reg, pd := fun _ _ _ => 133, posted := true, vSet := false, vClr := false, vTgl := false,
    fields := fun _ _ _ => [F.CKC_GATE_STATUS.GATE_BUSY, F.CKC_GATE_STATUS.GATE_RESULT, F.CKC_GATE_STATUS.RSV27, F.CKC_GATE_STATUS.GATE_STATE] },
  { rel := 0x1c0, dims := [], clk := .reg, pd := fun _ _ _ => 133, posted := true, vSet := false, vClr := false, vTgl := false,
    fields := fun _ _ _ => [F.CKC_FCNT_CTRL.FC_GO, F.CKC_FCNT_CTRL.FC_SEL, F.CKC_FCNT_CTRL.RSV24, F.CKC_FCNT_CTRL.FC_N] },
  { rel := 0x1c4, dims := [], clk := .reg, pd := fun _ _ _ => 133, posted := true, vSet := false, vClr := false, vTgl := false,
    fields := fun _ _ _ => [F.CKC_FCNT_RESULT.FC_DONE, F.CKC_FCNT_RESULT.FC_OVF, F.CKC_FCNT_RESULT.FC_ABORT, F.CKC_FCNT_RESULT.FC_BUSY, F.CKC_FCNT_RESULT.RSV27, F.CKC_FCNT_RESULT.FC_COUNT] },
  { rel := 0x1e0, dims := [], clk := .reg, pd := fun _ _ _ => 133, posted := true, vSet := false, vClr := true, vTgl := false,
    fields := fun _ _ _ => [F.CKC_EVENT.RSV31, F.CKC_EVENT.REF_AUTO, F.CKC_EVENT.PLL_LOL, F.CKC_EVENT.XTAL_LOST, F.CKC_EVENT.SW_FORCED, F.CKC_EVENT.RAMP_DONE, F.CKC_EVENT.SW_DONE, F.CKC_EVENT.GATE_DONE, F.CKC_EVENT.FC_DONE] },
  { rel := 0x1e4, dims := [], clk := .reg, pd := fun _ _ _ => 133, posted := true, vSet := true, vClr := true, vTgl := false,
    fields := fun _ _ _ => [F.CKC_EVENT_MASK.RSV31, F.CKC_EVENT_MASK.CEV_MASK] } ]

/-- Every card of the CKC page. -/
def cardsCkc : List Card := cardsCkc0

/-- Cards of the PWC page, part 0. -/
def cardsPwc0 : List Card := [
  { rel := 0x100, dims := [], clk := .reg, pd := fun _ _ _ => 133, posted := true, vSet := false, vClr := false, vTgl := false,
    fields := fun _ _ _ => [F.PWC_REQ.GO, F.PWC_REQ.KIND, F.PWC_REQ.TARGET, F.PWC_REQ.INDEX, F.PWC_REQ.TAG, F.PWC_REQ.RSV11] },
  { rel := 0x104, dims := [], clk := .reg, pd := fun _ _ _ => 133, posted := true, vSet := false, vClr := false, vTgl := false,
    fields := fun _ _ _ => [F.PWC_RESULT.INFLIGHT, F.PWC_RESULT.QUEUED, F.PWC_RESULT.INF_TAG, F.PWC_RESULT.LAST_TAG, F.PWC_RESULT.LAST_RESULT, F.PWC_RESULT.WHY, F.PWC_RESULT.SUP_TAG] },
  { rel := 0x108, dims := [], clk := .reg, pd := fun _ _ _ => 133, posted := true, vSet := false, vClr := false, vTgl := false,
    fields := fun _ _ _ => [F.PWC_MODE.MODE, F.PWC_MODE.WAKE_CAUSE, F.PWC_MODE.RSV27] },
  { rel := 0x10c, dims := [], clk := .reg, pd := fun _ _ _ => 133, posted := true, vSet := true, vClr := true, vTgl := false,
    fields := fun _ _ _ => [F.PWC_AUTO.AUTO_PD, F.PWC_AUTO.HL_AUTO, F.PWC_AUTO.RSV15] },
  { rel := 0x110, dims := [], clk := .reg, pd := fun _ _ _ => 133, posted := true, vSet := true, vClr := true, vTgl := false,
    fields := fun _ _ _ => [F.PWC_DEPOT.DEP_WAKE_S, F.PWC_DEPOT.WAKE_N_EN, F.PWC_DEPOT.RSV14] },
  { rel := 0x114, dims := [], clk := .reg, pd := fun _ _ _ => 133, posted := true, vSet := false, vClr := false, vTgl := false,
    fields := fun _ _ _ => [F.PWC_AVS.AVS_VALID, F.PWC_AVS.AVS_TARGET, F.PWC_AVS.RSV19] },
  { rel := 0x118, dims := [], clk := .reg, pd := fun _ _ _ => 133, posted := true, vSet := false, vClr := true, vTgl := false,
    fields := fun _ _ _ => [F.PWC_EVENT.RSV31, F.PWC_EVENT.AVS_CHANGE, F.PWC_EVENT.FAILED, F.PWC_EVENT.WAKE_DONE, F.PWC_EVENT.ABORTED, F.PWC_EVENT.SUPERSEDED, F.PWC_EVENT.REQ_DONE] },
  { rel := 0x11c, dims := [], clk := .reg, pd := fun _ _ _ => 133, posted := true, vSet := true, vClr := true, vTgl := false,
    fields := fun _ _ _ => [F.PWC_EVENT_MASK.RSV31, F.PWC_EVENT_MASK.MASK] },
  { rel := 0x400, dims := [(4, 142)], clk := .reg, pd := fun _ _ _ => 133, posted := true, vSet := true, vClr := true, vTgl := false,
    fields := fun _ i _ => [F.PWC_DOM.STATE i, F.PWC_DOM.QUIET_TGT i, F.PWC_DOM.DEPOT_TGT i, F.PWC_DOM.RSV25 i, F.PWC_DOM.RET_SEL i, F.PWC_DOM.RSV15 i] } ]

/-- Every card of the PWC page. -/
def cardsPwc : List Card := cardsPwc0

/-- Cards of the CAL page, part 0. -/
def cardsCal0 : List Card := [
  { rel := 0x100, dims := [], clk := .reg, pd := fun _ _ _ => 131, posted := true, vSet := false, vClr := false, vTgl := false,
    fields := fun _ _ _ => [F.CAL_CTRL.CAL_GO, F.CAL_CTRL.CAL_SAVE, F.CAL_CTRL.CAL_PORT, F.CAL_CTRL.CAL_PAIR, F.CAL_CTRL.CAL_DT, F.CAL_CTRL.CAL_PERIOD, F.CAL_CTRL.CONV_MAX, F.CAL_CTRL.CAL_REVERT] },
  { rel := 0x104, dims := [], clk := .reg, pd := fun _ _ _ => 131, posted := true, vSet := false, vClr := false, vTgl := false,
    fields := fun _ _ _ => [F.CAL_STATUS.CAL_BUSY, F.CAL_STATUS.SAVE_BUSY, F.CAL_STATUS.CAL_RESULT, F.CAL_STATUS.CAL_SRC, F.CAL_STATUS.VREF_BAD, F.CAL_STATUS.RES_BAD, F.CAL_STATUS.SAVE_REFUSED, F.CAL_STATUS.RSV21, F.CAL_STATUS.CUR_GEN] },
  { rel := 0x110, dims := [(4, 8)], clk := .reg, pd := fun _ _ _ => 131, posted := true, vSet := false, vClr := false, vTgl := false,
    fields := fun _ n _ => [F.CAL_DUE.DUE n, F.CAL_DUE.RSV26 n, F.CAL_DUE.CAUSE n] },
  { rel := 0x130, dims := [(4, 8)], clk := .reg, pd := fun _ _ _ => 131, posted := true, vSet := false, vClr := false, vTgl := false,
    fields := fun _ n _ => [F.CAL_DUE2.DUE n, F.CAL_DUE2.RSV26 n, F.CAL_DUE2.CAUSE n] },
  { rel := 0x150, dims := [(4, 4)], clk := .reg, pd := fun _ _ _ => 131, posted := true, vSet := false, vClr := false, vTgl := false,
    fields := fun _ s _ => [F.REC_SLOT.VALID s, F.REC_SLOT.SLOT_BAD s, F.REC_SLOT.WRITES s, F.REC_SLOT.GEN s] },
  { rel := 0x180, dims := [], clk := .reg, pd := fun _ _ _ => 131, posted := true, vSet := false, vClr := false, vTgl := false,
    fields := fun _ _ _ => [F.CAL_COUNT.COUNT] },
  { rel := 0x188, dims := [], clk := .reg, pd := fun _ _ _ => 131, posted := true, vSet := false, vClr := false, vTgl := false,
    fields := fun _ _ _ => [F.CAL_LAST_LO.LAST_LO] },
  { rel := 0x18c, dims := [], clk := .reg, pd := fun _ _ _ => 131, posted := true, vSet := false, vClr := false, vTgl := false,
    fields := fun _ _ _ => [F.CAL_LAST_HI.LAST_HI] },
  { rel := 0x200, dims := [(0x20, 8), (4, 4)], clk := .reg, pd := fun _ _ _ => 131, posted := true, vSet := false, vClr := false, vTgl := false,
    fields := fun _ n x => [F.QF_MARGIN.CUR n x, F.QF_MARGIN.PRE n x, F.QF_MARGIN.POST n x, F.QF_MARGIN.RSV1 n x] },
  { rel := 0x300, dims := [(4, 8)], clk := .reg, pd := fun _ _ _ => 131, posted := true, vSet := false, vClr := false, vTgl := false,
    fields := fun _ n _ => [F.QF_EYE.RSV31 n, F.QF_EYE.EYE_MIN n, F.QF_EYE.RSV7 n, F.QF_EYE.EYE_CUR n] },
  { rel := 0x1e0, dims := [], clk := .reg, pd := fun _ _ _ => 131, posted := true, vSet := false, vClr := true, vTgl := false,
    fields := fun _ _ _ => [F.CAL_EVENT.RSV31, F.CAL_EVENT.REF_BAD, F.CAL_EVENT.REVERTED, F.CAL_EVENT.CAL_FAIL, F.CAL_EVENT.CAL_SAVE_DONE, F.CAL_EVENT.CAL_DONE] },
  { rel := 0x1e4, dims := [], clk := .reg, pd := fun _ _ _ => 131, posted := true, vSet := true, vClr := true, vTgl := false,
    fields := fun _ _ _ => [F.CAL_EVENT_MASK.RSV31, F.CAL_EVENT_MASK.MASK] } ]

/-- Every card of the CAL page. -/
def cardsCal : List Card := cardsCal0

/-- Cards of the MON page, part 0. -/
def cardsMon0 : List Card := [
  { rel := 0x100, dims := [], clk := .reg, pd := fun _ _ _ => 131, posted := true, vSet := true, vClr := true, vTgl := false,
    fields := fun _ _ _ => [F.MON_CTRL.MON_EN, F.MON_CTRL.T_WARN, F.MON_CTRL.T_CRIT, F.MON_CTRL.RSV14] },
  { rel := 0x200, dims := [(4, 24)], clk := .reg, pd := fun _ _ _ => 131, posted := true, vSet := false, vClr := false, vTgl := false,
    fields := fun _ i _ => [F.MON_TEMP.RSV31 i, F.MON_TEMP.T_MAX i, F.MON_TEMP.RSV15 i, F.MON_TEMP.T_NOW i] },
  { rel := 0x300, dims := [(4, 16)], clk := .reg, pd := fun _ _ _ => 131, posted := true, vSet := false, vClr := false, vTgl := false,
    fields := fun _ i _ => [F.MON_VOLT.RSV31 i, F.MON_VOLT.RSV15 i, F.MON_VOLT.V_NOW i] },
  { rel := 0x380, dims := [(4, 16)], clk := .reg, pd := fun _ _ _ => 131, posted := true, vSet := false, vClr := false, vTgl := false,
    fields := fun _ i _ => [F.MON_VLIM.RSV31 i, F.MON_VLIM.OV i, F.MON_VLIM.RSV15 i, F.MON_VLIM.UV i] },
  { rel := 0x400, dims := [(4, 6)], clk := .reg, pd := fun _ _ _ => 131, posted := true, vSet := false, vClr := false, vTgl := false,
    fields := fun _ j _ => [F.MON_PROC.RSV31 j, F.MON_PROC.RO_CNT j] },
  { rel := 0x1e0, dims := [], clk := .reg, pd := fun _ _ _ => 131, posted := true, vSet := false, vClr := true, vTgl := false,
    fields := fun _ _ _ => [F.MON_EVENT.RSV31, F.MON_EVENT.VOLT, F.MON_EVENT.T_CRIT, F.MON_EVENT.T_WARN, F.MON_EVENT.AVS_IN] },
  { rel := 0x1e4, dims := [], clk := .reg, pd := fun _ _ _ => 131, posted := true, vSet := true, vClr := true, vTgl := false,
    fields := fun _ _ _ => [F.MON_EVENT_MASK.RSV31, F.MON_EVENT_MASK.MASK] } ]

/-- Every card of the MON page. -/
def cardsMon : List Card := cardsMon0

/-- Cards of the FLT page, part 0. -/
def cardsFlt0 : List Card := [
  { rel := 0x100, dims := [], clk := .reg, pd := fun _ _ _ => 133, posted := false, vSet := true, vClr := true, vTgl := false,
    fields := fun _ _ _ => [F.FLT_CTRL.CHIP_RST_GO, F.FLT_CTRL.BLK_RST_GO, F.FLT_CTRL.BLK_SEL, F.FLT_CTRL.INJ_QUIET, F.FLT_CTRL.RSV22] },
  { rel := 0x104, dims := [], clk := .reg, pd := fun _ _ _ => 133, posted := false, vSet := false, vClr := false, vTgl := false,
    fields := fun _ _ _ => [F.FLT_STATUS.SAFE, F.FLT_STATUS.FAULT_N_LOW, F.FLT_STATUS.N_C, F.FLT_STATUS.N_U, F.FLT_STATUS.N_F] },
  { rel := 0x108, dims := [], clk := .reg, pd := fun _ _ _ => 133, posted := false, vSet := false, vClr := false, vTgl := false,
    fields := fun _ _ _ => [F.FLT_PERSIST.LAST_RESET, F.FLT_PERSIST.RSV27, F.FLT_PERSIST.RST_ID, F.FLT_PERSIST.CHIP_RESETS] },
  { rel := 0x10c, dims := [], clk := .reg, pd := fun _ _ _ => 133, posted := false, vSet := false, vClr := false, vTgl := false,
    fields := fun _ _ _ => [F.FLT_INJ.INJ_GO, F.FLT_INJ.INJ_MODE, F.FLT_INJ.INJ_ID, F.FLT_INJ.INJ_UNIT, F.FLT_INJ.INJ_RESULT, F.FLT_INJ.INJ_BIT] },
  { rel := 0x140, dims := [(0x20, 3)], clk := .reg, pd := fun _ _ _ => 133, posted := false, vSet := false, vClr := true, vTgl := false,
    fields := fun _ k _ => [F.FLT_FIRST_INFO.VALID k, F.FLT_FIRST_INFO.OVF k, F.FLT_FIRST_INFO.RSV29 k, F.FLT_FIRST_INFO.ID k, F.FLT_FIRST_INFO.OVF_CNT k] },
  { rel := 0x148, dims := [(0x20, 3), (4, 5)], clk := .reg, pd := fun _ _ _ => 133, posted := false, vSet := false, vClr := false, vTgl := false,
    fields := fun _ k w => [F.FLT_FIRST_DATA.VALUE k w] },
  { rel := 0x1000, dims := [(4, 1024)], clk := .reg, pd := fun _ _ _ => 133, posted := false, vSet := true, vClr := true, vTgl := false,
    fields := fun _ i _ => [F.FLT_SRC_CFG.IMPL i, F.FLT_SRC_CFG.CLASS i, F.FLT_SRC_CFG.REPAIR i, F.FLT_SRC_CFG.RSV27 i, F.FLT_SRC_CFG.NUNITS i, F.FLT_SRC_CFG.PIN i, F.FLT_SRC_CFG.CHIP_RST i, F.FLT_SRC_CFG.BLK_RST i, F.FLT_SRC_CFG.LNT_NMI i, F.FLT_SRC_CFG.LNT_INT i, F.FLT_SRC_CFG.HOST_INT i] },
  { rel := 0x2000, dims := [(4, 1024)], clk := .reg, pd := fun _ _ _ => 133, posted := false, vSet := false, vClr := true, vTgl := false,
    fields := fun _ i _ => [F.FLT_SRC_STAT.LATCHED i, F.FLT_SRC_STAT.ACTIVE i, F.FLT_SRC_STAT.WIRE i, F.FLT_SRC_STAT.INJ i, F.FLT_SRC_STAT.RSV27 i, F.FLT_SRC_STAT.COUNT i] } ]

/-- Every card of the FLT page. -/
def cardsFlt : List Card := cardsFlt0

/-- Cards of the EVJ page, part 0. -/
def cardsEvj0 : List Card := [
  { rel := 0x100, dims := [], clk := .reg, pd := fun _ _ _ => 133, posted := false, vSet := true, vClr := true, vTgl := false,
    fields := fun _ _ _ => [F.EVJ_CTRL.MIRROR_EN, F.EVJ_CTRL.RSV30, F.EVJ_CTRL.MEM_LOG, F.EVJ_CTRL.RSV15] },
  { rel := 0x104, dims := [], clk := .reg, pd := fun _ _ _ => 133, posted := false, vSet := false, vClr := false, vTgl := false,
    fields := fun _ _ _ => [F.EVJ_MEM_BASE.BASE, F.EVJ_MEM_BASE.RSV3] },
  { rel := 0x108, dims := [], clk := .reg, pd := fun _ _ _ => 133, posted := false, vSet := false, vClr := false, vTgl := false,
    fields := fun _ _ _ => [F.EVJ_SEQ.NEXT_SEQ] },
  { rel := 0x10c, dims := [], clk := .reg, pd := fun _ _ _ => 133, posted := false, vSet := false, vClr := false, vTgl := false,
    fields := fun _ _ _ => [F.EVJ_EPOCH.RSV31, F.EVJ_EPOCH.EPOCH] },
  { rel := 0x110, dims := [], clk := .reg, pd := fun _ _ _ => 133, posted := false, vSet := false, vClr := false, vTgl := false,
    fields := fun _ _ _ => [F.EVJ_LOST.SUPPRESSED, F.EVJ_LOST.MIRROR_SKIP] },
  { rel := 0x118, dims := [], clk := .reg, pd := fun _ _ _ => 133, posted := false, vSet := false, vClr := false, vTgl := false,
    fields := fun _ _ _ => [F.EVJ_TB_LO.TB_LO] },
  { rel := 0x11c, dims := [], clk := .reg, pd := fun _ _ _ => 133, posted := false, vSet := false, vClr := false, vTgl := false,
    fields := fun _ _ _ => [F.EVJ_TB_HI.TB_HI] },
  { rel := 0x120, dims := [(4, 3)], clk := .reg, pd := fun _ _ _ => 133, posted := false, vSet := false, vClr := false, vTgl := false,
    fields := fun _ w _ => [F.EVJ_SWDATA.WORD w] },
  { rel := 0x130, dims := [], clk := .reg, pd := fun _ _ _ => 133, posted := false, vSet := false, vClr := false, vTgl := false,
    fields := fun _ _ _ => [F.EVJ_SWGO.GO, F.EVJ_SWGO.RSV30, F.EVJ_SWGO.SW_SRC] },
  { rel := 0x800, dims := [(0x20, 64), (4, 8)], clk := .reg, pd := fun _ _ _ => 133, posted := false, vSet := false, vClr := false, vTgl := false,
    fields := fun _ r w => [F.EVJ_RING.WORD r w] } ]

/-- Every card of the EVJ page. -/
def cardsEvj : List Card := cardsEvj0

/-- Cards of the KEP page, part 0. -/
def cardsKep0 : List Card := [
  { rel := 0x100, dims := [], clk := .fab, pd := fun _ _ _ => 130, posted := true, vSet := false, vClr := false, vTgl := false,
    fields := fun _ _ _ => [F.KEP_STATUS.LIFECYCLE, F.KEP_STATUS.DBG_OPEN, F.KEP_STATUS.LOCKED, F.KEP_STATUS.BOOT_SRC, F.KEP_STATUS.BOOT_RESULT, F.KEP_STATUS.XTAL_FB, F.KEP_STATUS.WARM, F.KEP_STATUS.KEY_SLOTS, F.KEP_STATUS.SVN, F.KEP_STATUS.DEV_KEY, F.KEP_STATUS.RSV2] },
  { rel := 0x104, dims := [], clk := .fab, pd := fun _ _ _ => 130, posted := true, vSet := false, vClr := false, vTgl := false,
    fields := fun _ _ _ => [F.KEP_CMD.GO, F.KEP_CMD.CMD, F.KEP_CMD.BUSY, F.KEP_CMD.RESULT, F.KEP_CMD.RESULT_CODE, F.KEP_CMD.RSV18] },
  { rel := 0x108, dims := [], clk := .fab, pd := fun _ _ _ => 130, posted := true, vSet := true, vClr := false, vTgl := false,
    fields := fun _ _ _ => [F.KEP_LOCK.RSV31, F.KEP_LOCK.LOCK] },
  { rel := 0x110, dims := [], clk := .fab, pd := fun _ _ _ => 130, posted := true, vSet := false, vClr := false, vTgl := false,
    fields := fun _ _ _ => [F.KEP_DEVID_LO.DEVID_LO] },
  { rel := 0x114, dims := [], clk := .fab, pd := fun _ _ _ => 130, posted := true, vSet := false, vClr := false, vTgl := false,
    fields := fun _ _ _ => [F.KEP_DEVID_HI.DEVID_HI] },
  { rel := 0x140, dims := [(4, 32)], clk := .fab, pd := fun _ _ _ => 130, posted := true, vSet := false, vClr := false, vTgl := false,
    fields := fun _ w _ => [F.KEP_ARG.WORD w] } ]

/-- Every card of the KEP page. -/
def cardsKep : List Card := cardsKep0

/-- The Lantern's CORE_CTRL, with LNT_HOT at bit 28. -/
def cardLntCtrl : Card :=
  { rel := 0x100, dims := [], clk := .seq, pd := fun _ _ _ => 127, posted := true, vSet := true, vClr := true,
    vTgl := false,
    fields := fun _ _ _ => [F.CORE_CTRL.RUN 10, F.CORE_CTRL.CORE_RESET 10, F.CORE_CTRL.MEM_SEL 10,
      F.LNT_CORE_CTRL.LNT_HOT, F.LNT_CORE_CTRL.RSV27] }

/-- Every card of the LNT page: the core cards, CORE_CTRL with LNT_HOT. -/
def cardsLnt : List Card := cardLntCtrl :: cardsCore.drop 1

/-- The cards of a kind of page. -/
def cardsOf : PageKind → List Card
  | .ids => cardsIds | .ckc => cardsCkc | .pwc => cardsPwc | .flt => cardsFlt | .mon => cardsMon | .cal => cardsCal
  | .evj => cardsEvj | .bwr => cardsBwr | .mbx => cardsMbx | .kep => cardsKep | .bf => cardsBf | .hl => cardsHl
  | .cup => cardsTw ++ cardsCup ++ cardsCh | .port => cardsPort | .sqc => cardsSqc | .lnt => cardsLnt

/-- The indices of the register of a card at distance `d` from its first register. -/
def Card.index? (c : Card) (d : Nat) : Option (Nat × Nat) :=
  match c.dims with
  | [] => if d = 0 then some (0, 0) else none
  | [(s, k)] => if d % s = 0 ∧ d / s < k then some (d / s, 0) else none
  | (s, k) :: (t, l) :: _ =>
    if d % s % t = 0 ∧ d / s < k ∧ d % s / t < l then some (d / s, d % s / t) else none

/-- A register found: its card, the instance of the page and the card's indices. -/
structure Reg where
  card : Card
  n : Nat
  i : Nat
  j : Nat

/-- The fields of a register. -/
def Reg.fields (r : Reg) : List Fld := r.card.fields r.n r.i r.j
/-- The power domain of a register. -/
def Reg.dom (r : Reg) : Nat := r.card.pd r.n r.i r.j

/-- Search a list of cards for the register at page offset `off`. -/
def findReg (n off : Nat) : List Card → Option Reg
  | [] => none
  | c :: cs =>
    if c.rel ≤ off then
      match c.index? (off - c.rel) with
      | some (i, j) => if c.ok n i j then some ⟨c, n, i, j⟩ else findReg n off cs
      | none => findReg n off cs
    else findReg n off cs

/-- The register of a card at a page offset. The core regions of the SQC page are instances of their own. -/
def PageRef.reg? (r : PageRef) : Option Reg :=
  match r.info.kind with
  | .sqc =>
    if r.off < 0x10000 then findReg 0 r.off cardsSqc
    else if (r.off - 0x10000) / 0x30000 < 10 then
      findReg ((r.off - 0x10000) / 0x30000) ((r.off - 0x10000) % 0x30000) cardsCore
    else none
  | .lnt => findReg 10 r.off cardsLnt
  | k => findReg r.inst r.off (cardsOf k)

end Sys2Proof.Machine
end

