-- ==== Sys2Proof/Machine/CoreData.lean ====
section
/-! DEFINITION. The state of the MOLX cores beside their registers (12_molx_isa.md, 13_molx_system.md). Core `i`: 0-7 the
port sequencers, 8 and 9 the Turrets, 10 the Lantern. -/

namespace Sys2Proof.Machine

/-- A vector register: 16 lanes of 16 bits, lane 0 first (R411, R412). -/
abbrev Vec := Vector Half 16

/-- How a load widens its datum (R420, R422). -/
inductive LoadKind
  | lb | lbu | lh | lhu | lw | ldx
  deriving DecidableEq, Repr

/-- A load that waits on the fabric (R414): its kind, destination, virtual and physical address, and whether it fills a
cache line. -/
structure PendLoad where
  vec : Bool
  kind : LoadKind
  rd : Nat
  va : Nat
  pa : Nat
  cached : Bool
  deriving DecidableEq, Repr

/-- A wait (R434): its 64-event mask, destination and TB of issue. -/
structure Wait where
  mask : Nat
  rd : Nat
  tb : Nat
  deriving DecidableEq, Repr

/-- A task context (R411, R429, R445). -/
structure Ctx where
  g : Vector Word 32 := Vector.replicate 32 0
  v : Vector Vec 8 := Vector.replicate 8 (Vector.replicate 16 0)
  pc : Nat := 0
  /-- level T -/
  task : Bool := false
  /-- it has run since the core started; HALTED -/
  ran : Bool := false
  halted : Bool := false
  wait : Option Wait := none
  load : Option PendLoad := none
  /-- the exclusive monitor: its granule, and TB of the LDX (R427) -/
  mon : Option (Nat × Nat) := none
  /-- the software event flag (R436) -/
  flag : Bool := false
  vsat : Bool := false
  ssat : Bool := false
  dz : Bool := false
  waitLimit : Nat := 0
  tbHi : Nat := 0
  tcmpLo : Nat := 0
  tcmp : Nat := 0
  evec : Nat := 0
  ie : Bool := false
  pie : Bool := false
  plv : Bool := false
  exl : Bool := false
  tkx : Bool := false
  epc : Nat := 0
  ecause : Nat := 0
  eval : Nat := 0
  escratch : Nat := 0
  imask : Nat := 0
  ptbr : Nat := 0
  mmuEn : Bool := false
  asid : Nat := 0
  prio : Nat := 0
  deriving DecidableEq, Repr

/-- A DMA channel (R455-R458). -/
structure Dma where
  /-- descriptor in progress or last handled, as a virtual address -/
  desc : Nat := 0
  active : Bool := false
  cpl : Bool := false
  rej : Bool := false
  result : Nat := 0
  side : Nat := 0
  owner : Nat := 0
  /-- the owner's PTBR and MMU_CTL at the start, and its level -/
  ptbr : Nat := 0
  mmuEn : Bool := false
  asid : Nat := 0
  task : Bool := false
  /-- DMA_START as last written -/
  startWord : Nat := 0
  /-- the transfer resumes from the descriptor's DONE_OFS; the offset from which it goes on -/
  resume : Bool := false
  ofs : Nat := 0
  deriving DecidableEq, Repr

/-- A TLB entry (R454): virtual page, ASID, global, physical page, and its C, U, X, W, R bits. -/
structure TlbEntry where
  vpn : Nat
  asid : Nat
  glob : Bool
  ppn : Nat
  c : Bool
  u : Bool
  x : Bool
  w : Bool
  r : Bool
  deriving DecidableEq, Repr

/-- A line of the D-cache (R421): 32 bytes, dirty or not. -/
structure Line where
  data : List Byte
  dirty : Bool
  deriving DecidableEq, Repr

/-- A core (R441-R467). -/
structure Core where
  /-- started and not stopped, failed, or halted otherwise -/
  up : Bool := false
  failed : Bool := false
  /-- a Turret: the port it serves; it is being loaded -/
  serving : Option Nat := none
  loading : Bool := false
  /-- a checkpoint holds the core (R461) -/
  hold : Bool := false
  /-- the context that issues -/
  cur : Nat := 0
  ctx : Vector Ctx 4 := #v[{}, { prio := 1 }, { prio := 2 }, { prio := 3 }]
  ctxRun : Nat := 1
  ctxEntry : Nat := 0
  wdog : Nat := 0
  wdogTb : Nat := 0
  dma : Vector Dma 4 := Vector.replicate 4 {}
  tlb : List TlbEntry := []
  /-- lines held by the I-cache, by physical line number, and the lines of the D-cache -/
  icache : List Nat := []
  dcache : Sparse Line := []
  imem : Mem := []
  tcm : Mem := []
  /-- words of IMEM and of TCM (at 0x20000 and up) that hold an uncorrectable error, by word number -/
  flaws : List Nat := []
  /-- IMG_ID of the image that IMEM holds, as the SQC loaded it -/
  img : Option Nat := none
  deriving DecidableEq, Repr

/-- A command of the SQC that is running (R468). -/
structure SqcRun where
  cmd : Nat
  target : Nat
  deriving DecidableEq, Repr

/-- The SQC (R460-R478) beside its registers. -/
structure Sqc where
  /-- the command in progress -/
  run : Option SqcRun := none
  /-- ports whose takeover is due (R464, R466) -/
  due : List Nat := []
  /-- ports whose takeover failed at its loader and waits for IMG_BASE of their slot to be written (R467) -/
  stuck : List Nat := []
  /-- the buffer (false A, true B) of the latest valid checkpoint of each slot is VALID with the higher GEN; the GEN that
  each buffer holds -/
  genA : Vector Nat 11 := Vector.replicate 11 0
  genB : Vector Nat 11 := Vector.replicate 11 0
  deriving DecidableEq, Repr

end Sys2Proof.Machine
end

