-- ==== Sys2Proof/Machine/CupData.lean ====
section
/-! DEFINITION. The state of the Cupola beside its registers (14_cupola.md). -/

namespace Sys2Proof.Machine

/-- The spill pool and its table (R497-R499). -/
structure Spt where
  /-- SPL_BASE, as a 4 KiB unit of the 40-bit map, and SPL_PAGES in effect -/
  base : Nat := 0
  pages : Nat := 0
  /-- the free list of each channel, head first -/
  free : List (List Nat) := [[], [], [], []]
  bad : List Nat := []
  /-- pages held when their channel retired: BAD at release (R495) -/
  doomed : List Nat := []
  /-- pages entered BAD because their channel was not in service at the build (R497) -/
  absent : List Nat := []
  /-- entries written while SPL_EN = 0 (R514) -/
  ovr : Sparse Nat := []
  /-- the table is being built -/
  building : Bool := false
  deriving DecidableEq, Repr

/-- What a stored codeword carries beside its data (R489, R494). -/
inductive Flaw
  | poison
  /-- symbols XORed with the pattern: SYM_A, and SYM_B where given -/
  | inj (a : Nat) (b : Option Nat)
  deriving DecidableEq, Repr

/-- The configuration of a channel as its last TRAIN_GO took it (R517). -/
structure ChCfg where
  speed : Nat := 0
  x8 : Bool := false
  ranks2 : Bool := false
  dens : Nat := 0
  deriving DecidableEq, Repr

/-- A channel beside its registers. -/
structure Chan where
  cfg : ChCfg := {}
  /-- a training runs; its step CFG has failed -/
  training : Bool := false
  cfgBad : Bool := false
  /-- REF commands postponed (R487), and REF and ZQCS commands issued: the model's own count of DRAM commands -/
  refDebt : Nat := 0
  refs : Nat := 0
  zqcs : Nat := 0
  /-- consecutive retries of one command -/
  retries : Nat := 0
  /-- TB of the uncorrectable reads, newest first (R495) -/
  ueTb : List Nat := []
  /-- the channel rests (R747) -/
  resting : Bool := false
  /-- the DRAM is in power-down (R617) -/
  powerDown : Bool := false
  /-- the clients last granted in classes U, G, B, D, S (R502) -/
  rr : List Nat := [31, 31, 31, 31, 31]
  deriving DecidableEq, Repr

/-- One 64-byte aligned unit of a request (R491): bytes `lo` to `lo + len - 1` of the unit at offset `addr` of DDR4. -/
structure MemUnit where
  mid : Nat
  client : Nat
  addr : Nat
  lo : Nat
  len : Nat
  write : Bool
  data : List Nat := []
  deriving DecidableEq, Repr

/-- The Cupola. -/
structure Cup where
  /-- capacity of each channel in 4 KiB units as the first round trained it, once the round has ended (R486, R490) -/
  cap : List Nat := [0, 0, 0, 0]
  /-- the first training round after chip reset: not begun, running, ended; what it has trained so far -/
  round : Nat := 0
  roundCap : List Nat := [0, 0, 0, 0]
  /-- SPEED that PLL_DDR runs at; 0 before the first TRAIN_GO (R582) -/
  speed : Nat := 0
  ch : Vector Chan 4 := Vector.replicate 4 {}
  /-- units that wait for a grant, in order of issue, and units granted with their class, in order of grant -/
  waiting : List MemUnit := []
  granted : List (MemUnit × Nat) := []
  /-- bytes granted to each client in the current window (R502) -/
  winBytes : Sparse Nat := []
  /-- flaws of stored codewords, by codeword number -/
  flaw : Sparse Flaw := []
  /-- codewords read in the patrol's pass, and TB of the pass's start (R492) -/
  scrubbed : Nat := 0
  passTb : Nat := 0
  /-- retirements due: channel and cause (R495) -/
  retireDue : List (Nat × Nat) := []
  spt : Spt := {}
  deriving DecidableEq, Repr

end Sys2Proof.Machine
end

