-- ==== Sys2Proof/Machine/FaultData.lean ====
section
/-! DEFINITION. The state of the fault collector and the journal beside their registers (19_faults_availability.md). -/

namespace Sys2Proof.Machine

/-- An armed injection (R669): its mode (1 FORCE1, 2 FORCE2, 3 INVCHK) and the source named. -/
structure Injection where
  mode : Nat
  src : Nat
  deriving DecidableEq, Repr

/-- FLT and EVJ (R660-R682). -/
structure FltState where
  /-- TB of the last FAULT or REPEAT record of a source, by identifier (R663) -/
  lastRec : Sparse Nat := []
  /-- records that wait for the mirror, oldest first, 8 words each (R675) -/
  mirrorQ : List (List Nat) := []
  /-- latched sources whose block reset, chip reset, repair or safe state is still to be taken, with EVSEQ of the FAULT
  record (R665) -/
  react : List (Nat × Nat) := []
  /-- a Lantern NMI is pending (R665) -/
  nmi : Bool := false
  /-- repairs that copy or wait (R666): the source, and EVSEQ of its FAULT record -/
  repair : List (Nat × Nat) := []
  inj : Option Injection := none
  deriving DecidableEq, Repr

/-- The completion that the last register or memory access returned to its master. -/
structure BusReply where
  master : Nat := 0
  /-- it ended in a bus error; its data met an uncorrectable error -/
  err : Bool := false
  unc : Bool := false
  data : Nat := 0
  deriving DecidableEq, Repr

end Sys2Proof.Machine
end

