-- ==== Sys2Proof/Machine/KeepData.lean ====
section
/-! DEFINITION. The Keep's fuses and its share of the MTP store (20_keep_startup.md R700, R701), and its command in
progress. -/

namespace Sys2Proof.Machine

/-- What survives power cycles. -/
structure KeepStore where
  /-- the ordering code in one-time fuses (01_architecture.md R30): that of the KX8T25-RTA (log entry 82) -/
  order : Nat := 0x01
  /-- LIFECYCLE, UID, ROOT_HASH and SVN fuses -/
  lifecycle : Nat := 1
  uid : Nat := 0
  rootHash : List Nat := List.replicate 32 0
  svn : Nat := 0
  /-- the device key, the Belfry key slots, FC_RSV and the zeroisation marker -/
  devKey : Option Nat := some Config.devKey
  keys : List (Option (List Nat)) := List.replicate 8 none
  fcRsv : Nat := 0
  marker : Bool := false
  /-- a read-back of the ROOT_HASH fuses has failed (R703) -/
  fuseBad : Bool := false
  deriving DecidableEq, Repr

/-- The Keep beside its registers. -/
structure Keep where
  /-- the command running, by code and issuer -/
  cmd : Option (Nat × Nat) := none
  /-- KEP_ARG as the running command took it -/
  arg : List Nat := []
  /-- the nonce that is valid (R711) -/
  nonce : Option Nat := none
  /-- debug access is open (R713); the boot lock is set (R709) -/
  dbg : Bool := false
  locked : Bool := false
  /-- the step of R708 that start-up has reached -/
  step : Nat := 0
  /-- SHA-256 of the Lantern image of step 4, in PD_AON, and its ENTRY (R708, R710) -/
  digest : Option (List Nat) := none
  entry : Nat := 0
  /-- the start follows a DEPOT wake with PD_LNT retained whole (R710) -/
  warm : Bool := false
  /-- TB of step 4, for the lock of R709 -/
  runTb : Option Nat := none
  /-- SVN of the running Lantern image (R707) -/
  imgSvn : Nat := 0
  deriving DecidableEq, Repr

end Sys2Proof.Machine
end

