-- ==== Sys2Proof/Machine/PowerData.lean ====
section
/-! DEFINITION. The state of the power controller, the clock controller and the JTAG port beside their registers
(16_clocks.md R583-R593, 17_power.md R608-R620, 21_pins_electrical.md R741). -/

namespace Sys2Proof.Machine

/-- A request as written to PWC_REQ (R610, R623). -/
structure PwcReq where
  mode : Bool
  target : Nat
  index : Nat
  tag : Nat
  /-- identity of the writer (R611) -/
  who : Nat
  deriving DecidableEq, Repr

/-- The steps of R608. -/
inductive PStep
  | reg | osc | mem | logic
  deriving DecidableEq, Repr

/-- A domain that comes up: its target and the steps still to signal ready (R608). -/
structure Rising where
  dom : Nat
  target : Nat
  steps : List PStep
  deriving DecidableEq, Repr

/-- The request in flight (R612, R613): a lowering that still decides, or the domains that a raising waits for. -/
structure PwcRun where
  req : PwcReq
  deciding : Bool := false
  todo : List Nat := []
  deriving DecidableEq, Repr

/-- The power controller. -/
structure Pwc where
  inflight : Option PwcRun := none
  queued : Option PwcReq := none
  /-- domains that come up, with their steps -/
  rising : List Rising := []
  /-- states recorded at entry to QUIET, by domain; QUIET has recorded them (R617) -/
  recorded : Sparse Nat := []
  /-- domains that dormant power-down took down while their requested state is ON (R618) -/
  autoOff : List Nat := []
  /-- domains that automatic power-up has brought ON and whose logic step still writes its registers -/
  cameOn : List Nat := []
  /-- a wake is being served: from DEPOT, or from QUIET (R615, R617) -/
  waking : Option Bool := none
  /-- the device is held in reset by PORST_N, by VDD_AON (R620) -/
  porst : Bool := false
  aonLow : Bool := false
  deriving DecidableEq, Repr

/-- A family switch that runs (R586, R587): its source, ramp mode, made by AUTO_FB; the restart has been made and the
ramp goes on. -/
structure SwRun where
  src : Bool
  ramp : Bool
  auto : Bool
  ramping : Bool := false
  deriving DecidableEq, Repr

/-- The clock controller. -/
structure Ckc where
  /-- a gate that waits for its handshake, and GATE_FORCE of the request (R591) -/
  gate : Option (Nat × Bool) := none
  sw : Option SwRun := none
  /-- the multiple of every divider of R584 (R587) -/
  mult : Nat := 1
  deriving DecidableEq, Repr

/-- The instructions of the TAP that take the balls from their functions (R741). -/
inductive TapInstr
  | extest | extestPulse | extestTrain | clamp | highz
  deriving DecidableEq, Repr

end Sys2Proof.Machine
end

