-- ==== Sys2Proof/Machine/State.lean ====
section
/-! DEFINITION. The state of the block as plain data, and the state after reset. -/

namespace Sys2Proof.Machine

/-- The reasons a step can stop with a fault. -/
inductive Fault
  /-- A command reached a part of the device that the spec says does not exist; raised by no meaning today: safe. -/
  | noSuchPart
  deriving DecidableEq, Repr

/-- The reasons a step can be refused. -/
inductive Refusal
  /-- The command has no meaning in the model yet; raised by exec's own arms: safe. -/
  | notModelled (mnemonic : String)
  deriving DecidableEq, Repr

/-- The block. -/
structure State where
  /-- commands that wait, first in, first out -/
  pending : List Instr := []
  /-- every register field that differs from its reset value, by field key -/
  regs : Sparse Nat := []
  /-- the model's own counter for free values -/
  freeCtr : Nat := 0
  /-- TB in quarters of a nanosecond (19_faults_availability.md R670) -/
  tbq : Nat := 0
  port : Vector Port 8 := Vector.replicate 8 {}
  twin : Vector Twin 4 := Vector.replicate 4 {}
  /-- host sides of the ports (0-7) and of the twin engines (8-11) -/
  side : Vector HostSide 12 := Vector.replicate 12 {}
  /-- host lanes HL0-HL7 -/
  lane : Vector Lane 8 := Vector.replicate 8 {}
  /-- DDR4 content, by offset from 0x10_0000_0000 -/
  ddr : Mem := []
  /-- shared SRAM and QSPI boot flash, by offset in their ranges (01_architecture.md R32) -/
  sram : Mem := []
  flash : Mem := []
  flt : FltState := {}
  pwc : Pwc := {}
  ckc : Ckc := {}
  /-- the instruction that has taken the balls from their functions (21_pins_electrical.md R741) -/
  tap : Option TapInstr := none
  cup : Cup := {}
  bus : BusReply := {}
  hif : Hif := {}
  /-- BFA and BFB, and the packet sequence counter they share (09_belfry.md R286, R307) -/
  bf : Vector Bf 2 := Vector.replicate 2 {}
  bfPseq : Nat := 0
  kepStore : KeepStore := {}
  kep : Keep := {}
  cal : CalState := {}
  /-- the MOLX cores: 0-7 port sequencers, 8-9 Turrets, 10 the Lantern (13_molx_system.md R441) -/
  core : Vector Core 11 := Vector.replicate 11 {}
  sqc : Sqc := {}
  deriving DecidableEq, Repr

/-- The state after PORST_N release: every field at the value the spec gives, or the log's. -/
def State.reset : State := {}

end Sys2Proof.Machine
end

