-- ==== Sys2Proof/Machine/Ops.lean ====
section
/-! DEFINITION. The named operations that every family shares: reading and writing register fields, ports and host
sides, time, free values, journal records and fault reports. -/

namespace Sys2Proof.Machine

/-! ### Register fields -/

/-- The key of a field in the register store. -/
def Fld.key (f : Fld) : Nat := f.addr * 32 + f.lo

/-- The stored value of a field (R7: its reset value until something writes it). -/
def State.rd (s : State) (f : Fld) : Nat := (spFind s.regs f.key).getD f.reset

/-- Give a field the low bits of `v`. -/
def State.wr (s : State) (f : Fld) (v : Nat) : State :=
  { s with regs := if v % 2 ^ f.width = f.reset then spDel s.regs f.key else spPut s.regs f.key (v % 2 ^ f.width) }

/-- A one-bit field as a truth value. -/
def State.on (s : State) (f : Fld) : Bool := s.rd f == 1

/-- Set a one-bit field. -/
def State.wrB (s : State) (f : Fld) (b : Bool) : State := s.wr f (b2n b)

/-- Advance a counter that wraps modulo the width of its field. -/
def State.count (s : State) (f : Fld) (k : Nat := 1) : State := s.wr f (s.rd f + k)

/-- Advance a counter that saturates. -/
def State.countSat (s : State) (f : Fld) (k : Nat := 1) : State :=
  s.wr f (if s.rd f + k < 2 ^ f.width then s.rd f + k else 2 ^ f.width - 1)

/-- Raise a field to at least `v`, saturating. -/
def State.peak (s : State) (f : Fld) (v : Nat) : State :=
  if s.rd f < v then s.wr f (if v < 2 ^ f.width then v else 2 ^ f.width - 1) else s

/-- Put fields back to their reset values where `p` holds of the address. -/
def State.clearRegs (s : State) (p : Nat → Bool) : State := { s with regs := s.regs.filter fun e => !p (e.1 / 32) }

/-- A field that no register shows, beside a register's own: the active trims, the running high word of a 64-bit
counter whose register shows a latched value. -/
def Fld.hidden (f : Fld) : Fld := { f with addr := f.addr + 0x10000000 }

/-- Advance a 64-bit counter: its low word shows in `lo`; its high word runs beside `hi`, which shows what the last
read of `lo` latched (15_host_access_mailboxes.md R534). -/
def State.count64 (s : State) (lo hi : Fld) (k : Nat := 1) : State :=
  let v := s.rd lo + 2 ^ 32 * s.rd hi.hidden + k
  (s.wr lo (v % 2 ^ 32)).wr hi.hidden (v / 2 ^ 32)

/-! ### Parts of the state -/

/-- Change the port `n`. -/
def State.modPort (s : State) (n : Fin 8) (f : Port → Port) : State := { s with port := s.port.set n (f s.port[n]) }
/-- Change the twin engine `k`. -/
def State.modTwin (s : State) (k : Fin 4) (f : Twin → Twin) : State := { s with twin := s.twin.set k (f s.twin[k]) }
/-- Change the host side `o`. -/
def State.modSide (s : State) (o : Fin 12) (f : HostSide → HostSide) : State :=
  { s with side := s.side.set o (f s.side[o]) }

/-- Change the host lane `n`. -/
def State.modLane (s : State) (n : Fin 8) (f : Lane → Lane) : State := { s with lane := s.lane.set n (f s.lane[n]) }

/-- The owner number of a port's own host side. -/
def ownPort (n : Fin 8) : Fin 12 := ⟨n.val, by omega⟩
/-- The owner number of a twin engine's host side (14_cupola.md R498). -/
def ownTwin (k : Fin 4) : Fin 12 := ⟨8 + k.val, by omega⟩

/-- The twin pair of a port, and which member it is (08_twin_paths.md R256). -/
def pairOf (n : Fin 8) : Fin 4 := ⟨n.val % 4, by omega⟩
def memberOf (n : Fin 8) : Nat := n.val / 4
/-- The port of member `m` of pair `k`. -/
def portOf (k : Fin 4) (m : Nat) : Fin 8 := ⟨k.val + 4 * (m % 2), by omega⟩
/-- The other member's port. -/
def otherOf (n : Fin 8) : Fin 8 := ⟨(n.val + 4) % 8, by omega⟩

/-- Whether power domain `i` is ON (17_power.md R630). -/
def State.domOn (s : State) (i : Nat) : Bool := s.rd (F.PWC_DOM.STATE i) == domON

/-! ### Time and free values -/

/-- TB in whole nanoseconds (R670). -/
def State.tb (s : State) : Nat := s.tbq / 4 % 2 ^ 64

/-- Draw a free value of `w` bits. Log entry 1. -/
def State.drawFree (s : State) (w : Nat) : Nat × State :=
  (Config.free s.freeCtr % 2 ^ w, { s with freeCtr := s.freeCtr + 1 })

/-! ### Journal (R671-R675) -/

/-- Kinds of journal record (R671). -/
abbrev kFAULT : Nat := 0
abbrev kREPEAT : Nat := 1
abbrev kEVENT : Nat := 2
abbrev kEPOCH : Nat := 3
abbrev kSOFTWARE : Nat := 4
abbrev kRESET : Nat := 5

/-- The eight words of a record (R671). -/
def recordWords (seq epoch src cls kind tb flags count : Nat) (data : List Nat) : List Nat :=
  [seq, epoch + 2 ^ 16 * (src + 2 ^ 10 * cls + 2 ^ 12 * kind), tb % 2 ^ 32, tb / 2 ^ 32, flags + 2 ^ 16 * count,
    data.getD 0 0, data.getD 1 0, data.getD 2 0]

/-- Write the words of a record to its slot of the ring (R674). -/
def State.putRing (s : State) (slot : Nat) : Nat → List Nat → State
  | _, [] => s
  | w, v :: vs => (s.wr (F.EVJ_RING.WORD slot w) v).putRing slot (w + 1) vs

/-- Queue a record for the mirror (R675). -/
def State.mirror (s : State) (ws : List Nat) : State :=
  if s.on F.EVJ_CTRL.MIRROR_EN then
    if s.flt.mirrorQ.length < 64 then { s with flt := { s.flt with mirrorQ := s.flt.mirrorQ ++ [ws] } }
    else s.countSat F.EVJ_LOST.MIRROR_SKIP
  else s

/-- Write one record with the next EVSEQ (R671, R674). -/
def State.record1 (s : State) (src cls kind flags count : Nat) (data : List Nat) : State :=
  let q := s.rd F.EVJ_SEQ.NEXT_SEQ
  let ws := recordWords q (s.rd F.EVJ_EPOCH.EPOCH) src cls kind s.tb flags count data
  ((s.putRing (q % 64) 0 ws).mirror ws).wr F.EVJ_SEQ.NEXT_SEQ (q + 1)

/-- Write a record; after EVSEQ 0xFFFF_FFFF the epoch advances and an EPOCH record follows (R673). -/
def State.record (s : State) (src cls kind flags count : Nat) (data : List Nat) : State :=
  let s' := s.record1 src cls kind flags count data
  if s.rd F.EVJ_SEQ.NEXT_SEQ = 2 ^ 32 - 1 then
    let e := s.rd F.EVJ_EPOCH.EPOCH
    (s'.wr F.EVJ_EPOCH.EPOCH (e + 1)).record1 0x3FF 3 kEPOCH 0 0 [e]
  else s'

/-! ### Fault reports (R662-R666) -/

/-- The port and slice of a slice source. -/
def srcPort (i : Nat) : Fin 8 := ⟨(4 * (i / 256) + i / 16) % 8, by omega⟩

/-- Link states (02_port_modes_negotiation.md R51). -/
abbrev stDISABLED : Nat := 0
abbrev stDORMANT : Nat := 1
abbrev stSENSE : Nat := 2
abbrev stAN : Nat := 3
abbrev stTRAIN : Nat := 4
abbrev stUP : Nat := 5
abbrev stHOLD : Nat := 6

/-- The link state of port `n`. -/
def State.link (s : State) (n : Fin 8) : Nat := s.rd (F.LINK_STATUS.STATE n)

/-- Crossbar states (03_line_signal_path.md R87). -/
abbrev xbIDLE : Nat := 0
abbrev xbSHADOW : Nat := 1
abbrev xbSWAP : Nat := 2
abbrev xbSPARE : Nat := 3

/-- Whether a REPAIR of slice source `i` would end without acting (R89, R666). For the spare slice itself nothing is asked
of SPARE or IDLE; a handback is refused in UP of 100BASE-TX and 1000BASE-T. -/
def State.repairNone (s : State) (i : Nat) : Bool :=
  let n := srcPort i
  let st := s.rd (F.XB_STATUS.XB_STATE n)
  let stuck := s.link n == stUP && (s.rd (F.LINK_STATUS.MODE n) == 1 || s.rd (F.LINK_STATUS.MODE n) == 2)
  !s.domOn (14 * n.val + 4) || st == xbSPARE ||
    (if i % 16 = 4 then st == xbIDLE || (st == xbSWAP && stuck)
     else st == xbSWAP && s.rd (F.XB_STATUS.XB_CUR_PAIR n) != i % 16 && stuck)

/-- The field that counts the latched sources of a class (R684). -/
def latchedCount : SrcClass → Fld
  | .c => F.FLT_STATUS.N_C
  | .u => F.FLT_STATUS.N_U
  | _ => F.FLT_STATUS.N_F

/-- First capture of a class (R664). -/
def State.capture (s : State) (k i : Nat) (data : List Nat) : State :=
  if s.on (F.FLT_FIRST_INFO.VALID k) then
    (s.wrB (F.FLT_FIRST_INFO.OVF k) true).countSat (F.FLT_FIRST_INFO.OVF_CNT k)
  else
    (((((((s.wrB (F.FLT_FIRST_INFO.VALID k) true).wr (F.FLT_FIRST_INFO.ID k) i).wr
      (F.FLT_FIRST_DATA.VALUE k 0) (s.tb % 2 ^ 32)).wr (F.FLT_FIRST_DATA.VALUE k 1) (s.tb / 2 ^ 32)).wr
      (F.FLT_FIRST_DATA.VALUE k 2) (data.getD 0 0)).wr (F.FLT_FIRST_DATA.VALUE k 3) (data.getD 1 0)).wr
      (F.FLT_FIRST_DATA.VALUE k 4) (data.getD 2 0))

/-- Whether the PIN reaction or the safe state drives FAULT_N low (R665): `i` joins the latched sources. -/
def State.pinLow (s : State) (i : Nat) : State :=
  if s.on (F.FLT_SRC_CFG.PIN i) then s.wrB F.FLT_STATUS.FAULT_N_LOW true else s

/-- The latch of a source of class `kl` (R663-R665): LATCHED, capture, record, the reactions that are levels, and the
source noted for those that reset, repair or stop. `quiet` leaves the reactions out (R669). -/
def State.latch (s : State) (i : Nat) (kl : SrcClass) (inj quiet : Bool) (data : List Nat) : State :=
  let had := s.on (F.FLT_FIRST_INFO.VALID kl.code)
  let none' := !quiet && srcIsSlice i && s.on (F.FLT_SRC_CFG.REPAIR i) && s.repairNone i
  let s1 := ((s.wrB (F.FLT_SRC_STAT.LATCHED i) true).wrB (F.FLT_SRC_STAT.INJ i) inj).count (latchedCount kl)
  let s2 := s1.capture kl.code i data
  let s3 := s2.record i kl.code kFAULT (b2n inj + 2 * b2n had + 4 * b2n none') (s2.rd (F.FLT_SRC_STAT.COUNT i)) data
  let s4 := { s3 with flt := { s3.flt with lastRec := spPut s3.flt.lastRec i s.tb } }
  if quiet then s4
  else
    let s5 := s4.pinLow i
    { s5 with flt := { s5.flt with
        nmi := s5.flt.nmi || s.on (F.FLT_SRC_CFG.LNT_NMI i),
        react := s5.flt.react ++ [(i, s2.rd F.EVJ_SEQ.NEXT_SEQ)] } }

/-- A rise of source `i` to error, with its data words (R663). -/
def State.rise (s : State) (i : Nat) (data : List Nat) (inj quiet : Bool := false) : State :=
  match srcClass? i with
  | none => s
  | some .record => s.record i 3 kEVENT 0 0 data
  | some kl =>
    if s.on (F.FLT_SRC_STAT.WIRE i) then s
    else
      let s1 := s.countSat (F.FLT_SRC_STAT.COUNT i)
      if s.on (F.FLT_SRC_STAT.LATCHED i) then
        if (spFind s.flt.lastRec i).getD 0 + 1000000 ≤ s.tb then
          let s2 := s1.record i kl.code kREPEAT (b2n inj + 2 * b2n (s.on (F.FLT_FIRST_INFO.VALID kl.code)))
            (s1.rd (F.FLT_SRC_STAT.COUNT i)) data
          { s2 with flt := { s2.flt with lastRec := spPut s2.flt.lastRec i s.tb } }
        else s1.countSat F.EVJ_LOST.SUPPRESSED
      else s1.latch i kl inj quiet data

/-! ### Conditional effects -/

/-- An event whose condition does not hold has no effect (log entry 2). -/
def State.iff (s : State) (c : Bool) (f : State → State) : State := if c then f s else s

end Sys2Proof.Machine
end

