-- ==== Sys2Proof/Machine/Domains.lean ====
section
/-! DEFINITION. What a power domain holds, what leaving and reaching ON do to it (17_power.md R605, 01_architecture.md
R26, R27), and the automatic power-down of a dormant port (R618). Links, cores and channels that lean on a domain are
acted on in the files of those parts. -/

namespace Sys2Proof.Machine

/-- Where the active set of trims stands: each shadow trim field at its address and this offset (R85, R95). -/
abbrev activeOff : Nat := 0x10000000

/-- The twin engine's copy of the spill and ingress registers of pair `k` is that of port 4096 + 8 + k (R258). -/
def spillPort (o : Fin 12) : Nat := if o.val < 8 then o.val else 4096 + o.val

/-- The power domain of the register at an address of the register store (R26, R27). -/
def addrDom (a : Nat) : Nat :=
  if 0x20000000 ≤ a then 124
  else
    match pageOf (a % activeOff) with
    | some r => match r.reg? with | some g => g.dom | none => 133
    | none => 133

/-- CAL_COUNT and CAL_LAST, which clear on chip reset alone (18_calibration_monitors.md R641). -/
def chipOnly (a : Nat) : Bool :=
  a == F.CAL_COUNT.COUNT.addr || a == F.CAL_LAST_LO.LAST_LO.addr || a == F.CAL_LAST_HI.LAST_HI.hidden.addr

/-- Put every register of domain `i` back to its Reset value, latched high words with them (R605). -/
def State.clearDomRegs (s : State) (i : Nat) : State :=
  let s1 := s.clearRegs fun a => addrDom a == i && !chipOnly a
  { s1 with hif := { s1.hif with latch := s1.hif.latch.filter fun e => addrDom (e.1 / 64) != i } }

/-- The coefficient words of one kind lose their content (R121). -/
def dropCoef (canc : Bool) (m : Sparse Nat) : Sparse Nat := m.filter fun e => coefIsCanc (4 * e.1) != canc

/-- What a port holds beside registers is lost with domain `k` of R606. -/
def dropPortPart (k : Nat) (p : Port) : Port :=
  match k with
  | 0 | 1 | 2 | 3 | 4 => { p with
      sl := { p.sl with
        impStart := p.sl.impStart.set k 0, impMean := spDel p.sl.impMean k,
        xbPend := if k = 4 then none else p.sl.xbPend, xbCal := p.sl.xbCal && k != 4 }
      trn := { p.trn with coefKnown := false } }
  | 5 => { p with eq := { p.eq with coef := dropCoef true p.eq.coef }, trn := { p.trn with coefKnown := false } }
  | 6 => { p with
      eq := { p.eq with coef := dropCoef false p.eq.coef, snrValid := [false, false, false, false], errSq := [], chain := [] }
      trn := { p.trn with coefKnown := false } }
  | 9 => { p with neg := {}, trn := {}, fr := {}, lad := {}, diag := {}, lpi := {} }
  | 10 => { p with rtx := {} }
  | 12 => { p with mem0 := [] }
  | 13 => { p with mem1 := [] }
  | _ => p

/-- Bytes of one 32 KiB bank of a port SRAM are kept where RET_SEL selects the bank (R605, R606). -/
def keepBanks (size sel : Nat) (m : Mem) : Mem := m.filter fun e => bitB sel (e.1 / size)

/-- Domain `i` leaves ON: its registers and content are lost, but for what RETAIN keeps (R605-R607). -/
def State.dropDomain (s : State) (i target : Nat) : State :=
  let keep := target == domRETAIN && domClass i == .dr
  let s1 := if keep then s else s.clearDomRegs i
  if h : i < 112 then
    let n : Fin 8 := ⟨i / 14, by omega⟩
    if i % 14 = 12 ∧ target = domRETAIN then
      s1.modPort n fun p => { p with mem0 := keepBanks 0x8000 (s.rd (F.PWC_DOM.RET_SEL i)) p.mem0 }
    else if i % 14 = 13 ∧ target = domRETAIN then
      s1.modPort n fun p => { p with mem1 := keepBanks 0x8000 (s.rd (F.PWC_DOM.RET_SEL i)) p.mem1 }
    else s1.modPort n (dropPortPart (i % 14))
  else if h : i < 112 + 8 ∧ 112 ≤ i then s1.modLane ⟨i - 112, by omega⟩ fun _ => {}
  else s1

/-- Set the state of domain `i` (R630). -/
def State.setDom (s : State) (i st : Nat) : State := s.wr (F.PWC_DOM.STATE i) st

/-- HALF_SEL's value selects half `h` (R165). -/
def halfSelected (sel h : Nat) : Bool := sel == 0 || sel == 3 || sel == h + 1
/-- Half `h` can serve: its domain is ON and it has not failed (R162). -/
def State.halfOk (s : State) (n : Fin 8) (h : Nat) : Bool :=
  s.domOn (14 * n.val + 7 + h) && !s.on (if h = 0 then F.FRM_STATUS.HALF0_FAIL n else F.FRM_STATUS.HALF1_FAIL n)
/-- HALF_SEL in effect selects half `h`; a value that would leave none in service acts as 0b00 (R162). -/
def State.halfChosen (s : State) (n : Fin 8) (h : Nat) : Bool :=
  let sel := s.port[n].fr.halfSel
  halfSelected sel h || !((halfSelected sel 0 && s.halfOk n 0) || (halfSelected sel 1 && s.halfOk n 1))
/-- Half `h`'s domain goes OFF while the port is dormant: a half that is selected counts as failed (R162, R166). -/
def State.halfDown (s : State) (n : Fin 8) (h : Nat) : State :=
  let s1 := if s.halfChosen n h then s.wrB (if h = 0 then F.FRM_STATUS.HALF0_FAIL n else F.FRM_STATUS.HALF1_FAIL n) true else s
  s1.wrB (if h = 0 then F.FRM_STATUS.HALF0_UP n else F.FRM_STATUS.HALF1_UP n) false

/-- The domains that dormant power-down takes OFF at port `n` (R618). -/
def dormantDoms (n : Nat) : List Nat :=
  [14 * n + 7, 14 * n + 8, 14 * n + 5, 14 * n + 6, 14 * n + 10, 14 * n + 4, 14 * n + 3, 14 * n + 2, 14 * n + 1, 14 * n]

/-- A domain request in flight names domain `i` (R616). -/
def State.requested (s : State) (i : Nat) : Bool :=
  match s.pwc.inflight with | some r => !r.req.mode && r.req.index == i | none => false

/-- Take one domain of a dormant port down; only a domain that is ON, so that its requested state is ON (R618). -/
def State.autoDown (s : State) (i : Nat) : State :=
  if s.domOn i && !s.requested i then
    let s0 := if h : i < 112 ∧ (i % 14 = 7 ∨ i % 14 = 8) then s.halfDown ⟨i / 14, by omega⟩ (i % 14 - 7) else s
    let s1 := (s0.dropDomain i domOFF).setDom i domOFF
    { s1 with pwc := { s1.pwc with autoOff := i :: s1.pwc.autoOff } }
  else s

/-- Dormant power-down is in effect: AUTO_PD in RUN, every port in QUIET (R617, R618). -/
def State.autoPd (s : State) (n : Fin 8) : Bool :=
  s.rd F.PWC_MODE.MODE == 1 || (s.rd F.PWC_MODE.MODE == 0 && bitB (s.rd F.PWC_AUTO.AUTO_PD) n.val)

/-- The port enters DORMANT: its domains go down (R618). -/
def State.dormantDown (s : State) (n : Fin 8) : State :=
  if s.autoPd n then
    let s1 := (dormantDoms n.val).foldl State.autoDown s
    if bitB (s.rd F.PWC_AUTO.HL_AUTO) n.val then s1.autoDown (112 + n.val) else s1
  else s

/-- Bring a domain that automatic power-down took down back ON (R618). -/
def State.autoUp (s : State) (i : Nat) : State :=
  if i ∈ s.pwc.autoOff then
    let s1 := s.setDom i domON
    { s1 with pwc := { s1.pwc with autoOff := s1.pwc.autoOff.filter (· ≠ i), cameOn := s1.pwc.cameOn ++ [i] } }
  else s

/-- A port wake: the domains whose requested state is ON come up, parents first (R609, R618). -/
def State.portWake (s : State) (n : Fin 8) : State :=
  ((dormantDoms n.val).reverse ++ [112 + n.val]).foldl State.autoUp s

/-- The word that a register's fields spell. -/
def State.word (s : State) (fs : List Fld) : Nat := fs.foldl (fun a f => a + s.rd f * 2 ^ f.lo) 0

end Sys2Proof.Machine
end

