-- ==== Sys2Proof/Machine/Memory.lean ====
section
/-! DEFINITION. The memories of the 40-bit map: the DDR4 address map, the code, poison and injection, bandwidth
regulation, and reads and writes of DDR4, shared SRAM and flash (01_architecture.md R32, R33, 14_cupola.md R488-R494,
R501-R506). -/

namespace Sys2Proof.Machine

/-! ### The address map (R32, R490) -/

/-- The channel and the local unit of the 4 KiB unit `u`, by the regions of R490: `base` is the first unit of the
region, `rem` and `used` the units left and taken in each channel. -/
def mapUnit (u : Nat) : Nat → Nat → List Nat → List Nat → Option (Nat × Nat)
  | 0, _, _, _ => none
  | fuel + 1, base, rem, used =>
    let chans := (List.range 4).filter fun c => 0 < rem.getD c 0
    match chans with
    | [] => none
    | c0 :: cs =>
      let m := cs.foldl (fun a c => min a (rem.getD c 0)) (rem.getD c0 0)
      if u < base + m * chans.length then
        let k := u - base
        let c := chans.getD (k % chans.length) 0
        some (c, used.getD c 0 + k / chans.length)
      else
        mapUnit u fuel (base + m * chans.length) (rem.map fun r => if 0 < r then r - m else 0)
          ((List.range 4).map fun c => if 0 < rem.getD c 0 then used.getD c 0 + m else used.getD c 0)

/-- The channel and local unit of a 4 KiB unit of DDR4, once the map is fixed (R490). -/
def Cup.unit (c : Cup) (u : Nat) : Option (Nat × Nat) := mapUnit u 5 0 c.cap [0, 0, 0, 0]
/-- The channel of an offset of DDR4. -/
def Cup.chOf (c : Cup) (a : Nat) : Nat := match c.unit (a / 4096) with | some p => p.1 | none => 0
/-- The configured capacity in bytes (R33). -/
def Cup.capacity (c : Cup) : Nat := 4096 * c.cap.foldl (· + ·) 0

/-- The first byte of DDR4 in the 40-bit map, and its first 4 KiB unit. -/
def ddrBase : Nat := 0x1000000000
def ddrUnit0 : Nat := 0x1000000

/-- Targets of a physical address (R32). -/
inductive PTarget
  | reg (off : Nat)
  | sram (off : Nat)
  | flash (off : Nat)
  | ddr (off : Nat)
  | none
  deriving DecidableEq, Repr

/-- The target of a physical address, given the configured capacity (R32, R33). -/
def physTarget (cap a : Nat) : PTarget :=
  if a < 0x10000000 then .reg a
  else if a < 0x10800000 then .sram (a - 0x10000000)
  else if 0x20000000 ≤ a ∧ a < 0x28000000 then .flash (a - 0x20000000)
  else if ddrBase ≤ a ∧ a < ddrBase + cap ∧ a < 2 ^ 40 then .ddr (a - ddrBase)
  else .none

/-- The identities that a memory admits (R32). -/
def admitSram (mid : Nat) : Bool := mid < 5 || (8 ≤ mid && mid < 0x11) || mid == 0x20 || mid == 0x22
def admitDdr (mid : Nat) : Bool := mid < 5 || (8 ≤ mid && mid < 0x11) || (0x20 ≤ mid && mid < 0x23)
def admitFlash (mid : Nat) : Bool := mid < 2

/-- Channel `c` is in service (R508). -/
def State.chUp (s : State) (c : Nat) : Bool := bitB (s.rd F.CUP_STATUS.IN_SVC) c

/-- Change channel `c`. -/
def State.modCh (s : State) (c : Fin 4) (f : Chan → Chan) : State :=
  { s with cup := { s.cup with ch := s.cup.ch.set c (f s.cup.ch[c]) } }

/-- A channel number. -/
def ch4 (c : Nat) : Fin 4 := ⟨c % 4, by omega⟩

/-! ### Bandwidth regulation (R501-R506) -/

/-- Classes of grant: U, G, B, D, S (R502, R530). -/
abbrev clU : Nat := 0
abbrev clG : Nat := 1
abbrev clB : Nat := 2
abbrev clD : Nat := 3
abbrev clS : Nat := 4

/-- WIN as it acts (R525). -/
def winOf (v : Nat) : Nat := if v = 0 then 4 else v

/-- MT/s of a SPEED code (R485, R508). -/
def mtOf (v : Nat) : Nat := match v with | 1 => 2400 | 2 => 2666 | 3 => 2933 | 4 => 3200 | _ => 0

/-- Ten times LIMIT of R504, in bytes per µs: 7 times the sustained 6 × MT/s of each channel in service. -/
def State.limit10 (s : State) : Nat :=
  42 * ((List.range 4).filter s.chUp).foldl (fun a c => a + mtOf s.cup.ch[ch4 c].cfg.speed) 0

/-- The budgets of the guaranteed clients (R504). -/
def State.gBudget (s : State) : Nat :=
  (List.range 32).foldl (fun a i => if s.rd (F.BWR_CLIENT.CLASS i) = 0 then a + s.rd (F.BWR_CLIENT.BUDGET i) else a) 0

/-- G_SUM as a fraction: 256 × the budgets over WIN (R504). -/
def State.winNow (s : State) : Nat := winOf (s.rd F.BWR_CTRL.WIN)
/-- G_SUM is above LIMIT (R505). -/
def overLimit (limit10 budget win : Nat) : Bool := decide (limit10 * win < 2560 * budget)

/-- WR_DEMOTED at every port, and at every engine (R246, R506). -/
def State.setDemoted (s : State) (b : Bool) : State :=
  let s1 := (List.range 8).foldl (fun (s : State) n =>
    if s.domOn (14 * n + 10) then s.wrB (F.SPILL_STATUS.WR_DEMOTED n) b else s) s
  (List.range 4).foldl (fun (s : State) k => s.wrB (F.SPILL_STATUS.WR_DEMOTED (4104 + k)) b) s1

/-- LIMIT, G_SUM and ADM_OVER follow the channels and the budgets (R504, R506, R526). -/
def State.syncAdm (s : State) : State :=
  let ovr := overLimit s.limit10 s.gBudget s.winNow
  let s1 := (s.wr F.BWR_ADM.LIMIT (s.limit10 / 160)).wr F.BWR_ADM.G_SUM ((16 * s.gBudget + s.winNow - 1) / s.winNow)
  let s2 := if ovr && !s.on F.BWR_FLAGS.ADM_OVER then s1.wrB F.CUP_EVENT.ADM_OVER true else s1
  (s2.wrB F.BWR_FLAGS.ADM_OVER ovr).setDemoted ovr

/-- The owner whose spill client `i` carries writes or reads, by its number below 8 (R501). -/
def State.clientOwner (s : State) (i : Nat) : Fin 12 :=
  let k : Fin 4 := ⟨i % 4, by omega⟩
  if s.on (F.TW_STATUS.TW_ACTIVE k) then ownTwin k else ⟨i % 8, by omega⟩

/-- The write client of an owner; its read client is 8 above (R501). -/
def ownerClient (o : Fin 12) : Nat := o.val % 8

/-- The client of a master identity; identity 0x21 and 0x04 name theirs themselves (R501). -/
def clientOf (mid : Nat) : Option Nat :=
  if mid < 4 then some (16 + mid)
  else if 8 ≤ mid ∧ mid < 16 then some (12 + mid)
  else if mid = 0x10 then some 28
  else if mid = 0x20 then some 29
  else if mid = 0x22 then some 30
  else none

/-- Whether `cl` may be the client of a request by `mid`. -/
def clientFits (mid cl : Nat) : Bool :=
  match clientOf mid with
  | some k => k == cl
  | none => if mid = 0x21 then decide (cl < 16) else mid == 4 && decide (16 ≤ cl ∧ cl < 28)

/-- The urgency wire of a client (R502). -/
def State.urgent (s : State) (i : Nat) : Bool :=
  if i < 8 then
    decide (512 * max 1 (s.rd F.BWR_CTRL.URG_WR) ≤ s.side[s.clientOwner i].ingress.length)
  else if i < 16 then decide (s.side[s.clientOwner (i - 8)].rbuf.length ≤ 128 * s.rd F.BWR_CTRL.URG_RD)
  else false

/-- A client is within its budget (R502). -/
def State.within (s : State) (i : Nat) : Bool :=
  let b := s.rd (F.BWR_CLIENT.BUDGET i)
  b == 0 || decide ((spFind s.cup.winBytes i).getD 0 < 64 * b)

/-- The class of a client before budget and urgency: CLASS, a G client without budget as B; the patrol that is behind as
B, the capture DMA as D (R351, R492, R502). -/
def State.baseClass (s : State) (i : Nat) : Nat :=
  let k := min clS (s.rd (F.BWR_CLIENT.CLASS i) + 1)
  if i = 31 ∧ s.on F.SCRUB_STATUS.BEHIND then clB
  else if i = 30 then clD
  else if k = clG ∧ s.rd (F.BWR_CLIENT.BUDGET i) = 0 then clB else k

/-- The class that a client's next grant takes (R502; R506 for spill reads and writes while ADM_OVER holds). -/
def State.grantClass (s : State) (i : Nat) : Nat :=
  let ovr := s.on F.BWR_FLAGS.ADM_OVER
  if !s.within i then min clS (s.baseClass i + 1)
  else if ovr && decide (i < 8) then s.baseClass i
  else if s.urgent i then clU
  else if ovr && decide (8 ≤ i ∧ i < 16) then clG
  else s.baseClass i

/-- The order of grant, lowest first: the class, or the six ranks of R506. -/
def State.grantRank (s : State) (i : Nat) : Nat :=
  let k := s.grantClass i
  if s.on F.BWR_FLAGS.ADM_OVER then
    if 8 ≤ i ∧ i < 16 ∧ s.within i then k
    else if i < 8 ∧ s.within i then 3
    else if k ≤ clG then 2
    else k + 2
  else k

/-- Count bytes granted to a client in a class (R502, R503). -/
def State.countGrant (s : State) (cl k bytes : Nat) : State :=
  let s1 := { s with cup := { s.cup with
    winBytes := spPut s.cup.winBytes cl ((spFind s.cup.winBytes cl).getD 0 + bytes) } }
  s1.count64 (F.BWR_BYTES_LO.BYTES_LO k) (F.BWR_BYTES_HI.BYTES_HI k) bytes

/-- Grant the units of an access that a unit of the part makes for itself. -/
def State.grantUnits (s : State) (cl : Nat) : Nat → State
  | 0 => s
  | k + 1 => (s.countGrant cl (s.grantClass cl) 64).grantUnits cl k

/-- The units that the bytes from `a` on touch. -/
def unitsOf (a len : Nat) : Nat := if len = 0 then 0 else (a + len - 1) / 64 - a / 64 + 1

/-! ### The code (R488, R489, R493, R494) -/

/-- The device that drives a symbol (R488). -/
def symDev (x8 : Bool) (sym : Nat) : Nat := if x8 then sym / 4 else sym / 2

/-- What reading a flawed codeword gives (R489, R494). -/
def Flaw.read (x8 : Bool) : Flaw → Ecc
  | .poison => .poison
  | .inj a none => .ce (some (symDev x8 a))
  | .inj a (some b) => if symDev x8 a = symDev x8 b then .ce (some (symDev x8 a)) else .ue

/-- The worse of two readings. -/
def Ecc.worse : Ecc → Ecc → Ecc
  | .poison, _ => .poison
  | _, .poison => .poison
  | .ue, _ => .ue
  | _, .ue => .ue
  | .ce d, _ => .ce d
  | .ok, e => e

/-- The codeword cannot be corrected. -/
def Ecc.lost : Ecc → Bool
  | .ue => true
  | .poison => true
  | _ => false

/-- The rank of an offset of DDR4: the most significant bit of L with two ranks (R490). -/
def Cup.rankOf (c : Cup) (a : Nat) : Nat :=
  match c.unit (a / 4096) with
  | some (ch, l) => if c.ch[ch4 ch].cfg.ranks2 ∧ c.cap.getD ch 0 ≤ 2 * l then 1 else 0
  | none => 0

/-- CH_ERR_INFO of an error (R522). -/
def errInfo (type src mid rank dev cw : Nat) : Nat :=
  2 ^ 31 + type * 2 ^ 29 + src * 2 ^ 27 + mid % 64 * 2 ^ 21 + rank * 2 ^ 20 + dev % 32 * 2 ^ 15 + cw * 2 ^ 13

/-- Capture an error record (R493). -/
def State.errCapture (s : State) (c : Nat) (addr type src mid rank dev cw : Nat) : State :=
  if s.on (F.CH_ERR_INFO.VALID c) && !(type != 0 && s.rd (F.CH_ERR_INFO.TYPE c) == 0) then s
  else
    (((((((s.wr (F.CH_ERR_ADDR.ERR_A c) (addr / 64)).wrB (F.CH_ERR_INFO.VALID c) true).wr (F.CH_ERR_INFO.TYPE c) type).wr
      (F.CH_ERR_INFO.SRC c) src).wr (F.CH_ERR_INFO.MID c) mid).wr (F.CH_ERR_INFO.RANK c) rank).wr
      (F.CH_ERR_INFO.DEVICE c) dev).wr (F.CH_ERR_INFO.CW c) cw

/-- RET_WIN in nanoseconds (R507). -/
def State.retWin (s : State) : Nat := 125000000 * 2 ^ min 7 (s.rd F.CUP_CTRL.RET_WIN)

/-- An uncorrectable, not poisoned read counts toward retirement (R495). -/
def State.ueCount (s : State) (c : Nat) : State :=
  let ts := s.tb :: (s.cup.ch[ch4 c].ueTb.filter fun t => decide (s.tb < t + s.retWin))
  let s1 := s.modCh (ch4 c) fun h => { h with ueTb := ts }
  if s.on F.CUP_CTRL.AUTO_RET && decide (max 1 (s.rd F.CUP_CTRL.RET_UE) ≤ ts.length) then
    { s1 with cup := { s1.cup with retireDue := s1.cup.retireDue ++ [(c, 4)] } }
  else s1

/-- Count and report what one codeword at offset `a` gave (R493). `src` and `mid` are those of CH_ERR_INFO. A device that the
channel does not have is none located (R488, R523). -/
def State.eccReport (s : State) (a : Nat) (e : Ecc) (src mid : Nat) : State :=
  let c := s.cup.chOf a
  let rank := s.cup.rankOf a
  let cw := a / 16 % 4
  let words (type dev : Nat) : List Nat := [a / 64 % 2 ^ 32, errInfo type src mid rank dev cw]
  match e with
  | .ok => s
  | .ce d0 =>
    let d := d0.filter fun i => decide (i < if s.cup.ch[ch4 c].cfg.x8 then 9 else 18)
    let s1 := s.count (F.CH_ECC.CE_CNT c)
    let s2 := match d with
      | some i => if rank = 1 then s1.countSat (F.CH_DEV_CE.RANK1_CE c i) else s1.countSat (F.CH_DEV_CE.RANK0_CE c i)
      | none => s1
    (s2.errCapture c a 0 src mid rank (d.getD 31) cw).rise (chanSrc c 0) (words 0 (d.getD 31))
  | .ue =>
    ((((s.count (F.CH_ECC.UE_CNT c)).wrB F.CUP_EVENT.UE true).errCapture c a 1 src mid rank 31 cw).rise (chanSrc c 1)
      (words 1 31)).ueCount c
  | .poison =>
    (((s.count (F.CH_ECC.UE_CNT c)).wrB F.CUP_EVENT.UE true).errCapture c a 2 src mid rank 31 cw).rise (chanSrc c 1)
      (words 2 31)

/-- What a read of codeword `q` gives, given what the DRAM does to it. -/
def State.cwStatus (s : State) (q : Nat) (env : Ecc) : Ecc :=
  match spFind s.cup.flaw q with
  | some f => env.worse (f.read s.cup.ch[ch4 (s.cup.chOf (16 * q))].cfg.x8)
  | none => env

/-- The flaw of a codeword is gone. -/
def State.dropFlaw (s : State) (q : Nat) : State := { s with cup := { s.cup with flaw := spDel s.cup.flaw q } }

/-- Read codeword `q`: count, report, and write back a correction where `wb` says so (R488, R493). -/
def State.cwRead (s : State) (q : Nat) (env : Ecc) (src mid : Nat) (wb : Bool) : Ecc × State :=
  let e := s.cwStatus q env
  let s1 := s.eccReport (16 * q) e src mid
  (e, if wb && !e.lost then s1.dropFlaw q else s1)

/-- The next injection takes codeword `q` of channel `c`, the first codeword written in full (R494). -/
def State.injectInto (s : State) (c q : Nat) : State :=
  if s.on (F.CH_INJECT.INJ_ARM c) then
    let a := min 35 (s.rd (F.CH_INJECT.SYM_A c))
    let b := min 35 (s.rd (F.CH_INJECT.SYM_B c))
    let two := s.on (F.CH_INJECT.INJ_TWO c)
    let s1 := s.wrB (F.CH_INJECT.INJ_ARM c) false
    if two && a == b then s1
    else { s1 with cup := { s1.cup with flaw := spPut s1.cup.flaw q (.inj a (if two then some b else none)) } }
  else s

/-- Write the bytes `bs` at offset `a`, all within one codeword: whole, or by read-modify-write (R489, R491). -/
def State.cwWrite (s : State) (mid a : Nat) (bs : List Byte) (env : Ecc) : Bool × State :=
  let q := a / 16
  let put (s : State) : State := { s with ddr := s.ddr.writeL a bs }
  if bs.length = 16 then (false, ((put s).dropFlaw q).injectInto (s.cup.chOf a) q)
  else
    let r := s.cwRead q env 3 mid false
    if r.1.lost then
      (true, put { r.2 with cup := { r.2.cup with flaw := spPut r.2.cup.flaw q .poison } })
    else (false, (put r.2).dropFlaw q)

/-! ### DDR4 (R491) -/

/-- The bytes of a codeword that a read returns: its own, or free ones where it cannot be corrected (log entry 1). -/
def State.cwBytes (s : State) (q : Nat) (lost : Bool) : List Byte × State :=
  if lost then
    let d := s.drawFree 128
    (bytesLE 16 d.1, d.2)
  else (s.ddr.readN (16 * q) 16, s)

/-- Read `k` codewords from codeword `q` on: the bytes, whether one was lost, the state. -/
def State.cwReads (s : State) (src mid : Nat) (env : Nat → Ecc) (q : Nat) : Nat → List Byte × Bool × State
  | 0 => ([], false, s)
  | k + 1 =>
    let r := s.cwRead q (env q) src mid (s.on F.CUP_CTRL.ECC_WB)
    let b := r.2.cwBytes q r.1.lost
    let rest := b.2.cwReads src mid env (q + 1) k
    (b.1 ++ rest.1, r.1.lost || rest.2.1, rest.2.2)

/-- The number of codewords that `len` bytes from `a` on touch. -/
def cwCount (a len : Nat) : Nat := if len = 0 then 0 else (a + len - 1) / 16 - a / 16 + 1

/-- A channel that was in DRAM power-down leaves it for an access (R617). -/
def State.chTouch (s : State) (c : Nat) : State := s.modCh (ch4 c) fun h => { h with powerDown := false }

/-- Read `len` bytes at offset `a` of DDR4, within one 4 KiB unit. -/
def State.ddrRead (s : State) (src mid a len : Nat) (env : Nat → Ecc) : List Byte × Bool × State :=
  let c := s.cup.chOf a
  if s.chUp c then
    let r := (s.chTouch c).cwReads src mid env (a / 16) (cwCount a len)
    (((r.1.drop (a % 16)).take len), r.2.1, r.2.2)
  else (List.replicate len 0, true, s)

/-- Write bytes codeword by codeword. -/
def State.cwWrites (s : State) (mid : Nat) (env : Nat → Ecc) : Nat → Nat → List Byte → Bool × State
  | 0, _, _ => (false, s)
  | fuel + 1, a, bs =>
    if bs.isEmpty then (false, s)
    else
      let k := 16 - a % 16
      let r := s.cwWrite mid a (bs.take k) (env (a / 16))
      let rest := r.2.cwWrites mid env fuel (a + k) (bs.drop k)
      (r.1 || rest.1, rest.2)

/-- A write to the bytes from `a` on clears the exclusive monitors on their granules (12_molx_isa.md R428). -/
def Ctx.monClear (a len : Nat) (c : Ctx) : Ctx :=
  match c.mon with
  | some (g, _) => if a / 32 ≤ g ∧ g ≤ (a + len - 1) / 32 then { c with mon := none } else c
  | none => c
def State.monClear (s : State) (a len : Nat) : State :=
  { s with core := s.core.map fun k => { k with ctx := k.ctx.map (Ctx.monClear a len) } }

/-- Write bytes at offset `a` of DDR4, within one 4 KiB unit. -/
def State.ddrWrite (s : State) (mid a : Nat) (bs : List Byte) (env : Nat → Ecc) : Bool × State :=
  let c := s.cup.chOf a
  if s.chUp c then ((s.chTouch c).monClear (ddrBase + a) bs.length).cwWrites mid env (cwCount a bs.length) a bs
  else (true, s)

/-- No error of the DRAM's own. -/
def noEcc : Nat → Ecc := fun _ => .ok

/-- Split at 4 KiB units: the length of the first part. -/
def partLen (a len : Nat) : Nat := min len (4096 - a % 4096)

/-! ### Every memory of the map (R32, R33) -/

/-- How a memory access ends. -/
inductive MStat
  | ok
  | bus
  | unc
  deriving DecidableEq, Repr

/-- The power domain of an offset of shared SRAM (R32, R607). -/
def sramDom (off : Nat) : Nat := 138 + off / 0x200000

/-- One part of a read: bytes, status, state. -/
def State.memRead1 (s : State) (mid cl a len : Nat) (env : Nat → Ecc) : List Byte × MStat × State :=
  match physTarget s.cup.capacity a with
  | .sram off =>
    if admitSram mid && s.domOn (sramDom off) then (s.sram.readN off len, .ok, s) else (List.replicate len 0, .bus, s)
  | .flash off => if admitFlash mid then (s.flash.readN off len, .ok, s) else (List.replicate len 0, .bus, s)
  | .ddr off =>
    if admitDdr mid then
      let r := (s.grantUnits cl (unitsOf off len)).ddrRead 0 mid off len env
      (r.1, (if r.2.1 then .unc else .ok), r.2.2)
    else (List.replicate len 0, .bus, s)
  | _ => (List.replicate len 0, .bus, s)

/-- One part of a write: status, state. -/
def State.memWrite1 (s : State) (mid cl a : Nat) (bs : List Byte) (env : Nat → Ecc) : MStat × State :=
  match physTarget s.cup.capacity a with
  | .sram off =>
    if admitSram mid && s.domOn (sramDom off) then
      (.ok, { (s.monClear a bs.length) with sram := s.sram.writeL off bs })
    else (.bus, s)
  | .ddr off =>
    if admitDdr mid then
      let r := (s.grantUnits cl (unitsOf off bs.length)).ddrWrite mid off bs env
      ((if r.1 then .unc else .ok), r.2)
    else (.bus, s)
  | _ => (.bus, s)

/-- The worse of two ends. -/
def MStat.worse : MStat → MStat → MStat
  | .bus, _ => .bus
  | _, .bus => .bus
  | .unc, _ => .unc
  | .ok, e => e

/-- Read memory at a physical address; parts do not cross 4 KiB units. -/
def State.memReadF (s : State) (mid cl : Nat) (env : Nat → Ecc) : Nat → Nat → Nat → List Byte × MStat × State
  | 0, _, _ => ([], .ok, s)
  | fuel + 1, a, len =>
    if len = 0 then ([], .ok, s)
    else
      let k := partLen a len
      let r := s.memRead1 mid cl a k env
      let rest := r.2.2.memReadF mid cl env fuel (a + k) (len - k)
      (r.1 ++ rest.1, r.2.1.worse rest.2.1, rest.2.2)

/-- Write memory at a physical address. -/
def State.memWriteF (s : State) (mid cl : Nat) (env : Nat → Ecc) : Nat → Nat → List Byte → MStat × State
  | 0, _, _ => (.ok, s)
  | fuel + 1, a, bs =>
    if bs.isEmpty then (.ok, s)
    else
      let k := partLen a bs.length
      let r := s.memWrite1 mid cl a (bs.take k) env
      let rest := r.2.memWriteF mid cl env fuel (a + k) (bs.drop k)
      (r.1.worse rest.1, rest.2)

/-- The range at a physical address admits the identity (R32); no range stands at the other addresses. -/
def rangeAdmits (cap mid a : Nat) : Bool :=
  match physTarget cap a with
  | .sram _ => admitSram mid
  | .flash _ => admitFlash mid
  | .ddr _ => admitDdr mid
  | .reg _ => true
  | .none => true

/-- An identity that the range does not admit raises the register-fabric access source, with the identity and the address:
its low 32 bits in the second word, bits [39:32] beside the identity in the first (R21, log entry 81). -/
def State.rangeCheck (s : State) (mid a : Nat) (wr : Bool) : State :=
  if rangeAdmits s.cup.capacity mid a then s else s.rise 0x200 [mid + 2 ^ 8 * (a / 2 ^ 32), a % 2 ^ 32, b2n wr]

/-- Read `len` bytes at a physical address as identity `mid`. -/
def State.memRead (s : State) (mid cl a len : Nat) (env : Nat → Ecc := noEcc) : List Byte × MStat × State :=
  (s.rangeCheck mid a false).memReadF mid cl env (len / 4096 + 2) a len

/-- Write bytes at a physical address as identity `mid`. -/
def State.memWrite (s : State) (mid cl a : Nat) (bs : List Byte) (env : Nat → Ecc := noEcc) : MStat × State :=
  (s.rangeCheck mid a true).memWriteF mid cl env (bs.length / 4096 + 2) a bs

end Sys2Proof.Machine
end

