-- ==== Sys2Proof/Machine/BelfryOps.lean ====
section
/-! DEFINITION. Operations of the Belfry: sequence and freshness counters, rings, sending, receiving, ranging, beacons
(09_belfry.md R297-R318). -/

namespace Sys2Proof.Machine

/-- Change transceiver `b`. -/
def State.modBf (s : State) (b : Fin 2) (f : Bf → Bf) : State := { s with bf := s.bf.set b (f s.bf[b]) }

/-- The other transceiver. -/
def bfOther (b : Fin 2) : Fin 2 := ⟨1 - b.val, by omega⟩

/-- PD_BFA or PD_BFB is ON; its BF_EN is also set. -/
def State.bfOn (s : State) (b : Fin 2) : Bool := s.domOn (125 + b.val)
def State.bfSet (s : State) (b : Fin 2) : Bool := s.bfOn b && s.on (F.BF_CTRL.BF_EN b)

/-- XTAL_B, from which both transceivers run, is READY (R286, R318, 16_clocks.md R581). While it has stopped they stand still:
what they do next is as they stood. Log entry 98. -/
def State.bfClock (s : State) : Bool := s.rd F.CKC_OSC_STATUS.XB_STATE == 1

/-- The transceiver runs. -/
def State.bfEn (s : State) (b : Fin 2) : Bool := s.bfSet b && s.bfClock

/-- The receive energy exceeds CS_ED (R301, R321); the energy is what the line brings at this time (log entry 99). -/
def State.bfLoud (s : State) (b : Fin 2) : Bool :=
  s.bfEn b && decide (10 * (s.rd (F.BF_ACCESS.CS_ED b) + 1) < Config.bfEnergy b.val s.tb)

/-- The channel is busy (R301). -/
def State.bfBusy (s : State) (b : Fin 2) : Bool := s.on (F.BF_STATUS.CH_BUSY b) || s.bfLoud b

/-! ### Shared items (R286, R307) -/

/-- FC. TX_FC_HI shows what the last read of TX_FC_LO latched; the counter's high part runs beside it. -/
def State.fc (s : State) : Nat := s.rd (F.TX_FC_LO.FC_LO 0) + 2 ^ 32 * s.rd (F.TX_FC_HI.FC_HI 0).hidden

/-- Load FC. -/
def State.setFc (s : State) (v : Nat) : State :=
  (s.wr (F.TX_FC_LO.FC_LO 0) v).wr (F.TX_FC_HI.FC_HI 0).hidden (v / 2 ^ 32)

/-- FC does not wrap: at its last value authenticated sends fail (R307). -/
def State.fcSpent (s : State) : Bool := s.fc == 2 ^ 48 - 1

/-- An authenticated packet takes a value of FC. -/
def State.fcTake (s : State) (auth : Bool) : Nat × State := if auth then (s.fc, s.setFc (s.fc + 1)) else (0, s)

/-- A packet takes a value of PSEQ. -/
def State.pseqTake (s : State) : Nat × State := (s.bfPseq, { s with bfPseq := (s.bfPseq + 1) % 4096 })

/-- DEV_ID (20_keep_startup.md R701). -/
def State.devId (s : State) : Nat := natBE ((sha256 (natsLE 16 s.kepStore.uid)).drop 24)

/-- Key slot `i` of a transceiver. -/
def State.bfKey (s : State) (b : Fin 2) (i : Nat) : Option (List Nat) := s.bf[b].keys.getD i none

/-- An authenticated send has its key and a value of FC. -/
def State.bfCanAuth (s : State) (b : Fin 2) (h : BfHdr) : Bool := !h.auth || ((s.bfKey b h.keyId).isSome && !s.fcSpent)

/-! ### Rings (R315-R317) -/

/-- RING_LOG as it acts (R325). -/
def ringLog (v : Nat) : Nat := max 4 (min 10 v)

/-- Belfry memory accesses: identity 0x20, client 29. -/
def State.bfRead (s : State) (a len : Nat) : List Nat × Bool × State :=
  let r := s.memRead 0x20 29 a len
  (r.1.map BitVec.toNat, r.2.1 != .ok, r.2.2)
def State.bfWrite (s : State) (a : Nat) (bs : List Nat) : Bool × State :=
  let r := s.memWrite 0x20 29 a (bs.map fun v => BitVec.ofNat 8 v)
  (r.1 != .ok, r.2)

/-- The word of BF_STATUS. -/
def State.bfStatusWord (s : State) (b : Fin 2) : Nat :=
  (s.wrB (F.BF_STATUS.CH_BUSY b) (s.bfBusy b)).word [F.BF_STATUS.CH_BUSY b, F.BF_STATUS.TX_ACTIVE b, F.BF_STATUS.SERVED b, F.BF_STATUS.RING_ERR_TX b,
    F.BF_STATUS.RING_ERR_RX b, F.BF_STATUS.RX_STATE b, F.BF_STATUS.KEY_VALID b, F.BF_STATUS.FOFS_LAST b]

/-- A ring stops on a bus error (R315). -/
def State.ringErr (s : State) (b : Fin 2) (f : Nat → Fld) : State :=
  let s1 := (s.wrB (f b) true).wrB (F.BF_EVENT.RING_ERR b) true
  s1.rise (0x271 + 16 * b.val) [s1.bfStatusWord b]

/-- Hand a TX descriptor back (R315, R316). -/
def State.txComplete (s : State) (b : Fin 2) (d : BfDesc) (result : Nat) : State :=
  let bf := s.bf[b]
  let a := d.addr
  let w3 := result * 2 ^ 28 + d.pseq * 2 ^ 16 + d.lines * 2 ^ 14
  let r1 := s.bfWrite (a + 12) (natsLE 4 w3 ++ natsLE 8 d.tb ++ natsLE 8 d.fc)
  let r2 := r1.2.bfWrite a (natsLE 4 (d.w0 % 2 ^ 31))
  let s1 := r2.2.modBf b fun f => { f with ring := none }
  if r1.1 || r2.1 then s1.ringErr b F.BF_STATUS.RING_ERR_TX
  else
    let head := s.rd (F.TXR_CFG.TX_HEAD b)
    let s2 := (s1.wr (F.TXR_CFG.TX_HEAD b) (if d.old then head else (head + 1) % 2 ^ bf.txLog)).wrB (F.BF_EVENT.TX_DONE b) true
    if result = 1 then s2 else s2.count (F.BF_CNT_TX.TX_FAIL b)

/-- The header of a TX descriptor's packet, but for PSEQ (R316). -/
def BfDesc.hdr (d : BfDesc) (src : Nat) : BfHdr :=
  { ptype := bitsOf d.w0 18 15, src := src, dst := bitsOf d.w0 25 20, bcast := bitB d.w0 19, ncw := bitsOf d.w0 14 13,
    qpsk := bitB d.w0 12, sf := bitsOf d.w0 11 10, pseq := d.pseq, len := bitsOf d.w0 7 0, keyId := bitsOf d.w0 28 26,
    auth := bitB d.w0 29 }

/-- A descriptor that completes with BAD_DESC (R316). -/
def BfHdr.badDesc (h : BfHdr) : Bool :=
  h.ptype == 2 || h.ptype == 3 || decide (8 ≤ h.ptype) || decide (bodyMax h.ncw < h.len) || !modeOk h.ncw h.sf h.qpsk

/-- Read the TX ring from its head: descriptors that cannot be sent complete at once, the first that can waits for
access (R315, R316). -/
def State.ringRead (s : State) (b : Fin 2) : Nat → State
  | 0 => s
  | fuel + 1 =>
    if s.bfEn b && s.bf[b].ring.isNone && !s.on (F.BF_STATUS.RING_ERR_TX b) then
      let a := s.bf[b].txBase + 32 * s.rd (F.TXR_CFG.TX_HEAD b)
      let r := s.bfRead a 12
      if r.2.1 then r.2.2.ringErr b F.BF_STATUS.RING_ERR_TX
      else
        let w (i : Nat) : Nat := natOfLE ((r.1.drop (4 * i)).take 4)
        let s1 := r.2.2
        if !bitB (w 0) 31 then s1
        else
          let d : BfDesc := { w0 := w 0, w1 := w 1, w2 := w 2, dual := bitB (w 0) 30, addr := a }
          let h := d.hdr s.bf[b].node
          if h.badDesc then (s1.txComplete b d 4).ringRead b fuel
          else if h.auth && (s1.bfKey b h.keyId).isNone then (s1.txComplete b d 2).ringRead b fuel
          else if h.auth && s1.fcSpent then (s1.txComplete b d 3).ringRead b fuel
          else
            let q := s1.bfRead (w 1 + 2 ^ 32 * (w 2 % 256)) h.len
            if q.2.1 then (q.2.2.txComplete b d 6).ringErr b F.BF_STATUS.RING_ERR_TX
            else q.2.2.modBf b fun f => { f with ring := some { d with body := q.1 } }
    else s

/-- Read the head descriptor and those behind it. -/
def State.ringGo (s : State) (b : Fin 2) : State := s.ringRead b (2 ^ s.bf[b].txLog)

/-- The descriptor in action completes when every copy of it has been sent or has failed (R315). -/
def State.descCheck (s : State) (b : Fin 2) : State :=
  match s.bf[b].ring with
  | some d => if d.own || d.dual then s else (s.txComplete b d (if d.lines = 0 then 5 else 1)).ringGo b
  | none => s

/-- One copy of the descriptor of `b` has ended on the line of `l`: sent or not. -/
def State.copyEnd (s : State) (b l : Fin 2) (sent : Bool) (tb : Nat) : State :=
  (s.modBf b fun f => { f with ring := f.ring.map fun d =>
    let d1 := if b = l then { d with own := false } else { d with dual := false }
    if sent then { d1 with lines := d1.lines + 2 ^ l.val, tb := if d1.lines = 0 then tb else d1.tb } else d1 }).descCheck b

/-! ### Sending (R302, R305, R309, R311) -/

/-- A packet begins on the line (R302). -/
def State.bfStart (s : State) (b : Fin 2) (t : BfTx) (contended : Bool) : State :=
  let s1 := ((s.wrB (F.BF_STATUS.TX_ACTIVE b) true).wrB (F.BF_STATUS.CH_BUSY b) true).wr (F.BF_STATUS.RX_STATE b) 4
  let s2 := if contended then s1.wrB (F.BF_STATUS.SERVED b) true else s1
  s2.modBf b fun f => { f with tx := some t, line := bfLine t.hdr t.area, edge := none, rx := none }

/-- Header, FC and payload area of a packet about to be sent: it takes PSEQ, and FC where it is authenticated. -/
def State.bfMake (s : State) (b : Fin 2) (src : BfSrc) (h : BfHdr) (body : List Nat) (sfdTb : Nat) : BfTx × State :=
  let p := s.pseqTake
  let f := p.2.fcTake h.auth
  let h1 := { h with pseq := p.1 }
  let tag := match s.bfKey b h.keyId with | some k => bfTag k h1 f.1 body | none => []
  ({ src := src, hdr := h1, fc := f.1, area := bfArea h1 f.1 body tag, sfdTb := sfdTb }, f.2)

/-- BCN_LEN as it acts (R323), and the form of a beacon. -/
def State.bcnHdr (s : State) (b : Fin 2) : BfHdr :=
  { ptype := 0, src := s.bf[b].node, dst := 0, bcast := true, ncw := s.rd (F.BF_BCN.BCN_NCW b),
    qpsk := s.on (F.BF_BCN.BCN_MOD b), sf := s.rd (F.BF_BCN.BCN_SF b), pseq := 0,
    len := max 24 (s.rd (F.BF_BCN.BCN_LEN b)), keyId := s.rd (F.BF_BCN.BCN_KEY b), auth := s.on (F.BF_BCN.BCN_AUTH b) }

/-- The body of a beacon whose SFD ends at `tb` (R311, R312). -/
def State.bcnBody (s : State) (b : Fin 2) (tb len : Nat) : List Nat :=
  let tmpl := (List.range 64).flatMap fun w => natsLE 4 (s.rd (F.BF_TEMPLATE.WORD b w))
  (([1, s.bf[b].node] ++ natsLE 8 s.devId ++ natsLE 8 tb) ++ tmpl.drop 18).take len

/-- BCN_LEN is beyond R293 for the form set, or the mode is one that R294 forbids (R323). -/
def State.bcnBad (s : State) (b : Fin 2) : Bool :=
  let h := s.bcnHdr b
  decide (bodyMax h.ncw < h.len) || !modeOk h.ncw h.sf h.qpsk

/-- Queue a beacon (R311, R323). -/
def State.bcnQueue (s : State) (b : Fin 2) : State :=
  if s.bcnBad b then s.wrB (F.BF_EVENT.BCN_BAD b) true
  else s.modBf b fun f => { f with third := if true ∈ f.third then f.third else f.third ++ [true] }

/-- Send a beacon, in the form that BF_BCN now gives (R311, R323). -/
def State.bcnSend (s : State) (b : Fin 2) (tb : Nat) : State :=
  let h := s.bcnHdr b
  let s1 := s.modBf b fun f => { f with third := f.third.drop 1 }
  if s.bcnBad b then s1.wrB (F.BF_EVENT.BCN_BAD b) true
  else if s.bfCanAuth b h then
    let m := s1.bfMake b .beacon h (s.bcnBody b tb h.len) tb
    m.2.bfStart b m.1 true
  else s1

/-- Send the RANGE_REQ that waits (R309). -/
def State.rngSend (s : State) (b : Fin 2) (tb : Nat) : State :=
  let s1 := s.modBf b fun f => { f with third := f.third.drop 1 }
  match s.bf[b].rng with
  | none => s1
  | some r =>
    let m := s1.bfMake b .rangeReq { r.form with auth := false } [] tb
    let t := { m.1 with hdr := { m.1.hdr with auth := r.form.auth }, area := [] }
    (m.2.modBf b fun f => { f with rng := some { r with sent := true, pseq := t.hdr.pseq } }).bfStart b t true

/-- Hand a copy of a DUAL packet to the other transceiver, or count it as not sent (R315). -/
def State.dualHand (s : State) (b : Fin 2) (t : BfTx) : State :=
  let o := bfOther b
  if s.bfEn o && s.on (F.BF_CTRL.TX_EN o) then s.modBf o fun f => { f with dual := some { t with src := .dual } }
  else s.modBf b fun f => { f with ring := f.ring.map fun d => { d with dual := false } }

/-- Send the packet of the TX descriptor in action. -/
def State.descSend (s : State) (b : Fin 2) (d : BfDesc) (tb : Nat) : State :=
  let h := d.hdr s.bf[b].node
  if s.bfCanAuth b h then
    let m := s.bfMake b .ring h d.body tb
    let s1 := m.2.modBf b fun f => { f with ring := some { d with started := true, pseq := m.1.hdr.pseq, fc := m.1.fc } }
    (if d.dual then s1.dualHand b m.1 else s1).bfStart b m.1 true
  else (s.txComplete b d (if (s.bfKey b h.keyId).isNone then 2 else 3)).ringGo b

/-- The access gap arrives (R302, R305). -/
def State.accessSlot (s : State) (b : Fin 2) (tb : Nat) : State :=
  let f := s.bf[b]
  if f.rsp.isSome then s.modBf b fun f => { f with edge := none }
  else
    match f.dual with
    | some t => (s.modBf b fun f => { f with dual := none }).bfStart b { t with sfdTb := tb } true
    | none =>
      match f.third with
      | true :: _ => s.bcnSend b tb
      | false :: _ => s.rngSend b tb
      | [] =>
        match f.ring with
        | some d => if d.own && !d.started then s.descSend b d tb else s
        | none => s

/-- The packet on the line has been sent (R316). -/
def State.bfSent (s : State) (b : Fin 2) (t : BfTx) : State :=
  let s1 := (((s.wrB (F.BF_STATUS.TX_ACTIVE b) false).wrB (F.BF_STATUS.CH_BUSY b) false).wr (F.BF_STATUS.RX_STATE b)
    0).count (F.BF_CNT_TX.TX_PKTS b)
  let s2 := s1.modBf b fun f => { f with tx := none, line := [] }
  match t.src with
  | .ring => s2.copyEnd b b true t.sfdTb
  | .dual => s2.copyEnd (bfOther b) b true t.sfdTb
  | .rsp => s2.count (F.BF_CNT_TX.RNG_RESP b)
  | _ => s2

/-- The driver stops: the packet on the line is cut (R318). -/
def State.bfCut (s : State) (b : Fin 2) : State :=
  match s.bf[b].tx with
  | none => s
  | some t =>
    let s1 := ((s.wrB (F.BF_STATUS.TX_ACTIVE b) false).wrB (F.BF_STATUS.CH_BUSY b) false).wr (F.BF_STATUS.RX_STATE b) 0
    let s2 := s1.modBf b fun f => { f with tx := none, line := [] }
    match t.src with
    | .ring => s2.copyEnd b b false 0
    | .dual => s2.copyEnd (bfOther b) b false 0
    | _ => s2

/-- A copy that waits at `b` for the other's descriptor is not sent (R318). -/
def State.dualDrop (s : State) (b : Fin 2) : State :=
  if s.bf[b].dual.isSome then (s.modBf b fun f => { f with dual := none }).copyEnd (bfOther b) b false 0 else s

/-- An exchange ends with a status of RNG_CTRL (R330). -/
def State.rngEnd (s : State) (b : Fin 2) (st : Nat) : State :=
  if s.bf[b].rng.isSome then
    (((s.wr (F.RNG_CTRL.RNG_STATUS b) st).wrB (F.BF_EVENT.RNG_DONE b) true).modBf b fun f =>
      { f with rng := none, third := f.third.filter id })
  else s

/-- BF_EN rises (R302, R315, R320). -/
def State.bfEnable (s : State) (b : Fin 2) : State :=
  if s.on (F.BF_CTRL.BF_EN b) then s
  else
    let base (lo hi : Fld) : Nat := 32 * s.rd lo + 2 ^ 32 * s.rd hi
    let s1 := (((((s.wrB (F.BF_CTRL.BF_EN b) true).wrB (F.BF_STATUS.SERVED b) true).wr (F.TXR_CFG.TX_HEAD b) 0).wr
      (F.RXR_CFG.RX_HEAD b) 0).wrB (F.BF_STATUS.RING_ERR_TX b) false).wrB (F.BF_STATUS.RING_ERR_RX b) false
    (s1.modBf b fun f => { f with
      node := s.rd (F.BF_NODE.NODE 0), edge := some s.tb, energy := false
      txBase := base (F.TXR_BASE.BASE_LO b) (F.TXR_CFG.BASE_HI b), txLog := ringLog (s.rd (F.TXR_CFG.RING_LOG b))
      rxBase := base (F.RXR_BASE.BASE_LO b) (F.RXR_CFG.BASE_HI b), rxLog := ringLog (s.rd (F.RXR_CFG.RING_LOG b))
      ring := f.ring.map fun d => { d with old := true }
      dual := none, third := [], rsp := none, tx := none, line := [], rx := none }).ringGo b

/-- BF_EN is written 0 (R318). A descriptor whose copy the other transceiver still has to send completes with it (R315). -/
def State.bfDisable (s : State) (b : Fin 2) : State :=
  if s.on (F.BF_CTRL.BF_EN b) then
    let s1 := ((((s.wrB (F.BF_CTRL.BF_EN b) false).bfCut b).dualDrop b).rngEnd b 3)
    ((s1.wrB (F.BF_STATUS.CH_BUSY b) false).wr (F.BF_STATUS.RX_STATE b) 0).modBf b fun f =>
      { f with edge := none, ring := f.ring.filter fun d => d.started && d.dual, third := [], rsp := none, rx := none }
  else s

/-- PD_BFA or PD_BFB leaves ON: the transceiver stops at once, shared items are kept (R318). -/
def State.bfLost (s : State) (b : Fin 2) : State :=
  let o := bfOther b
  let pend := s.bf[b].dual.isSome || (match s.bf[b].tx with | some t => t.src == .dual | none => false)
  let s1 := s.modBf b fun _ => {}
  let s2 := s1.modBf o fun f => { f with dual := none }
  if pend then s2.copyEnd o b false 0 else s2

/-! ### Receiving (R298-R308) -/

/-- BF_RXCFG, and its fields in a word of it (R322). -/
def State.rxCfg (s : State) (b : Fin 2) : Nat :=
  s.word [F.BF_RXCFG.FFE_MU b, F.BF_RXCFG.DFE_MU b, F.BF_RXCFG.DFE_EN b, F.BF_RXCFG.BITER_MAX b, F.BF_RXCFG.BNORM b]
def BfRx.norm (r : BfRx) : Nat := max 8 (bitsOf r.cfg 15 12)
def BfRx.limit (r : BfRx) : Nat := if bitsOf r.cfg 20 16 = 0 then 32 else bitsOf r.cfg 20 16

/-- Symbols through the equaliser, with the settings of the detection (R300, R322). -/
def BfRx.equalise (r : BfRx) (sf : Nat) (qpsk : Bool) (known : List (Option Cx)) (ys : List Cx) :
    List (Cx × Nat) × BfEq :=
  BfEq.run (bitsOf r.cfg 31 27) (bitsOf r.cfg 26 22) (bitB r.cfg 21) sf qpsk known r.eq ys

/-- The symbols from detection to the SFD end, whose last eight are the SFD's: the equaliser takes them as known, the others give
the noise (R297, R300). -/
def BfRx.train (r : BfRx) (ys : List Cx) : BfRx :=
  let n := ys.length / bfLen 2 - 8
  let t := r.equalise 2 false ((List.replicate n ((1, 0) : Cx) ++ sfdBits.map fun b => (bpsk b, 0)).map some) ys
  { r with eq := t.2, noise := bfNoise ((t.1.take n).map Prod.fst) }

/-- One codeword received: its information bits as a number, the iterations used, and the reception after it (R292, R297). -/
def BfRx.decode (r : BfRx) (w : BfWord) : Option Nat × Nat × BfRx :=
  match w with
  | .decided v k => (some v, k, r)
  | .lost k => (none, k, r)
  | .chips ys =>
    let sf := match r.hdr with | some h => h.sf | none => 0
    let qpsk := match r.hdr with | some h => h.qpsk | none => false
    let t := r.equalise sf qpsk (List.replicate (if r.hdr.isNone then 576 else if qpsk then 512 else 1024) none) ys
    let l := bfLlrs r.noise sf qpsk t.1
    let full := if r.hdr.isNone then l.take 64 ++ List.replicate 448 31 ++ l.drop 64 else l
    let d := bfCode.decode r.norm r.limit true full
    (d.1.map natOfBits, d.2, { r with eq := t.2 })

/-- The reception is over. -/
def State.rxDone (s : State) (b : Fin 2) : State :=
  (s.wr (F.BF_STATUS.RX_STATE b) 0).modBf b fun f => { f with rx := none }

/-- The bytes of the payload area as decoded; a codeword that failed gives free ones (log entry 1). -/
def State.areaBytes (s : State) : List (Option Nat) → List Nat × State
  | [] => ([], s)
  | some v :: ws =>
    let r := s.areaBytes ws
    (natsLE 64 v ++ r.1, r.2)
  | none :: ws =>
    let d := s.drawFree 512
    let r := d.2.areaBytes ws
    (natsLE 64 d.1 ++ r.1, r.2)

/-- The freshness entry of source `n` (R342): valid, line, FC. -/
def State.fresh (s : State) (n : Nat) : Bool × Nat × Nat :=
  (s.on (F.BF_FRESH_HI.VALID 0 n), s.rd (F.BF_FRESH_HI.LINE 0 n),
   s.rd (F.BF_FRESH_LO.FC_LO 0 n) + 2 ^ 32 * s.rd (F.BF_FRESH_HI.FC_HI 0 n))

/-- The entry of a source takes an accepted packet's FC and line. -/
def State.setFresh (s : State) (n line fc : Nat) : State :=
  (((s.wrB (F.BF_FRESH_HI.VALID 0 n) true).wr (F.BF_FRESH_HI.LINE 0 n) line).wr (F.BF_FRESH_LO.FC_LO 0 n) fc).wr
    (F.BF_FRESH_HI.FC_HI 0 n) (fc / 2 ^ 32)

/-- FC `x` is after `y`, by serial comparison on 48 bits (R308). -/
def fcAfter (x y : Nat) : Bool := let d := (x + 2 ^ 48 - y) % 2 ^ 48; decide (0 < d ∧ d < 2 ^ 47)

/-- RX_STATUS codes (R317). -/
abbrev rsOK : Nat := 1
abbrev rsLDPC : Nat := 2
abbrev rsTAG : Nat := 3
abbrev rsREPLAY : Nat := 4
abbrev rsEMPTY : Nat := 5
abbrev rsUNAUTH : Nat := 6
abbrev rsCAPTURED : Nat := 7
abbrev rsNOTMINE : Nat := 8
abbrev rsDUP : Nat := 9

/-- Steps 5 to 10 of R308: the status of a packet with header `h`, its area and whether a codeword failed. -/
def State.rxStatus (s : State) (b : Fin 2) (h : BfHdr) (area : List Nat) (failed : Bool) : Nat :=
  if failed then rsLDPC
  else if !h.auth then (if s.on (F.BF_CTRL.RX_UNAUTH b) then rsOK else rsUNAUTH)
  else
    match s.bfKey b h.keyId with
    | none => rsEMPTY
    | some k =>
      let n := area.length
      let fc := natOfLE ((area.drop (n - 14)).take 6)
      if bfTag k h fc (area.take h.len) ≠ area.drop (n - 8) then rsTAG
      else
        let e := s.fresh h.src
        if e.1 && !fcAfter fc e.2.2 then (if fc = e.2.2 ∧ e.2.1 ≠ b.val then rsDUP else rsREPLAY)
        else if !h.bcast && h.dst != s.bf[b].node then rsNOTMINE
        else rsOK

/-- Write a packet to the RX ring (R315, R317); answers whether it was written. -/
def State.rxWrite (s : State) (b : Fin 2) (h : BfHdr) (r : BfRx) (area : List Nat) (status : Nat) : Bool × State :=
  if s.on (F.BF_STATUS.RING_ERR_RX b) then (false, s)
  else
    let a := s.bf[b].rxBase + 32 * s.rd (F.RXR_CFG.RX_HEAD b)
    let d := s.bfRead a 32
    if d.2.1 then (false, d.2.2.ringErr b F.BF_STATUS.RING_ERR_RX)
    else
      let w (i : Nat) : Nat := natOfLE ((d.1.drop (4 * i)).take 4)
      if !bitB (w 0) 31 then
        (false, (d.2.2.count (F.BF_CNT_ERR.RX_OVF b)).wrB (F.BF_EVENT.RX_OVF b) true)
      else
        let r1 := d.2.2.bfWrite (w 3 + 2 ^ 32 * (w 4 % 256)) area
        let r2 := r1.2.bfWrite (a + 4) (natsLE 8 h.low)
        let w7 := unsignedOf 16 r.fofs * 2 ^ 16 + r.snr % 256 * 2 ^ 8 + r.iters % 256
        let r3 := r2.2.bfWrite (a + 20) (natsLE 8 r.tb ++ natsLE 4 w7)
        let r4 := r3.2.bfWrite a (natsLE 4 (status * 2 ^ 27 + b.val * 2 ^ 26))
        if r1.1 || r2.1 || r3.1 || r4.1 then (false, r4.2.ringErr b F.BF_STATUS.RING_ERR_RX)
        else
          (true, (r4.2.wr (F.RXR_CFG.RX_HEAD b) ((s.rd (F.RXR_CFG.RX_HEAD b) + 1) % 2 ^ s.bf[b].rxLog)).wrB
            (F.BF_EVENT.RX_PKT b) true)

/-- A beacon with this node's number and another DEV_ID (R312). -/
def State.dupNode (s : State) (b : Fin 2) (h : BfHdr) (area : List Nat) : State :=
  if h.ptype = 0 ∧ area.getD 1 0 = s.bf[b].node ∧ natOfLE ((area.drop 2).take 8) ≠ s.devId then
    s.wrB (F.BF_EVENT.DUP_NODE b) true
  else s

/-- Count and deliver a packet by its status (R308). -/
def State.rxDeliver (s : State) (b : Fin 2) (h : BfHdr) (r : BfRx) (area : List Nat) (st : Nat) : State :=
  let s1 :=
    if st = rsLDPC then s.count (F.BF_CNT_ERR.LDPC_FAIL b)
    else if st = rsTAG ∨ st = rsEMPTY ∨ st = rsUNAUTH then
      (s.count (F.BF_CNT_SEC.TAG_BAD b)).wrB (F.BF_EVENT.SEC_FAIL b) true
    else if st = rsREPLAY then (s.count (F.BF_CNT_SEC.REPLAY b)).wrB (F.BF_EVENT.SEC_FAIL b) true
    else if st = rsDUP then s.count (F.BF_CNT_SEC.DUAL_DUP b)
    else s
  if st = rsOK ∨ st = rsNOTMINE then
    let s2 := s1.dupNode b h area
    let w := s2.rxWrite b h r area st
    if w.1 then
      let s3 := w.2.count (F.BF_CNT_RX.RX_OK b)
      if h.auth then s3.setFresh h.src b.val (natOfLE ((area.drop (area.length - 14)).take 6)) else s3
    else w.2
  else if (st = rsDUP ∧ s.on (F.BF_CTRL.DUP_KEEP b)) ∨ (st ≠ rsDUP ∧ s.on (F.BF_CTRL.RX_ERR_DELIV b)) then
    (s1.rxWrite b h r area st).2
  else s1

/-- DELAY of R310 in 1/8 ns, from RTT and T_B in 1/16 ns and δ̂ in 1/64 ppm. -/
def rngDelay (rtt tB : Nat) (fofs : Int) : Int :=
  let k : Int := 64000000 + fofs
  ((rtt : Int) * k - (tB : Int) * 64000000 + 2 * k) / (4 * k)

/-- The RSP awaited has been received whole (R309, R310). The exchange succeeds only through step 10 of R308, which a packet with
AUTH = 0 does not reach; RNG_RTT shows its RTT either way (R332). -/
def State.rngResult (s : State) (b : Fin 2) (g : BfRng) (h : BfHdr) (r : BfRx) (area : List Nat) (st : Nat) : State :=
  let tB := natOfLE ((area.drop 3).take 4)
  let good := h.auth && (st == rsOK) && h.src == g.dst && area.getD 0 0 == s.bf[b].node &&
    natOfLE ((area.drop 1).take 2) % 4096 == g.pseq && h.len == 10
  if good then
    let d := rngDelay r.since tB r.fofs
    let p := if 0 ≤ d ∧ d < 65536 then (d.toNat, s) else s.drawFree 16
    (((((p.2.wr (F.RNG_RESULT.DELAY b) p.1).wr (F.RNG_RESULT.FOFS b) (unsignedOf 16 r.fofs)).wr (F.RNG_RTT.RTT b)
      r.since).wr (F.RNG_TURN.T_B b) tB).rngEnd b 2)
  else (s.wr (F.RNG_RTT.RTT b) r.since).rngEnd b 4

/-- The payload is complete (R308). -/
def State.rxFinish (s : State) (b : Fin 2) (h : BfHdr) (r : BfRx) : State :=
  let failed := r.words.any Option.isNone
  let p := s.areaBytes r.words
  let st := s.rxStatus b h p.1 failed
  let s1 := p.2.rxDone b
  if h.ptype = 3 then
    match s.bf[b].rng with
    | some g => s1.rngResult b g h r p.1 st
    | none => s1
  else s1.rxDeliver b h r p.1 st

/-- A header has decoded well and is for this node, or is read in promiscuous mode (R308, R309). -/
def State.rxHeader (s : State) (b : Fin 2) (h : BfHdr) (r : BfRx) : State :=
  let mine := !h.bcast && h.dst == s.bf[b].node
  if !h.bcast && h.dst != s.bf[b].node && !s.on (F.BF_CTRL.RX_PROMISC b) then s.rxDone b
  else if h.ptype = 2 then
    let s1 := s.rxDone b
    if mine && s.on (F.BF_CTRL.RNG_RESP_EN b) && s.bfCanAuth b h then
      s1.modBf b fun f => { f with rsp := some { req := h, snr := r.snr, fofs := r.fofs } }
    else s1
  else if h.ptype = 3 then
    match s.bf[b].rng with
    | some g =>
      if mine && g.sent then
        ((s.wr (F.BF_STATUS.RX_STATE b) 3).modBf b fun f =>
          { f with rng := some { g with heard := true }, rx := some { r with hdr := some h } })
      else s.rxDone b
    | none => s.rxDone b
  else (s.wr (F.BF_STATUS.RX_STATE b) 3).modBf b fun f => { f with rx := some { r with hdr := some h } }

/-- A preamble is found: a reception begins (R298, R301), with the settings of BF_RXCFG and the equaliser of R300 afresh
(R322). -/
def State.rxBegin (s : State) (b : Fin 2) : State :=
  (((s.count (F.BF_CNT_RX.RX_DET b)).wr (F.BF_STATUS.RX_STATE b) 1).wrB (F.BF_STATUS.CH_BUSY b) true).modBf b fun f =>
    { f with rx := some { cfg := s.rxCfg b }, edge := none }

/-- The current packet is abandoned for a stronger one (R304, R308 step 4, R318). -/
def State.rxCapture (s : State) (b : Fin 2) (r : BfRx) : State :=
  let s1 := s.count (F.BF_CNT_ERR.CAPT_AWAY b)
  let s2 := match r.hdr with
    | none => s1
    | some h =>
      if h.ptype = 3 then (s1.wr (F.RNG_RTT.RTT b) r.since).rngEnd b 4
      else
        let p := s1.areaBytes (r.words ++ List.replicate (h.ncw + 1 - r.words.length) none)
        p.2.rxDeliver b h r p.1 rsCAPTURED
  s2.rxBegin b

/-- The Keep's key slots are copied into a transceiver (R286, 20_keep_startup.md R702). -/
def State.keysLoad (s : State) (b : Fin 2) : State :=
  let ks := s.kepStore.keys
  let v := (List.range 8).foldl (fun a i => a + b2n (ks.getD i none).isSome * 2 ^ i) 0
  (s.modBf b fun f => { f with keys := ks }).wr (F.BF_STATUS.KEY_VALID b) v

end Sys2Proof.Machine
end

