-- ==== Sys2Proof/Machine/MbxOps.lean ====
section
/-! DEFINITION. Mailboxes and doorbells (15_host_access_mailboxes.md R556-R563). -/

namespace Sys2Proof.Machine

/-- The endpoint of an identity (R561). -/
def epOf (mid : Nat) : Option Nat :=
  if mid < 4 then some mid
  else if 0x10 ≤ mid ∧ mid < 0x14 then some (mid - 0xC)
  else if 8 ≤ mid ∧ mid < 16 then some mid
  else none

/-- Set bit `k` of a value. -/
def setBit (v k : Nat) : Nat := v ||| 2 ^ k

/-- Set a doorbell bit of endpoint `e` (R558, R561). -/
def State.dbRing (s : State) (e k : Nat) : State := s.wr (F.DB_PEND.DB e) (setBit (s.rd (F.DB_PEND.DB e)) k)

/-- A doorbell bit of endpoint `e` is set and unmasked (R561). -/
def State.dbSignal (s : State) (e : Nat) : Bool := (s.rd (F.DB_PEND.DB e) &&& s.rd (F.DB_MASK.DB_EN e)) != 0

/-- Channel `c` acts as VALID (R557). -/
def State.mbValid (s : State) (c : Nat) : Bool :=
  s.on (F.MBX_BIND.VALID c) && (epOf (s.rd (F.MBX_BIND.SND_ID c))).isSome && (epOf (s.rd (F.MBX_BIND.RCV_ID c))).isSome &&
    s.rd (F.MBX_BIND.SND_ID c) != s.rd (F.MBX_BIND.RCV_ID c)

/-- Words `k` to 15 of channel `c` become zero. -/
def State.mbZero (s : State) (c k : Nat) : State :=
  (List.range 16).foldl (fun (s : State) w => if k ≤ w then s.wr (F.MB_DATA.WORD c w) 0 else s) s

/-- Channel `c` is emptied (R557, R559). -/
def State.mbEmpty (s : State) (c : Nat) : State := (s.wrB (F.MB_STATUS.FULL c) false).mbZero c 0

/-- An ABORT bit of endpoint `e` sets; its rise may ring doorbell bit 31 (R561). -/
def State.mbAbort (s : State) (e c : Nat) : State :=
  let v := s.rd (F.ABORT.ABRT e)
  let s1 := s.wr (F.ABORT.ABRT e) (setBit v c)
  if !bitB v c && bitB (s.rd (F.ABORT_MASK.ABRT_EN e)) c then s1.dbRing e 31 else s1

/-- A reset of channel `c` by its receiver (R562). -/
def State.mbReset (s : State) (c : Nat) : State :=
  let s1 := s.mbEmpty c
  match epOf (s.rd (F.MBX_BIND.SND_ID c)) with
  | some e => s1.mbAbort e c
  | none => s1

/-- A master reset of identity `mid` (R562). -/
def State.masterReset (s : State) (mid : Nat) : State :=
  let s1 := (List.range 16).foldl (fun (s : State) c =>
    if s.mbValid c && s.rd (F.MBX_BIND.RCV_ID c) == mid then s.mbReset c else s) s
  match epOf mid with
  | some e => s1.wr (F.DB_PEND.DB e) 0
  | none => s1

/-- MB_SEND with GO = 1 on a channel that is valid and not full (R558). -/
def State.mbSend (s : State) (c len1 db : Nat) (dbEn : Bool) : State :=
  let s1 := ((((s.wrB (F.MB_STATUS.FULL c) true).wr (F.MB_STATUS.LEN_M1 c) len1).count (F.MB_STATUS.MSEQ c)).wr
    (F.MB_STATUS.DB c) db).mbZero c (len1 + 1)
  match (if dbEn then epOf (s.rd (F.MBX_BIND.RCV_ID c)) else none) with
  | some e => s1.dbRing e db
  | none => s1

end Sys2Proof.Machine
end

