-- ==== Sys2Proof/Machine/CoreOps.lean ====
section
/-! DEFINITION. The MOLX cores: identities, translation, exceptions, failures, DMA stops, checkpoints, takeover and the
SQC's commands (12_molx_isa.md R437, 13_molx_system.md R441-R472). -/

namespace Sys2Proof.Machine

/-! ### Cores (R441, R444, R449, R480) -/

/-- The Lantern. -/
abbrev lantern : Fin 11 := 10

/-- Change core `i`, and context `c` of it. -/
def State.modCore (s : State) (i : Fin 11) (f : Core → Core) : State := { s with core := s.core.set i (f s.core[i]) }
def Core.modCtx (k : Core) (c : Fin 4) (f : Ctx → Ctx) : Core := { k with ctx := k.ctx.set c (f k.ctx[c]) }
def State.modCtx (s : State) (i : Fin 11) (c : Fin 4) (f : Ctx → Ctx) : State := s.modCore i fun k => k.modCtx c f
def State.ctx (s : State) (i : Fin 11) (c : Fin 4) : Ctx := s.core[i].ctx[c]

/-- The master identity that core `i` issues under (R18, R20). -/
def State.coreMid (s : State) (i : Fin 11) : Nat :=
  if i.val < 8 then 8 + i.val
  else if i.val = 10 then 1
  else match s.core[i].serving with | some n => 8 + n | none => i.val - 6

/-- The slot that core `i` uses (R441). -/
def State.coreSlot (s : State) (i : Fin 11) : Nat :=
  match s.core[i].serving with | some n => n | none => i.val

/-- A slot number. -/
def slot11 (k : Nat) : Fin 11 := ⟨k % 11, by omega⟩

/-- The port whose coefficient unit and events are connected to core `i` (R413, R433). -/
def State.coefPort (s : State) (i : Fin 11) : Option (Fin 8) :=
  if h : i.val < 8 then some ⟨i.val, h⟩
  else match s.core[i].serving with | some n => some ⟨n % 8, by omega⟩ | none => none

/-- The power domain of core `i` is ON. -/
def State.coreOn (s : State) (i : Fin 11) : Bool := s.domOn (coreDom i.val)

/-- The BWR client of core `i`'s accesses, and of the loader's for slot `k` (R467, R501). -/
def State.coreClient (s : State) (i : Fin 11) : Nat := (clientOf (s.coreMid i)).getD 17
def loaderClient (k : Nat) : Nat := if k < 8 then 20 + k else if k = 10 then 17 else 10 + k

/-- Core `i` executes (R444, R461, R463). -/
def State.coreUp (s : State) (i : Fin 11) : Bool := s.coreOn i && s.core[i].up && !s.core[i].failed && !s.core[i].hold

/-- The state of context `c` as CTX_STATE shows it (R445). -/
def Core.ctxState (k : Core) (c : Fin 4) : Nat :=
  if k.ctx[c].halted then 3
  else if !bitB k.ctxRun c.val then 0
  else if k.ctx[c].wait.isSome then 2
  else 1
def Core.ctxWord (k : Core) : Nat :=
  k.ctxState 0 + 4 * k.ctxState 1 + 16 * k.ctxState 2 + 64 * k.ctxState 3

/-- STATE of CORE_STATUS (R480). -/
def Core.stateCode (k : Core) : Nat :=
  if k.failed then 5 else if k.serving.isSome then 4 else if k.up then 2 else 1

/-- The state of a Turret (R476): 0 OFF, 1 STANDBY, 2 SERVING, 3 FAILED, 4 LOADING. -/
def State.turState (s : State) (t : Fin 2) : Nat :=
  let i : Fin 11 := ⟨8 + t.val, by omega⟩
  let k := s.core[i]
  if !s.coreOn i then 0
  else if k.failed then 3
  else if k.loading then 4
  else if k.serving.isSome then 2
  else 1

/-- A Turret can be chosen (R464). -/
def State.turReady (s : State) (t : Fin 2) : Bool := s.turState t == 1 && bitB (s.rd F.SQC_CTRL.TUR_EN) t.val
/-- The Turret that a takeover takes (R464). -/
def State.turPick (s : State) : Option (Fin 2) := if s.turReady 0 then some 0 else if s.turReady 1 then some 1 else none

/-- The Turret that serves port `n`. -/
def State.server (s : State) (n : Nat) : Option (Fin 11) :=
  if s.core[8].serving = some n then some 8 else if s.core[9].serving = some n then some 9 else none

/-- STATE of CORE_STATUS of core `i`: a Turret that runs and serves no port stands by (R480). -/
def State.coreState (s : State) (i : Fin 11) : Nat :=
  if (i.val = 8 ∨ i.val = 9) ∧ s.core[i].stateCode = 2 then 3 else s.core[i].stateCode

/-- CORE_STATUS of core `i` and SQC_STATUS follow. -/
def State.syncCore (s : State) (i : Fin 11) : State :=
  let k := s.core[i]
  if s.coreOn i then (s.wr (F.CORE_STATUS.STATE i.val) (s.coreState i)).wr (F.CORE_STATUS.CTX_STATE i.val) k.ctxWord else s
def State.syncSqc (s : State) : State :=
  let served := (List.range 8).foldl (fun a n => a + b2n (s.server n).isSome * 2 ^ n) 0
  (((((s.wr F.SQC_STATUS.T0_STATE (s.turState 0)).wr F.SQC_STATUS.T0_PORT (s.core[8].serving.getD 0)).wr F.SQC_STATUS.T1_STATE
    (s.turState 1)).wr F.SQC_STATUS.T1_PORT (s.core[9].serving.getD 0)).wr F.SQC_STATUS.SERVED served)

/-- Change core `i`, and let its status follow. -/
def State.setCore (s : State) (i : Fin 11) (f : Core → Core) : State := ((s.modCore i f).syncCore i).syncSqc
def State.setCtx (s : State) (i : Fin 11) (c : Fin 4) (f : Ctx → Ctx) : State := (s.modCtx i c f).syncCore i

/-! ### Fault sources of a core (R422, R443, R463, R660, R661) -/

/-- The source of a core's failure, of a corrected memory error, and of an uncorrectable one or a failed write-back. -/
def failSrc (i : Fin 11) (lockstep : Bool) : Nat :=
  if i.val < 8 then portSrc i.val 0xC
  else if i.val = 10 then (if lockstep then 0x2B0 else 0x2B1)
  else 0x2A0 + (i.val - 8)
def ceSrc (i : Fin 11) : Nat := if i.val < 8 then portSrc i.val 0x9 else if i.val = 10 then 0x2B2 else 0x2A5
def ueSrc (i : Fin 11) : Nat := if i.val < 8 then portSrc i.val 0xD else if i.val = 10 then 0x2B3 else 0x2A0 + (i.val - 8)

/-- The word of CORE_STATUS (R480). -/
def State.coreWord (s : State) (i : Fin 11) : Nat :=
  s.word [F.CORE_STATUS.STATE i.val, F.CORE_STATUS.FAIL_CAUSE i.val, F.CORE_STATUS.CTX_STATE i.val]

/-- A write-back of a dirty line meets a bus error (R422). -/
def State.wbFault (s : State) (i : Fin 11) : State := s.rise (ueSrc i) [s.coreWord i]

/-- A corrected word of IMEM or TCM (R443). -/
def State.coreCe (s : State) (i : Fin 11) (imem : Bool) : State :=
  (s.countSat (if imem then F.ECC_CNT.IMEM_CE i.val else F.ECC_CNT.TCM_CE i.val)).rise (ceSrc i) [s.coreWord i]

/-! ### Local memory (R442, R443) -/

/-- The size of IMEM and TCM together: the local window. -/
abbrev localTop : Nat := 0x40000

/-- Bytes of the local window. -/
def Core.localRead (k : Core) (va len : Nat) : List Byte :=
  if va < 0x20000 then k.imem.readN va len else k.tcm.readN (va - 0x20000) len
/-- Some word of the range holds an uncorrectable error. -/
def Core.localBad (k : Core) (va len : Nat) : Bool :=
  k.flaws.any fun w => decide (va / 4 ≤ w ∧ w ≤ (va + len - 1) / 4)
/-- Words wholly within a range. -/
def wholeWord (va len w : Nat) : Bool := decide (va ≤ 4 * w ∧ 4 * w + 4 ≤ va + len)
/-- Write bytes of the local window; a word written whole is sound again. -/
def Core.localWrite (k : Core) (va : Nat) (bs : List Byte) : Core :=
  let k1 := { k with flaws := k.flaws.filter fun w => !wholeWord va bs.length w }
  if va < 0x20000 then { k1 with imem := k1.imem.writeL va bs } else { k1 with tcm := k1.tcm.writeL (va - 0x20000) bs }

/-- The key under which a monitor knows an address of core `i`'s TCM. -/
def tcmKey (i : Fin 11) (va : Nat) : Nat := 2 ^ 40 + 0x40000 * i.val + va

/-- Write the local window of core `i`, clearing the monitors on it (R428). -/
def State.localStore (s : State) (i : Fin 11) (va : Nat) (bs : List Byte) : State :=
  (s.monClear (tcmKey i va) bs.length).modCore i fun k => k.localWrite va bs

/-! ### Translation (R442, R451-R454) -/

/-- The kinds of access. -/
inductive Acc
  | fetch | load | store
  deriving DecidableEq, Repr

/-- What a virtual address becomes: the local window, a physical address and whether it is cached, or a fault with the
sub-code of R453. -/
inductive Xl
  | loc (va : Nat)
  | phys (pa : Nat) (cached : Bool)
  | fault (sub : Nat)
  deriving DecidableEq, Repr

/-- Whose address it is: PTBR, MMU_CTL and level, and whether a DMA channel asks. -/
structure Space where
  ptbr : Nat
  en : Bool
  asid : Nat
  task : Bool
  dma : Bool := false

def Ctx.space (c : Ctx) : Space := ⟨c.ptbr, c.mmuEn, c.asid, c.task, false⟩
def Dma.space (d : Dma) : Space := ⟨d.ptbr, d.mmuEn, d.asid, d.task, true⟩

/-- A walk read: one entry, in shared SRAM or DDR4 (R451). -/
def State.walkRead (s : State) (i : Fin 11) (a : Nat) : Option Nat × State :=
  match physTarget s.cup.capacity a with
  | .sram _ | .ddr _ =>
    let r := s.memRead (s.coreMid i) (s.coreClient i) a 8
    (if r.2.1 = .ok then some (natLE r.1) else none, r.2.2)
  | _ => (none, s)

/-- The two-level walk (R451, R453). -/
def State.walk (s : State) (i : Fin 11) (sp : Space) (va : Nat) : Except Nat TlbEntry × State :=
  let r1 := s.walkRead i (sp.ptbr / 64 * 2 ^ 14 + 8 * (va / 2 ^ 21))
  match r1.1 with
  | none => (.error 5, r1.2)
  | some e1 =>
    if !bitB e1 0 then (.error 1, r1.2)
    else if bitsOf e1 63 40 != 0 || bitsOf e1 7 1 != 0 then (.error 4, r1.2)
    else
      let r2 := r1.2.walkRead i (bitsOf e1 39 12 * 4096 + 8 * (va / 4096 % 512))
      match r2.1 with
      | none => (.error 5, r2.2)
      | some e2 =>
        if !bitB e2 0 then (.error 2, r2.2)
        else if bitsOf e2 63 40 != 0 || bitB e2 1 then (.error 4, r2.2)
        else (.ok ⟨va / 4096, sp.asid, bitB e2 7, bitsOf e2 39 12, bitB e2 6, bitB e2 5, bitB e2 4, bitB e2 3, bitB e2 2⟩, r2.2)

/-- A TLB entry matches (R454). -/
def TlbEntry.hits (e : TlbEntry) (asid va : Nat) : Bool := e.vpn == va / 4096 && (e.glob || e.asid == asid)

/-- The access is permitted by a page's bits (R452). -/
def TlbEntry.allows (e : TlbEntry) (task : Bool) (a : Acc) : Bool :=
  (match a with | .fetch => e.x | .load => e.r | .store => e.w) && (!task || e.u)

/-- What an entry makes of an address. -/
def TlbEntry.xl (e : TlbEntry) (task : Bool) (a : Acc) (va cap : Nat) : Xl :=
  if e.allows task a then
    let pa := e.ppn * 4096 + va % 4096
    .phys pa (e.c && (match physTarget cap pa with | .sram _ | .ddr _ => true | _ => false))
  else .fault 3

/-- An entry enters the TLB, the latest used first; when 64 are held one of the others leaves, which one the replacement
leaves open (R454; log entry 1). -/
def State.tlbPut (s : State) (i : Fin 11) (e : TlbEntry) : State :=
  if s.core[i].tlb.length < 64 then s.modCore i fun k => { k with tlb := e :: k.tlb }
  else
    let d := s.drawFree 8
    d.2.modCore i fun k => { k with tlb := e :: k.tlb.eraseIdx (1 + d.1 % 63) }

/-- The translation of an address (R442, R451-R454). -/
def State.translate (s : State) (i : Fin 11) (sp : Space) (a : Acc) (va : Nat) : Xl × State :=
  if va < 0x20000 then
    (if a = .fetch ∨ (!sp.task ∧ !(sp.dma ∧ a = .store)) then .loc va else .fault 3, s)
  else if va < localTop then (if a = .fetch then .fault 3 else .loc va, s)
  else if !sp.en then (if sp.task then .fault 6 else .phys va false, s)
  else
    match s.core[i].tlb.find? fun e => e.hits sp.asid va with
    | some e =>
      (e.xl sp.task a va s.cup.capacity, s.modCore i fun k => { k with tlb := e :: k.tlb.filter (· ≠ e) })
    | none =>
      let r := s.walk i sp va
      match r.1 with
      | .error sub => (.fault sub, r.2)
      | .ok e => (e.xl sp.task a va r.2.cup.capacity, r.2.tlbPut i e)

/-! ### DMA channels that stop (R455-R457) -/

/-- RESULT codes of a descriptor (R456). -/
abbrev dmDONE : Nat := 1
abbrev dmXLATE : Nat := 2
abbrev dmBUS : Nat := 3
abbrev dmMEM_UE : Nat := 4
abbrev dmABORTED : Nat := 5
abbrev dmBAD_DESC : Nat := 6

/-- Read bytes of a descriptor, which lies outside register space: or RESULT and SUB of the failure. -/
def State.dmaFetch (s : State) (i : Fin 11) (d : Dma) (va len : Nat) : Except (Nat × Nat) (List Byte) × State :=
  let r := s.translate i d.space .load va
  match r.1 with
  | .loc va => (if r.2.core[i].localBad va len then .error (dmMEM_UE, 0) else .ok (r.2.core[i].localRead va len), r.2)
  | .phys pa _ =>
    let m := r.2.memRead (s.coreMid i) (s.coreClient i) pa len
    (match m.2.1 with | .ok => .ok m.1 | .bus => .error (dmBUS, 0) | .unc => .error (dmMEM_UE, 0), m.2.2)
  | .fault sub => (.error (dmXLATE, sub), r.2)

/-- Write bytes of a descriptor: RESULT and SUB of the failure, if it fails. -/
def State.dmaPut (s : State) (i : Fin 11) (d : Dma) (va : Nat) (bs : List Byte) : Option (Nat × Nat) × State :=
  let r := s.translate i d.space .store va
  match r.1 with
  | .loc va => (none, r.2.localStore i va bs)
  | .phys pa _ =>
    let m := r.2.memWrite (s.coreMid i) (s.coreClient i) pa bs
    (if m.1 = .ok then none else some (dmBUS, 0), m.2)
  | .fault sub => (some (dmXLATE, sub), r.2)

/-- Words 4 to 7 of a descriptor are written (R456). -/
def State.dmaBack (s : State) (i : Fin 11) (d : Dma) (result side sub done failVa : Nat) : Option (Nat × Nat) × State :=
  s.dmaPut i d (d.desc + 16)
    (bytesLE 4 (result * 2 ^ 28 + side * 2 ^ 24 + sub * 2 ^ 20) ++ bytesLE 4 done ++ bytesLE 4 failVa ++ bytesLE 4 s.tb)

/-- A channel completes or stops with a result (R455-R457): the descriptor is written back, CPL sets. Where the write-back
fails, SIDE is 2, and RESULT is that of the first failure. -/
def State.dmaEnd (s : State) (i : Fin 11) (c : Fin 4) (result side sub done failVa : Nat) : State :=
  let p := s.dmaBack i s.core[i].dma[c] result side sub done failVa
  p.2.modCore i fun k => { k with dma := k.dma.set c { k.dma[c] with
    active := false, cpl := true, ofs := done,
    result := (match p.1 with | some f => if result = dmDONE then f.1 else result | none => result),
    side := if p.1.isSome then 2 else side } }

/-- A stop that no access of the channel causes: R456 names no FAULT_VA for it (log entry 1). -/
def State.dmaEndOpen (s : State) (i : Fin 11) (c : Fin 4) (result side done : Nat) : State :=
  let d := s.drawFree 32
  d.2.dmaEnd i c result side 0 done d.1

/-- A channel in progress is stopped with ABORTED (R455, R464). -/
def State.dmaAbort (s : State) (i : Fin 11) (c : Fin 4) : State :=
  if s.core[i].dma[c].active then s.dmaEndOpen i c dmABORTED 0 s.core[i].dma[c].ofs else s
def State.dmaAbortAll (s : State) (i : Fin 11) : State :=
  (List.finRange 4).foldl (fun (s : State) c => s.dmaAbort i c) s

/-! ### Failure (R463, R464, R466) -/

/-- FAIL_CAUSE codes (R463). -/
abbrev fcCHECKER : Nat := 1
abbrev fcIMEM_UE : Nat := 2
abbrev fcDOUBLE : Nat := 3
abbrev fcWDOG : Nat := 4
abbrev fcPOWER : Nat := 5
abbrev fcLOCKSTEP : Nat := 6

/-- A takeover of port `n` is due; with no Turret available it waits (R464, R466). -/
def State.takeoverDue (s : State) (n : Nat) : State :=
  let s1 := { s with sqc := { s.sqc with due := if n ∈ s.sqc.due then s.sqc.due else s.sqc.due ++ [n] } }
  if s1.turPick.isSome then s1
  else (s1.wr F.SQC_STATUS.PENDING (setBit (s1.rd F.SQC_STATUS.PENDING) n)).wrB F.SQC_EVENT.NO_TURRET true

/-- Core `i` fails (R463): every context halts, its source rises; a port's control is to be taken over. -/
def State.coreFail (s : State) (i : Fin 11) (cause : Nat) : State :=
  if s.core[i].failed then s
  else
    let k := s.core[i]
    let gen := s.rd (F.SLOT_CKPT_STAT.GEN (s.coreSlot i))
    let port := if i.val < 8 then (if (s.server i.val).isSome then none else some i.val) else k.serving
    let s0 := if k.hold then (s.wrB (F.SLOT_CKPT_STAT.CK_BUSY (s.coreSlot i)) false).wrB F.SQC_EVENT.CKPT_FAIL true else s
    let s1 := (s0.dmaAbortAll i).modCore i fun k => { k with
      failed := true, up := false, hold := false, serving := none, loading := false,
      ctx := k.ctx.map fun c => { c with halted := true, wait := none, load := none, mon := none } }
    let s2 := if s1.coreOn i then s1.wr (F.CORE_STATUS.FAIL_CAUSE i.val) cause else s1
    let s3 := ((s2.syncCore i).syncSqc).wrB F.SQC_EVENT.CORE_FAIL true
    let s4 := if i.val = 8 ∨ i.val = 9 then s3.wrB F.SQC_EVENT.TUR_FAIL true else s3
    let s5 := s4.rise (failSrc i (decide (cause = fcLOCKSTEP))) [cause, k.ctx[0].pc, gen]
    match port with
    | some n => if (k.up || k.serving.isSome) && bitB (s.rd F.SQC_CTRL.TKO_AUTO) n then s5.takeoverDue n else s5
    | none => s5

/-! ### Exceptions (R437, R446, R448) -/

abbrev exIALIGN : Nat := 0x01
abbrev exIPF : Nat := 0x02
abbrev exIBUS : Nat := 0x03
abbrev exILLEGAL : Nat := 0x04
abbrev exPRIV : Nat := 0x05
abbrev exALIGN : Nat := 0x06
abbrev exLPF : Nat := 0x07
abbrev exSPF : Nat := 0x08
abbrev exBUS : Nat := 0x09
abbrev exEXCL : Nat := 0x0A
abbrev exCOEF : Nat := 0x0B
abbrev exSYSCALL : Nat := 0x0C
abbrev exBREAK : Nat := 0x0D
abbrev exECC : Nat := 0x0E
abbrev exINTERRUPT : Nat := 0x10
abbrev exRESUME : Nat := 0x11

/-- Exception entry (R446). -/
def Ctx.enter (c : Ctx) (code sub event eval epc : Nat) : Ctx :=
  { c with
    epc := epc, pie := c.ie, plv := c.task, ie := false, exl := true, task := false,
    ecause := code + 2 ^ 8 * sub + 2 ^ 12 * event, eval := eval, mon := none, wait := none, load := none, pc := c.evec }

/-- An exception of context `c` of core `i`; with EXL = 1 a double fault (R448). -/
def State.raise (s : State) (i : Fin 11) (c : Fin 4) (code sub eval : Nat) : State :=
  let x := s.ctx i c
  if x.exl then s.coreFail i fcDOUBLE else s.setCtx i c fun x => x.enter code sub 0 eval x.pc

/-! ### Start, halt, reset (R444, R479) -/

/-- RUN rises: context 0 starts at RESET_PC in level S (R444). -/
def State.coreStart (s : State) (i : Fin 11) : State :=
  let pc := 4 * s.rd (F.RESET_PC.RESET_PC i.val)
  (s.setCore i fun k => { k with
    up := true, cur := 0, ctxRun := 1, icache := [], dcache := [], tlb := [],
    ctx := (k.ctx.map fun c => { c with ran := false, halted := false, wait := none, load := none, mon := none }).set 0
      { k.ctx[0] with pc := pc, task := false, ran := true, halted := false, wait := none, load := none, mon := none,
                      ie := false, exl := false, mmuEn := false },
    wdogTb := s.tb }).wrB (F.CORE_CTRL.RUN i.val) true

/-- RUN falls: the core halts at an instruction boundary (R479). -/
def State.coreHalt (s : State) (i : Fin 11) : State :=
  (s.setCore i fun k => { k with up := false }).wrB (F.CORE_CTRL.RUN i.val) false

/-- CORE_RESET = 1 (R428, R444, R479, R562): the core's own state goes back to its reset values; IMEM and TCM stay. A
Turret that failed in STANDBY stays FAILED (R466). -/
def State.coreReset (s : State) (i : Fin 11) : State :=
  let k := s.core[i]
  let tur := i.val = 8 ∨ i.val = 9
  let s1 := s.setCore i fun k =>
    { imem := k.imem, tcm := k.tcm, flaws := k.flaws, img := k.img, serving := k.serving,
      failed := k.failed && decide tur }
  let s2 := (s1.wrB (F.CORE_CTRL.RUN i.val) false).wr (F.CORE_STATUS.FAIL_CAUSE i.val)
    (if k.failed ∧ tur then s.rd (F.CORE_STATUS.FAIL_CAUSE i.val) else 0)
  if i.val < 8 && (s.server i.val).isSome then s2 else s2.masterReset (s.coreMid i)

/-! ### Checkpoints (R460, R461, R478) -/

/-- ESTAT as a word (R445). -/
def Ctx.estat (c : Ctx) : Nat := b2n c.ie + 2 * b2n c.pie + 4 * b2n c.plv + 8 * b2n c.exl + 16 * b2n c.tkx
/-- VSTAT as a word (R429). -/
def Ctx.vstat (c : Ctx) : Nat := b2n c.vsat + 2 * b2n c.ssat + 4 * b2n c.dz
/-- MMU_CTL as a word (R445). -/
def Ctx.mmuCtl (c : Ctx) : Nat := b2n c.mmuEn * 2 ^ 31 + c.asid

/-- The words of a context in a checkpoint, in the order of R460; log entry 14. -/
def Ctx.words (n : Nat) (c : Ctx) : List Nat :=
  [c.pc, b2n c.task + 2 * b2n c.ran + 4 * b2n c.halted] ++ (c.g.toList.drop 1).map BitVec.toNat ++
    (c.v.toList.flatMap fun v => (List.range 8).map fun j =>
      (v.toList.getD (2 * j) 0).toNat + 2 ^ 16 * (v.toList.getD (2 * j + 1) 0).toNat) ++
    [c.vstat, c.waitLimit, n, c.tbHi, c.tcmpLo, c.tcmp % 2 ^ 32, c.tcmp / 2 ^ 32, c.evec, c.estat, c.epc, c.ecause, c.eval,
      c.escratch, c.imask % 2 ^ 32, c.imask / 2 ^ 32, c.ptbr, c.mmuCtl, c.prio, b2n c.flag]

/-- The bytes of words, padded with zeros to `n` words. -/
def wordBytes (n : Nat) (ws : List Nat) : List Byte :=
  ((ws ++ List.replicate (n - ws.length) 0).take n).flatMap (bytesLE 4)

/-- The context that the words of a checkpoint give back. -/
def Ctx.ofWords (w : Nat → Nat) : Ctx :=
  { pc := w 0, task := bitB (w 1) 0, ran := bitB (w 1) 1, halted := bitB (w 1) 2,
    g := Vector.ofFn fun j => if j.val = 0 then 0 else BitVec.ofNat 32 (w (1 + j.val)),
    v := Vector.ofFn fun j => Vector.ofFn fun l => BitVec.ofNat 16 (w (33 + 8 * j.val + l.val / 2) / 2 ^ (16 * (l.val % 2))),
    vsat := bitB (w 97) 0, ssat := bitB (w 97) 1, dz := bitB (w 97) 2, waitLimit := w 98, tbHi := w 100, tcmpLo := w 101,
    tcmp := w 102 + 2 ^ 32 * w 103, evec := w 104, ie := bitB (w 105) 0, pie := bitB (w 105) 1, plv := bitB (w 105) 2,
    exl := bitB (w 105) 3, tkx := bitB (w 105) 4, epc := w 106, ecause := w 107, eval := w 108, escratch := w 109,
    imask := w 110 + 2 ^ 32 * w 111, ptbr := w 112, mmuEn := bitB (w 113) 31, asid := w 113 % 256, prio := w 114,
    flag := bitB (w 115) 0 }

/-- DMA_STAT (R455). -/
def Dma.stat (d : Dma) : Nat :=
  b2n d.cpl * 2 ^ 31 + b2n d.active * 2 ^ 30 + b2n d.rej * 2 ^ 29 + d.result * 2 ^ 25 + d.side * 2 ^ 23 + d.owner * 2 ^ 21

/-- CKPT_TCM as it acts, in bytes (R478). -/
def State.ckptTcm (s : State) (k : Nat) : Nat := 4096 * min 32 (s.rd (F.SLOT_CKPT.CKPT_TCM k))
/-- The address of buffer A or B of slot `k` (R460). -/
def State.ckptAddr (s : State) (k : Nat) (b : Bool) : Nat :=
  4096 * s.rd (F.SLOT_CKPT_BASE.CKPT_BASE k) + (if b then 4096 + s.ckptTcm k else 0)
/-- IMG_ID of slot `k` (R478). -/
def State.imgId (s : State) (k : Nat) : Nat :=
  s.rd (F.SLOT_IMG_ID_LO.IMG_ID_LO k) + 2 ^ 32 * s.rd (F.SLOT_IMG_ID_HI.IMG_ID_HI k)

/-- The first 0xFFC bytes of a checkpoint header (R460). -/
def State.ckptHead (s : State) (i : Fin 11) (gen : Nat) : List Byte :=
  let k := s.core[i]
  let slot := s.coreSlot i
  let first := wordBytes 10 [0x5043584B, gen + 2 ^ 16 * (s.ckptTcm slot / 4096) + 2 ^ 24, s.tb % 2 ^ 32, s.tb / 2 ^ 32,
    (k.img.getD (s.imgId slot)) % 2 ^ 32, (k.img.getD (s.imgId slot)) / 2 ^ 32, k.ctxRun, k.ctxEntry, k.wdog, 0]
  let dmas := (List.finRange 4).flatMap fun c =>
    let d := k.dma[(c : Fin 4)]
    wordBytes 4 [d.desc, d.ofs, d.stat, d.ptbr]
  let ctxs := (List.finRange 4).flatMap fun c => wordBytes 128 (Ctx.words c.val k.ctx[(c : Fin 4)])
  let all := first ++ dmas
  ((all ++ List.replicate (0x80 - all.length) 0) ++ ctxs ++ List.replicate 0xFFC 0).take 0xFFC

/-- Clean every dirty line of core `i`'s D-cache (R421, R461). -/
def State.dcCleanAll (s : State) (i : Fin 11) : State :=
  let s1 := s.core[i].dcache.foldl (fun (s : State) e =>
    if e.2.dirty then
      let r := s.memWrite (s.coreMid i) (s.coreClient i) (32 * e.1) e.2.data
      if r.1 = .ok then r.2 else r.2.wbFault i
    else s) s
  s1.modCore i fun k => { k with dcache := k.dcache.map fun e => (e.1, { e.2 with dirty := false }) }

/-- The valid buffer with the higher GEN of slot `k` (R464), by serial comparison. -/
def State.ckptLatest (s : State) (k : Nat) : Option Bool :=
  let a := s.on (F.SLOT_CKPT_STAT.VALID_A k)
  let b := s.on (F.SLOT_CKPT_STAT.VALID_B k)
  if a && b then some (decide (0 < seqDist s.sqc.genB[slot11 k] s.sqc.genA[slot11 k]))
  else if b then some true
  else if a then some false
  else none

/-- VALID_A or VALID_B of a slot. -/
def validFld (k : Nat) (b : Bool) : Fld := if b then F.SLOT_CKPT_STAT.VALID_B k else F.SLOT_CKPT_STAT.VALID_A k

/-- A checkpoint of core `i` is written to the buffer that is not the latest valid one (R460, R461); `held` is the hold in
10 ns units. -/
def State.ckptWrite (s : State) (i : Fin 11) (held : Nat) : State :=
  let slot := s.coreSlot i
  let b := match s.ckptLatest slot with | some l => !l | none => false
  let gen := (s.rd (F.SLOT_CKPT_STAT.GEN slot) + 1) % 2 ^ 16
  let s1 := (s.dcCleanAll i).wrB (validFld slot b) false
  let a := s.ckptAddr slot b
  let tcm := s.core[i].tcm.readN 0 (s.ckptTcm slot)
  let head := s1.ckptHead i gen
  let w1 := s1.memWrite 4 (loaderClient slot) (a + 4096) tcm
  let w2 := w1.2.memWrite 4 (loaderClient slot) a (head ++ bytesLE 4 (byteCrc (head ++ tcm)))
  let s2 := ((w2.2.modCore i fun k => { k with hold := false }).wrB (F.SLOT_CKPT_STAT.CK_BUSY slot) false).wr
    (F.SLOT_CKPT_STAT.HOLD_LAST slot) (min 8191 held)
  if w1.1 ≠ .ok ∨ w2.1 ≠ .ok then
    (s2.wrB F.SQC_EVENT.CKPT_FAIL true).rise 0x2A3
      [s2.word [F.SLOT_CKPT_STAT.GEN slot, F.SLOT_CKPT_STAT.VALID_B slot, F.SLOT_CKPT_STAT.VALID_A slot,
        F.SLOT_CKPT_STAT.CK_BUSY slot, F.SLOT_CKPT_STAT.HOLD_LAST slot]]
  else
    let s3 := (s2.wrB (validFld slot b) true).wr (F.SLOT_CKPT_STAT.GEN slot) gen
    { s3 with sqc := { s3.sqc with
        genA := if b then s3.sqc.genA else s3.sqc.genA.set (slot11 slot) gen,
        genB := if b then s3.sqc.genB.set (slot11 slot) gen else s3.sqc.genB } }

/-- A checkpoint of core `i` is requested: the core is held (R461). -/
def State.ckptStart (s : State) (i : Fin 11) : State :=
  if s.coreUp i then
    (s.modCore i fun k => { k with hold := true }).wrB (F.SLOT_CKPT_STAT.CK_BUSY (s.coreSlot i)) true
  else s

/-! ### Loading (R464, R465, R467) -/

/-- RESUME sub-codes (R446). -/
abbrev rsTAKEOVER : Nat := 1
abbrev rsPLANNED : Nat := 2
abbrev rsRELEASE : Nat := 3
abbrev rsRELOAD : Nat := 4
abbrev rsRESTART : Nat := 5
abbrev rsFRESH : Nat := 0xF

/-- A loader read has failed: the core is left HALTED (R467). -/
def State.loaderFail (s : State) (i : Fin 11) : State :=
  (s.setCore i fun k => { k with up := false, loading := false }).rise 0x2A2 [s.rd F.SQC_STATUS.SERVED]

/-- The image of slot `slot` goes to core `i`'s IMEM, unless it holds it: whether it did (R464). -/
def State.loadImage (s : State) (i : Fin 11) (slot : Nat) : Bool × State :=
  if s.core[i].img = some (s.imgId slot) then (true, s)
  else
    let r := s.memRead 4 (loaderClient slot) (4096 * s.rd (F.SLOT_IMG_BASE.IMG_BASE slot)) 0x20000
    if r.2.1 = .ok then
      (true, r.2.2.modCore i fun k => { k with
        imem := Mem.ofBytes 0 r.1, img := some (s.imgId slot), flaws := k.flaws.filter fun w => decide (0x8000 ≤ w) })
    else (false, r.2.2)

/-- Read a checkpoint buffer: its bytes where its CRC checks; an error of the read apart (R464, R467). -/
def State.ckptRead (s : State) (slot : Nat) (b : Bool) : Except Unit (Option (List Byte)) × State :=
  let r := s.memRead 4 (loaderClient slot) (s.ckptAddr slot b) (4096 + s.ckptTcm slot)
  if r.2.1 = .ok then
    let head := r.1.take 0xFFC
    let ok := natLE ((r.1.drop 0xFFC).take 4) == byteCrc (head ++ r.1.drop 4096)
    (.ok (if ok then some r.1 else none), r.2.2)
  else (.error (), r.2.2)

/-- The contexts of a checkpoint (R460). -/
def ckptCtx (bs : List Byte) (c : Nat) : Ctx :=
  Ctx.ofWords fun j => natLE ((bs.drop (0x80 + 0x200 * c + 4 * j)).take 4)

/-- A context resumes from a checkpoint (R465). -/
def Ctx.resume (c : Ctx) (sub gen : Nat) : Ctx :=
  { (c.enter exRESUME sub 0 gen c.pc) with tkx := c.tkx || c.exl, ran := true }

/-- Core `i` takes the state of a checkpoint (R464, R465). -/
def Core.restore (k : Core) (bs : List Byte) (sub : Nat) : Core :=
  let w (o : Nat) : Nat := natLE ((bs.drop o).take 4)
  let gen := w 4 % 2 ^ 16
  let run := w 0x18 % 16
  { k with
    up := true, cur := 0, tlb := [], icache := [], dcache := [], ctxRun := run, ctxEntry := w 0x1C, wdog := w 0x20 % 2 ^ 16,
    tcm := Mem.ofBytes 0 (bs.drop 4096), flaws := k.flaws.filter fun x => decide (x < 0x8000),
    ctx := Vector.ofFn fun j =>
      let c := ckptCtx bs j.val
      if bitB run j.val && !c.halted then c.resume sub gen else c,
    dma := Vector.ofFn fun j =>
      let o := 0x28 + 0x10 * j.val
      { desc := w o, ofs := w (o + 4), cpl := bitB (w (o + 8)) 31 || bitB (w (o + 8)) 30, rej := bitB (w (o + 8)) 29,
        result := if bitB (w (o + 8)) 30 then 5 else bitsOf (w (o + 8)) 28 25, side := bitsOf (w (o + 8)) 24 23,
        owner := bitsOf (w (o + 8)) 22 21, ptbr := w (o + 12) } }

/-- With no valid checkpoint only context 0 starts, at RESET_PC (R465). -/
def State.freshStart (s : State) (i : Fin 11) : State :=
  (s.coreStart i).modCtx i 0 fun c => { c with ecause := exRESUME + 2 ^ 8 * rsFRESH, eval := 0 }

/-- Image and checkpoint of a slot go to core `i`, and its contexts resume: whether they do (R464, R465, R467). -/
def State.loadCore (s : State) (i : Fin 11) (slot sub : Nat) : Bool × State :=
  let im := s.loadImage i slot
  if !im.1 then (false, im.2.loaderFail i)
  else
    match im.2.ckptLatest slot with
    | none => (true, (im.2.modCore i fun k => { k with tcm := [] }).freshStart i)
    | some b =>
      let r := im.2.ckptRead slot b
      match r.1 with
      | .error _ => (false, r.2.loaderFail i)
      | .ok (some bs) =>
        (true, (r.2.setCore i fun k => { (k.restore bs sub) with wdogTb := s.tb }).wrB (F.CORE_CTRL.RUN i.val) true)
      | .ok none => (true, (r.2.modCore i fun k => { k with tcm := [] }).freshStart i)

/-- Turret `t` takes over port `n` (R464, R465): whether it does. -/
def State.takeOver (s : State) (t : Fin 2) (n sub : Nat) : Bool × State :=
  let i : Fin 11 := ⟨8 + t.val, by omega⟩
  let s1 := s.setCore i fun k => { k with
    up := false, icache := [], dcache := [], tlb := [], loading := true,
    ctx := k.ctx.map fun c => { c with mon := none } }
  let r := s1.loadCore i n sub
  if r.1 then
    let s2 := (r.2.setCore i fun k => { k with serving := some n, loading := false }).wrB F.SQC_EVENT.TAKEOVER true
    let pend := s2.rd F.SQC_STATUS.PENDING
    let s3 : State := { s2 with sqc := { s2.sqc with
      due := s2.sqc.due.filter (· ≠ n), stuck := s2.sqc.stuck.filter (· ≠ n) } }
    (true, s3.wr F.SQC_STATUS.PENDING (if bitB pend n then pend - 2 ^ n else pend))
  else r

/-! ### SQC commands (R468, R475) -/

/-- A takeover runs: one is due, and a Turret can be chosen (R464, R466). -/
def State.takeoverRuns (s : State) : Bool := !s.sqc.due.isEmpty && s.turPick.isSome

/-- The SQC can run the command: it runs this one, or none and no takeover (R468). -/
def State.sqcFree (s : State) (cmd target : Nat) : Bool :=
  match s.sqc.run with | none => !s.takeoverRuns | some r => r.cmd == cmd && r.target == target

/-- A command issued while another command or a takeover runs is refused (R468). -/
def State.sqcRefuse (s : State) : State := (s.wr F.SQC_CMD.RESULT 3).wrB F.SQC_EVENT.CMD_DONE true

/-- A command ends: RESULT 2 DONE or 3 REFUSED, CMD_DONE (R475, R477). -/
def State.sqcEnd (s : State) (r : Nat) : State :=
  (({ s with sqc := { s.sqc with run := none } }).wr F.SQC_CMD.RESULT r).wrB F.SQC_EVENT.CMD_DONE true

/-- TAKE n (R468). -/
def State.sqcTake (s : State) (n : Fin 8) (held : Nat) : State :=
  let i : Fin 11 := ⟨n.val, by omega⟩
  match (if s.coreUp i && (s.server n.val).isNone then s.turPick else none) with
  | none => s.sqcEnd 3
  | some t =>
    let s1 := ((s.ckptWrite i held).dmaAbortAll i).coreHalt i
    let r := s1.takeOver t n.val rsPLANNED
    r.2.sqcEnd (if r.1 then 2 else 3)

/-- RELEASE n (R468, R562). -/
def State.sqcRelease (s : State) (n : Fin 8) (held : Nat) : State :=
  let i : Fin 11 := ⟨n.val, by omega⟩
  match s.server n.val with
  | none => s.sqcEnd 3
  | some t =>
    if s.coreOn i && !s.core[i].up && !s.core[i].failed then
      let s1 := ((s.ckptWrite t held).dmaAbortAll t).coreHalt t
      let s2 := (s1.setCore t fun k => { k with serving := none }).masterReset (8 + n.val)
      let r := s2.loadCore i n.val rsRELEASE
      if r.1 then (r.2.wrB F.SQC_EVENT.RELEASED true).sqcEnd 2 else r.2.sqcEnd 3
    else s.sqcEnd 3

/-- The core that uses slot `k`, where one does (R441, R468). -/
def State.slotCore (s : State) (k : Nat) : Option (Fin 11) :=
  if k < 8 then some ((s.server k).getD (slot11 k))
  else if k < 10 then (if s.core[slot11 k].serving.isSome then none else some (slot11 k))
  else if k = 10 then some lantern
  else none

/-- RELOAD s (R468, R470). A core that does not run only takes the image. -/
def State.sqcReload (s : State) (k held : Nat) : State :=
  match (s.slotCore k).filter fun i => s.coreOn i && !s.core[i].failed with
  | none => s.sqcEnd 3
  | some i =>
    if s.core[i].up then
      let s1 := ((s.ckptWrite i held).dmaAbortAll i).setCore i fun k => { k with up := false }
      let r := s1.loadCore i k rsRELOAD
      if r.1 then (r.2.wrB F.SQC_EVENT.RELOADED true).sqcEnd 2 else r.2.sqcEnd 3
    else
      let r := s.loadImage i k
      if r.1 then (r.2.wrB F.SQC_EVENT.RELOADED true).sqcEnd 2 else (r.2.loaderFail i).sqcEnd 3

end Sys2Proof.Machine
end

