-- ==== Sys2Proof/Machine/Spill.lean ====
section
/-! DEFINITION. The host side of a port or of a twin engine: ingress FIFO, spill pool, spill pages, congestion
(07_retransmission_spill.md R219-R232, 14_cupola.md R490, R497-R500). -/

namespace Sys2Proof.Machine

/-! ### Owners -/

/-- The pair of a twin engine's owner number. -/
def pairOfOwner (o : Fin 12) : Fin 4 := ⟨o.val % 4, by omega⟩

/-- TW_ACTIVE of a pair (R256). -/
def State.twActive (s : State) (k : Fin 4) : Bool := s.on (F.TW_STATUS.TW_ACTIVE k)

/-- Whose host side carries the traffic of port `n` (R256). -/
def State.ownerOf (s : State) (n : Fin 8) : Fin 12 := if s.twActive (pairOf n) then ownTwin (pairOf n) else ownPort n

/-- The owners in effect: ports outside active pairs, and the engines of active pairs (R258). -/
def State.owners (s : State) : List (Fin 12) :=
  (List.finRange 12).filter fun o => if o.val < 8 then !s.twActive (pairOfOwner o) else s.twActive (pairOfOwner o)

/-- The ports in whose pages an owner's host-side events are set (R258). -/
def ownerPorts (o : Fin 12) : List (Fin 8) :=
  if o.val < 8 then [⟨o.val % 8, by omega⟩] else [portOf (pairOfOwner o) 0, portOf (pairOfOwner o) 1]

/-- Set a host-side bit of RTX_EVENT in each page whose domain is ON (R258). -/
def State.hostEvent (s : State) (o : Fin 12) (f : Nat → Fld) : State :=
  (ownerPorts o).foldl (fun s (n : Fin 8) => if s.domOn (14 * n.val + 10) then s.wrB (f n) true else s) s

/-- Count in BLK_ERR in each page whose domain is ON (R258). -/
def State.blkErr (s : State) (o : Fin 12) (f : Nat → Fld) (k : Nat) : State :=
  (ownerPorts o).foldl (fun s (n : Fin 8) => if s.domOn (14 * n.val + 9) then s.count (f n) k else s) s

/-! ### The address map and the spill pool -/

/-- The 4 KiB unit of DDR4 of spill page `k` (R497). -/
def Cup.pageUnit (c : Cup) (k : Nat) : Nat := c.spt.base + k - ddrUnit0
/-- Spill page `k` lies within the configured capacity (R497). -/
def Cup.pageIn (c : Cup) (k : Nat) : Bool := decide (ddrUnit0 ≤ c.spt.base + k) && (c.unit (c.pageUnit k)).isSome
/-- The channel of spill page `k`; 0 beyond the configured capacity (R497). -/
def Cup.pageCh (c : Cup) (k : Nat) : Nat :=
  if c.pageIn k then (match c.unit (c.pageUnit k) with | some p => p.1 | none => 0) else 0
/-- The byte offset of spill page `k` within DDR4. -/
def Cup.pageAddr (c : Cup) (k : Nat) : Nat := 4096 * c.pageUnit k

/-- Pages that can be taken: free pages of the channels in service (R499). -/
def State.poolFree (s : State) : Nat :=
  ((List.range 4).filter s.chUp).foldl (fun a c => a + (s.cup.spt.free.getD c []).length) 0

/-- Pages that an owner holds (R223). -/
def State.inUse (s : State) (o : Fin 12) : Nat := s.side[o].pages.length + s.side[o].toRelease.length

/-- SPILL_RSV and the cap of an owner: SPILL_MAX below SPILL_RSV acts as SPILL_RSV (R223). -/
def State.spillRsv (s : State) (o : Fin 12) : Nat := s.rd (F.SPILL_PAGES.SPILL_RSV (spillPort o))
def State.spillCap (s : State) (o : Fin 12) : Nat := max (s.rd (F.SPILL_PAGES.SPILL_MAX (spillPort o))) (s.spillRsv o)

/-- The unused reserves of the other owners (R223). -/
def State.otherRsv (s : State) (o : Fin 12) : Nat :=
  (s.owners.filter (· ≠ o)).foldl (fun a p => a + (s.spillRsv p - s.inUse p)) 0

/-- The pages an owner can still take (R223): its own unused reserve, then what no other reserve needs; with RSV_SHORT
whatever is free, up to its cap (R499). -/
def State.available (s : State) (o : Fin 12) : Nat :=
  if !s.on F.SPL_STATUS.SPL_RDY then 0
  else if s.on F.CUP_STATUS.RSV_SHORT then min (s.spillCap o - s.inUse o) s.poolFree
  else
    let own := s.spillRsv o - s.inUse o
    let beyond := min (s.spillCap o - max (s.inUse o) (s.spillRsv o)) (s.poolFree - s.otherRsv o - own)
    min (own + beyond) s.poolFree

/-- The sum of every owner's SPILL_RSV (R223). -/
def State.rsvSum (s : State) : Nat := s.owners.foldl (fun a o => a + s.spillRsv o) 0

/-- Recompute SPL_FREE, BAD_PAGES and RSV_SHORT (R499, R509). -/
def State.syncPool (s : State) : State :=
  let spt := s.cup.spt
  let short := s.on F.SPL_STATUS.SPL_RDY && decide (spt.pages - spt.bad.length < s.rsvSum)
  let s1 := if short && !s.on F.CUP_STATUS.RSV_SHORT then s.wrB F.CUP_EVENT.RSV_SHORT true else s
  ((s1.wr F.SPL_STATUS.SPL_FREE (spt.free.foldl (fun a l => a + l.length) 0)).wr F.SPL_BAD.BAD_PAGES spt.bad.length).wrB
    F.CUP_STATUS.RSV_SHORT short

/-- Take the head of channel `c`'s free list. -/
def Spt.take (t : Spt) (c : Nat) : Spt := { t with free := t.free.set c ((t.free.getD c []).drop 1) }

/-- The channel the allocator takes for an owner: the first in service with a free page, from the one after that of
the owner's last page (R499). -/
def State.allocCh (s : State) (o : Fin 12) : Option Nat :=
  let start := match s.side[o].lastCh with | some c => c + 1 | none => o.val
  ((List.range 4).map fun i => (start + i) % 4).find? fun c => s.chUp c && !(s.cup.spt.free.getD c []).isEmpty

/-- IN_USE and SPILL_PEAK follow the pages held. -/
def State.syncInUse (s : State) (o : Fin 12) : State :=
  (s.wr (F.SPILL_STATUS.IN_USE (spillPort o)) (s.inUse o)).peak (F.SPILL_PEAK.PEAK (spillPort o)) (s.inUse o)

/-- Whether an owner could be given a page now. -/
def State.canAlloc (s : State) (o : Fin 12) : Bool := decide (0 < s.available o) && (s.allocCh o).isSome

/-- Give an owner one page (R499). -/
def State.allocPage (s : State) (o : Fin 12) : State :=
  match s.allocCh o with
  | none => s
  | some c =>
    let k := (s.cup.spt.free.getD c []).headD 0
    let s1 := { s with cup := { s.cup with spt := s.cup.spt.take c } }
    let s2 := s1.modSide o fun h => { h with pages := h.pages ++ [{ page := k }], lastCh := some c }
    (s2.syncInUse o).syncPool

/-- Return one page to its free list, or as BAD where its channel retired under it (R223, R495). -/
def State.freePage (s : State) (k : Nat) : State :=
  let c := s.cup.pageCh k
  let t := s.cup.spt
  let t' := if k ∈ t.doomed then { t with bad := k :: t.bad, doomed := t.doomed.filter (· ≠ k) }
    else { t with free := t.free.set c (t.free.getD c [] ++ [k]) }
  ({ s with cup := { s.cup with spt := t' } }).syncPool

/-! ### Congestion (R224, R225, R384) -/

/-- Blocks that fill `v` units of 4 KiB of FIFO, at 8 bytes a block. -/
def fifoBlocks (v : Nat) : Nat := 512 * v

/-- SPILL_ON and PAUSE_FIFO as they act, in blocks (R244). -/
def State.spillOn (s : State) (o : Fin 12) : Nat := fifoBlocks (max 1 (s.rd (F.SPILL_CTRL.SPILL_ON (spillPort o))))
def State.pauseFifo (s : State) (o : Fin 12) : Nat :=
  let v := s.rd (F.SPILL_CTRL.PAUSE_FIFO (spillPort o))
  max (s.spillOn o) (fifoBlocks (if v = 0 then 12 else v))

/-- The owner is spilling (R219). -/
def State.spilling (s : State) (o : Fin 12) : Bool := s.on (F.SPILL_STATUS.SPILLING (spillPort o))

/-- The port whose link an owner's traffic takes: its own, or for an engine any member. -/
def State.ownerSpire (s : State) (o : Fin 12) : Bool :=
  (ownerPorts o).any fun n => (s.link n == stUP || s.link n == stHOLD) && s.rd (F.LINK_STATUS.MODE n) == 7

/-- The lane that carries the owner's traffic toward the host (R257). -/
def State.laneOf (s : State) (o : Fin 12) : Fin 8 :=
  if o.val < 8 then ⟨o.val % 8, by omega⟩
  else
    let k := pairOfOwner o
    portOf k (if s.on (F.TW_STATUS.LANE k) then 1 - s.twin[k].primary else s.twin[k].primary)

/-- XOFF_LVL and XON_LVL of a lane as they act, in blocks (R395). -/
def State.xoff (s : State) (n : Fin 8) : Nat :=
  let v := s.rd (F.HL_PAUSE.XOFF_LVL n)
  fifoBlocks (if v = 0 then 12 else v)
def State.xon (s : State) (n : Fin 8) : Nat := min (fifoBlocks (s.rd (F.HL_PAUSE.XON_LVL n))) (s.xoff n)

/-- Whether ICONG of an owner is to rise, and whether it is to fall (R225; R384 in standard modes). -/
def State.congested (s : State) (o : Fin 12) : Bool × Bool :=
  let fifo := s.side[o].ingress.length
  if s.ownerSpire o then
    let hr := s.rd (F.SPILL_CTRL.HEADROOM (spillPort o))
    let full := s.on (F.SPILL_STATUS.SPILL_FULL (spillPort o))
    ((s.spilling o && decide (s.available o ≤ hr)) || full || decide (s.pauseFifo o ≤ fifo),
     (decide (2 * hr ≤ s.available o) || !s.spilling o) && decide (fifo ≤ s.spillOn o) && !full)
  else (decide (s.xoff (s.laneOf o) ≤ fifo), decide (fifo ≤ s.xon (s.laneOf o)))

/-- A PAUSE frame is due toward the host (R384). -/
def State.askPause (s : State) (o : Fin 12) (q : Nat) : State :=
  if s.on (F.SPILL_CTRL.FC_EN (spillPort o)) then s.modSide o fun h => { h with pause := some q, pauseTb := s.tb } else s

/-- The registers of an owner's host side hold: their domain is ON (R244, R258). -/
def State.spillRegs (s : State) (o : Fin 12) : Bool := s.domOn (if o.val < 8 then 14 * o.val + 10 else 124)

/-- Count in a counter of an owner's host side: in Spire mode only, and while its domain is ON (R253). -/
def State.hostCount (s : State) (o : Fin 12) (f : Fld) (k : Nat := 1) : State :=
  s.iff (s.spillRegs o && (s.ownerSpire o || decide (8 ≤ o.val))) fun s => s.count f k

/-- Evaluate ICONG (R225). -/
def State.icong (s : State) (o : Fin 12) : State :=
  let f := F.SPILL_STATUS.ICONG (spillPort o)
  if s.on f then
    if (s.congested o).2 && !(s.congested o).1 then (s.wrB f false).askPause o 0 else s
  else if (s.congested o).1 then
    ((((s.wrB f true).hostCount o (F.SPILL_EV.ICONG_ON (spillPort o))).hostEvent o F.RTX_EVENT.ICONG_RISE)).askPause o
      (s.rd (F.HL_PAUSE.PAUSE_QUANTA (s.laneOf o)))
  else s

/-- SPILL_FULL sets, in status and event (R224). -/
def State.setSpillFull (s : State) (o : Fin 12) : State :=
  if s.on (F.SPILL_STATUS.SPILL_FULL (spillPort o)) then s
  else (s.wrB (F.SPILL_STATUS.SPILL_FULL (spillPort o)) true).hostEvent o F.RTX_EVENT.SPILL_FULL

/-- Entry to spilling (R220). SPILL_FULL clears with the allocation itself (R224). -/
def State.spillEnter (s : State) (o : Fin 12) : State :=
  ((s.wrB (F.SPILL_STATUS.SPILLING (spillPort o)) true).count (F.SPILL_EV.SPILL_ENTRIES (spillPort o))).hostEvent o
    F.RTX_EVENT.SPILL_START

/-- The page that the write side fills, if any. -/
def HostSide.open? (h : HostSide) : Option SpillPage := h.pages.getLast?.filter fun p => !p.closed

/-- A block that goes on with an Ethernet frame or ends it. -/
def Blk.goesOn (b : Blk) : Bool := !b.ctl || b.isTerm || b == errorBlk

/-- An Ethernet frame ends with this block of a stream: its terminate block, or the Error block that ends a cut or truncated
frame (R226, R389), which nothing of the frame follows: not the next block, nor, at the end of what is held, one that is still
to come (`more`). -/
def Blk.endsFrame (b : Blk) (next : Option Blk) (more : Bool) : Bool :=
  b.isTerm || (b == errorBlk && (match next with | some c => !c.goesOn | none => !more))

/-- The last Ethernet frame at the FIFO's input is still coming in and is being stored. -/
def HostSide.coming (h : HostSide) : Bool := h.inFrame && !h.dropping

/-- An Idle or LPI control block, which the FIFO's output deletes outside an Ethernet frame (R219, R356). -/
def Blk.isFill (b : Blk) : Bool := b == idleBlk || b == lpiBlk

/-- Delete the fill blocks outside an Ethernet frame from a stream, given whether it begins inside one (R219). -/
def dropFill (more : Bool) : Bool → List Blk → List Blk
  | _, [] => []
  | inF, b :: bs =>
    if inF then b :: dropFill more (!b.endsFrame bs.head? more) bs
    else if b.isFill then dropFill more false bs
    else b :: dropFill more b.isStart bs

/-- The spilling owner needs a page for its next block (R224): a block to write, not fill that is deleted (R219). -/
def State.needPage (s : State) (o : Fin 12) : Bool :=
  s.spilling o && s.side[o].open?.isNone &&
    !(s.side[o].wbuf.isEmpty && (dropFill s.side[o].coming s.side[o].outFrame s.side[o].ingress).isEmpty)

/-- Evaluate the FIFO level: entry to spilling, spill-full, congestion (R220, R224, R225). -/
def State.spillCheck (s : State) (o : Fin 12) : State :=
  let s1 :=
    if s.spilling o then
      if s.needPage o && !s.canAlloc o then s.setSpillFull o else s
    else if s.ownerSpire o && s.on (F.SPILL_CTRL.SPILL_EN (spillPort o)) &&
        decide (s.spillOn o ≤ s.side[o].ingress.length) then
      if s.canAlloc o then s.spillEnter o else s.setSpillFull o
    else s.wrB (F.SPILL_STATUS.SPILL_FULL (spillPort o)) false
  s1.icong o

/-- What changes the pages that owners can take makes ICONG of every owner follow (R223, R225). -/
def State.icongAll (s : State) : State := s.owners.foldl State.icong s

/-! ### The ingress FIFO (R219, R226) -/

/-- Capacity of an ingress and of an egress FIFO, in blocks. -/
abbrev fifoCap : Nat := 8192

/-- A block enters the ingress FIFO, or is dropped or truncated (R226). -/
def State.ingressPush (s : State) (o : Fin 12) (b : Blk) : State :=
  let h := s.side[o]
  let sp := spillPort o
  if h.inFrame then
    let ends := b.isTerm
    if h.dropping then s.modSide o fun h => { h with dropping := !ends, inFrame := !ends }
    else if h.ingress.length + 1 < fifoCap then
      s.modSide o fun h => { h with ingress := h.ingress ++ [b], inFrame := !ends }
    else
      ((s.modSide o fun h => { h with ingress := h.ingress ++ [errorBlk], dropping := !ends, inFrame := !ends }).hostCount o
        (F.ING_LOSS.TRUNC sp)).hostEvent o F.RTX_EVENT.DROP
  else if b.isStart then
    if fifoCap - h.ingress.length < 1208 then
      ((s.modSide o fun h => { h with dropping := true, inFrame := true }).hostCount o (F.ING_DROP.DROP_FRAMES sp)).hostEvent o
        F.RTX_EVENT.DROP
    else s.modSide o fun h => { h with ingress := h.ingress ++ [b], inFrame := true, dropping := false }
  else if h.ingress.length + 1 < fifoCap then s.modSide o fun h => { h with ingress := h.ingress ++ [b] }
  else s

/-- Pull blocks out of the FIFO until `k` have left (R219): what leaves, whether the stream is inside a frame then, what stays;
`more` says that the last frame is still coming in. -/
def pullBlocks (more : Bool) : Nat → Bool → List Blk → List Blk × Bool × List Blk
  | 0, inF, bs => ([], inF, bs)
  | _ + 1, inF, [] => ([], inF, [])
  | k + 1, inF, b :: bs =>
    if !inF && b.isFill then pullBlocks more (k + 1) false bs
    else
      let r := pullBlocks more k (if inF then !b.endsFrame bs.head? more else b.isStart) bs
      (b :: r.1, r.2.1, r.2.2)

/-- Fill the spill write buffer to one group. -/
def State.fillWrite (s : State) (o : Fin 12) : State :=
  s.modSide o fun h =>
    let r := pullBlocks h.coming (8 - h.wbuf.length) h.outFrame h.ingress
    { h with wbuf := h.wbuf ++ r.1, outFrame := r.2.1, ingress := r.2.2 }

/-! ### Spill pages (R222) -/

/-- The 65 bytes of a group of eight blocks. -/
def groupBytes (bs : List Blk) : List Byte :=
  BitVec.ofNat 8 ((List.range 8).foldl (fun a i => a + b2n ((bs.getD i idleBlk).ctl) * 2 ^ i) 0) ::
    (List.range 8).flatMap fun i => bytesLE 8 ((bs.getD i idleBlk).pay)

/-- The eight blocks of a group of 65 bytes. -/
def groupBlocks (bs : List Byte) : List Blk :=
  let hd := (bs.headD 0).toNat
  (List.range 8).map fun i => ⟨bitB hd i, natLE ((bs.drop (1 + 8 * i)).take 8)⟩

/-- Write bytes of a page for an owner, where its channel is in service (R491). -/
def State.pageWrite (s : State) (o : Fin 12) (k off : Nat) (bs : List Byte) : State :=
  if s.chUp (s.cup.pageCh k) then
    ((s.grantUnits (ownerClient o) (unitsOf off bs.length)).ddrWrite 0x21 (s.cup.pageAddr k + off) bs noEcc).2
  else s

/-- Change the last page an owner holds. -/
def State.modLast (s : State) (o : Fin 12) (f : SpillPage → SpillPage) : State :=
  s.modSide o fun h => { h with pages := h.pages.dropLast ++ (h.pages.getLast?.map f).toList }

/-- Write one group, of `k` blocks of the write buffer and Idle padding, to the open page. -/
def State.writeGroup (s : State) (o : Fin 12) (p : SpillPage) : State :=
  let bs := s.side[o].wbuf.take 8
  let s1 := s.pageWrite o p.page (65 * p.groups) (groupBytes bs)
  let s2 := s1.modLast o fun p =>
    { p with groups := p.groups + 1, blocks := p.blocks + bs.length, held := p.held ++ bs }
  (s2.modSide o fun h => { h with wbuf := h.wbuf.drop 8 }).count64 (F.SPILL_BLOCKS_LO.SPB_LO (spillPort o))
    (F.SPILL_BLOCKS_HI.SPB_HI (spillPort o)) bs.length

/-- Write the trailer and close the open page. -/
def State.closePage (s : State) (o : Fin 12) (p : SpillPage) : State :=
  (s.pageWrite o p.page 4095 [BitVec.ofNat 8 p.groups]).modLast o fun p => { p with closed := true }

/-- Room for a group in the 16 KiB spill read buffer. -/
def rbufCap : Nat := 2048

/-- The early close of R222: every earlier page read, and room for a group in the read buffer. -/
def HostSide.mayClose (h : HostSide) : Bool :=
  (h.pages.dropLast.all fun p => p.readG == p.groups) && decide (h.rbuf.length + 8 ≤ rbufCap)

/-- Close the open page where R222 says so: full, or early with its last group padded. -/
def State.closeCheck (s : State) (o : Fin 12) : State :=
  match s.side[o].open? with
  | none => s
  | some p =>
    if p.groups = 63 then s.closePage o p
    else if s.side[o].mayClose && (decide (0 < p.groups) || !s.side[o].wbuf.isEmpty) then
      let s1 := if s.side[o].wbuf.isEmpty then s else s.writeGroup o p
      match s1.side[o].open? with
      | some p1 => s1.closePage o p1
      | none => s1
    else s

/-- Release the pages at the head whose last block has left the read buffer (R223). -/
def State.releasePages (s : State) (o : Fin 12) : Nat → State
  | 0 => s
  | fuel + 1 =>
    match s.side[o].pages with
    | p :: ps =>
      if p.closed && p.readG == p.groups && p.inBuf == 0 then
        ((((s.modSide o fun h => { h with pages := ps }).freePage p.page).syncInUse o).icongAll).releasePages o fuel
      else s
    | [] => s

/-- Return to direct mode when no page is held and both buffers are empty (R221). -/
def State.spillExit (s : State) (o : Fin 12) : State :=
  if s.spilling o && s.side[o].pages.isEmpty && s.side[o].wbuf.isEmpty && s.side[o].rbuf.isEmpty then
    (s.wrB (F.SPILL_STATUS.SPILLING (spillPort o)) false).icong o
  else s

/-- Blocks leave the read buffer: the pages they came from count them out, oldest first. -/
def countOut : Nat → List SpillPage → List SpillPage
  | _, [] => []
  | k, p :: ps => { p with inBuf := p.inBuf - k } :: countOut (k - p.inBuf) ps

/-- `k` blocks have left the read buffer for the framer. -/
def State.leftBuffer (s : State) (o : Fin 12) (k : Nat) : State :=
  if k = 0 then s
  else
    let s1 := s.modSide o fun h => { h with pages := countOut k h.pages }
    let s2 := s1.releasePages o s1.side[o].pages.length
    if s2.side[o].pages.length < s1.side[o].pages.length then s2.spillExit o else s2

/-- The word of an owner's SPILL_STATUS (R246). -/
def State.spillWord (s : State) (o : Fin 12) : Nat :=
  let n := spillPort o
  s.word [F.SPILL_STATUS.IN_USE n, F.SPILL_STATUS.SPILLING n, F.SPILL_STATUS.ICONG n, F.SPILL_STATUS.SPILL_FULL n,
    F.SPILL_STATUS.WR_DEMOTED n, F.SPILL_STATUS.RSV_REFUSED n]

/-- Read the next group of the oldest page that has one (R222); an uncorrectable read, or a channel not in service,
gives Error blocks (R227). -/
def State.readGroup (s : State) (o : Fin 12) (i : Nat) (p : SpillPage) (ue : Bool) : State :=
  let n := min 8 (p.blocks - 8 * p.readG)
  let a := s.cup.pageAddr p.page + 65 * p.readG
  let r := (s.grantUnits (8 + ownerClient o) (unitsOf (65 * p.readG) 65)).ddrRead 2 0x21 a 65 fun q =>
    if ue && q == a / 16 then Ecc.ue else Ecc.ok
  let bad := r.2.1
  let bs := if bad then List.replicate 8 errorBlk else (groupBlocks r.1).take n
  let s1 := r.2.2.modSide o fun h => { h with
    rbuf := h.rbuf ++ bs,
    pages := h.pages.set i { p with readG := p.readG + 1, inBuf := p.inBuf + bs.length, held := p.held.drop n } }
  if bad then
    let s2 := (s1.count (F.ING_LOSS.SPILL_LOST (spillPort o)) 8).hostEvent o F.RTX_EVENT.SPILL_LOST
    if o.val < 8 then s2.rise (portSrc o.val 0xB) [s2.spillWord o]
    else s2.rise 0x296 [o.val - 8]
  else s1

/-- The first page with a group still to read: closed pages only, in order (R222). -/
def nextRead : Nat → List SpillPage → Option (Nat × SpillPage)
  | _, [] => none
  | i, p :: ps => if p.closed then (if p.readG < p.groups then some (i, p) else nextRead (i + 1) ps) else none

/-! ### Discards (R232) -/

/-- The blocks of a list that DOWN_DISCARD counts. -/
def countable (bs : List Blk) : Nat := (bs.filter fun b => !b.isIdle).length

/-- Empty the egress FIFO; a frame part-way out is to end with one Error block where the lane still sends. -/
def State.dropEgress (s : State) (o : Fin 12) (cut : Bool) : State :=
  let h := s.side[o]
  (s.modSide o fun h => { h with egress := [], egFrame := false, egError := (h.egError || h.egFrame) && !cut, backoff := false }).hostCount o
    (F.DOWN_DISCARD.DOWN_DISCARD (spillPort o)) (countable h.egress)

/-- Link down: the ingress FIFO, the spill buffers and every page are discarded; pages wait to be returned (R232). -/
def State.dropSide (s : State) (o : Fin 12) : State :=
  let h := s.side[o]
  let k := countable h.ingress + countable h.wbuf + countable h.rbuf +
    h.pages.foldl (fun a p => a + countable p.held) 0
  let s1 := s.modSide o fun h => { h with
    ingress := [], wbuf := [], rbuf := [], pages := [], toRelease := h.toRelease ++ h.pages.map SpillPage.page,
    outFrame := false, lineIn := false, dropping := h.inFrame }
  let s2 := s1.hostCount o (F.DOWN_DISCARD.DOWN_DISCARD (spillPort o)) k
  let s3 := (s2.wrB (F.SPILL_STATUS.SPILLING (spillPort o)) false).wrB (F.SPILL_STATUS.SPILL_FULL (spillPort o)) false
  (s3.dropEgress o false).icong o

end Sys2Proof.Machine
end

