-- ==== Sys2Proof/Machine/CupOps.lean ====
section
/-! DEFINITION. Operations of the Cupola: training and the configured capacity, service, failure, retirement and rest of
a channel, the Spill Page Table, admission, and the grant and completion of units (14_cupola.md R486-R506, R747). -/

namespace Sys2Proof.Machine

/-- Channel states of CH_STATUS (R519). -/
abbrev chUNTRAINED : Nat := 0
abbrev chTRAINING : Nat := 1
abbrev chINIT : Nat := 2
abbrev chSERVICE : Nat := 3
abbrev chRETIRED : Nat := 4
abbrev chFAILED : Nat := 5

/-- CH_STATE of channel `c`. -/
def State.chState (s : State) (c : Fin 4) : Nat := s.rd (F.CH_STATUS.CH_STATE c)

/-- Set or clear bit `c` of a field. -/
def State.wrBit (s : State) (f : Fld) (c : Nat) (b : Bool) : State :=
  s.wr f (if b == bitB (s.rd f) c then s.rd f else if b then s.rd f + 2 ^ c else s.rd f - 2 ^ c)

/-- IN_SVC of a channel, with what depends on it (R504, R508). -/
def State.setService (s : State) (c : Fin 4) (b : Bool) : State := (s.wrBit F.CUP_STATUS.IN_SVC c b).syncAdm.icongAll

/-! ### The Spill Page Table (R497-R500) -/

/-- An owner's entry of the pool holds page `k`. -/
def HostSide.holds (h : HostSide) (k : Nat) : Bool := k ∈ h.toRelease || h.pages.any fun p => p.page == k

/-- The owner that holds page `k`, if any. -/
def State.holder (s : State) (k : Nat) : Option (Fin 12) := (List.finRange 12).find? fun o => s.side[o].holds k

/-- Any page is HELD. -/
def State.anyHeld (s : State) : Bool :=
  (List.finRange 12).any fun o => !s.side[o].pages.isEmpty || !s.side[o].toRelease.isEmpty

/-- Append the pages of channel `c` among `ks` to its free list. -/
def Spt.toFree (t : Spt) (c : Nat) (ks : List Nat) : Spt := { t with free := t.free.set c (t.free.getD c [] ++ ks) }

/-- SPL_PAGES as it acts (R511). -/
def poolPages (v : Nat) : Nat := min v 131072

/-- Build the table (R497): a page is FREE where its channel is in service, and BAD otherwise. -/
def State.buildTable (s : State) : State :=
  let base := s.rd F.SPL_BASE.BASE
  let pages := poolPages (s.rd F.SPL_CFG.SPL_PAGES)
  let c0 := { s.cup with spt := { base := base, pages := pages, building := true } }
  let ks := List.range pages
  let free := (List.range 4).map fun c => ks.filter fun k => c0.pageIn k && c0.pageCh k == c && s.chUp c
  let absent := ks.filter fun k => c0.pageIn k && !s.chUp (c0.pageCh k)
  let bad := ks.filter fun k => !c0.pageIn k || !s.chUp (c0.pageCh k)
  let s1 := { s with cup := { c0 with spt := { c0.spt with free := free, bad := bad, absent := absent } } }
  ((List.finRange 12).foldl (fun (s : State) o => s.modSide o fun h => { h with lastCh := none }) s1).syncPool

/-- A write of SPL_CFG (R497): SPL_EN and SPL_PAGES as written. -/
def State.splWrite (s : State) (en : Bool) (pages : Nat) : State :=
  let cur := s.on F.SPL_CFG.SPL_EN
  let p := pages % 2 ^ 18
  if cur then
    if p ≠ s.rd F.SPL_CFG.SPL_PAGES ∨ (!en && s.anyHeld) then s.wrB F.SPL_STATUS.CFG_REFUSED true
    else if en then s.wrB F.SPL_STATUS.CFG_REFUSED false
    else
      let s1 := ((s.wrB F.SPL_CFG.SPL_EN false).wrB F.SPL_STATUS.SPL_RDY false).wrB F.SPL_STATUS.CFG_REFUSED false
      ({ s1 with cup := { s1.cup with spt := { s1.cup.spt with building := false } } }).syncPool.icongAll
  else
    let s1 := ((s.wr F.SPL_CFG.SPL_PAGES p).wrB F.SPL_CFG.SPL_EN en).wrB F.SPL_STATUS.CFG_REFUSED false
    if en then (s1.wrB F.SPL_STATUS.SPL_RDY false).buildTable else s1

/-- A write of SPL_BASE (R497). -/
def State.splBaseWrite (s : State) (v : Nat) : State :=
  let b := v % 2 ^ 28
  if s.on F.SPL_CFG.SPL_EN && b != s.rd F.SPL_BASE.BASE then s.wrB F.SPL_STATUS.CFG_REFUSED true
  else (s.wr F.SPL_BASE.BASE b).wrB F.SPL_STATUS.CFG_REFUSED false

/-- A write of SPT(k) (R514). -/
def State.sptWrite (s : State) (k v : Nat) : State :=
  if s.on F.SPL_CFG.SPL_EN then s.wrB F.SPL_STATUS.CFG_REFUSED true
  else
    let s1 := s.wrB F.SPL_STATUS.CFG_REFUSED false
    { s1 with cup := { s1.cup with spt := { s1.cup.spt with ovr := spPut s1.cup.spt.ovr k (v % 2 ^ 32) } } }

/-- The element after `k` in a list of pages, or the end mark (R498). -/
def nextPage (k : Nat) : List Nat → Nat
  | a :: b :: r => if a = k then b else nextPage k (b :: r)
  | _ => 0x20000

/-- An entry of the table (R498). -/
def sptEntry (st owner ch next : Nat) : Nat := st * 2 ^ 30 + owner * 2 ^ 26 + ch * 2 ^ 24 + next

/-- What SPT(k) reads (R498, R514). -/
def State.sptRead (s : State) (k : Nat) : Nat :=
  let t := s.cup.spt
  match spFind t.ovr k with
  | some v => if s.rd F.SPL_CFG.SPL_PAGES ≤ k then v % 2 ^ 30 + 3 * 2 ^ 30 else v
  | none =>
    if t.pages ≤ k then 0xFC020000
    else
      let ch := s.cup.pageCh k
      match s.holder k with
      | some o => sptEntry 1 o.val ch (nextPage k (s.side[o].toRelease ++ s.side[o].pages.map SpillPage.page))
      | none => if k ∈ t.bad then sptEntry 2 0xF ch 0x20000 else sptEntry 0 0xF ch (nextPage k (t.free.getD ch []))

/-- BAD pages that satisfy `p` and lie in channel `c` return to FREE. -/
def State.badToFree (s : State) (c : Fin 4) (p : Nat → Bool) : State :=
  let t := s.cup.spt
  let q (k : Nat) : Bool := s.cup.pageIn k && s.cup.pageCh k == c.val && p k
  let ks := t.bad.filter q
  let t1 := { t.toFree c ks with bad := t.bad.filter fun k => !q k, absent := t.absent.filter fun k => !(k ∈ ks) }
  ({ s with cup := { s.cup with spt := t1 } }).syncPool

/-- The spill loss of `k` pages of an owner, reported (R227, R500). -/
def State.spillLost (s : State) (o : Fin 12) (blocks : Nat) : State :=
  let s2 := (s.count (F.ING_LOSS.SPILL_LOST (spillPort o)) blocks).hostEvent o F.RTX_EVENT.SPILL_LOST
  if o.val < 8 then s2.rise (portSrc o.val 0xB) [s2.spillWord o] else s2.rise 0x296 [o.val - 8]

/-- An entry of the table read uncorrectable (R500). -/
def State.sptLost (s : State) (k : Nat) : State :=
  let mark (s : State) (k : Nat) : State :=
    let t := s.cup.spt
    { s with cup := { s.cup with spt := { t with
        bad := if k ∈ t.bad then t.bad else k :: t.bad, doomed := t.doomed.filter (· ≠ k),
        free := t.free.map fun l => l.filter (· ≠ k) } } }
  match s.holder k with
  | none => (mark s k).syncPool
  | some o =>
    let held := s.side[o].pages
    let i := (held.map SpillPage.page).idxOf k
    let gone := held.drop i
    let s1 := s.modSide o fun h => { h with pages := held.take i, toRelease := h.toRelease.filter (· ≠ k) }
    let s2 := (gone.filter fun p => p.page != k).foldl (fun (s : State) p => s.freePage p.page) s1
    let s3 := ((mark s2 k).syncPool.syncInUse o)
    let s4 := if gone.isEmpty then s3 else s3.spillLost o (504 * gone.length)
    (s4.spillExit o).spillCheck o

/-! ### Failure, retirement, rest (R493, R495, R747) -/

/-- The DRAM content of channel `c` is lost. -/
def State.dropDram (s : State) (c : Fin 4) : State :=
  { s with
    ddr := s.ddr.filter fun e => s.cup.chOf e.1 != c.val
    cup := { s.cup with flaw := s.cup.flaw.filter fun e => s.cup.chOf (16 * e.1) != c.val } }

/-- Channel `c` retires with a cause of RET_CAUSE (R495). -/
def State.retire (s : State) (c : Fin 4) (cause : Nat) : State :=
  if s.chState c = chSERVICE then
    let s1 := (((((s.wr (F.CH_STATUS.CH_STATE c) chRETIRED).wr (F.CH_STATUS.RET_CAUSE c) cause).wrB
      (F.CH_INJECT.INJ_ARM c) false).wrBit F.CUP_STATUS.RETIRED c true).wrB F.CUP_EVENT.RETIRED true).setService c false
    let s2 := (s1.dropDram c).modCh c fun h => { h with ueTb := [], resting := false }
    let t := s2.cup.spt
    let free := t.free.getD c []
    let heldIn := ((List.finRange 12).flatMap fun o =>
      s2.side[o].toRelease ++ s2.side[o].pages.map SpillPage.page).filter fun k => s2.cup.pageCh k == c.val
    let t1 := { t with bad := t.bad ++ free, free := t.free.set c [],
                       doomed := t.doomed ++ heldIn.filter fun k => !(k ∈ t.doomed) }
    ({ s2 with cup := { s2.cup with spt := t1 } }).syncPool.icongAll
  else s

/-- Retirements that reads have made due are taken (R495). -/
def State.retireAll (s : State) : State :=
  let due := s.cup.retireDue
  due.foldl (fun (s : State) p => s.retire (ch4 p.1) p.2) { s with cup := { s.cup with retireDue := [] } }

/-- CH_ERR_ADDR and CH_ERR_INFO of a channel as they stand (R671). -/
def State.chErrWords (s : State) (c : Fin 4) : List Nat :=
  [s.rd (F.CH_ERR_ADDR.ERR_A c),
   s.word [F.CH_ERR_INFO.VALID c, F.CH_ERR_INFO.TYPE c, F.CH_ERR_INFO.SRC c, F.CH_ERR_INFO.MID c,
     F.CH_ERR_INFO.RANK c, F.CH_ERR_INFO.DEVICE c, F.CH_ERR_INFO.CW c]]

/-- A channel failure (R493): the source, and with AUTO_RET the retirement. -/
def State.chFail (s : State) (c : Fin 4) (cause : Nat) : State :=
  if s.chState c = chSERVICE then
    let s1 := s.rise (chanSrc c 2) (s.chErrWords c)
    if s1.on F.CUP_CTRL.AUTO_RET then s1.retire c cause else s1
  else s

/-! ### Training (R483, R486) -/

/-- Data capacity in GiB of a configuration (R483). -/
def ChCfg.gib (g : ChCfg) : Nat := (if g.x8 then 8 else 16) * 4 * 2 ^ g.dens / 8 * (if g.ranks2 then 2 else 1)

/-- A configuration of R483. -/
def ChCfg.ok (g : ChCfg) : Bool := decide (1 ≤ g.speed ∧ g.speed ≤ 4 ∧ g.dens < 3) && !(g.x8 && g.dens == 0)

/-- CH_CFG of a channel. -/
def State.chCfg (s : State) (c : Fin 4) : ChCfg :=
  { speed := s.rd (F.CH_CFG.SPEED c), x8 := s.on (F.CH_CFG.X8 c), ranks2 := s.on (F.CH_CFG.RANKS2 c),
    dens := s.rd (F.CH_CFG.DENS c) }

/-- A training is running. -/
def State.anyTraining (s : State) : Bool := (List.finRange 4).any fun c => s.cup.ch[c].training

/-- The first round ends when none of its trainings runs: the capacity and the map are fixed (R33, R486). -/
def State.roundEnd (s : State) : State :=
  if s.cup.round = 1 ∧ !s.anyTraining then
    let s1 := { s with cup := { s.cup with round := 2, cap := s.cup.roundCap } }
    s1.wr F.CUP_STATUS.CAP_GIB (s.cup.roundCap.foldl (· + ·) 0 / 2 ^ 18)
  else s

/-- TRAIN_GO (R486). -/
def State.trainGo (s : State) (c : Fin 4) : State :=
  let st := s.chState c
  if s.on (F.CH_CFG.CH_EN c) && (st == chUNTRAINED || st == chFAILED || st == chRETIRED) then
    let g := s.chCfg c
    let sp := if s.cup.speed = 0 ∧ mtOf g.speed ≠ 0 then g.speed else s.cup.speed
    let clash := (List.finRange 4).any fun d => s.chState d == chSERVICE && s.cup.ch[d].cfg.x8 != g.x8
    let bad := !g.ok || g.speed != sp || clash
    let s1 := (((s.wr (F.CH_STATUS.CH_STATE c) chTRAINING).wr (F.CH_STATUS.TRAIN_FAIL c) 0).wr
      (F.CH_STATUS.TRAIN_RESULT c) 0).wr (F.CH_STATUS.LANE_FAIL c) 0
    let s2 := s1.modCh c fun h => { h with cfg := g, training := true, cfgBad := bad }
    { s2 with cup := { s2.cup with speed := sp, round := if s.cup.round = 0 then 1 else s.cup.round } }
  else s.wr (F.CH_STATUS.TRAIN_RESULT c) 2

/-- Training of a channel fails at a step (R486). -/
def State.trainFail (s : State) (c : Fin 4) (code lanes : Nat) : State :=
  let s1 := ((((s.wr (F.CH_STATUS.CH_STATE c) chFAILED).wr (F.CH_STATUS.TRAIN_FAIL c) code).wr
    (F.CH_STATUS.TRAIN_RESULT c) 3).wr (F.CH_STATUS.LANE_FAIL c) lanes).wrB F.CUP_EVENT.TRAIN_DONE true
  (s1.modCh c fun h => { h with training := false, cfgBad := false }).roundEnd

/-- Training of a channel ends with step 0x8 done: it is in service, its content zero (R486, R495). -/
def State.trainPass (s : State) (c : Fin 4) : State :=
  let g := s.cup.ch[c].cfg
  let s1 := ((((s.wr (F.CH_STATUS.CH_STATE c) chSERVICE).wr (F.CH_STATUS.TRAIN_RESULT c) 1).wr (F.CH_STATUS.CAP_GIB c)
    g.gib).wr (F.CH_STATUS.RET_CAUSE c) 0).wrB F.CUP_EVENT.TRAIN_DONE true
  let s2 := (s1.modCh c fun h => { h with training := false, resting := false, ueTb := [], retries := 0, refDebt := 0 })
  let s3 := if s2.cup.round = 1 then
      { s2 with cup := { s2.cup with roundCap := s2.cup.roundCap.set c (2 ^ 18 * g.gib) } } else s2
  let s4 := ((s3.dropDram c).roundEnd.wr F.CUP_STATUS.SPEED g.speed).wrB F.CUP_STATUS.X8 g.x8
  ((s4.setService c true).badToFree c fun _ => true).icongAll

/-- PD_CUP_Cc is lowered (R486, R493, R747): a training is abandoned, a channel in service rests or fails. -/
def State.chLowered (s : State) (c : Fin 4) (target : Nat) : State :=
  let st := s.chState c
  if s.cup.ch[c].training then
    (((((s.modCh c fun h => { h with training := false, cfgBad := false }).wr (F.CH_STATUS.CH_STATE c) chUNTRAINED).wr
      (F.CH_STATUS.TRAIN_RESULT c) 0).wr (F.CH_STATUS.TRAIN_FAIL c) 0).wr (F.CH_STATUS.LANE_FAIL c) 0).roundEnd
  else if st = chSERVICE then
    if target = domRETAIN then (s.modCh c fun h => { h with resting := true }).setService c false
    else
      let s1 := s.chFail c 6
      (if s1.chUp c then s1.setService c false else s1).dropDram c
  else s

/-- PD_CUP_Cc is ON again (R608, R747): a resting channel returns to service. -/
def State.chRaised (s : State) (c : Fin 4) : State :=
  if s.cup.ch[c].resting then
    let s1 := (s.modCh c fun h => { h with resting := false }).setService c true
    (s1.badToFree c fun k => k ∈ s1.cup.spt.absent).icongAll
  else s

/-! ### Admission (R504, R505) -/

/-- A write of BWR_CLIENT or BWR_CTRL whose effect on the state is `f` (R505). -/
def State.admitChange (s : State) (f : State → State) : State :=
  let s1 := f s
  let raises := decide (s.gBudget * s1.winNow < s1.gBudget * s.winNow)
  if raises && overLimit s1.limit10 s1.gBudget s1.winNow then s.wrB F.BWR_FLAGS.ADM_REFUSED true
  else (s1.syncAdm).wrB F.BWR_FLAGS.ADM_REFUSED false

/-- BWR_CLIENT(i) written (R528). -/
def State.clientWrite (s : State) (i : Fin 32) (v : Nat) : State :=
  s.admitChange fun s => ((s.wr (F.BWR_CLIENT.CLASS i) (v / 2 ^ 30)).wr (F.BWR_CLIENT.BUDGET i) v).wr (F.BWR_CLIENT.RSV29 i)
    (v / 2 ^ 16)

/-- BWR_CTRL written (R525). -/
def State.bwrCtrlWrite (s : State) (v : Nat) : State :=
  s.admitChange fun s => (((s.wr F.BWR_CTRL.WIN (v / 2 ^ 26)).wr F.BWR_CTRL.URG_WR (v / 2 ^ 22)).wr F.BWR_CTRL.URG_RD
    (v / 2 ^ 18)).wr F.BWR_CTRL.RSV17 v

/-- A window ends (R502): a client that exceeded its budget counts it. -/
def State.windowEnd (s : State) : State :=
  let ovr (i : Nat) : Bool :=
    let b := s.rd (F.BWR_CLIENT.BUDGET i)
    b != 0 && decide (64 * b < (spFind s.cup.winBytes i).getD 0)
  let s1 := (List.range 32).foldl (fun (s : State) i => if ovr i then s.count (F.BWR_OVER.OVER_WIN i) else s) s
  { s1 with cup := { s1.cup with winBytes := [] } }

/-! ### Units (R491, R502, R503) -/

/-- Split a request at 64-byte units. -/
def splitUnits (mid cl : Nat) (wr : Bool) : Nat → Nat → Nat → List Nat → List MemUnit
  | 0, _, _, _ => []
  | fuel + 1, a, len, bs =>
    if len = 0 then []
    else
      let k := min len (64 - a % 64)
      { mid := mid, client := cl, addr := a - a % 64, lo := a % 64, len := k, write := wr, data := bs.take k } ::
        splitUnits mid cl wr fuel (a + k) (len - k) (bs.drop k)

/-- The completion that a master sees. -/
def State.reply (s : State) (mid : Nat) (err unc : Bool) (data : Nat) : State :=
  { s with bus := { master := mid, err := err, unc := unc, data := data } }

/-- The clients of the units that wait for channel `c`, in order of issue. -/
def State.waitingAt (s : State) (c : Fin 4) : List MemUnit := s.cup.waiting.filter fun u => s.cup.chOf u.addr == c.val

/-- The client next in turn after `last` among `cs` (R502). -/
def nextClient (last : Nat) (cs : List Nat) : Option Nat :=
  ((List.range 32).map fun i => (last + 1 + i) % 32).find? fun i => i ∈ cs

/-- Grant the next unit to channel `c` (R502, R503). -/
def State.bwrGrant (s : State) (c : Fin 4) : State :=
  let cls := (s.waitingAt c).map MemUnit.client
  match cls with
  | [] => s
  | c0 :: rest =>
    let best := rest.foldl (fun a i => min a (s.grantRank i)) (s.grantRank c0)
    match nextClient (s.cup.ch[c].rr.getD (min best 4) 31) (cls.filter fun i => s.grantRank i == best) with
    | none => s
    | some i =>
      match (s.waitingAt c).find? fun u => u.client == i with
      | none => s
      | some u =>
        let k := s.grantClass i
        let s1 := (s.countGrant i k 64).modCh c fun h => { h with rr := h.rr.set (min best 4) i, powerDown := false }
        { s1 with cup := { s1.cup with waiting := s1.cup.waiting.erase u, granted := s1.cup.granted ++ [(u, k)] } }

/-- A unit is served: its codewords read or written, its completion returned (R491). -/
def State.unitServe (s : State) (u : MemUnit) (errs : List Ecc) : State :=
  let env (q : Nat) : Ecc := errs.getD (q % 4) .ok
  if u.write then
    let r := s.ddrWrite u.mid (u.addr + u.lo) (u.data.map fun v => BitVec.ofNat 8 v) env
    r.2.reply u.mid r.1 r.1 0
  else
    let r := s.ddrRead (if u.mid = 0x21 then 2 else 0) u.mid (u.addr + u.lo) u.len env
    r.2.2.reply u.mid false r.2.1 (natLE r.1)

/-- The oldest unit of channel `c` completes (R491): one granted, or where the channel is not in service any. -/
def State.unitDone (s : State) (c : Fin 4) (errs : List Ecc) : State :=
  match s.cup.granted.find? fun p => s.cup.chOf p.1.addr == c.val with
  | some p => ({ s with cup := { s.cup with granted := s.cup.granted.erase p } }).unitServe p.1 errs
  | none =>
    if s.chUp c then s
    else
      match (s.waitingAt c) with
      | [] => s
      | u :: _ => ({ s with cup := { s.cup with waiting := s.cup.waiting.erase u } }).unitServe u errs

/-- A request to DDR4 (R32, R33, R491). -/
def State.memRequest (s : State) (mid cl a len : Nat) (wr : Bool) (data : List Nat) : State :=
  let inside := decide (ddrBase ≤ a ∧ a + len ≤ ddrBase + s.cup.capacity)
  if admitDdr mid && clientFits mid cl && inside then
    { s with cup := { s.cup with
        waiting := s.cup.waiting ++ splitUnits mid cl wr (len / 64 + 2) (a - ddrBase) len data } }
  else (s.rangeCheck mid a wr).reply mid true false 0

/-! ### Patrol (R492) -/

/-- Codewords of every channel in service. -/
def State.patrolTotal (s : State) : Nat :=
  ((List.finRange 4).filter fun (c : Fin 4) => s.chUp c.val).foldl (fun a c => a + 2 ^ 26 * s.cup.ch[c].cfg.gib) 0

/-- BEHIND: more than 1 % of a pass behind schedule sets it, on schedule clears it (R492). -/
def State.syncBehind (s : State) : State :=
  let total := s.patrolTotal
  let pass := 3600000000000 * max 1 (s.rd F.SCRUB_CTRL.SCRUB_H)
  let due := total * (s.tb - s.cup.passTb)
  let got := s.cup.scrubbed * pass
  if due ≤ got then s.wrB F.SCRUB_STATUS.BEHIND false
  else if total * pass < 100 * (due - got) then s.wrB F.SCRUB_STATUS.BEHIND true
  else s

/-- One codeword of the patrol is done (R516). -/
def State.patrolNext (s : State) : State :=
  let total := s.patrolTotal
  let n := s.cup.scrubbed + 1
  if total ≤ n then
    let s1 := (s.count F.SCRUB_STATUS.PASSES).wr F.SCRUB_STATUS.PROGRESS 0
    { s1 with cup := { s1.cup with scrubbed := 0, passTb := s.tb } }.syncBehind
  else
    let s1 := s.wr F.SCRUB_STATUS.PROGRESS (100 * n / total)
    { s1 with cup := { s1.cup with scrubbed := n } }.syncBehind

/-- The patrol reads the codeword at offset `a` (R492). -/
def State.scrub (s : State) (a : Nat) (e : Ecc) : State :=
  let s1 := if a % 64 < 16 then s.grantUnits 31 1 else s
  ((s1.cwRead (a / 16) e 1 0x3F true).2).patrolNext

end Sys2Proof.Machine
end

