-- ==== Sys2Proof/Machine/Retx.lean ====
section
/-! DEFINITION. Host lanes toward the port, low-power idle, adaptation freezes, retransmission and the twin engine: the
operations that the link state machine and the framer share (04 R123, 07 R206-R218, 08 R256-R271, 10 R355-R363,
11 R380-R389). -/

namespace Sys2Proof.Machine

/-! ### Host lane (R380, R386, R389) -/

/-- The port is in UP or HOLD. -/
def State.linkUp (s : State) (n : Fin 8) : Bool := s.link n == stUP || s.link n == stHOLD

/-- The port runs Spire (R64). -/
def State.spire (s : State) (n : Fin 8) : Bool := s.rd (F.LINK_STATUS.MODE n) == 7

/-- PD_HLn is ON. -/
def State.hlOn (s : State) (n : Fin 8) : Bool := s.domOn (112 + n.val)

/-- A member of an active pair that has resolved a standard mode (R259). -/
def State.stdMember (s : State) (n : Fin 8) : Bool :=
  s.twActive (pairOf n) && decide (stTRAIN ≤ s.link n) && decide (0 < s.rd (F.LINK_STATUS.MODE n)) && !s.spire n

/-- The lane belongs to an active pair and does not carry its traffic (R257, R259, R386). -/
def State.laneIdle (s : State) (n : Fin 8) : Bool :=
  s.twActive (pairOf n) && (decide (s.laneOf (ownTwin (pairOf n)) ≠ n) || s.stdMember n)

/-- Traffic of an owner reaches the line: its port is in UP or HOLD, or its pair is not DOWN. -/
def State.ownerUp (s : State) (o : Fin 12) : Bool :=
  if o.val < 8 then s.linkUp (s.laneOf o) else s.rd (F.TW_STATUS.PAIR_STATE (pairOfOwner o)) != 0

/-- The cause of electrical idle of lane `n`, the first that holds; 0 for none (R386). -/
def State.eiCause (s : State) (n : Fin 8) : Nat :=
  let dn := s.rd (F.HL_CTRL.DOWN_TX n)
  let x := s.rd (F.HL_STATUS.PROTO_CUR n) == 3
  if s.on (F.HL_PRBS_CTRL.GEN_EN n) then 0
  else if !s.ownerUp (s.ownerOf n) && (dn == 1 || (x && dn ≠ 2)) then 1
  else if s.laneIdle n then 2
  else if s.lane[n].lpiEi && s.rd (F.HL_STATUS.LB_CUR n) == 0 then 3
  else if s.lane[n].protoBad then 4
  else 0

/-- TX_EI and EI_CAUSE follow (R386). -/
def State.syncLane (s : State) (n : Fin 8) : State :=
  if s.hlOn n then
    (s.wr (F.HL_STATUS.EI_CAUSE n) (s.eiCause n)).wrB (F.HL_STATUS.TX_EI n) (decide (s.eiCause n ≠ 0))
  else s

/-- A loopback request ends: REFUSED (2) or ABORTED (3) set LB_END (R389, R409). -/
def State.lbResult (s : State) (n : Fin 8) (r : Nat) : State :=
  let s1 := s.wr (F.HL_STATUS.LB_RESULT n) r
  if 2 ≤ r then s1.wrB (F.HL_EVENT.LB_END n) true else s1

/-- An Ethernet frame that a switch of loopback cuts ends with an Error block in the streams it was entering (R389). -/
def State.lbCut (s : State) (n : Fin 8) : State :=
  let o := s.ownerOf n
  s.modSide o fun h => { h with
    egError := h.egError || h.egFrame, egFrame := false,
    ingress := if h.inFrame && !h.dropping then h.ingress ++ [errorBlk] else h.ingress,
    dropping := h.inFrame }

/-- A loopback in effect ends with ABORTED (R389, R393). -/
def State.lbAbort (s : State) (n : Fin 8) : State :=
  if s.rd (F.HL_STATUS.LB_CUR n) = 0 then s
  else (((s.lbCut n).wr (F.HL_STATUS.LB_CUR n) 0).syncLane n).lbResult n 3

/-- The protocol a lane runs for a line mode under PROTO; none where the table admits none (R380). -/
def protoFor (mode proto : Nat) : Option Nat :=
  let auto := if mode = 7 ∨ mode = 6 then 1 else if mode = 1 ∨ mode = 2 then 3 else 2
  if proto = 0 ∨ proto = auto then some auto
  else if mode = 7 ∧ proto = 2 then some 2
  else none

/-- The lane starts the protocol of the port's mode (R380). -/
def State.protoStart (s : State) (n : Fin 8) : State :=
  if s.hlOn n then
    match protoFor (s.rd (F.LINK_STATUS.MODE n)) (s.rd (F.HL_CTRL.PROTO n)) with
    | some p =>
      let chg := s.rd (F.HL_STATUS.PROTO_CUR n) ≠ p
      let s1 := if chg then ((s.lbAbort n).wrB (F.HL_STATUS.BLOCK_LOCK n) false).wrB (F.HL_STATUS.HI_BER n) false else s
      (((s1.wr (F.HL_STATUS.PROTO_CUR n) p).wrB (F.HL_STATUS.FEC_ACT n)
        (decide (p = 1) && s.on (F.HL_CTRL.RSFEC_EN n))).modLane n fun l => { l with protoBad := false }).syncLane n
    | none =>
      (((((s.lbAbort n).wr (F.HL_STATUS.PROTO_CUR n) 0).wrB (F.HL_STATUS.FEC_ACT n) false).wrB
        (F.HL_EVENT.PROTO_BAD n) true).modLane n fun l => { l with protoBad := true }).syncLane n
  else s

/-! ### Low-power idle (R356-R362) -/

/-- States of TX_LPI and RX_LPI (R375). -/
abbrev lpiACTIVE : Nat := 0
abbrev lpiSLEEP : Nat := 1
abbrev lpiQUIET : Nat := 2
abbrev lpiREFRESH : Nat := 3
abbrev lpiWAKE : Nat := 4

/-- A trigger of R359: the transmit direction is to wake. -/
def State.lpiTrigger (s : State) (n : Fin 8) : State :=
  let t := s.rd (F.LPI_STATUS.TX_LPI n)
  if t = lpiSLEEP ∨ t = lpiQUIET ∨ t = lpiREFRESH then s.modPort n fun p => { p with lpi := { p.lpi with wakeDue := true } }
  else s

/-- Account a quiet period that ends now (R377). -/
def State.lpiQuietEnd (s : State) (n : Fin 8) : State :=
  if s.rd (F.LPI_STATUS.TX_LPI n) = lpiQUIET then
    let q := s.port[n].lpi.quietNs + (s.tb - s.port[n].lpi.txStart)
    (s.modPort n fun p => { p with lpi := { p.lpi with quietNs := q } }).wr (F.LPI_TIME.TX_QUIET_US n) (q / 1000)
  else s

/-! ### Adaptation freezes (R123) -/

/-- The filters of a port: slice or pair `x` and filter `f` (R130). -/
def filters : List (Nat × Nat) :=
  [(0, 0), (0, 1), (0, 2), (0, 3), (0, 4), (1, 0), (1, 1), (1, 2), (1, 3), (1, 4), (2, 0), (2, 1), (2, 2), (2, 3), (2, 4),
    (3, 0), (3, 1), (3, 2), (3, 3), (3, 4), (4, 0), (4, 3)]

/-- The domain a filter's register lives in (R130). -/
def filterDom (n : Nat) (f : Nat × Nat) : Nat := if f.2 < 3 then 14 * n + 5 else 14 * n + 6

/-- Decision-directed filters (R112). -/
def isDD (f : Nat × Nat) : Bool := decide (2 ≤ f.2)

/-- Set or clear freeze cause `bit` of the filters that `p` picks (R123). -/
def State.freeze (s : State) (n : Fin 8) (p : Nat × Nat → Bool) (bit : Nat) (v : Bool) : State :=
  (filters.filter p).foldl (fun s f =>
    if s.domOn (filterDom n.val f) then
      let fld := F.ADAPT.FRZ_CAUSE n f.1 f.2
      let c := s.rd fld
      s.wr fld (if bitB c bit = v then c else if v then c + 2 ^ bit else c - 2 ^ bit)
    else s) s

/-- A guard event on the pairs that `p` picks (R123). -/
def State.guard (s : State) (n : Fin 8) (p : Nat → Bool) : State := s.freeze n (fun f => isDD f && p f.1) 3 true

/-- Freeze cause bits (R123). -/
abbrev frzIMPULSE : Nat := 6
abbrev frzHOLD : Nat := 5
abbrev frzDECODE : Nat := 4
abbrev frzLPI : Nat := 2
abbrev frzPHASE : Nat := 1
abbrev frzSLICE : Nat := 0

/-! ### Retransmission (R206-R215) -/

/-- WIN_SIZE as it acts (R234). -/
def winSizeOf (v : Nat) : Nat := if v = 0 ∨ 512 < v then 512 else if v < 16 then 16 else v

/-- RT_BOUND in ns, from frame times in ps (R213). -/
def rtBound (tx rx dly : Nat) : Nat :=
  (3 * framePs tx + 4 * framePs rx + 999) / 1000 + 2 * dly + 256

/-- Recompute RT_BOUND of a port (R213). -/
def State.syncBound (s : State) (n : Fin 8) : State :=
  s.wr (F.RTX_RTT.RT_BOUND n) (min 65535 (rtBound (s.rd (F.LAD_STATUS.TX_RUNG n)) (s.rd (F.LAD_STATUS.RX_RUNG n))
    (s.rd (F.RTX_RTT.CABLE_DLY n))))

/-- A member's part of the twin engine. -/
def Twin.mem (t : Twin) (m : Nat) : Member := if m = 0 then t.m0 else t.m1
def Twin.modMem (t : Twin) (m : Nat) (f : Member → Member) : Twin :=
  if m = 0 then { t with m0 := f t.m0 } else { t with m1 := f t.m1 }

/-- The member of its pair that port `n` is, as the engine sees it. -/
def State.member (s : State) (n : Fin 8) : Member := s.twin[pairOf n].mem (memberOf n)
def State.modMember (s : State) (n : Fin 8) (f : Member → Member) : State :=
  s.modTwin (pairOf n) fun t => t.modMem (memberOf n) f

/-- TS, TO and E_M of a pair (R263, R268). -/
def State.ts (s : State) (k : Fin 4) : Nat := s.rd (F.TW_SEQ.TS k)
def State.twTo (s : State) (k : Fin 4) : Nat := s.rd (F.TW_SEQ.TO k)
def State.em (s : State) (k : Fin 4) : Nat := s.rd (F.TW_MERGE.E_M k)

/-- Port `n` is a member of an active pair. -/
def State.twinned (s : State) (n : Fin 8) : Bool := s.twActive (pairOf n)

/-- NEXT, OLDEST, E and GAP of a port as its registers show them (R208, R214, R258). -/
def State.seqNextOf (s : State) (n : Fin 8) : Nat := if s.twinned n then (s.member n).sp else s.port[n].rtx.next
def State.oldestOf (s : State) (n : Fin 8) : Nat := if s.twinned n then s.twTo (pairOf n) else s.port[n].rtx.oldest
def State.expectOf (s : State) (n : Fin 8) : Nat := if s.twinned n then s.em (pairOf n) else s.port[n].rtx.expect
def State.gapOf (s : State) (n : Fin 8) : Bool := if s.twinned n then (s.member n).gap else s.port[n].rtx.gap
/-- Frames outstanding (R208); d(TS, TO) in twin operation (R258). -/
def State.outstanding (s : State) (n : Fin 8) : Nat :=
  if s.twinned n then (seqDist (s.ts (pairOf n)) (s.twTo (pairOf n))).toNat
  else (seqDist s.port[n].rtx.next s.port[n].rtx.oldest).toNat

/-- RTX_SEQ and RTX_STATUS follow the engine (R235, R236, R258). -/
def State.syncRtx (s : State) (n : Fin 8) : State :=
  if s.domOn (14 * n.val + 10) then
    let up := s.linkUp n && s.spire n
    let run := up && decide (s.link n ≠ stHOLD) &&
      (if s.twinned n then decide (0 < seqDist (s.member n).sp (s.twTo (pairOf n))) else decide (0 < s.outstanding n))
    (((((((s.wr (F.RTX_SEQ.RX_EXPECT n) (s.expectOf n)).wr (F.RTX_SEQ.TX_OLDEST n) (s.oldestOf n)).wr
      (F.RTX_STATUS.TX_NEXT n) (s.seqNextOf n)).wr (F.RTX_STATUS.OUTSTANDING n) (s.outstanding n)).wrB
      (F.RTX_STATUS.REPLAY n) s.port[n].rtx.replay.isSome).wrB (F.RTX_STATUS.GAP n) (s.gapOf n)).wrB
      (F.RTX_STATUS.ACK_TMR n) run)
  else s

/-- HELD follows the merge buffer (R279), and both members' registers the engine. -/
def State.syncTwin (s : State) (k : Fin 4) : State :=
  ((s.wr (F.TW_MERGE.HELD k) s.twin[k].held.length).syncRtx (portOf k 0)).syncRtx (portOf k 1)

/-- Where a replay of port `n` ends: NEXT, or SP_p (R209, R266). -/
def State.replayEnd (s : State) (n : Fin 8) : Nat := s.seqNextOf n

/-- Set the replay pointer; a pointer at the end, or behind SP_p, is no replay (R211, R266). -/
def State.setReplay (s : State) (n : Fin 8) (a : Nat) : State :=
  let fin := s.replayEnd n
  s.modPort n fun p => { p with rtx := { p.rtx with replay := if 0 ≤ seqDist a fin then none else some a } }

/-- Drop the window slots before `a`. -/
def dropBefore (a : Nat) (w : Sparse (List Blk)) : Sparse (List Blk) := w.filter fun e => decide (0 ≤ seqDist e.1 a)

/-- Release the slots of one port's window before `a`; a replay never stands before it (R210, R211). -/
def State.releaseWin (s : State) (n : Fin 8) (a : Nat) : State :=
  let fin := s.replayEnd n
  s.modPort n fun p => { p with rtx := { p.rtx with
    win := dropBefore a p.rtx.win,
    replay := match p.rtx.replay with
      | some r => if 0 < seqDist a r then (if 0 ≤ seqDist a fin then none else some a) else some r
      | none => none } }

/-- Advance SP_p past released slots where nothing was sent: the release skip is due (R265). -/
def State.releaseTwin (s : State) (k : Fin 4) (a : Nat) : State :=
  ((s.wr (F.TW_SEQ.TO k) a).releaseWin (portOf k 0) a).releaseWin (portOf k 1) a

/-- Whether ACK = `a` received on port `n` is valid (R210, R266). -/
def State.ackOk (s : State) (n : Fin 8) (a : Nat) : Bool :=
  decide (0 ≤ seqDist a (s.oldestOf n)) && decide (seqDist a (s.oldestOf n) ≤ s.outstanding n)

/-- Act on ACK (R210, R266). -/
def State.ackRelease (s : State) (n : Fin 8) (a : Nat) : State :=
  if s.ackOk n a then
    if s.twinned n then s.releaseTwin (pairOf n) a
    else (s.modPort n fun p => { p with rtx := { p.rtx with oldest := a } }).releaseWin n a
  else s.count (F.RTX_RX_CNT.ACK_BAD n)

/-- A replay of port `n` from `a` that already began within the last RT_BOUND (R211). -/
def State.replayRecent (s : State) (n : Fin 8) (a : Nat) : Bool :=
  match s.port[n].rtx.lastReplay with
  | some (v, t) => v == a && decide (s.tb < t + s.rd (F.RTX_RTT.RT_BOUND n))
  | none => false

/-- Where a replay asked for from `a` begins: a member never replays from before J (R262, R266). -/
def State.replayFrom (s : State) (n : Fin 8) (a : Nat) : Nat :=
  if s.twinned n then
    match (s.member n).join with
    | some j => if 0 < seqDist j a then j else a
    | none => a
  else a

/-- Act on NAK with a valid `a`, after the release (R211, R262). -/
def State.nakReplay (s : State) (n : Fin 8) (a : Nat) : State :=
  let a' := s.replayFrom n a
  if 0 ≤ seqDist a' (s.replayEnd n) || s.replayRecent n a' then s
  else ((s.setReplay n a').modPort n fun p =>
    { p with rtx := { p.rtx with lastReplay := some (a', s.tb) } }).count (F.RTX_GOBACK.GB_NAK n)

/-- A replay at OLDEST, or at TO and not before J, that the timer or R267 starts (R211, R212, R262, R267). -/
def State.timeoutReplay (s : State) (n : Fin 8) : State :=
  let a := s.replayFrom n (s.oldestOf n)
  ((s.setReplay n a).modPort n fun p => { p with rtx := { p.rtx with lastReplay := some (a, s.tb) } }).count
    (F.RTX_GOBACK.GB_TIMEOUT n)

/-- The link leaves: every slot of the window is discarded; NEXT, OLDEST and E stand until the next entry to UP (R232). -/
def State.dropWin (s : State) (n : Fin 8) : State :=
  s.modPort n fun p => { p with rtx := { p.rtx with win := [], replay := none, lastReplay := none, fails := 0, goods := 0 } }

/-- The window and the sequence state afresh, at entry to UP (R208, R214). -/
def State.resetRtx (s : State) (n : Fin 8) : State :=
  s.modPort n fun p => { p with rtx := { p.rtx with
    win := [], next := 0, oldest := 0, replay := none, lastReplay := none, expect := 0, gap := false, fails := 0, goods := 0 } }

/-! ### The twin engine (R256-R271) -/

/-- Member states (R277). -/
abbrev mOUT : Nat := 0
abbrev mEXCLUDED : Nat := 1
abbrev mJOINING : Nat := 2
abbrev mIN : Nat := 3
/-- Pair states (R277). -/
abbrev pDOWN : Nat := 0
abbrev pSOLO : Nat := 1
abbrev pJOINING : Nat := 2
abbrev pTWIN : Nat := 3

/-- The field that shows a member's state. -/
def memberFld (k : Fin 4) (m : Nat) : Fld := if m = 0 then F.TW_STATUS.M0_STATE k else F.TW_STATUS.M1_STATE k
/-- The state of the member that port `n` is. -/
def State.mState (s : State) (n : Fin 8) : Nat := s.rd (memberFld (pairOf n) (memberOf n))

/-- PAIR_STATE from the member states (R261). -/
def pairStateOf (a b : Nat) : Nat :=
  if a = mIN ∧ b = mIN then pTWIN
  else if (a = mIN ∧ b = mJOINING) ∨ (a = mJOINING ∧ b = mIN) then pJOINING
  else if a = mIN ∨ b = mIN then pSOLO
  else pDOWN

/-- MRG_WAIT in ns (R276). -/
def State.mrgWait (s : State) (k : Fin 4) : Nat := 500 * max 1 (s.rd (F.TW_CTRL.MRG_WAIT k))

/-- The pair state follows its members, with its entry effect (R261). A JOINING member whose partner left is IN. -/
def State.pairEval (s : State) (k : Fin 4) : State :=
  let a := s.rd (memberFld k 0)
  let b := s.rd (memberFld k 1)
  let lone := (a = mJOINING && b ≠ mIN) || (b = mJOINING && a ≠ mIN)
  let s := if lone then (s.wr (memberFld k 0) (if a = mJOINING then mIN else a)).wr (memberFld k 1)
    (if b = mJOINING then mIN else b) else s
  let old := s.rd (F.TW_STATUS.PAIR_STATE k)
  let new := pairStateOf (s.rd (memberFld k 0)) (s.rd (memberFld k 1))
  let s1 := s.wr (F.TW_STATUS.PAIR_STATE k) new
  if old = new then s1
  else if new = pDOWN then
    (s1.dropSide (ownTwin k)).modTwin k fun t => { t with held := [] }
  else if new = pSOLO ∧ old = pDOWN then
    let m := if s.rd (memberFld k 0) = mIN then 0 else 1
    ((((s1.wr (F.TW_SEQ.TS k) 0).wr (F.TW_SEQ.TO k) 0).wr (F.TW_MERGE.E_M k) 0).modTwin k fun t =>
      ({ t with held := [], recent := [] }).modMem m fun _ => {})
  else if new = pSOLO ∧ old = pTWIN then
    (s1.count (F.TW_CNT.FAILOVERS k)).wrB (F.TW_EVENT.SOLO k) true
  else if new = pTWIN then s1.wrB (F.TW_EVENT.JOINED k) true
  else s1

/-- The check of a member at entry to UP: true where it fails (R260). -/
def State.memberBad (s : State) (n : Fin 8) : Bool :=
  let o := otherOf n
  let other := s.mState o == mIN || s.mState o == mJOINING
  !s.on (F.PARTNER_INFO.P_TWIN_CAP n) ||
  (other && (s.rd (F.PARTNER_INFO.P_NODE n) != s.rd (F.PARTNER_INFO.P_NODE o) ||
    s.rd (F.PARTNER_INFO.P_PORT n) != (s.rd (F.PARTNER_INFO.P_PORT o) + 4) % 8))

/-- A member of an active pair enters UP (R260, R262); in a standard mode it takes no part in the pair (R259). -/
def State.memberUp (s : State) (n : Fin 8) : State :=
  let k := pairOf n
  if !s.twActive k || !s.spire n then s
  else if s.memberBad n then
    ((s.wr (memberFld k (memberOf n)) mEXCLUDED).wrB (F.TW_EVENT.EXCLUDED k) true).pairEval k
  else
    let join := s.mState (otherOf n) = mIN
    let s1 := s.modMember n fun _ => { sp := s.ts k, pe := s.em k }
    (s1.wr (memberFld k (memberOf n)) (if join then mJOINING else mIN)).pairEval k

/-- The merge stalls: GAP of every member IN and in UP that is ahead of E_M (R270). -/
def State.stall (s : State) (k : Fin 4) : State :=
  let ahead (m : Nat) : Bool := s.rd (memberFld k m) == mIN && s.link (portOf k m) == stUP &&
    decide (0 < seqDist (s.twin[k].mem m).pe (s.em k))
  if ahead 0 || ahead 1 then
    let mark (m : Nat) (t : Twin) : Twin :=
      if ahead m then t.modMem m fun q => { q with gap := true, gapStall := true, gapTb := s.tb } else t
    (((s.modTwin k fun t => mark 1 (mark 0 t)).count (F.TW_CNT.STALLS k)).wrB (F.TW_EVENT.STALL k) true).syncTwin k
  else s

/-- A member enters HOLD or leaves: the other replays from TO if it skipped a SEQ not before TO, and the merge may
stall (R267, R270). -/
def State.memberLoss (s : State) (n : Fin 8) : State :=
  let q := otherOf n
  let k := pairOf n
  let s1 :=
    if s.mState q == mIN || s.mState q == mJOINING then
      match (s.member q).skipped with
      | some x => if 0 < seqDist x (s.twTo k) then s.timeoutReplay q else s
      | none => s
    else s
  s1.stall k

/-- A member leaves UP or HOLD: OUT at once (R261). -/
def State.memberOut (s : State) (n : Fin 8) : State :=
  let k := pairOf n
  if s.twActive k && decide (s.mState n ≠ mOUT) then
    ((((s.wr (memberFld k (memberOf n)) mOUT).memberLoss n).pairEval k).modMember n fun _ => {}).syncTwin k
  else s

/-! ### Ladder requests (R178-R195) -/

/-- States of TX_STATE and RX_STATE (R200). -/
abbrev txIDLE : Nat := 0
abbrev txARMED : Nat := 1
abbrev txCOUNTDOWN : Nat := 2
abbrev txCOMMITTED : Nat := 3
abbrev rxIDLE : Nat := 0
abbrev rxREQUESTING : Nat := 1
abbrev rxARMED : Nat := 2
abbrev rxDUAL : Nat := 3

/-- A loading with skew dropped where `b` ≤ 11 (R73). -/
def actLoad (rung load : Nat) : Nat := if rungBits rung ≤ 11 then load % 24 else load

/-- The receiver makes a request (R179); it wakes the transmit direction (R359). -/
def State.ladRequest (s : State) (n : Fin 8) (rung load : Nat) : State :=
  ((s.wr (F.LAD_STATUS.RX_STATE n) rxREQUESTING).modPort n fun p =>
    { p with lad := { p.lad with reqRung := rung, reqLoad := actLoad rung load, reqPhase := false } }).lpiTrigger n

/-- The receiver may make a request (R179, R183, R195). -/
def State.ladIdle (s : State) (n : Fin 8) : Bool :=
  s.rd (F.LAD_STATUS.RX_STATE n) == rxIDLE && !s.port[n].lad.rxHoldoff

/-- The fallback of R191 where it is due and the receiver is IDLE. -/
def State.ladFallback (s : State) (n : Fin 8) : State :=
  let l := s.port[n].lad
  if l.fallback && s.ladIdle n && s.rd (F.LAD_CTRL.LAD_MODE n) < 2 then
    ((s.ladRequest n l.prevRung l.prevLoad).wrB (F.LAD_EVENT.FALLBACK n) true).modPort n fun p =>
      { p with lad := { p.lad with fallback := false, reqFallback := true } }
  else s

/-- Every ladder activity ends without effect (R185); what a tick counts from and UP_HOLDOFF run on (R186, R190). -/
def State.ladEnd (s : State) (n : Fin 8) : State :=
  ((s.wr (F.LAD_STATUS.TX_STATE n) txIDLE).wr (F.LAD_STATUS.RX_STATE n) rxIDLE).modPort n fun p => { p with
    lad := { lastFrames := p.lad.lastFrames, lastIter := p.lad.lastIter, cleanFails := p.lad.cleanFails,
             holdoffTb := p.lad.holdoffTb } }

end Sys2Proof.Machine
end

