-- ==== Sys2Proof/Machine/Link.lean ====
section
/-! DEFINITION. The link state machine and training of a port (02_port_modes_negotiation.md R39-R68,
04_equalisation_cancellation.md R110-R122). -/

namespace Sys2Proof.Machine

/-! ### Events and states -/

/-- The word of LINK_STATUS (R64). -/
def State.linkWord (s : State) (n : Fin 8) : Nat :=
  s.word [F.LINK_STATUS.LAST_DOWN n, F.LINK_STATUS.LDT_RAISED n, F.LINK_STATUS.MS_MASTER n, F.LINK_STATUS.MDIX n,
    F.LINK_STATUS.PD_FD n, F.LINK_STATUS.MODE n, F.LINK_STATUS.STATE n, F.LINK_STATUS.LDT_RES n]

/-- Set a bit of LINK_EVENT and write its record (R58, R671). -/
def State.linkEvent (s : State) (n : Fin 8) (f : Nat → Fld) : State :=
  let s1 := s.wrB (f n) true
  s1.rise (portSrc n 0xF) [2 ^ (f n).lo, s1.linkWord n]

/-- PARTNER_ARRIVE (R52, R58). -/
def State.partnerArrive (s : State) (n : Fin 8) : State :=
  (s.modPort n fun p => { p with neg := { p.neg with arrived := true, leaveDue := true } }).linkEvent n
    F.LINK_EVENT.PARTNER_ARRIVE

/-- PARTNER_LEAVE, at most once for each PARTNER_ARRIVE (R58). -/
def State.partnerLeave (s : State) (n : Fin 8) : State :=
  if s.port[n].neg.leaveDue then
    (s.modPort n fun p => { p with neg := { p.neg with leaveDue := false } }).linkEvent n F.LINK_EVENT.PARTNER_LEAVE
  else s

/-- Reasons of LAST_DOWN (R64). -/
abbrev rHOST_DISABLE : Nat := 1
abbrev rHOST_RESTART : Nat := 2
abbrev rAN_TIMEOUT : Nat := 3
abbrev rNO_COMMON_MODE : Nat := 4
abbrev rTRAIN_TIMEOUT : Nat := 5
abbrev rSTD_LINK_FAIL : Nat := 6
abbrev rSPIRE_LDT : Nat := 7
abbrev rPARTNER_GONE : Nat := 8
abbrev rSPIRE_VER : Nat := 9
abbrev rMS_CONFLICT : Nat := 10
abbrev rPARTNER_MISMATCH : Nat := 11
abbrev rNLP_ONLY : Nat := 12
abbrev rPORT_RESET : Nat := 13
abbrev rPOWER_STATE : Nat := 14

/-- Enter a link state (R51). -/
def State.setLink (s : State) (n : Fin 8) (st : Nat) : State := s.wr (F.LINK_STATUS.STATE n) st

/-- Enter DORMANT: a departed partner is reported, and dormant power-down acts (R58, R618). -/
def State.enterDormant (s : State) (n : Fin 8) : State :=
  (((s.setLink n stDORMANT).partnerLeave n).modPort n fun p =>
    { p with neg := { p.neg with arrived := false, woke := false } }).dormantDown n

/-- Leave DORMANT for SENSE (R52, R618). -/
def State.wakeToSense (s : State) (n : Fin 8) : State :=
  ((s.portWake n).setLink n stSENSE).modPort n fun p => { p with neg := { p.neg with arrived := false, woke := true } }

/-! ### HOLD (R216, R217, R242) -/

/-- The length of a stay, in µs rounded up (R242). -/
def usUp (ns : Nat) : Nat := (ns + 999) / 1000

/-- A stay in HOLD ends: HOLD_LONGEST and HOLD_TIME take it (R242, R243). -/
def State.holdEnd (s : State) (n : Fin 8) : State :=
  let r := s.port[n].rtx
  let d := s.tb - r.holdStart
  let tot := r.holdTotal + d
  (((s.peak (F.HOLD_STAT.HOLD_LONGEST n) (usUp d)).modPort n fun p =>
    { p with rtx := { p.rtx with holdTotal := tot } }).wr (F.HOLD_TIME.HOLD_TIME n) (tot / 1000))

/-- Enter HOLD (R52, R123, R191, R212, R216). -/
def State.enterHold (s : State) (n : Fin 8) : State :=
  if s.link n = stUP then
    let s1 := (((s.setLink n stHOLD).count (F.HOLD_STAT.HOLD_CNT n)).modPort n fun p =>
      { p with
        rtx := { p.rtx with holdStart := s.tb, goods := 0 },
        eq := { p.eq with hangHold := false },
        lad := { p.lad with
          dnRun := 0, upRun := 0, lowRun := 0, highRun := 0,
          fallback := s.on (F.LAD_CTRL.FALLBACK_EN n) && (match p.lad.sinceUp with | some k => decide (k ≤ 64) | none => false) } })
    let s2 := ((s1.freeze n (fun _ => true) frzHOLD true).ladFallback n).syncRtx n
    (if s2.twinned n then s2.memberLoss n else s2).linkEvent n F.LINK_EVENT.HOLD_ENTER
  else s

/-- Leave HOLD for UP (R52, R123, R191, R212, R217). A fallback that still waits for the receiver to be IDLE is dropped: the rule
has the request made in HOLD and as soon as the receiver is IDLE, and does not say what a stay that ends first leaves; the model's
choice (log entry 95). -/
def State.exitHold (s : State) (n : Fin 8) : State :=
  let s1 := (((s.setLink n stUP).holdEnd n).modPort n fun p =>
    { p with eq := { p.eq with hangHold := true }, lad := { p.lad with skipTicks := 4, fallback := false },
             rtx := { p.rtx with fails := 0 } })
  let s2 := if s.rd (F.FRZ_CTRL.FRZ_HANG n) = 0 then
      (s1.freeze n (fun _ => true) frzHOLD false).modPort n fun p => { p with eq := { p.eq with hangHold := false } }
    else s1
  (s2.syncRtx n).linkEvent n F.LINK_EVENT.HOLD_EXIT

/-! ### Training (R115-R122) -/

/-- Training phases (R115). -/
abbrev phQUIET : Nat := 1
abbrev phECHO_M : Nat := 2
abbrev phECHO_S : Nat := 3
abbrev phDUPLEX2 : Nat := 4
abbrev phDUPLEX4 : Nat := 5
abbrev phINFO : Nat := 6
abbrev phPRECODE : Nat := 7
abbrev phFRAME_SYNC : Nat := 8
abbrev phSTD : Nat := 9

/-- The training phase of a port. -/
def State.phase (s : State) (n : Fin 8) : Nat := s.rd (F.TRN_STATUS.TRN_PHASE n)

/-- Whether R117 keeps filter `f` frozen in phase `ph` at an end that is master or not. -/
def phaseFrozen (ph : Nat) (master : Bool) (f : Nat × Nat) : Bool :=
  if ph = phECHO_M ∨ ph = phECHO_S then
    let tx := decide (ph = phECHO_M) == master
    if tx then decide (2 ≤ f.2) else decide (f.2 < 3)
  else decide (ph = phQUIET ∨ ph = phINFO ∨ ph = 0)

/-- The slots of the coefficient window that belong to pair `x`'s DFE and precoder, and to the shadow set (R127). -/
def coefIsDfe (w : Nat) : Bool := w < 0x18000 && decide (0x5B00 ≤ w % 0x6000) && decide (w % 0x6000 < 0x5BC0)
def coefIsThp (w : Nat) : Bool := w < 0x18000 && decide (0x5C00 ≤ w % 0x6000)
def coefIsShadow (w : Nat) : Bool := decide (0x18000 ≤ w)

/-- The window offset of FFE tap `i` of pair `x`; pair 4 is the shadow set (R127). -/
def ffeOff (x i : Nat) : Nat := if x < 4 then 0x6000 * x + 0x5A00 + 4 * i else 0x1B000 + 4 * i
/-- The window offset of DFE tap `i` (from 1) and of precoder coefficient `i` (from 1) of pair `x` (R127). -/
def dfeOff (x i : Nat) : Nat := 0x6000 * x + 0x5B00 + 4 * (i - 1)
def thpOff (x i : Nat) : Nat := 0x6000 * x + 0x5C00 + 4 * (i - 1)

/-- 1.0 in the accumulator of an FFE tap, S2.21 (R107, R121). -/
abbrev ffeOne : Nat := 2 ^ 21

/-- The coefficients at an attempt's start (R121): all 0 but FFE_MAIN, or kept but for DFE, THP and the shadow set. -/
def State.startCoef (s : State) (n : Fin 8) (keep : Bool) (m : Sparse Nat) : Sparse Nat :=
  let kept := if keep then m.filter fun e => !(coefIsDfe (4 * e.1) || coefIsThp (4 * e.1) || coefIsShadow (4 * e.1)) else []
  if keep then kept
  else [0, 1, 2, 3, 4].foldl (fun m x => spPut m (ffeOff x (s.rd (F.EQ_CFG.FFE_MAIN n x)) / 4) ffeOne) kept

/-- Set THP_LEN and DFE_LEN of every pair (R132). -/
def State.setLens (s : State) (n : Fin 8) (thp dfe : Nat) : State :=
  [0, 1, 2, 3].foldl (fun s x => (s.wr (F.EQ_STATUS.THP_LEN n x) thp).wr (F.EQ_STATUS.DFE_LEN n x) dfe) s

/-- Whether the port is timing master (R47). -/
def State.master (s : State) (n : Fin 8) : Bool := s.on (F.LINK_STATUS.MS_MASTER n)

/-- The INFO block that this end sends (R118): what its receiver has decided. -/
def Train.info' (t : Train) : Info := ⟨t.ownCoef, t.ownOrder, t.ownSkew, t.ownRung⟩

/-- What an end sends in a phase (R115, R122); each phase's sequence begins at its seeds (log entry 77). -/
def phaseTx (ph : Nat) (master spire : Bool) (t : Train) : TrnTx :=
  if ph = phECHO_M then (if master then .prbs 2 false trainSeeds else .silent)
  else if ph = phECHO_S then (if master then .silent else .prbs 2 false trainSeeds)
  else if ph = phDUPLEX2 then .prbs 2 false trainSeeds
  else if ph = phDUPLEX4 then .prbs 4 false trainSeeds
  else if ph = phINFO then .info t.info'.block
  else if ph = phPRECODE then .prbs 4 true trainSeeds
  else if ph = phFRAME_SYNC then .frames
  else if ph = phSTD then .clause
  else if ph = 0 then (if spire then .frames else .clause)
  else .silent

/-- Enter a training phase: TRN_PHASE, what is sent, and the PHASE freeze cause (R115, R117). -/
def State.enterPhase (s : State) (n : Fin 8) (ph : Nat) : State :=
  let s1 := (s.wr (F.TRN_STATUS.TRN_PHASE n) ph).modPort n fun p => { p with trn := { p.trn with
    sends := phaseTx ph (s.master n) (s.spire n) p.trn } }
  (s1.freeze n (phaseFrozen ph (s.master n)) frzPHASE true).freeze n
    (fun f => !phaseFrozen ph (s.master n) f) frzPHASE false

/-- A diagnostic run ends with a result; what a DORMANT port raised for it goes down again (R344, R618). -/
def State.diagEnd (s : State) (n : Fin 8) (result : Nat) : State :=
  let s1 := ((s.wrB (F.DIAG_STATUS.DIAG_BUSY n) false).wr (F.DIAG_STATUS.DIAG_RESULT n) result).wrB (F.DIAG_EVENT.DIAG_DONE n) true
  let s2 := s1.modPort n fun p => { p with diag := { p.diag with run := none, scanDue := false } }
  if s.link n = stDORMANT then s2.dormantDown n else s2

/-- What every training attempt starts with, at a symbol rate in MBd and with `dfe` DFE taps (R121, R131-R134, R344): the
coefficients, the fields that take effect now, the attempt's count and time; a SNAPSHOT in progress is ABORTED. -/
def State.attemptBegin (s : State) (n : Fin 8) (rate dfe : Nat) : State :=
  let t := s.port[n].trn
  let keep := s.on (F.TRN_CTRL.COEF_KEEP n) && decide (t.adaptedRate = some rate)
  let s1 := if t.upSince then s.wr (F.TRN_STATUS.TRN_ATTEMPTS n) 1 else s.countSat (F.TRN_STATUS.TRN_ATTEMPTS n)
  let s2 := if s.port[n].diag.run = some .snapshot then s1.diagEnd n 3 else s1
  let coef := s.startCoef n keep s.port[n].eq.coef
  let main := [0, 1, 2, 3, 4].map fun x => s.rd (F.EQ_CFG.FFE_MAIN n x)
  let s3 := s2.modPort n fun p => { p with
    trn := { p.trn with
      silence := false, startTb := s.tb, upSince := false, info := none, snrD4 := [], coefKnown := true, ownCoef := [],
      muOvr := s.on (F.TRN_CTRL.TRN_MU_OVR n), main := main },
    eq := { p.eq with coef := coef, snrValid := [false, false, false, false], errSq := [], chain := [] } }
  (s3.setLens n 0 dfe).wr (F.TRN_STATUS.TRN_ELAPSED n) 0

/-- The filters adapt at a symbol rate from now on (R121). -/
def State.adaptsAt (s : State) (n : Fin 8) (rate : Nat) : State :=
  s.modPort n fun p => { p with trn := { p.trn with adaptedRate := some rate } }

/-- A training attempt of the current tier starts (R46, R121, R134). -/
def State.attemptStart (s : State) (n : Fin 8) : State :=
  (s.attemptBegin n (tierRate s.port[n].trn.tier) 48).enterPhase n phQUIET

/-- Training begins: WIN_SIZE takes effect at entry to TRAIN (R233). In a standard mode the DFE is the main equaliser with 16
taps, or long until the precoder exchange (R109, R122). -/
def State.enterTrain (s : State) (n : Fin 8) : State :=
  let w := winSizeOf (s.rd (F.RTX_CTRL.WIN_SIZE n))
  let s1 := (s.setLink n stTRAIN).modPort n fun p =>
    { p with rtx := { p.rtx with winSize := w }, trn := { p.trn with silence := false, info := none } }
  let s2 := s1.protoStart n
  let mode := s.rd (F.LINK_STATUS.MODE n)
  if s.spire n then s2.attemptStart n
  else
    let rate := (lineForm mode 0).rate
    ((s2.attemptBegin n rate (if mode < 3 then 16 else 48)).adaptsAt n rate).enterPhase n phSTD

/-! ### Leaving (R52, R185, R232) -/

/-- What ends when a port leaves TRAIN, UP or HOLD. -/
def State.leaveActive (s : State) (n : Fin 8) : State :=
  let wasUp := s.linkUp n
  let s0 := if s.link n = stHOLD then s.holdEnd n else s
  let s1 := if wasUp && !s.twinned n then s0.dropSide (ownPort n) else s0
  let s2 := ((s1.lpiQuietEnd n).ladEnd n).dropWin n
  let s3 := (((((s2.wr (F.LPI_STATUS.TX_LPI n) 0).wr (F.LPI_STATUS.RX_LPI n) 0).wrB (F.LPI_STATUS.LPI_RES n) false).wrB
    (F.FRM_STATUS.LOCK_RX n) false).wr (F.FRM_STATUS.ITER_LIMIT n) 0)
  let s4 := ((s3.wr (F.TRN_STATUS.TRN_PHASE n) 0).wr (F.TRN_STATUS.TRN_ELAPSED n) 0).modPort n fun p => { p with
    fr := { p.fr with
      txScr := scrOnes, rxScr := scrOnes, txIdx := 0, txRungIdx := 0, rxIdx := 0, rxStart := 0, txFrame := none,
      done := [], lockCount := 0, upFrames := 0, tx := {} },
    trn := { p.trn with silence := false, upSince := p.trn.upSince || wasUp, info := none, sends := .silent },
    lpi := { quietNs := p.lpi.quietNs },
    eq := { p.eq with hangHold := false, decGood := 0 } }
  let s5 := ((((s4.freeze n (fun _ => true) frzHOLD false).freeze n (fun _ => true) frzDECODE false).freeze n
    (fun _ => true) frzLPI false).freeze n (fun _ => true) frzPHASE true)
  let s6 := (s5.setLens n 0 0).modLane n fun l => { l with lpiTx := false, lpiEi := false }
  if s6.rd (F.HL_STATUS.LB_CUR n) = 3 then s6.lbAbort n else s6

/-- What reads 0 once the link has left: MODE, LDT_RES, LDT_RAISED, MS_MASTER, PD_FD (R64). The spec does not say which
fields outlive a link that goes down; that MS_MASTER and LDT_RAISED clear and MDIX stays is the model's choice (log
entry 71). -/
def State.clearResolved (s : State) (n : Fin 8) : State :=
  ((((s.wr (F.LINK_STATUS.MODE n) 0).wr (F.LINK_STATUS.LDT_RES n) 0).wrB (F.LINK_STATUS.LDT_RAISED n) false).wrB
    (F.LINK_STATUS.MS_MASTER n) false).wrB (F.LINK_STATUS.PD_FD n) false

/-- Leave TRAIN, UP or HOLD for DISABLED or SENSE with a reason; SENSE begins with the break silence (R52, R53). What STATE
reads during that silence is the model's choice: SENSE, with the silence held beside it (log entry 72). -/
def State.linkDown (s : State) (n : Fin 8) (nst reason : Nat) : State :=
  let s1 := (((s.leaveActive n).setLink n nst).clearResolved n).wr (F.LINK_STATUS.LAST_DOWN n) reason
  let s2 := s1.modPort n fun p => { p with neg := { p.neg with breakSilence := decide (nst = stSENSE) } }
  let s3 := s2.memberOut n
  ((s3.syncRtx n).syncLane n).linkEvent n F.LINK_EVENT.LINK_DOWN

/-- The port is in TRAIN, UP or HOLD. -/
def State.active (s : State) (n : Fin 8) : Bool := decide (stTRAIN ≤ s.link n)

/-- Go to DISABLED from any state (R52). A reason is recorded only from TRAIN, UP or HOLD. -/
def State.disable (s : State) (n : Fin 8) (reason : Nat) : State :=
  let s1 := if s.active n then s.linkDown n stDISABLED reason else s.setLink n stDISABLED
  s1.modPort n fun p => { p with neg := { p.neg with breakSilence := false, woke := false } }

/-- A training attempt fails with a code of R120: the next lower rate after the silence, or the link is given up
(R46). -/
def State.attemptFail (s : State) (n : Fin 8) (code : Nat) : State :=
  let s1 := s.wr (F.TRN_STATUS.TRN_FAIL n) code
  let rates := s.rd (F.PARTNER_INFO.RES_SRATES n)
  let t := s.port[n].trn.tier
  let lower := ((List.range t).reverse).find? fun k => bitB rates k
  match lower with
  | none => s1.linkDown n stSENSE rTRAIN_TIMEOUT
  | some k =>
    ((((((s1.wr (F.TRN_STATUS.TRN_PHASE n) 0).wr (F.TRN_STATUS.TRN_ELAPSED n) 0).wrB (F.FRM_STATUS.LOCK_RX n) false).wr
      (F.FRM_STATUS.ITER_LIMIT n) 0).setLens n 0 0).freeze n (fun _ => true) frzPHASE true).modPort n fun p =>
      { p with trn := { p.trn with tier := k, silence := true, info := none, sends := .silent },
               fr := { p.fr with txFrame := none, done := [], lockCount := 0, tx := {} } }

/-- Enter UP: LINK_UP, UP_CNT, the engines afresh (R52, R140, R208, R355). -/
def State.enterUp (s : State) (n : Fin 8) (eee : Bool) : State :=
  let lpi := s.on (F.LPI_CTRL.LPI_EN n) && eee
  let s1 := (((((s.setLink n stUP).count (F.LINK_COUNT.UP_CNT n)).wr (F.LAD_STATUS.TIER_HINT n) 0).wrB
    (F.LAD_PROPOSE.P_VALID n) false).wrB (F.LPI_STATUS.LPI_RES n) lpi)
  let s2 := ((s1.wr (F.TRN_STATUS.TRN_ELAPSED n) 0).enterPhase n 0).freeze n (fun _ => true) frzPHASE false
  let s3 := (s2.resetRtx n).modPort n fun p => { p with
    fr := { p.fr with upFrames := 0 },
    lpi := { quietNs := p.lpi.quietNs } }
  (((s3.memberUp n).syncRtx n).syncLane n).linkEvent n F.LINK_EVENT.LINK_UP

/-! ### Auto-negotiation (R42-R49) -/

/-- The mode codes that NEG_CTRL advertises, bits 9-14 (R59, R64). -/
def State.advModes (s : State) (n : Fin 8) : List Nat :=
  (if s.on (F.NEG_CTRL.ADV_100 n) then [1] else []) ++ (if s.on (F.NEG_CTRL.ADV_1G n) then [2] else []) ++
  (if s.on (F.NEG_CTRL.ADV_2P5G n) then [3] else []) ++ (if s.on (F.NEG_CTRL.ADV_5G n) then [4] else []) ++
  (if s.on (F.NEG_CTRL.ADV_10G n) then [5] else []) ++ (if s.on (F.NEG_CTRL.ADV_25G n) then [6] else []) ++
  (if s.on (F.NEG_CTRL.ADV_SPIRE n) then [7] else [])

/-- TOP_RUNG, INP_MS and LDT_MS as they act (R60). -/
def topRungOf (v : Nat) : Nat := min v 26
def inpMsOf (v : Nat) : Nat := min v 16
def ldtMsOf (v : Nat) : Nat := if v = 0 ∨ 250 < v then 64 else v
/-- EXPECT_MODE as it acts: 0 off, 1 report, 2 enforce (R61). -/
def expectOfMode (v : Nat) : Nat := min v 2

/-- The pages after the base page (R42): those of the standard clauses where a mode or an ability needs them, then S1 and
S2. -/
def ownPages (modes : List Nat) (eee : Bool) : List OwnKind :=
  (if modes.any (fun m => decide (2 ≤ m ∧ m ≤ 6)) || (eee && modes.contains 1) then [.clauses] else []) ++
    (if modes.contains 7 then [.s1, .s2] else [])

/-- The base page (R42): the 802.3 selector, 100BASE-TX full duplex, the Extended Next Page bit, and the Next Page bit where
a next page follows; bit positions are those of Clause 28 (log entry 73). -/
def basePage (modes : List Nat) (eee : Bool) : Nat :=
  1 + 2 ^ 8 * b2n (modes.contains 1) + 2 ^ 12 + 2 ^ 15 * b2n (!(ownPages modes eee).isEmpty)

/-- D[15:0] of a next page with NP, MP and Toggle; Ack and Ack2 are sent as 0 (R43, log entry 73). -/
def pageD (np mp toggle : Bool) (d : Nat) : Nat := d + 2 ^ 11 * b2n toggle + 2 ^ 13 * b2n mp + 2 ^ 15 * b2n np

/-- U[31:0] of S1: SPIRE_VER 1, PAGE_SET 1, the Fjarnyx OUI (R43). -/
abbrev s1U : Nat := 0x1138A4C6

/-- D[10:0] of S2 (R43). -/
def Neg.s2D (g : Neg) : Nat :=
  g.srates * 2 ^ 8 + g.topRung * 2 ^ 3 + b2n g.twinCap * 4 + b2n g.msForce * 2 + b2n g.msValue

/-- U[31:0] of S2, with the node number and the port (R43). -/
def Neg.s2U (g : Neg) (node prt : Nat) : Nat :=
  node * 2 ^ 26 + prt * 2 ^ 23 + g.seed * 2 ^ 13 + g.inpMs * 2 ^ 8 + g.ldtMs

/-- The page of a kind as it goes out now; NODE_ID is BF_NODE's at the time of sending (R43, 09_belfry.md R320). -/
def State.formPage (s : State) (n : Fin 8) (k : OwnKind) (np : Bool) : SentPage :=
  let g := s.port[n].neg
  match k with
  | .clauses => .clauses g.advModes g.advEee
  | .s1 => .ext (pageD np true g.toggle 5) s1U
  | .s2 => .ext (pageD np false g.toggle g.s2D) (g.s2U (s.rd (F.BF_NODE.NODE 0)) n.val)

/-- The next page goes out in exchange for one received; null message pages follow the last (R42). -/
def State.sendPage (s : State) (n : Fin 8) : State :=
  let g := s.port[n].neg
  let r : SentPage × List OwnKind := match g.toSend with
    | [] => (.null (pageD false true g.toggle 1), [])
    | k :: rest => (s.formPage n k (!rest.isEmpty), rest)
  s.modPort n fun p => { p with neg := { p.neg with sending := some r.1, toSend := r.2, toggle := !g.toggle } }

/-- Enter AN: the advertisement fields take effect, a seed is drawn and the base page goes out (R42, R47, R49). -/
def State.enterAn (s : State) (n : Fin 8) : State :=
  let d := s.drawFree 10
  (d.2.setLink n stAN).modPort n fun p => { p with neg := { p.neg with
    advModes := s.advModes n, spireOnly := s.on (F.NEG_CTRL.SPIRE_ONLY n), srates := s.rd (F.SPIRE_ADV.SRATES n),
    topRung := topRungOf (s.rd (F.SPIRE_ADV.TOP_RUNG n)), twinCap := s.on (F.SPIRE_ADV.TWIN_CAP n),
    msForce := s.on (F.SPIRE_ADV.MS_FORCE n), msValue := s.on (F.SPIRE_ADV.MS_VALUE n),
    inpMs := inpMsOf (s.rd (F.SPIRE_ADV.INP_MS n)), ldtMs := ldtMsOf (s.rd (F.SPIRE_ADV.LDT_MS n)),
    expectMode := expectOfMode (s.rd (F.SPIRE_EXPECT.EXPECT_MODE n)), expNode := s.rd (F.SPIRE_EXPECT.EXP_NODE n),
    expPort := s.rd (F.SPIRE_EXPECT.EXP_PORT n), seed := d.1, ties := 0, advEee := s.on (F.NEG_CTRL.ADV_EEE n),
    partnerEee := false, partnerExtNp := false, partnerModes := [], s1 := none, s2 := none, breakSilence := false,
    sending := some (.base (basePage (s.advModes n) (s.on (F.NEG_CTRL.ADV_EEE n)))),
    toSend := ownPages (s.advModes n) (s.on (F.NEG_CTRL.ADV_EEE n)), toggle := true } }

/-- The fields of page S2 (R43): `d` is D[10:0], `u` is U[31:0]. -/
structure S2Page where
  srates : Nat
  topRung : Nat
  twinCap : Bool
  msForce : Bool
  msValue : Bool
  node : Nat
  port : Nat
  seed : Nat
  inp : Nat
  ldt : Nat

/-- Read page S2 (R43). -/
def readS2 (d u : Nat) : S2Page :=
  { srates := bitsOf d 10 8, topRung := bitsOf d 7 3, twinCap := bitB d 2, msForce := bitB d 1, msValue := bitB d 0,
    node := bitsOf u 31 26, port := bitsOf u 25 23, seed := bitsOf u 22 13, inp := bitsOf u 12 8, ldt := bitsOf u 7 0 }

/-- The partner is Spire-capable, its SPIRE_VER aside (R44). -/
def Neg.spireCapable (g : Neg) : Bool :=
  g.partnerExtNp && g.s2.isSome &&
    (match g.s1 with
     | some (d, u) => d % 2048 == 5 && bitsOf u 23 0 == 0x38A4C6 && bitsOf u 27 24 == 1
     | none => false)

/-- An S1 came with the Fjarnyx OUI but another SPIRE_VER (R44). -/
def Neg.verBad (g : Neg) : Bool :=
  match g.s1 with
  | some (d, u) => d % 2048 == 5 && bitsOf u 23 0 == 0x38A4C6 && bitsOf u 31 28 != 1
  | none => false

/-- The timing role (R47): `none` while tied or in conflict. -/
def roleOf (g : Neg) (p : S2Page) : Option Bool :=
  if g.msForce && !p.msForce then some g.msValue
  else if !g.msForce && p.msForce then some (!p.msValue)
  else if g.msForce && p.msForce then (if g.msValue = p.msValue then none else some g.msValue)
  else if g.seed = p.seed then none
  else some (decide (p.seed < g.seed))

/-- Neither end forces and the seeds are equal (R47). -/
def tied (g : Neg) (p : S2Page) : Bool := !g.msForce && !p.msForce && g.seed == p.seed

/-- The partner identity differs from the expected one (R48). -/
def mismatch (g : Neg) (p : S2Page) : Bool := p.node != g.expNode || p.port != g.expPort

/-- Rungs of a rate set up to a top rung (R46). -/
def rungSet (rates top : Nat) : List Nat := (List.range 27).filter fun r => bitB rates (rungTier r) && decide (r ≤ top)

/-- The reason a Spire resolution fails, if it does: PARTNER_MISMATCH, under which the link comes up in no mode (R48), then
SPIRE_VER, NO_COMMON_MODE, MS_CONFLICT (R45); the order where several hold is the model's (log entry 74). -/
def spireFail (g : Neg) (ver : Nat) (p : S2Page) : Option Nat :=
  if g.expectMode = 2 ∧ g.s2.isSome ∧ mismatch g p then some rPARTNER_MISMATCH
  else if ver ≠ 1 then some rSPIRE_VER
  else if (g.srates &&& p.srates) = 0 ∨ rungSet (g.srates &&& p.srates) (min g.topRung (topRungOf p.topRung)) = [] then
    some rNO_COMMON_MODE
  else if (roleOf g p).isNone then some rMS_CONFLICT
  else none

/-- The highest mode of a list below Spire that the partner also has; 0 for none (R45). -/
def commonStd (a b : List Nat) : Nat :=
  ([6, 5, 4, 3, 2, 1].find? fun m => a.contains m && b.contains m).getD 0

/-- PARTNER_INFO of a Spire resolution (R65). -/
def State.recordPartner (s : State) (n : Fin 8) (ver : Nat) (p : S2Page) : State :=
  let g := s.port[n].neg
  ((((((s.wr (F.PARTNER_INFO.P_VER n) ver).wr (F.PARTNER_INFO.P_SRATES n) p.srates).wr (F.PARTNER_INFO.RES_TOP_RUNG n)
    (min g.topRung (topRungOf p.topRung))).wr (F.PARTNER_INFO.RES_SRATES n) (g.srates &&& p.srates)).wrB
    (F.PARTNER_INFO.P_TWIN_CAP n) p.twinCap).wr (F.PARTNER_INFO.P_NODE n) p.node).wr (F.PARTNER_INFO.P_PORT n) p.port
    |>.modPort n fun q => { q with neg := { q.neg with recorded := true } }

/-- Negotiation fails: back to SENSE with a reason (R45, R52). -/
def State.anFail (s : State) (n : Fin 8) (reason : Nat) : State :=
  (s.setLink n stSENSE).wr (F.LINK_STATUS.LAST_DOWN n) reason

/-- Values of pairs A-D, the same number of each, as 48 places of each pair. -/
def pad48 (coef : List Nat) : List Nat :=
  let k := coef.length / 4
  [0, 1, 2, 3].flatMap fun x => (List.range 48).map fun i => if i < k then coef.getD (k * x + i) 0 % 2 ^ 16 else 0

/-- The precoder of a standard mode as the exchange of the clause leaves it (03_line_signal_path.md R78, R109, R114, R132): from
2.5GBASE-T up `coef` holds what the partner sent and `own` what this receiver sent, the same number of values for each pair,
at most 48; bypassed below. The DFE runs with 16 taps from then on. -/
def State.stdPrecode (s : State) (n : Fin 8) (coef own : List Nat) : State :=
  let len := if s.rd (F.LINK_STATUS.MODE n) < 3 then 0 else min 48 (coef.length / 4)
  let thp := [0, 1, 2, 3].flatMap fun x => (List.range len).map fun i => (thpOff x (i + 1) / 4, coef.getD (coef.length / 4 * x + i) 0)
  (s.modPort n fun p => { p with
    trn := { p.trn with ownCoef := if len = 0 then [] else pad48 own }
    eq := { p.eq with
      coef := thp.foldl (fun m e => if e.2 % 2 ^ 16 = 0 then m else spPut m e.1 (e.2 % 2 ^ 16 * 2 ^ 8))
        (p.eq.coef.filter fun e => !coefIsThp (4 * e.1)) } }).setLens n len 16

/-- Enter TRAIN of a standard mode (R45); its timing role is the clause's own, a free value from 1000BASE-T up. -/
def State.resolveStd (s : State) (n : Fin 8) (mode : Nat) : State :=
  let d := s.drawFree 1
  let s1 := if 2 ≤ mode then d.2.wr (F.LINK_STATUS.MS_MASTER n) d.1 else s.wr (F.LINK_STATUS.MS_MASTER n) 0
  ((s1.wr (F.LINK_STATUS.MODE n) mode).wr (F.LINK_STATUS.LDT_RES n) 0).enterTrain n

/-- The values of a Spire resolution, and training at the highest common rate (R46, R47). -/
def State.resolveSpire (s : State) (n : Fin 8) (p : S2Page) : State :=
  let g := s.port[n].neg
  let rates := g.srates &&& p.srates
  let inp := max g.inpMs (inpMsOf p.inp)
  let ldt := min g.ldtMs (ldtMsOf p.ldt)
  let tier := if bitB rates 2 then 2 else if bitB rates 1 then 1 else 0
  let s1 := ((((s.wr (F.LINK_STATUS.MODE n) 7).wr (F.LINK_STATUS.LDT_RES n) (max ldt (inp + 4))).wrB
    (F.LINK_STATUS.LDT_RAISED n) (decide (ldt < inp + 4))).wrB (F.LINK_STATUS.MS_MASTER n) ((roleOf g p).getD false))
  (s1.modPort n fun q => { q with trn := { q.trn with tier := tier, inpBoth := inp } }).enterTrain n

/-- The page exchange has ended: resolve (R44, R45, R48). Where Spire fails, no fallback is allowed or none is common, the
reason recorded is that of the Spire failure: the spec gives NO_COMMON_MODE only where no mode at all is shared, and the
reading is the model's choice (log entry 74). -/
def State.resolve (s : State) (n : Fin 8) : State :=
  let g := s.port[n].neg
  let std := commonStd g.advModes g.partnerModes
  if g.advModes.contains 7 && (g.spireCapable || g.verBad) then
    let p := match g.s2 with | some (d, u) => readS2 d u | none => readS2 0 0
    let ver := match g.s1 with | some (_, u) => bitsOf u 31 28 | none => 0
    let s1 := if g.s2.isSome then s.recordPartner n ver p else s.wr (F.PARTNER_INFO.P_VER n) ver
    let s2 := if g.expectMode ≠ 0 && g.s2.isSome && mismatch g p then s1.linkEvent n F.LINK_EVENT.EXPECT_MISMATCH else s1
    match spireFail g ver p with
    | none => s2.resolveSpire n p
    | some r =>
      if r = rPARTNER_MISMATCH || g.spireOnly || std = 0 then s2.anFail n r else s2.resolveStd n std
  else if std = 0 then s.anFail n rNO_COMMON_MODE
  else s.resolveStd n std

/-- A tie of the seeds: a fresh seed, and S1 and S2 once more, in place of null message pages (R47). -/
def State.tie (s : State) (n : Fin 8) : State :=
  let d := s.drawFree 10
  d.2.modPort n fun p => { p with neg := { p.neg with
    seed := d.1, ties := p.neg.ties + 1, s1 := none, s2 := none, toSend := p.neg.toSend ++ [.s1, .s2] } }

end Sys2Proof.Machine
end

