-- ==== Sys2Proof/Machine/SliceOps.lean ====
section
/-! DEFINITION. Slices, crossbar, impulse flag and coefficient updates of a port: the shared operations
(03_line_signal_path.md R85-R94, 04_equalisation_cancellation.md R107-R126). -/

namespace Sys2Proof.Machine

/-! ### Which pair a slice carries (R87, R93) -/

/-- SWAP or SPARE: S carries the current pair. -/
def State.xbSwapped (s : State) (n : Fin 8) : Bool :=
  s.rd (F.XB_STATUS.XB_STATE n) == xbSWAP || s.rd (F.XB_STATUS.XB_STATE n) == xbSPARE

/-- Slice `x` carries a pair. -/
def State.carries (s : State) (n : Fin 8) (x : Nat) : Bool :=
  if x < 4 then !(s.xbSwapped n && s.rd (F.XB_STATUS.XB_CUR_PAIR n) == x) else s.xbSwapped n

/-- The pair that slice `x` carries. -/
def State.carriedPair (s : State) (n : Fin 8) (x : Nat) : Option Nat :=
  if s.carries n x then some (if x < 4 then x else s.rd (F.XB_STATUS.XB_CUR_PAIR n)) else none

/-- The port impulse flag (R93). -/
def State.portFlag (s : State) (n : Fin 8) : Bool :=
  [0, 1, 2, 3, 4].any fun x => s.carries n x && s.domOn (14 * n.val + x) && s.on (F.IMP_STATUS.IMP_FLAG n x)

/-! ### Impulse flag (R92-R94, R123, R216, R217) -/

/-- BLK_GOOD and BLK_FAILS as they act (R234). -/
def State.blkGood (s : State) (n : Fin 8) : Nat := max 1 (s.rd (F.RTX_CTRL.BLK_GOOD n))
def State.blkFails (s : State) (n : Fin 8) : Nat := max 1 (s.rd (F.RTX_CTRL.BLK_FAILS n))

/-- Leave HOLD when the count stands and the flag is clear (R217). -/
def State.holdExitCheck (s : State) (n : Fin 8) : State :=
  if s.link n = stHOLD && decide (s.blkGood n ≤ s.port[n].rtx.goods) && !s.portFlag n then s.exitHold n else s

/-- The port impulse flag asserts (R123, R216). -/
def State.flagRise (s : State) (n : Fin 8) : State :=
  let s1 := if s.on (F.FRZ_CTRL.IMP_FRZ_EN n) then s.freeze n (fun _ => true) frzIMPULSE true else s
  let s2 := s1.modPort n fun p => { p with eq := { p.eq with hangImp := false } }
  if s.spire n && s.on (F.RTX_CTRL.IMP_BLK_EN n) then s2.enterHold n else s2

/-- The port impulse flag clears (R123, R217). -/
def State.flagFall (s : State) (n : Fin 8) : State :=
  let s1 := if s.rd (F.FRZ_CTRL.FRZ_HANG n) = 0 then s.freeze n (fun _ => true) frzIMPULSE false
    else s.modPort n fun p => { p with eq := { p.eq with hangImp := true } }
  s1.holdExitCheck n

/-- Do `f`, and what follows from a change of the port impulse flag. -/
def State.withFlag (s : State) (n : Fin 8) (f : State → State) : State :=
  let t := f s
  if !s.portFlag n && t.portFlag n then t.flagRise n
  else if s.portFlag n && !t.portFlag n then t.flagFall n
  else t

/-- Slice `x`'s flag asserts (R92, R101). -/
def State.impSet (s : State) (n : Fin 8) (x : Nat) : State :=
  s.withFlag n fun s => ((s.wrB (F.IMP_STATUS.IMP_FLAG n x) true).count (F.IMP_EVENTS.IMP_EVENTS n x)).modPort n fun p =>
    { p with sl := { p.sl with impStart := p.sl.impStart.set x s.tb } }

/-- Slice `x`'s flag clears, and IMP_LONGEST takes its length (R93, R100). -/
def State.impClr (s : State) (n : Fin 8) (x : Nat) : State :=
  if s.on (F.IMP_STATUS.IMP_FLAG n x) then
    s.withFlag n fun s => (s.peak (F.IMP_STATUS.IMP_LONGEST n x) (usUp (s.tb - s.port[n].sl.impStart.getD x 0))).wrB
      (F.IMP_STATUS.IMP_FLAG n x) false
  else s

/-- Magnitudes of ADC samples: a code is at most 2,048 in magnitude (03_line_signal_path.md R83). -/
def adcMags (mags : List Nat) : List Nat := mags.map (min 2048)

/-- The sums of every 16 consecutive magnitudes, oldest first. -/
def sums16 : List Nat → List Nat
  | [] => []
  | m :: ms => if ms.length < 15 then [] else (m + (ms.take 15).foldl (· + ·) 0) :: sums16 ms

/-- The long-term mean of slice `x`'s sum of 16 magnitudes, in 2^-20 codes (R92). -/
def State.impMean (s : State) (n : Fin 8) (x : Nat) : Nat := (spFind s.port[n].sl.impMean x).getD 0

/-- The mean tracks over windows with time constant 2^(10 + IMP_TAU), 11-15 acting as 10 (R92, R99). -/
def State.impTrack (s : State) (n : Fin 8) (x : Nat) (sums : List Nat) : State :=
  let tau := 10 + min 10 (s.rd (F.IMP_CTRL.IMP_TAU n x))
  let m := sums.foldl (fun m v => Config.meanStep tau m (v * 2 ^ 20)) (s.impMean n x)
  s.modPort n fun p => { p with sl := { p.sl with impMean := spPut p.sl.impMean x m } }

/-- Criterion A on 16 consecutive sample magnitudes (R92, R99). -/
def State.critA (s : State) (n : Fin 8) (x : Nat) (mags : List Nat) : Bool :=
  let lvl := 128 * max 8 (s.rd (F.IMP_CTRL.IMP_LEVEL n x))
  decide (s.rd (F.IMP_CTRL.IMP_NCLIP n x) + 1 ≤ ((mags.take 16).filter fun m => decide (lvl ≤ m)).length)

/-- Criterion B against the long-term mean of the sum, in 2^-20 codes (R92, R99). -/
def State.critB (s : State) (n : Fin 8) (x : Nat) (mags : List Nat) (mean : Nat) : Bool :=
  s.on (F.IMP_CTRL.IMPB_EN n x) && s.on (F.IMP_STATUS.IMPB_VALID n x) &&
    decide (2 ^ (1 + s.rd (F.IMP_CTRL.IMP_RATIO n x)) * mean < (mags.take 16).foldl (· + ·) 0 * 2 ^ 20)

/-! ### Trims (R85) -/

/-- The trim fields of a slice (R96-R98). -/
def trimFields (n x : Nat) : List Fld :=
  [F.SLICE_TRIM.DAC_I n x, F.SLICE_TRIM.TXA_TRIM n x, F.SLICE_TRIM.HYB_R n x, F.SLICE_TRIM.HYB_C n x] ++
    (List.range 16).flatMap fun k =>
      [F.SUBADC_TRIM_A.OFS n x k, F.SUBADC_TRIM_A.GAIN n x k, F.SUBADC_TRIM_A.SKEW n x k, F.SUBADC_TRIM_B.THR2 n x k,
        F.SUBADC_TRIM_B.THR1 n x k, F.SUBADC_TRIM_B.THR0 n x k]

/-- TRIM_APPLY = 1 (R85). -/
def State.trimApply (s : State) (n : Fin 8) (x : Nat) : State := (s.wrB (F.SLICE_CTRL.TRIM_PEND n x) true).lpiTrigger n

/-- A frame boundary of the port where R75 lets an event take place: in Spire a symbol-aligned boundary of the transmit
direction, which the crossbar and the trims of a slice switch with (log entry 89); in other modes every one. In a quiet
period of low-power idle there is none (10_diagnostics_lpi.md R363). -/
def State.aligned (s : State) (n : Fin 8) : Bool :=
  s.rd (F.LPI_STATUS.TX_LPI n) != lpiQUIET && (!(s.spire n && s.link n == stUP) ||
    s.port[n].fr.txRungIdx % alignFrames (rungBits (s.rd (F.LAD_STATUS.TX_RUNG n))) == 0)

/-- The copy of the shadow set to the active set, with its guard event (R85, R123). -/
def State.trimCopy (s : State) (n : Fin 8) (x : Nat) : State :=
  let s1 := ((trimFields n x).foldl (fun s f => s.wr f.hidden (s.rd f)) s).wrB (F.SLICE_CTRL.TRIM_PEND n x) false
  s1.guard n fun y => some y == s.carriedPair n x

/-! ### Crossbar (R87-R91) -/

/-- The coefficient word that takes the place of word key `k` when pair `p` and the shadow set exchange echo and FFE
(R110, R127). -/
def exchKey (p k : Nat) : Nat :=
  let w := 4 * k
  let b := 0x6000 * p
  if b ≤ w ∧ w < b + 0x3000 then k - b / 4 + 0x6000
  else if b + 0x5A00 ≤ w ∧ w < b + 0x5B00 then k - (b + 0x5A00) / 4 + 0x6C00
  else if 0x18000 ≤ w ∧ w < 0x1B000 then k - 0x6000 + b / 4
  else if 0x1B000 ≤ w ∧ w < 0x1B100 then k - 0x6C00 + (b + 0x5A00) / 4
  else k

/-- Exchange the echo and FFE of pair `p` with the shadow set (R110). -/
def exchCoef (p : Nat) (m : Sparse Nat) : Sparse Nat := m.foldl (fun a e => spPut a (exchKey p e.1) e.2) []

/-- The crossbar takes a state with pair `p` (R87, R90, R110, R123); SPARE(A) holds the wires of source 0x0 at idle (R88). -/
def State.xbEnter (s : State) (n : Fin 8) (st p : Nat) : State :=
  let cur := s.rd (F.XB_STATUS.XB_CUR_PAIR n)
  let was := s.xbSwapped n
  let will := st == xbSWAP || st == xbSPARE
  s.withFlag n fun s =>
    let s1 := (s.wr (F.XB_STATUS.XB_STATE n) st).wr (F.XB_STATUS.XB_CUR_PAIR n) (if st = xbIDLE then 0 else p)
    let s2 := if will then s1.count (F.XB_STATUS.XB_SWAPS n) else s1
    let s3 := s2.modPort n fun q => { q with eq := { q.eq with
      coef := if was = will then q.eq.coef else exchCoef (if will then p else cur) q.eq.coef } }
    let s4 := (s3.freeze n (fun f => f.1 == 4) frzSLICE (decide (st ≠ xbSHADOW))).iff (st != xbSHADOW) fun s =>
      s.wr (F.EQ_STATUS.SLC_SNR n 4) 0
    let s4 := s4.iff (st == xbSPARE && p == 0) fun s =>
      (s.wrB (F.FLT_SRC_STAT.ACTIVE (portSrc n 0)) false).wrB (F.FLT_SRC_STAT.WIRE (portSrc n 0)) false
    if was || will then s4.guard n fun y => y == (if will then p else cur) else s4

/-- A request is done at once, or at its switch point (R90). -/
def State.xbDone (s : State) (n : Fin 8) (st p : Nat) : State :=
  (((s.xbEnter n st p).wrB (F.XB_STATUS.XB_BUSY n) false).wr (F.XB_STATUS.XB_RESULT n) 1).modPort n fun q =>
    { q with sl := { q.sl with xbPend := none } }

/-- A request is refused (R89, R91). -/
def State.xbRefuse (s : State) (n : Fin 8) : State := s.wr (F.XB_STATUS.XB_RESULT n) 2

/-- A SWAP or handback waits for its switch point, acts at once, or is refused (R89). -/
def State.xbSwitch (s : State) (n : Fin 8) (st p : Nat) (pend : XbPend) : State :=
  let l := s.link n
  let m := s.rd (F.LINK_STATUS.MODE n)
  if l = stUP ∧ (m = 1 ∨ m = 2) then s.xbRefuse n
  else if l = stUP ∨ l = stHOLD then
    (s.wrB (F.XB_STATUS.XB_BUSY n) true).modPort n fun q => { q with sl := { q.sl with xbPend := some pend } }
  else s.xbDone n st p

/-- XB_GO = 1 for state `req` and pair `p` (R89, R91). -/
def State.xbGo (s : State) (n : Fin 8) (req p : Nat) : State :=
  let st := s.rd (F.XB_STATUS.XB_STATE n)
  let cur := s.rd (F.XB_STATUS.XB_CUR_PAIR n)
  let l := s.link n
  if req = xbSPARE then
    let s1 := (s.wrB (F.XB_STATUS.XB_BUSY n) false).modPort n fun q => { q with sl := { q.sl with xbPend := none } }
    if st = xbIDLE ∨ st = xbSHADOW ∨ (st = xbSWAP ∧ cur = p) then s1.xbDone n xbSPARE p else s1.xbRefuse n
  else if s.on (F.XB_STATUS.XB_BUSY n) ∨ 4 ≤ req then s.xbRefuse n
  else if st = xbIDLE ∧ req = xbSHADOW then s.xbDone n xbSHADOW p
  else if st = xbSHADOW ∧ req = xbIDLE then s.xbDone n xbIDLE 0
  else if st = xbSHADOW ∧ req = xbSHADOW ∧ p ≠ cur then s.xbDone n xbSHADOW p
  else if st = xbSHADOW ∧ req = xbSWAP ∧ p = cur then s.xbSwitch n xbSWAP p (.swap p)
  else if st = xbSWAP ∧ req = xbSHADOW ∧ p = cur then s.xbSwitch n xbSHADOW p (.handback p)
  else if st = xbSPARE ∧ req = xbIDLE ∧ (l = stDISABLED ∨ l = stDORMANT ∨ l = stSENSE) then s.xbDone n xbIDLE 0
  else s.xbRefuse n

/-- A calibration handover runs on port `n` (18_calibration_monitors.md R635). -/
def State.handover (s : State) (n : Fin 8) : Bool :=
  match s.cal.run with | some r => r.handover && r.n == n | none => false

/-- XB_CTRL as written, and the request; refused during a handover, but for SPARE (R636). -/
def State.xbRequest (s : State) (n : Fin 8) (req p : Nat) : State :=
  let s1 := (s.wr (F.XB_CTRL.XB_REQ n) req).wr (F.XB_CTRL.XB_PAIR n) p
  if s.handover n && req != xbSPARE then s1.xbRefuse n else (s1.xbGo n req p).lpiTrigger n

/-- The crossbar returns to IDLE: PD_Pn_AFE_S leaves ON, or a block reset (R91). -/
def State.xbDrop (s : State) (n : Fin 8) : State :=
  ((s.xbEnter n xbIDLE 0).wrB (F.XB_STATUS.XB_BUSY n) false).modPort n fun q => { q with sl := { q.sl with xbPend := none } }

/-! ### Coefficient updates (R107-R113, R117, R124) -/

/-- A place in the coefficient window: slice or pair, filter, which canceller, symbol position (R113, R127). -/
structure CoefPlace where
  x : Nat
  f : Nat
  m : Nat
  j : Nat

/-- The filter coefficient at window offset `w`; none for THP words and holes (R127). -/
def coefPlace (w : Nat) : Option CoefPlace :=
  if w < 0x18000 then
    let x := w / 0x6000
    let r := w % 0x6000
    if r < 0x3000 then some ⟨x, 0, 0, r / 8⟩
    else if r < 0x5400 then some ⟨x, 1, (r - 0x3000) / 0xC00 + 1, (r - 0x3000) % 0xC00 / 8⟩
    else if r < 0x5A00 then
      if (r - 0x5400) % 0x200 < 0x100 then some ⟨x, 2, (r - 0x5400) / 0x200 + 1, (r - 0x5400) % 0x200 / 4⟩ else none
    else if r < 0x5B00 then some ⟨x, 3, 0, (r - 0x5A00) / 8⟩
    else if r < 0x5BC0 then some ⟨x, 4, 0, (r - 0x5B00) / 4 + 1⟩
    else none
  else if w < 0x1B000 then some ⟨4, 0, 0, (w - 0x18000) / 8⟩
  else if w < 0x1B100 then some ⟨4, 3, 0, (w - 0x1B000) / 8⟩
  else none

/-- The filter is off in the mode (R109, R110). -/
def filterOff (mode : Nat) (c : CoefPlace) : Bool :=
  match mode with
  | 1 => c.f == 0 || c.f == 2 || (c.f == 1 && !(c.x == 1 && c.m == 1))
  | 2 => c.f == 2
  | _ => false

/-- Fraction bits of a filter's accumulator (R107). -/
def accFrac (f : Nat) : Nat := match f with | 0 => 22 | 1 => 23 | 2 => 23 | 3 => 21 | _ => 22

/-- MU of the training schedule, by phase, half of the phase and filter (R117, R122). R122 names echo, NEXT, FFE and DFE for
standard-mode training (phase 9) and not FEXT: that FEXT adapts there, with the step of the DUPLEX2 row, is the model's
choice (log entry 90). -/
def trnMu (ph : Nat) (half2 : Bool) (f : Nat) : Nat :=
  match ph, f with
  | 2, 0 | 3, 0 | 9, 0 => if half2 then 10 else 6
  | 2, 1 | 3, 1 | 9, 1 => if half2 then 11 else 7
  | 2, _ | 3, _ => if half2 then 8 else 4
  | 4, 0 => 12
  | 4, 1 => 13
  | 4, 2 => 10
  | 4, _ => 8
  | 9, 2 => 10
  | 9, _ => 8
  | 5, 0 => 14
  | 5, 1 => 15
  | 5, 2 => 14
  | 5, _ => 10
  | _, 0 => 14
  | _, 1 => 15
  | _, 2 => 16
  | _, 3 => 10
  | _, _ => 9

/-- `z / 2^k` to the nearest integer, ties away from zero (R111). -/
def roundShift (z : Int) (k : Nat) : Int :=
  let h := if k = 0 then 0 else (2 ^ (k - 1) : Nat)
  if 0 ≤ z then (((z.natAbs + h) / 2 ^ k : Nat) : Int) else -(((z.natAbs + h) / 2 ^ k : Nat) : Int)

/-- A 24-bit accumulator after one update (R111): law, MU, LEAK, fraction bits, error and regressor in S0.15. -/
def adaptStep (law mu leak frac : Nat) (eps r acc : Int) : Int :=
  let acc1 := if law = 3 ∧ 0 < leak then acc - roundShift acc (leak + 15) else acc
  let g := if law = 0 ∨ law = 3 then roundShift (eps * r * (2 ^ frac : Nat)) (30 + mu + 8)
    else if law = 1 then roundShift (sgnI eps * r * (2 ^ frac : Nat)) (15 + mu + 8)
    else roundShift (sgnI eps * sgnI r * (2 ^ frac : Nat)) (mu + 8)
  saturate 24 (acc1 + g)

/-- Store an accumulator in the window. -/
def putCoef (m : Sparse Nat) (k v : Nat) : Sparse Nat := if v = 0 then spDel m k else spPut m k v

/-- A filter is frozen (R123). The shadow set is on the line in SHADOW alone (R110). -/
def State.frozen (s : State) (n : Fin 8) (x f : Nat) : Bool :=
  s.rd (F.ADAPT.FRZ_CAUSE n x f) != 0 || !s.on (F.ADAPT.ADAPT_EN n x f) || s.on (F.ADAPT.FREEZE n x f) ||
    (x == 4 && s.rd (F.XB_STATUS.XB_STATE n) != xbSHADOW)

/-- The SW cause follows ADAPT_EN and FREEZE (R123). -/
def State.syncSw (s : State) (n : Fin 8) (x f : Nat) : State :=
  let v := s.rd (F.ADAPT.FRZ_CAUSE n x f) % 128
  s.wr (F.ADAPT.FRZ_CAUSE n x f)
    (if !s.on (F.ADAPT.ADAPT_EN n x f) || s.on (F.ADAPT.FREEZE n x f) then v + 128 else v)

/-- The `k` coefficients from offset `w` of the coefficient window on, as the filters use them (R107, R127, R128). -/
def coefsAt (m : Sparse Nat) (w k : Nat) : List Int :=
  (List.range k).map fun i => signedOf 16 ((spFind m (w / 4 + i)).getD 0 / 256)

/-- The pair that a slice's receive chain works for: for the shadow set, the pair connected to S (R110). -/
def State.chainPair (s : State) (n : Fin 8) (x : Nat) : Nat := if x < 4 then x else s.rd (F.XB_STATUS.XB_CUR_PAIR n)

/-- The PAM order at the slicer of pair `p` (R69, R76, R115): by the training phase in TRAIN, by the loading in Spire data. -/
def State.slicerOrder (s : State) (n : Fin 8) (p : Nat) : Nat :=
  match s.rd (F.LINK_STATUS.MODE n) with
  | 1 => 3
  | 2 => 5
  | 7 =>
    let ph := s.phase n
    if ph = phDUPLEX4 ∨ ph = phPRECODE then 4
    else if ph = 0 ∨ ph = phFRAME_SYNC then
      2 ^ (pairBits (rungBits (s.rd (F.LAD_STATUS.RX_RUNG n))) (s.rd (F.LAD_STATUS.RX_LOAD n))).getD p 2
    else 2
  | _ => 16

/-- The receiver reduces modulo 2 and runs its precoder replicas (R76, R104, R114, R115): in Spire from PRECODE on, in the
other modes with a precoder once they are up. -/
def State.reduces (s : State) (n : Fin 8) : Bool :=
  let mode := s.rd (F.LINK_STATUS.MODE n)
  if mode = 7 then s.linkUp n || decide (phPRECODE ≤ s.phase n) else s.linkUp n && decide (3 ≤ mode)

/-- The precoder coefficients of pair `p`'s replica: those that this receiver sent to the partner (R114). -/
def State.replicaCoef (s : State) (n : Fin 8) (p : Nat) : List Int :=
  if s.reduces n then ((s.port[n].trn.ownCoef.drop (48 * p)).take 48).map (signedOf 16) else []

/-- The filters of slice `x` as its receive chain runs them (R104, R107, R109, R110, R131): the shadow set has its own echo
canceller and FFE, the NEXT and FEXT estimates of the pair it shadows, and no DFE. -/
def State.rxFilters (s : State) (n : Fin 8) (x : Nat) : RxFilters :=
  let m := s.port[n].eq.coef
  let p := s.chainPair n x
  let mode := s.rd (F.LINK_STATUS.MODE n)
  let others := [0, 1, 2, 3].filter fun q => q != p
  let runs (f k : Nat) (en : Bool) : Bool := en && !filterOff mode ⟨p, f, k, 0⟩
  let cancs (f off size k : Nat) (en : Bool) : List (Nat × List Int) :=
    (List.range 3).filterMap fun i =>
      if runs f (i + 1) en then some (others.getD i 0, coefsAt m (0x6000 * p + off + size * i) k) else none
  { main := s.port[n].trn.main.getD x 16
    echo := if runs 0 0 (s.on (F.EQ_CFG.ECHO_EN n x)) then coefsAt m (if x < 4 then 0x6000 * x else 0x18000) 3072 else []
    next := cancs 1 0x3000 0xC00 768 (s.on (F.EQ_CFG.NEXT_EN n p))
    fext := cancs 2 0x5400 0x200 64 (s.on (F.EQ_CFG.FEXT_EN n p))
    ffe := coefsAt m (ffeOff x 0) 64
    dfe := if x < 4 then coefsAt m (dfeOff x 1) (s.rd (F.EQ_STATUS.DFE_LEN n x)) else []
    thp := [0, 1, 2, 3].map (s.replicaCoef n)
    pair := p
    m := s.slicerOrder n p
    reduce := decide (x < 4) && s.reduces n }

/-- The window of the chain as it reaches slice `x`, its values cut to S0.15 (R83, R105); the shadow set's error is taken
against the final decision of its pair (R110). -/
def State.rxWindow (s : State) (n : Fin 8) (x : Nat) (w : RxWin) : RxWin :=
  let cut (l : List Int) : List Int := l.map toS15
  { r := cut w.r, x := w.x.map cut, tent := w.tent.map cut, zt := cut w.zt, rep := cut w.rep
    sym := if x < 4 then w.sym.map toS15
      else some ((w.sym.map toS15).getD ((spFind s.port[n].eq.chain (s.chainPair n x)).map RxSymbol.dec |>.getD 0)) }

/-- The error and the regressor of a coefficient (R112): `c` its place, `ph` its phase or the parity of its FFE tap. -/
def coefInput (f : RxFilters) (w : RxWin) (t : RxSymbol) (c : CoefPlace) (ph : Nat) : Int × Int :=
  let src := (([0, 1, 2, 3].filter fun q => q != f.pair).getD (c.m - 1) 0)
  match c.f with
  | 0 => (t.e.getD (64 - ph) 0, (w.x.getD f.pair []).getD (32 + c.j) 0)
  | 1 => (t.e.getD (64 - ph) 0, (w.x.getD src []).getD (32 + c.j) 0)
  | 2 => (t.eps, (t.tent.getD src 0 :: w.tent.getD src []).getD c.j 0)
  | 3 => (t.eps, t.e.getD (64 - f.main + (2 * c.j + ph)) 0)
  | _ => (t.eps, w.rep.getD (c.j - 1) 0)

/-- The law of an update (R111, R113): LAW, MU, LEAK, DECIM. -/
structure Law where
  law : Nat
  mu : Nat
  leak : Nat
  dec : Nat

/-- The law that a word of ADAPT(f) spells (R130). -/
def lawOf (w : Nat) : Law := ⟨bitsOf w 29 28, bitsOf w 27 23, bitsOf w 22 19, bitsOf w 18 16⟩

/-- The word of ADAPT(f) beside FRZ_CAUSE (R130). -/
def State.adaptWord (s : State) (n : Fin 8) (x f : Nat) : Nat :=
  s.word [F.ADAPT.ADAPT_EN n x f, F.ADAPT.FREEZE n x f, F.ADAPT.LAW n x f, F.ADAPT.MU n x f, F.ADAPT.LEAK n x f,
    F.ADAPT.DECIM n x f]

/-- The law of an update of filter (x, f) (R111, R117, R122, R125): the training schedule, or the register; an update computed
before the register's last write keeps the values it had. -/
def State.lawFor (s : State) (n : Fin 8) (x f : Nat) (half2 early : Bool) : Law :=
  if 2 ≤ s.phase n ∧ s.phase n ≠ 8 ∧ !s.port[n].trn.muOvr then ⟨0, trnMu (s.phase n) half2 f, 0, 0⟩
  else
    let now := s.adaptWord n x f
    lawOf (if early then (spFind s.port[n].eq.prevAdapt (8 * x + f)).getD now else now)

/-- A symbol k at which position j of a filter is updated (R113). -/
def updatesAt (dec k j : Nat) : Bool := (k + 2 ^ dec * j - j) % 2 ^ dec == 0

/-- One symbol of a receive chain, and one update of the coefficient at window offset `w` computed at symbol `k`
(R104, R111-R113, R117, R124): `half2` in the second half of a training phase, `early` if computed before the last write of the
filter's ADAPT register, `win` what the chain works on. -/
def State.adaptCommit (s : State) (n : Fin 8) (w k : Nat) (half2 early : Bool) (win : RxWin) : State :=
  match coefPlace w with
  | none => s
  | some c =>
    if s.active n && s.domOn (filterDom n.val (c.x, 0)) && s.domOn (filterDom n.val (c.x, 3)) then
      let f := s.rxFilters n c.x
      let wn := s.rxWindow n c.x win
      let t := rxChain f wn
      let l := s.lawFor n c.x c.f half2 early
      let er := coefInput f wn t c (w / 4 % 2)
      let off := filterOff (s.rd (F.LINK_STATUS.MODE n)) c || (c.f == 4 && decide (s.rd (F.EQ_STATUS.DFE_LEN n c.x) < c.j))
      let go := !s.frozen n c.x c.f && !off && updatesAt l.dec k c.j
      s.modPort n fun p =>
        let acc := signedOf 24 ((spFind p.eq.coef (w / 4)).getD 0)
        { p with eq := { p.eq with
          chain := spPut p.eq.chain c.x t
          coef := if go then putCoef p.eq.coef (w / 4)
              (unsignedOf 24 (adaptStep l.law l.mu l.leak (accFrac c.f) er.1 er.2 acc)) else p.eq.coef } }
    else s

/-! ### Reference SNR (R187) -/

/-- CORR(M) and REQ(M), by bits per pair (R187, R198), in 1/16 dB. -/
def corrOf (bits : Nat) : Int := match bits with | 2 => 4 | 3 => 1 | _ => 0
def State.reqSnr (s : State) (n : Fin 8) (bits : Nat) : Int :=
  2 * ((match bits with
    | 2 => s.rd (F.LAD_REQSNR.REQ4 n)
    | 3 => s.rd (F.LAD_REQSNR.REQ8 n)
    | 4 => s.rd (F.LAD_REQSNR.REQ16 n)
    | _ => s.rd (F.LAD_REQSNR.REQ32 n) : Nat) : Int)

/-- The reference SNR of each pair (R187). -/
def State.refSnr (s : State) (n : Fin 8) : List Int :=
  let bits := pairBits (rungBits (s.rd (F.LAD_STATUS.RX_RUNG n))) (s.rd (F.LAD_STATUS.RX_LOAD n))
  [0, 1, 2, 3].map fun x => (s.rd (F.EQ_STATUS.SLC_SNR n x) : Int) + corrOf (bits.getD x 2)

end Sys2Proof.Machine
end

