-- ==== Sys2Proof/Machine/DiagOps.lean ====
section
/-! DEFINITION. Cable diagnostics: acceptance, reflections, captures, landmarks (10_diagnostics_lpi.md R343-R353). -/

namespace Sys2Proof.Machine

/-! ### Configuration and references (R345-R347, R364, R367) -/

/-- TDR_AVG, TDR_LEN, NVP_DLY, REFL_TH and WEAR_TH as they act (R364, R367). -/
def tdrAvg (v : Nat) : Nat := min v 10
def tdrLen (v : Nat) : Nat := min v 4
def State.nvp (s : State) (n : Fin 8) : Nat := max 3000 (s.rd (F.DIAG_CFG.NVP_DLY n))
def State.reflTh (s : State) (n : Fin 8) : Nat := max 1 (s.rd (F.DIAG_CFG.REFL_TH n))
def State.wearTh (s : State) (n : Fin 8) : Nat := max 1 (s.rd (F.DIAG_CFG.WEAR_TH n))

/-- The symbol rate of the port's mode in MBd (03_line_signal_path.md R69, R74). -/
def State.lineRate (s : State) (n : Fin 8) : Nat :=
  match s.rd (F.LINK_STATUS.MODE n) with
  | 1 | 2 => 125
  | 3 => 200
  | 4 => 400
  | 5 => 800
  | 6 => 2000
  | _ => tierRate (rungTier (s.rd (F.LAD_STATUS.RX_RUNG n)))

/-- The pairs of a bit set, A to D. -/
def pairsOf (v : Nat) : List Nat := [0, 1, 2, 3].filter (bitB v)

/-- The slice that serves pair `x` (R87). -/
def State.pairSlice (s : State) (n : Fin 8) (x : Nat) : Nat :=
  if s.xbSwapped n && s.rd (F.XB_STATUS.XB_CUR_PAIR n) == x then 4 else x

/-- The offset of a slice's entry in a calibration record (18_calibration_monitors.md R637). -/
def calEntry (n x : Nat) : Nat := 0x200 + 0xA0 * (5 * n + x)

/-- `k` bytes at an offset of the calibration record loaded; 0 where none is (R637, R639). -/
def State.calRec (s : State) (off k : Nat) : Nat :=
  match s.cal.loaded with
  | some m => m.readNat off k
  | none => 0

/-- H_REF of slice `x` in effect: as last measured, or as the record has it (R631, R637). -/
def State.hRefOf (s : State) (n x : Nat) : Nat :=
  match (spFind s.cal.slice (5 * n + x)).bind SliceCal.meas with
  | some m => m.1
  | none => s.calRec (calEntry n x + 0x84) 2

/-- Sample `i` of the TDR residual of slice `x` in effect, 16 bits (R345, R637). -/
def State.residOf (s : State) (n x i : Nat) : Nat :=
  match (spFind s.cal.slice (5 * n + x)).bind SliceCal.meas with
  | some m => m.2.getD i 0
  | none => s.calRec (0x2000 + 0x200 * (5 * n + x) + 2 * i) 2

/-- H_REF of the slice that serves pair `x`; a free value where no record holds one (R347). -/
def State.hRef (s : State) (n : Fin 8) (x : Nat) : Nat × State :=
  let v := s.hRefOf n.val (s.pairSlice n x)
  if v = 0 then
    let d := s.drawFree 16
    (max 1 d.1, d.2)
  else (v, s)

/-- The stored value of a TDR position (R345): the sum over the shots scaled, less the hybrid residual. -/
def State.tdrValue (s : State) (n : Fin 8) (x avg i : Nat) (sum : Int) : Int :=
  let r := if i < 256 then signedOf 16 (s.residOf n.val (s.pairSlice n x) i) else 0
  saturate 16 (saturate 16 (roundShift (16 * sum) avg) - r)

/-- The coefficient of echo word `w` of pair `x` (R128). -/
def State.echoCoef (s : State) (n : Fin 8) (x w : Nat) : Int :=
  signedOf 16 ((spFind s.port[n].eq.coef (0x1800 * x + w)).getD 0 / 256)

/-- Echo words of a pair (R127). -/
abbrev echoWords : Nat := 3072

/-! ### Distance (R346) -/

/-- A position's distance in 0.1 m, as a fraction: `num` per position over `den`. -/
structure Scale where
  num : Nat
  den : Nat

/-- The scale of TDR samples, and of echo words at a symbol rate. -/
def tdrScale (nvp : Nat) : Scale := ⟨1250, nvp⟩
def echoScale (nvp rate : Nat) : Scale := ⟨2500000, rate * nvp⟩

/-- The distance of position `i` to the nearest 0.1 m. -/
def Scale.dist (k : Scale) (i : Nat) : Nat := (2 * k.num * i + k.den) / (2 * k.den)
/-- Position `i` lies closer than 0.5 m. -/
def Scale.near (k : Scale) (i : Nat) : Bool := decide (k.num * i < 5 * k.den)
/-- Position `i` lies within 0.5 m of `d`, in 0.1 m (R349). -/
def Scale.within (k : Scale) (i d : Nat) : Bool :=
  decide (k.num * i ≤ (d + 5) * k.den) && decide (d * k.den ≤ k.num * i + 5 * k.den)

/-! ### Reflections (R346, R347, R368) -/

/-- A peak: its position and its value, where `full` stands for Γ = 1. -/
abbrev Refl : Type := Nat × Int

/-- The events among the peaks (R347). -/
def events (th full : Nat) (k : Scale) (ps : List Refl) : List Refl :=
  ps.filter fun p => !k.near p.1 && decide (th * full ≤ 128 * p.2.natAbs)

/-- The eight events of greatest magnitude, in the order given (R347). -/
def topEight (es : List Refl) : List Refl :=
  es.filter fun p => decide ((es.filter fun q =>
    decide (p.2.natAbs < q.2.natAbs) || (q.2.natAbs == p.2.natAbs && decide (q.1 < p.1))).length < 8)

/-- Insert by rising position. -/
def insRefl (p : Refl) : List Refl → List Refl
  | [] => [p]
  | q :: qs => if p.1 < q.1 then p :: q :: qs else q :: insRefl p qs

/-- KIND of an event (R347, R368). -/
def reflKind (v : Int) (full : Nat) : Nat :=
  if (full : Int) ≤ 2 * v then 1 else if 2 * v ≤ -(full : Int) then 2 else 3

/-- Γ in 1/1,024, signed (R368). -/
def gammaField (v : Int) (full : Nat) : Nat :=
  let q := (2048 * v.natAbs + full) / (2 * full)
  unsignedOf 12 (saturate 12 (if v < 0 then -(q : Int) else (q : Int)))

/-- Write one REFL entry. -/
def State.putRefl (s : State) (n : Fin 8) (x i : Nat) (src : Nat) (full : Nat) (k : Scale) (p : Option Refl) : State :=
  match p with
  | none => ((((s.wr (F.REFL.VALID n x i) 0).wr (F.REFL.KIND n x i) 0).wr (F.REFL.SRC n x i) 0).wr (F.REFL.GAMMA n x i) 0).wr
      (F.REFL.DIST n x i) 0
  | some p => ((((s.wr (F.REFL.VALID n x i) 1).wr (F.REFL.KIND n x i) (reflKind p.2 full)).wr (F.REFL.SRC n x i) src).wr
      (F.REFL.GAMMA n x i) (gammaField p.2 full)).wr (F.REFL.DIST n x i) (min 0x7FF (k.dist p.1))

/-- The eight REFL entries of pair `x` (R347). -/
def State.putRefls (s : State) (n : Fin 8) (x src full : Nat) (k : Scale) (ps : List Refl) : State :=
  let es := (topEight (events (s.reflTh n) full k ps)).foldr insRefl []
  (List.range 8).foldl (fun (s : State) i => s.putRefl n x i src full k es[i]?) s

/-! ### Landmarks (R349, R350) -/

/-- a/b of Γ is at least the reflection loss of `k - 1/2` in 1/16 dB. -/
def rlAtLeast (a b k : Nat) : Bool := k == 0 || decide (a ^ 640 * 10 ^ (2 * k - 1) ≤ b ^ 640)

/-- RL_CUR of |Γ| = a/b (R349): 1,023 for 0. -/
def rlOf (a b : Nat) : Nat :=
  if a = 0 then 1023
  else [512, 256, 128, 64, 32, 16, 8, 4, 2, 1].foldl (fun k d => if rlAtLeast a b (k + d) then k + d else k) 0

/-- Energies e over h are at least the loss of `k - 1/2` in 1/16 dB. -/
def lossAtLeast (e h k : Nat) : Bool := k == 0 || decide (e ^ 320 * 10 ^ (2 * k - 1) ≤ h ^ 320)

/-- −10 log10 (e / h) in 1/16 dB, at least 0 and saturated at 1,023 (R348, R369). -/
def lossOf (e h : Nat) : Nat :=
  if e = 0 then 1023
  else [512, 256, 128, 64, 32, 16, 8, 4, 2, 1].foldl (fun k d => if lossAtLeast e h (k + d) then k + d else k) 0

/-- The largest magnitude within 0.5 m of `d` (R349). -/
def maxNear (k : Scale) (d : Nat) (vs : List Refl) : Nat :=
  vs.foldl (fun m p => if k.within p.1 d then max m p.2.natAbs else m) 0

/-- The first scan is due again (R350): LM_EN has risen. -/
def State.lmFresh (s : State) (n : Fin 8) (x i : Nat) : State :=
  s.modPort n fun p => { p with diag := { p.diag with
    lmSeen := p.diag.lmSeen.filter (· ≠ 8 * x + i), lmRuns := spDel p.diag.lmRuns (8 * x + i) } }

/-- LM_SET = 1 (R350). -/
def State.lmSet (s : State) (n : Fin 8) (x i : Nat) : State :=
  (((s.wrB (F.LM_VAL.BASE_VALID n x i) false).wrB (F.LM_VAL.LM_ALARM n x i) false)).lmFresh n x i

/-- DELTA as its field holds it; a free value where it has no room for it (R372). -/
def State.putDelta (s : State) (n : Fin 8) (x i : Nat) (d : Int) : State :=
  if -512 ≤ d ∧ d ≤ 511 then s.wr (F.LM_VAL.DELTA n x i) (unsignedOf 10 d)
  else
    let r := s.drawFree 10
    r.2.wr (F.LM_VAL.DELTA n x i) r.1

/-- An alarm rises (R350): the event and its record. -/
def State.lmAlarm (s : State) (n : Fin 8) (x i : Nat) : State :=
  if s.on (F.LM_VAL.LM_ALARM n x i) then s
  else ((s.wrB (F.LM_VAL.LM_ALARM n x i) true).wrB (F.DIAG_EVENT.WEAR n) true).rise (portSrc n 0xF) [2, s.linkWord n]

/-- One scan of landmark `i` of pair `x` finds the loss `rl`, from source `src` (R350). -/
def State.lmTake (s : State) (n : Fin 8) (x i src rl : Nat) : State :=
  let k := 8 * x + i
  let s1 := s.wr (F.LM_VAL.RL_CUR n x i) rl
  if !s.port[n].diag.lmSeen.contains k then
    ((((s1.wr (F.LM_VAL.RL_BASE n x i) rl).wrB (F.LM_VAL.BASE_VALID n x i) true).wr (F.LM_CFG.BASE_SRC n x i) src).wr
      (F.LM_VAL.DELTA n x i) 0).modPort n fun p =>
      { p with diag := { p.diag with lmSeen := k :: p.diag.lmSeen, lmRuns := spDel p.diag.lmRuns k } }
  else if s.rd (F.LM_CFG.BASE_SRC n x i) = src then
    let d : Int := (s.rd (F.LM_VAL.RL_BASE n x i) : Int) - rl
    let run := if (8 * s.wearTh n : Int) ≤ d then (spFind s.port[n].diag.lmRuns k).getD 0 + 1 else 0
    let s2 := (s1.putDelta n x i d).modPort n fun p =>
      { p with diag := { p.diag with lmRuns := if run = 0 then spDel p.diag.lmRuns k else spPut p.diag.lmRuns k (min run 2) } }
    if 2 ≤ run then s2.lmAlarm n x i else s2
  else s1

/-- Scan the enabled landmarks of pair `x` in a response (R349). -/
def State.lmScan (s : State) (n : Fin 8) (x src full : Nat) (k : Scale) (vs : List Refl) : State :=
  (List.range 8).foldl (fun (s : State) i =>
    if s.on (F.LM_CFG.LM_EN n x i) then
      s.lmTake n x i src (rlOf (maxNear k (s.rd (F.LM_CFG.LM_DIST n x i)) vs) full)
    else s) s

/-- BASE_SRC of an echo scan (R371). -/
def echoSrc (rate : Nat) : Nat := if rate = 500 then 1 else if rate = 1000 then 2 else 3

/-- Every echo word of pair `x` with its coefficient. -/
def State.echoAll (s : State) (n : Fin 8) (x : Nat) : List Refl :=
  (List.range echoWords).map fun w => (w, s.echoCoef n x w)

/-- RL of pair `x`: the energy of the echo coefficients beyond 0.5 m relative to H_REF² (R348). -/
def State.echoLoss (s : State) (n : Fin 8) (x rate full : Nat) : Nat :=
  let es := (s.echoAll n x).filter fun p => !(echoScale (s.nvp n) rate).near p.1
  lossOf ((es.map fun p => p.2.natAbs * p.2.natAbs).foldl (· + ·) 0) (full * full)

/-- A scan of every enabled landmark from the echo coefficients (R349). -/
def State.echoScan (s : State) (n : Fin 8) (rate : Nat) : State :=
  [0, 1, 2, 3].foldl (fun (s : State) x =>
    if (List.range 8).any fun i => s.on (F.LM_CFG.LM_EN n x i) then
      let h := s.hRef n x
      h.2.lmScan n x (echoSrc rate) h.1 (echoScale (s.nvp n) rate) (s.echoAll n x)
    else s) s

/-! ### Acceptance (R343, R344) -/

/-- The front-end domains of the selected pairs are ON (R343); a pair's front end is the slice that carries it (R87). -/
def State.pairsOn (s : State) (n : Fin 8) (v : Nat) : Bool := (pairsOf v).all fun x => s.domOn (14 * n.val + s.pairSlice n x)

/-- A TDR run is accepted. -/
def State.tdrOk (s : State) (n : Fin 8) : Bool :=
  (s.link n == stDISABLED && s.pairsOn n (s.rd (F.DIAG_CTRL.DIAG_PAIRS n))) || s.link n == stDORMANT

/-- The run that a kind starts in this state, if it is accepted (R343). -/
def State.diagKind (s : State) (n : Fin 8) (kind : Nat) : Option DiagKind :=
  let m := s.rd (F.LINK_STATUS.MODE n)
  match kind with
  | 0 => if s.tdrOk n then some .tdr else none
  | 1 => if s.linkUp n && m != 1 then some .snapshot else none
  | 2 => if s.link n == stUP && m != 1 && s.rd (F.LPI_STATUS.RX_LPI n) == lpiACTIVE then some .loss else none
  | 3 => if (s.link n == stUP && s.spire n) || s.tdrOk n then some .wear else none
  | _ => none

/-- A presence check or a diagnostic run is in progress (R56, R344). -/
def State.checking (s : State) (n : Fin 8) : Bool := s.on (F.PCHK.PCHK_BUSY n) || s.on (F.DIAG_STATUS.DIAG_BUSY n)

/-- DIAG_GO = 1 (R343, R344). -/
def State.diagGo (s : State) (n : Fin 8) : State :=
  match (if s.checking n then none else s.diagKind n (s.rd (F.DIAG_CTRL.DIAG_KIND n))) with
  | none => s.wr (F.DIAG_STATUS.DIAG_RESULT n) 2
  | some r =>
    let s1 := (s.wrB (F.DIAG_STATUS.DIAG_BUSY n) true).wr (F.DIAG_STATUS.DIAG_RESULT n) 0
    let s2 := s1.modPort n fun p => { p with diag := { p.diag with
      run := some r, pairs := s.rd (F.DIAG_CTRL.DIAG_PAIRS n), cap := s.on (F.DIAG_CTRL.CAP_EN n),
      avg := tdrAvg (s.rd (F.DIAG_CTRL.TDR_AVG n)), len := tdrLen (s.rd (F.DIAG_CTRL.TDR_LEN n)),
      rate := if s.linkUp n then s.lineRate n else 0, tb0 := s.tb } }
    if s.link n = stDORMANT then s2.portWake n else s2

/-! ### Captures (R351-R353) -/

/-- The coefficient words of a pair in a capture, as word keys of the window (R127, R351). -/
def capWords (x : Nat) : List Nat :=
  let b := 0x1800 * x
  (List.range 0x1500).map (b + ·) ++
    (List.range 3).flatMap (fun m => (List.range 64).map (b + 0x1500 + 0x80 * m + ·)) ++
    (List.range 64).map (b + 0x1680 + ·) ++ (List.range 48).map (b + 0x16C0 + ·)

/-- The data bytes of a SNAPSHOT capture (R128, R351). -/
def State.capCoefs (s : State) (n : Fin 8) (pairs : Nat) : List Byte :=
  (pairsOf pairs).flatMap fun x => (capWords x).flatMap fun k => bytesLE 4 (256 * (spFind s.port[n].eq.coef k).getD 0)

/-- The data bytes of a TDR capture (R351). -/
def capSamples (vals : List (List Refl)) : List Byte :=
  vals.flatMap fun l => l.flatMap fun p => bytesLE 2 (unsignedOf 16 p.2)

/-- The 64 bytes of a capture header (R352). -/
def capHeader (kind port pairs tb rate nvp count avg crc : Nat) : List Byte :=
  [0x4B, 0x58, 0x44, 0x47, 0x01, BitVec.ofNat 8 kind, BitVec.ofNat 8 port, BitVec.ofNat 8 pairs] ++ bytesLE 8 tb ++
    bytesLE 2 rate ++ bytesLE 2 nvp ++ bytesLE 4 count ++ bytesLE 2 avg ++ bytesLE 2 0 ++ bytesLE 4 crc ++ bytesLE 32 0

/-- Write bytes in units of 64, until one fails: the offset of the failing write, if any (R353). -/
def State.capWrite (s : State) (base : Nat) : Nat → Nat → List Byte → Option Nat × State
  | 0, _, _ => (none, s)
  | fuel + 1, off, bs =>
    if bs.isEmpty then (none, s)
    else
      let r := s.memWrite 0x22 30 (base + off) (bs.take 64)
      match r.1 with
      | .bus => (some off, r.2)
      | _ => r.2.capWrite base fuel (off + 64) (bs.drop 64)

/-- Write a capture record, its header last: whether it failed, and the state with CAP_OFS (R351-R353). -/
def State.capture' (s : State) (n : Fin 8) (hdr data : List Byte) : Bool × State :=
  let base := s.rd (F.DIAG_ADDR.CAP_ADDR n) * 4096
  let r := s.capWrite base (data.length / 64 + 1) 64 data
  match r.1 with
  | some off => (true, r.2.wr (F.DIAG_STATUS.CAP_OFS n) off)
  | none =>
    let h := r.2.capWrite base 1 0 hdr
    match h.1 with
    | some off => (true, h.2.wr (F.DIAG_STATUS.CAP_OFS n) off)
    | none => (false, h.2.wr (F.DIAG_STATUS.CAP_OFS n) (64 + data.length))

/-! ### The end of a run (R344-R353) -/

/-- The responses of the pairs that a TDR run has treated (R345). -/
def State.tdrVals (s : State) (n : Fin 8) (pairs avg : Nat) (sums : List (List Int)) : List (Nat × List Refl) :=
  ((pairsOf pairs).zip sums).map fun p =>
    (p.1, (List.range p.2.length).map fun i => (i, s.tdrValue n p.1 avg i (p.2.getD i 0)))

/-- The values at the peak positions of a response. -/
def pickPeaks (ps : List Nat) (f : Nat → Int) : List Refl := ps.map fun p => (p, f p)

/-- REFL of the pairs that a TDR run has treated. The sample's full scale is twice that of H_REF (R345, R347). -/
def State.tdrRefls (s : State) (n : Fin 8) (vals : List (Nat × List Refl)) (peaks : List (List Nat)) : State :=
  (vals.zip peaks).foldl (fun (s : State) v =>
    let h := s.hRef n v.1.1
    h.2.putRefls n v.1.1 0 (2 * h.1) (tdrScale (s.nvp n)) (pickPeaks v.2 fun i => (v.1.2.getD i (0, 0)).2)) s

/-- REFL from the echo coefficients (R343, R347). -/
def State.echoRefls (s : State) (n : Fin 8) (pairs rate : Nat) (peaks : List (List Nat)) : State :=
  ((pairsOf pairs).zip peaks).foldl (fun (s : State) v =>
    let h := s.hRef n v.1
    h.2.putRefls n v.1 1 h.1 (echoScale (s.nvp n) rate) (pickPeaks v.2 fun w => s.echoCoef n v.1 w)) s

/-- LM_VAL from a TDR run (R349). -/
def State.tdrScan (s : State) (n : Fin 8) (vals : List (Nat × List Refl)) : State :=
  vals.foldl (fun (s : State) v =>
    let h := s.hRef n v.1
    h.2.lmScan n v.1 0 (2 * h.1) (tdrScale (s.nvp n)) v.2) s

/-- The LOSS registers (R348, R369, R370): RL from the echo coefficients, the others as found in the received signal. -/
def State.putLoss (s : State) (n : Fin 8) (pairs rate : Nat) (ls : List LossFig) : State :=
  ((pairsOf pairs).zip ls).foldl (fun (s : State) v =>
    let h := s.hRef n v.1
    ((((h.2.wr (F.LOSS_A.RL n v.1) (s.echoLoss n v.1 rate h.1)).wr (F.LOSS_A.IL_Q n v.1) (min 1023 v.2.ilq)).wr (F.LOSS_A.IL_H n v.1)
      (min 1023 v.2.ilh)).wr (F.LOSS_B.IL_N n v.1) (min 1023 v.2.iln)).wr (F.LOSS_B.LOSS_MBD n v.1) rate) s

/-- DIAG_RESULT codes (R365). -/
abbrev drDONE : Nat := 1
abbrev drACTIVE : Nat := 4
abbrev drBUS : Nat := 5

/-- A run ends with what it measured: its result code and the state with its results (R344-R353). -/
def State.diagFinish (s : State) (n : Fin 8) (m : DiagMeas) : Nat × State :=
  let d := s.port[n].diag
  let pad (l : List (List Nat)) : List (List Nat) := l ++ List.replicate (4 - l.length) []
  match d.run with
  | some .tdr =>
    let vals := s.tdrVals n d.pairs d.avg m.sums
    if m.active then (drACTIVE, s.tdrRefls n vals m.peaks)
    else
      let s1 := s.tdrRefls n vals (pad m.peaks)
      if d.cap then
        let data := capSamples (vals.map Prod.snd)
        let r := s1.capture' n (capHeader 0 n.val d.pairs d.tb0 4000 (s.nvp n) (2 ^ (10 + d.len)) (2 ^ d.avg) (byteCrc data)) data
        (if r.1 then drBUS else drDONE, r.2)
      else (drDONE, s1)
  | some .snapshot =>
    let s1 := s.echoRefls n d.pairs d.rate (pad m.peaks)
    if d.cap then
      let data := s.capCoefs n d.pairs
      let r := s1.capture' n (capHeader 1 n.val d.pairs d.tb0 d.rate (s.nvp n) 5680 1 (byteCrc data)) data
      (if r.1 then drBUS else drDONE, r.2)
    else (drDONE, s1)
  | some .loss => (drDONE, s.putLoss n d.pairs d.rate m.loss)
  | some .wear =>
    if d.rate ≠ 0 then (drDONE, s.echoScan n d.rate)
    else
      let vals := s.tdrVals n d.pairs d.avg m.sums
      if m.active then (drACTIVE, s) else (drDONE, s.tdrScan n vals)
  | _ => (drDONE, s)

end Sys2Proof.Machine
end

