-- ==== Sys2Proof/Machine/Time.lean ====
section
/-! DEFINITION. The passing of time: TB (16_clocks.md R585, 19_faults_availability.md R670). -/

namespace Sys2Proof.Machine

/-- The family runs: not in the gap of a switch, in DEPOT before a wake, or while the device is held in reset
(R586, 17_power.md R617, R620). -/
def State.familyRuns (s : State) : Bool :=
  (match s.ckc.sw with | some w => w.ramping | none => true) && !s.pwc.porst && !s.pwc.aonLow &&
    (s.rd F.PWC_MODE.MODE != 2 || s.pwc.waking.isSome)

/-- What TB adds for one SEQ edge, in quarters of a nanosecond: 1.25 ns on ROOT, 5 ns on FOSC, times the ramp's multiple
(R585, R587). -/
def State.tickQuarters (s : State) : Nat :=
  if s.familyRuns then s.ckc.mult * (if s.on F.CKC_SW_STATUS.SRC_CUR then 5 else 20) else 0

/-- TB advances by one SEQ edge of the core clock family. -/
def State.tick (s : State) : State := { s with tbq := s.tbq + s.tickQuarters }

end Sys2Proof.Machine
end

