-- ==== Sys2Proof/Machine/ClockOps.lean ====
section
/-! DEFINITION. The clock controller: crystals, PLLs, family switches, gates and the frequency counter
(16_clocks.md). -/

namespace Sys2Proof.Machine

/-! ### References and PLLs (R580-R583, R589) -/

/-- Crystal states (R594). -/
abbrev xtSTARTING : Nat := 0
abbrev xtREADY : Nat := 1
abbrev xtLOST : Nat := 2
abbrev xtFAILED : Nat := 3

/-- The state field of a crystal: 0 XTAL_A, 1 XTAL_B. -/
def xtFld (x : Fin 2) : Fld := if x = 0 then F.CKC_OSC_STATUS.XA_STATE else F.CKC_OSC_STATUS.XB_STATE
def State.xt (s : State) (x : Fin 2) : Nat := s.rd (xtFld x)

/-- The word of CKC_OSC_STATUS. -/
def State.oscWord (s : State) : Nat :=
  s.word [F.CKC_OSC_STATUS.XA_STATE, F.CKC_OSC_STATUS.XB_STATE, F.CKC_OSC_STATUS.FOSC_TRIM, F.CKC_OSC_STATUS.XA_LOST_CNT,
    F.CKC_OSC_STATUS.XB_LOST_CNT]

/-- The PLLs: 0 ROOT, 1 DDR, 2 HLA, 3 HLB (R596), and 4 + n the line clock generator of Pn, whose lock no register
shows. -/
def pllLock (p : Fin 12) : Fld :=
  if p.val < 4 then F.CKC_PLL_STATUS.LOCK p.val else (F.CKC_PLL_STATUS.LOCK p.val).hidden
def pllHold (p : Fin 12) : Fld :=
  if p.val < 4 then F.CKC_PLL_STATUS.HOLDOVER p.val else (F.CKC_PLL_STATUS.HOLDOVER p.val).hidden

/-- The power domain of a PLL (R582). -/
def pllDom (p : Fin 12) : Nat := if p.val < 4 then 134 + p.val else 14 * (p.val - 4)

/-- The fault source of a PLL (R582, R660, R661). -/
def pllSrc (p : Fin 12) : Nat :=
  match p.val with
  | 0 => 0x212
  | 1 => 0x213
  | 2 => 0x0A0
  | 3 => 0x1A0
  | k => portSrc (k - 4) 8

/-- PLLs that use REF_SEL (R582). -/
def pllRef (p : Fin 12) : Bool := p.val != 2 && p.val != 3

/-- A PLL has lost lock or stopped: neither locked nor in holdover. -/
def State.pllOff (s : State) (p : Fin 12) : State := (s.wrB (pllLock p) false).wrB (pllHold p) false

/-- The word of CKC_PLL_STATUS. -/
def State.pllWord (s : State) (p : Nat) : Nat :=
  s.word [F.CKC_PLL_STATUS.LOCK p, F.CKC_PLL_STATUS.HOLDOVER p, F.CKC_PLL_STATUS.LOL_CNT p]

/-- A family switch starts (R586): the family stops. -/
def State.switchStart (s : State) (src ramp auto : Bool) : State :=
  { (s.wrB F.CKC_SW_STATUS.SW_BUSY true) with ckc := { s.ckc with sw := some { src := src, ramp := ramp, auto := auto } } }

/-- PLL_ROOT has lost lock: with AUTO_FB = 1 the family goes to FOSC (R589). -/
def State.autoFallback (s : State) : State :=
  s.iff (s.on F.CKC_REF.AUTO_FB && s.on F.CKC_SW_STATUS.SRC_CUR) fun s => s.switchStart false false true

/-- A PLL loses lock (R582). -/
def State.pllLost (s : State) (p : Fin 12) : State :=
  s.iff (s.on (pllLock p)) fun s =>
    let s1 := s.pllOff p
    let s2 := if p.val < 4 then s1.count (F.CKC_PLL_STATUS.LOL_CNT p.val) else s1
    let s3 := (s2.wrB F.CKC_EVENT.PLL_LOL true).rise (pllSrc p) [if p.val < 4 then s2.pllWord p.val else 0]
    if p.val = 0 then s3.autoFallback else s3

/-- Every PLL. -/
def plls : List (Fin 12) := List.finRange 12

/-- The reference is switched, or lost: every locked PLL that uses REF_SEL enters holdover (R583). -/
def State.refHoldover (s : State) : State :=
  plls.foldl (fun (s : State) p => if pllRef p && s.on (pllLock p) then s.wrB (pllHold p) true else s) s

/-- The reference that REF_SEL selects is READY. -/
def State.refReady (s : State) : Bool := (if s.on F.CKC_REF.REF_SEL then s.xt 1 else s.xt 0) == xtREADY

/-- REF_SEL := `sel` (R583, R595). -/
def State.refSwitch (s : State) (sel : Bool) : State :=
  if s.on F.CKC_REF.REF_SEL = sel then s else (s.wrB F.CKC_REF.REF_SEL sel).refHoldover

/-- A count ends by loss of its reference (R592, R602). -/
def State.fcAbort (s : State) : State :=
  s.iff (s.on F.CKC_FCNT_RESULT.FC_BUSY) fun s =>
    ((s.wrB F.CKC_FCNT_RESULT.FC_BUSY false).wrB F.CKC_FCNT_RESULT.FC_ABORT true).wrB F.CKC_EVENT.FC_DONE true

/-- What follows from XTAL_A or XTAL_B not being ready any longer (R581, R583, R592). -/
def State.xtalDown (s : State) (x : Fin 2) : State :=
  let s1 := if x = 0 then s.fcAbort else s
  let selected := s1.on F.CKC_REF.REF_SEL == decide (x = 1)
  if !selected then s1
  else if decide (x = 0) && s1.on F.CKC_REF.AUTO_REF && s1.xt 1 == xtREADY then
    (s1.refSwitch true).wrB F.CKC_EVENT.REF_AUTO true
  else s1.refHoldover

/-- One crystal at the end of the start delay (R580, R581). -/
def State.xtalCheck (s : State) (x : Fin 2) (ok : Bool) : State :=
  if s.xt x = xtSTARTING ∧ ok then s.wr (xtFld x) xtREADY
  else if s.xt x = xtSTARTING ∨ s.xt x = xtLOST then (s.wr (xtFld x) xtFAILED).wrB F.CKC_EVENT.XTAL_LOST true
  else s

/-- A crystal is LOST (R581). -/
def State.xtalLost (s : State) (x : Fin 2) : State :=
  let s1 := ((s.wr (xtFld x) xtLOST).count (if x = 0 then F.CKC_OSC_STATUS.XA_LOST_CNT else F.CKC_OSC_STATUS.XB_LOST_CNT)).wrB
    F.CKC_EVENT.XTAL_LOST true
  (s1.rise 0x210 [s1.oscWord]).xtalDown x

/-! ### Family switches (R585-R588) -/

/-- A switch that stops the family is in its gap. -/
def State.inGap (s : State) : Bool := match s.ckc.sw with | some w => !w.ramping | none => false

/-- SW_GO = 1 (R586, R592). -/
def State.swGo (s : State) : State :=
  let src := s.on F.CKC_SW.SW_SRC
  if s.on F.CKC_SW_STATUS.SW_BUSY || s.on F.CKC_GATE_STATUS.GATE_BUSY || src == s.on F.CKC_SW_STATUS.SRC_CUR ||
      (src && !s.on (F.CKC_PLL_STATUS.LOCK 0)) then s.wr F.CKC_SW_STATUS.SW_RESULT 2
  else s.switchStart src (s.on F.CKC_SW.SW_MODE) false

/-- REG period in quarters of a nanosecond (R584). -/
def regQuarters (root : Bool) : Nat := if root then 20 else 40

/-- The new family runs (R586-R588): `quarters` is what TB takes for the gap. -/
def State.switched (s : State) (w : SwRun) (forced : Bool) (quarters gap : Nat) : State :=
  let s1 := ((((s.wrB F.CKC_SW_STATUS.SRC_CUR w.src).wr F.CKC_SW_STATUS.SW_RESULT 1).wrB F.CKC_SW_STATUS.SW_FORCED forced).wrB
    F.CKC_SW_STATUS.SW_AUTO w.auto).wr F.CKC_SW_STATUS.SW_GAP gap
  let s2 := ({ s1 with tbq := s1.tbq + quarters, ckc := { s1.ckc with
      sw := if w.ramp then some { w with ramping := true } else none, mult := if w.ramp then 8 else 1 } }).wrB
    F.CKC_EVENT.SW_DONE true
  if w.ramp then s2 else s2.wrB F.CKC_SW_STATUS.SW_BUSY false

/-- The switch ends in the bounds of R586. -/
def State.switchDone (s : State) (w : SwRun) : State :=
  let old := regQuarters (s.on F.CKC_SW_STATUS.SRC_CUR)
  let q := 2 * old + 3 * regQuarters w.src
  s.switched w false q (q / regQuarters w.src)

/-- The switch is forced (R588). 64 cycles of ROOT, 26 2/3 ns, count as 26 1/2 ns in TB's quarters. -/
def State.switchForced (s : State) (w : SwRun) : State :=
  let s1 := ((s.switched w true (if w.src then 106 else 640) 0xFF).wrB F.CKC_SW_STATUS.TB_INEXACT true).wrB
    F.CKC_EVENT.SW_FORCED true
  s1.rise 0x211 [s1.word [F.CKC_SW_STATUS.SRC_CUR, F.CKC_SW_STATUS.SW_BUSY, F.CKC_SW_STATUS.SW_RESULT,
    F.CKC_SW_STATUS.SW_FORCED, F.CKC_SW_STATUS.TB_INEXACT, F.CKC_SW_STATUS.SW_AUTO, F.CKC_SW_STATUS.SW_GAP]]

/-- One step of the ramp (R587). -/
def State.rampStep (s : State) : State :=
  let m := s.ckc.mult / 2
  let s1 := { s with ckc := { s.ckc with mult := m } }
  if m ≤ 1 then
    (({ s1 with ckc := { s1.ckc with sw := none } }).wrB F.CKC_SW_STATUS.SW_BUSY false).wrB F.CKC_EVENT.RAMP_DONE true
  else s1

/-! ### Gates (R590-R592) -/

/-- The parent of a gate (R590). -/
def gateParent (g : Nat) : Option Nat :=
  if g < 4 then some 16 else if g < 8 then some 17 else if g < 10 then some 18 else if 12 ≤ g ∧ g ≤ 15 then some 19
  else if 20 ≤ g ∧ g < 24 then some 24 else none

/-- The gates under a gate. -/
def gateChildren (g : Nat) : List Nat := (List.range 26).filter fun k => gateParent k == some g

/-- The power domain of the blocks that a gate feeds, where it feeds blocks of one domain; a branch feeds none
itself (R590, R607). -/
def gateDom (g : Nat) : Option Nat :=
  if g < 11 then some (coreDom g) else if g = 11 then some 124 else if g = 12 then some 132
  else if 20 ≤ g ∧ g < 24 then some (100 + g) else if g = 25 then some 131 else none

/-- The gate is on (R600). -/
def State.gateOn (s : State) (g : Nat) : Bool := bitB (s.rd F.CKC_GATE_STATUS.GATE_STATE) g

/-- The "In use" condition of a gate (R590, R642). -/
def State.gateUse (s : State) (g : Nat) : Bool :=
  if h : g < 11 then
    let k := s.core[g]
    s.domOn (coreDom g) && !k.failed && (k.up || k.serving.isSome)
  else if g = 11 then
    s.on F.SPL_CFG.SPL_EN || ([0, 1, 2, 3].any fun c => s.domOn (120 + c) && s.rd (F.CH_STATUS.CH_STATE c) != chUNTRAINED &&
      s.rd (F.CH_STATUS.CH_STATE c) != chRETIRED) || [0, 1, 2, 3].any fun k => s.on (F.TW_CTRL.TW_EN k)
  else if g = 12 then s.hif.linkUp
  else if g = 13 then [0, 1].any fun b => s.domOn (125 + b) && s.on (F.BF_CTRL.BF_EN b)
  else if g = 14 then (List.finRange 8).any fun n => s.domOn (14 * n.val + 9) && s.on (F.DIAG_STATUS.DIAG_BUSY n.val)
  else if g = 15 then false
  else if 20 ≤ g ∧ g < 24 then
    let st := s.rd (F.CH_STATUS.CH_STATE (g - 20))
    s.domOn (100 + g) && (st == chTRAINING || st == chINIT || st == chSERVICE)
  else if g = 25 then s.domOn 131 && (s.on F.MON_CTRL.MON_EN || s.on F.CAL_STATUS.CAL_BUSY)
  else (gateChildren g).any fun k => s.gateOn k

/-- A gate request ends (R591, R600). -/
def State.gateEnd (s : State) (result : Nat) : State :=
  ((({ s with ckc := { s.ckc with gate := none } }).wrB F.CKC_GATE_STATUS.GATE_BUSY false).wr F.CKC_GATE_STATUS.GATE_RESULT
    result).wrB F.CKC_EVENT.GATE_DONE true

/-- A gate changes state. -/
def State.gateSet (s : State) (g : Nat) (on : Bool) : State :=
  let v := s.rd F.CKC_GATE_STATUS.GATE_STATE
  s.wr F.CKC_GATE_STATUS.GATE_STATE (if bitB v g = on then v else if on then v + 2 ^ g else v - 2 ^ g)

/-- GATE_GO = 1 (R591, R592). -/
def State.gateGo (s : State) : State :=
  let g := s.rd F.CKC_GATE.GATE_ID
  let busy := s.on F.CKC_GATE_STATUS.GATE_BUSY
  if busy || s.on F.CKC_SW_STATUS.SW_BUSY || decide (26 ≤ g) then
    (s.wr F.CKC_GATE_STATUS.GATE_RESULT 2).wrB F.CKC_EVENT.GATE_DONE true
  else if s.on F.CKC_GATE.GATE_ON then
    if (match gateParent g with | some p => s.gateOn p | none => true) then (s.gateSet g true).gateEnd 1 else s.gateEnd 2
  else if s.gateUse g then s.gateEnd 2
  else if (match gateDom g with | some d => !s.domOn d | none => decide (16 ≤ g)) then (s.gateSet g false).gateEnd 1
  else
    { (s.wrB F.CKC_GATE_STATUS.GATE_BUSY true) with ckc := { s.ckc with gate := some (g, s.on F.CKC_GATE.GATE_FORCE) } }

/-- While a gate waits for its handshake: an "In use" condition that arises refuses it; a domain that leaves ON needs no
handshake (R591, R592, R616). -/
def State.gateWatch (s : State) : State :=
  match s.ckc.gate with
  | none => s
  | some (g, _) =>
    if s.gateUse g then s.gateEnd 2
    else if (match gateDom g with | some d => !s.domOn d | none => false) then (s.gateSet g false).gateEnd 1
    else s

/-! ### Frequency counter (R593) -/

/-- FC_GO = 1 (R593): refused while XTAL_A is not READY, while a count runs, and for a target past the list. -/
def State.fcGo (s : State) : State :=
  if s.xt 0 = xtREADY ∧ !s.on F.CKC_FCNT_RESULT.FC_BUSY ∧ s.rd F.CKC_FCNT_CTRL.FC_SEL ≤ 0x20 then
    (((s.wrB F.CKC_FCNT_RESULT.FC_BUSY true).wrB F.CKC_FCNT_RESULT.FC_DONE false).wrB F.CKC_FCNT_RESULT.FC_OVF false).wrB
      F.CKC_FCNT_RESULT.FC_ABORT false
  else s

end Sys2Proof.Machine
end

