-- ==== Sys2Proof/Machine/CalOps.lean ====
section
/-! DEFINITION. Calibration and monitors: trims, due slices, handovers, records, limits (18_calibration_monitors.md). -/

namespace Sys2Proof.Machine

/-! ### Slices and their trims (R631, R633, R637, R639) -/

/-- PD_MON is ON. -/
def State.monOn (s : State) : Bool := s.domOn 131

/-- What CAL knows of slice `x` of Pn. -/
def State.sliceCal (s : State) (n : Fin 8) (x : Fin 5) : SliceCal := (spFind s.cal.slice (5 * n.val + x.val)).getD {}
def State.modSliceCal (s : State) (n : Fin 8) (x : Fin 5) (f : SliceCal → SliceCal) : State :=
  { s with cal := { s.cal with slice := spPut s.cal.slice (5 * n.val + x.val) (f (s.sliceCal n x)) } }

/-- The trim registers of a slice as its entry of a record holds them: SLICE_TRIM, then A(k) and B(k) in turn (R637). -/
def trimRegs (n x : Nat) : List (List Fld) :=
  [F.SLICE_TRIM.DAC_I n x, F.SLICE_TRIM.TXA_TRIM n x, F.SLICE_TRIM.HYB_R n x, F.SLICE_TRIM.HYB_C n x] ::
    (List.range 16).flatMap fun k =>
      [[F.SUBADC_TRIM_A.OFS n x k, F.SUBADC_TRIM_A.GAIN n x k, F.SUBADC_TRIM_A.SKEW n x k],
       [F.SUBADC_TRIM_B.THR2 n x k, F.SUBADC_TRIM_B.THR1 n x k, F.SUBADC_TRIM_B.THR0 n x k]]

/-- The words of the active trims. -/
def State.activeTrims (s : State) (n x : Nat) : List Nat := (trimRegs n x).map fun fs => s.word (fs.map Fld.hidden)

/-- Write trim words to the shadow set. -/
def State.putTrims (s : State) (n x : Nat) (ws : List Nat) : State :=
  ((trimRegs n x).zip ws).foldl (fun (s : State) p => p.1.foldl (fun (s : State) f => s.wr f (p.2 / 2 ^ f.lo)) s) s

/-- The word of slice `x` at offset `o` of its entry in the loaded record. -/
def State.entryNat (s : State) (n x o k : Nat) : Nat := s.calRec (calEntry n x + o) k

/-- T of R633: sensor 2n, in 1/8 °C. -/
def State.afeTemp (s : State) (n : Fin 8) : Int := signedOf 12 (s.rd (F.MON_TEMP.T_NOW (2 * n.val)))

/-- The causes for which a slice is due: TEMP, PERIOD, NO_RECORD, LAST_FAILED from the highest bit down (R633, R646). -/
def State.dueCauses (s : State) (n : Fin 8) (x : Fin 5) : Nat :=
  let c := s.sliceCal n x
  let dt : Int := 4 * (max 1 (s.rd F.CAL_CTRL.CAL_DT) : Nat)
  let d := s.afeTemp n - signedOf 16 c.tCal
  if s.domOn (14 * n.val + x.val) then
    8 * b2n (!c.noRecord && (decide (dt ≤ d) || decide (d ≤ -dt))) + 4 * b2n (c.period && s.rd F.CAL_CTRL.CAL_PERIOD != 0) +
      2 * b2n c.noRecord + b2n c.failed
  else 0

/-- CAL_DUE and CAL_DUE2 of a port follow (R633, R646). -/
def State.syncDue (s : State) (n : Fin 8) : State :=
  if s.monOn then
    let d := (List.finRange 5).map fun x => s.dueCauses n x
    let due := (List.range 5).foldl (fun a x => a + b2n (d.getD x 0 != 0) * 2 ^ x) 0
    (((s.wr (F.CAL_DUE.DUE n.val) due).wr (F.CAL_DUE2.DUE n.val) due).wr (F.CAL_DUE.CAUSE n.val)
      (d.getD 0 0 + 16 * d.getD 1 0 + 256 * d.getD 2 0)).wr (F.CAL_DUE2.CAUSE n.val) (d.getD 3 0 + 16 * d.getD 4 0)
  else s
def State.syncDues (s : State) : State := (List.finRange 8).foldl (fun (s : State) n => s.syncDue n) s

/-- The logic step of an AF domain: the slice takes its trims from the record (R639). -/
def State.afRaised (s : State) (n : Fin 8) (x : Fin 5) : State :=
  let s1 :=
    if s.monOn && s.cal.loaded.isSome then
      let ws := (List.range 33).map fun j => s.entryNat n.val x.val (4 * j) 4
      let a := s.putTrims n.val x.val ws
      ((trimFields n.val x.val).foldl (fun (s : State) f => s.wr f.hidden (s.rd f)) a).modSliceCal n x fun _ =>
        { tCal := s.entryNat n.val x.val 0x86 2, tb := s.entryNat n.val x.val 0x88 8 }
    else s.modSliceCal n x fun _ => { noRecord := true }
  s1.syncDue n

/-! ### Records (R637-R639) -/

/-- The slot of the MTP store. -/
def State.mtpSlot (s : State) (k : Nat) : Mem := Mem.ofBytes 0 (s.cal.mtp.readN (0x8000 * k) 0x8000)

/-- A record's magic, format, DEV_ID and CRC are valid and its slot is good (R639). -/
def State.recOk (s : State) (k : Nat) : Bool :=
  let bs := s.cal.mtp.readN (0x8000 * k) 0x8000
  !s.cal.bad.contains k && bs.take 4 == [0x4B, 0x58, 0x43, 0x52] && (bs.getD 4 0).toNat == 1 &&
    natLE ((bs.drop 0x10).take 8) == s.devId && natLE (bs.drop 0x7FFC) == byteCrc (bs.take 0x7FFC)
def State.recGen (s : State) (k : Nat) : Nat := s.cal.mtp.readNat (0x8000 * k + 6) 2

/-- The newest by serial comparison (R639). -/
def State.newest (s : State) (ks : List Nat) : Option Nat :=
  ks.foldl (fun a k => match a with
    | none => some k
    | some b => if 0 < seqDist (s.recGen k) (s.recGen b) then some k else some b) none
def State.oldest (s : State) (ks : List Nat) : Option Nat :=
  ks.foldl (fun a k => match a with
    | none => some k
    | some b => if seqDist (s.recGen k) (s.recGen b) < 0 then some k else some b) none

/-- The load of a record after PD_MON comes ON (R639). -/
def State.calLoad (s : State) : State :=
  let s1 := (List.range 4).foldl (fun (s : State) k =>
    ((s.wrB (F.REC_SLOT.VALID k) (s.recOk k)).wrB (F.REC_SLOT.SLOT_BAD k) (s.cal.bad.contains k)).wr (F.REC_SLOT.GEN k)
      (s.recGen k)) s
  let field := s1.newest ([1, 2, 3].filter fun k => s1.recOk k)
  match (match field with | some k => some k | none => if s1.recOk 0 then some 0 else none) with
  | some k =>
    let s2 := { s1 with cal := { s1.cal with loaded := some (s1.mtpSlot k) } }
    (((s2.wr F.CAL_STATUS.CAL_SRC (if k = 0 then 2 else 1)).wr F.CAL_STATUS.CUR_GEN (s1.recGen k)).wrB
      F.CKC_OSC_STATUS.FOSC_TRIM true).syncDues
  | none =>
    let s2 := { s1 with cal := { s1.cal with loaded := none } }
    let s3 := (List.finRange 8).foldl (fun (s : State) n =>
      (List.finRange 5).foldl (fun (s : State) x => s.modSliceCal n x fun c => { c with noRecord := true }) s) s2
    ((s3.wr F.CAL_STATUS.CAL_SRC 0).syncDues).rise 0x244 [s3.rd F.CAL_STATUS.CAL_SRC * 2 ^ 25]

/-- The entry of slice `x` of Pn in a record written now (R637, R638). -/
def State.entryBytes (s : State) (n : Fin 8) (x : Fin 5) : List Byte :=
  if s.domOn (14 * n.val + x.val) then
    let c := s.sliceCal n x
    (s.activeTrims n.val x.val).flatMap (bytesLE 4) ++ bytesLE 2 (s.hRefOf n.val x.val) ++ bytesLE 2 c.tCal ++
      bytesLE 8 c.tb ++ List.replicate 16 0
  else (match s.cal.loaded with | some m => m | none => []).readN (calEntry n.val x.val) 0xA0

/-- The bytes of a field record of generation `gen` for slot `k` (R637). -/
def State.recordBytes (s : State) (k gen : Nat) : List Byte :=
  let old := match s.cal.loaded with | some m => m | none => []
  let head : List Byte := [0x4B, 0x58, 0x43, 0x52] ++ bytesLE 1 1 ++ bytesLE 1 k ++ bytesLE 2 gen ++ bytesLE 8 s.tb ++
    bytesLE 8 s.devId ++ List.replicate 0x28 0
  let entries := (List.finRange 8).flatMap fun n => (List.finRange 5).flatMap fun x => s.entryBytes n x
  let resid := (List.finRange 8).flatMap fun n => (List.finRange 5).flatMap fun x =>
    (List.range 256).flatMap fun i => bytesLE 2 (s.residOf (n : Fin 8).val (x : Fin 5).val i)
  let body := head ++ old.readN 0x40 0x1C0 ++ entries ++ List.replicate (0x2000 - 0x200 - 40 * 0xA0) 0 ++ resid ++
    List.replicate (0x7FFC - 0x2000 - 40 * 0x200) 0
  body ++ bytesLE 4 (byteCrc body)

/-- A reference is faulty (R632). -/
def State.refBad (s : State) : Bool := s.on F.CAL_STATUS.VREF_BAD || s.on F.CAL_STATUS.RES_BAD

/-- CAL_SAVE = 1 (R632, R638). -/
def State.calSave (s : State) : State :=
  let usable := [1, 2, 3].filter fun k => !s.cal.bad.contains k
  let valid := usable.filter fun k => s.recOk k
  let slot := match usable.find? fun k => !s.recOk k with | some k => some k | none => s.oldest usable
  match (if s.on F.CAL_STATUS.SAVE_BUSY || s.on F.CAL_STATUS.CAL_BUSY || s.refBad then none else slot) with
  | none => s.wrB F.CAL_STATUS.SAVE_REFUSED true
  | some k =>
    let gen := match s.newest valid with | some g => (s.recGen g + 1) % 2 ^ 16 | none => 1
    { ((s.wrB F.CAL_STATUS.SAVE_REFUSED false).wrB F.CAL_STATUS.SAVE_BUSY true) with cal := { s.cal with save := some (k, gen) } }

/-- The write and its verification end (R638); a record that fails verification holds nothing. -/
def State.calSaved (s : State) (k gen : Nat) (ok : Bool) : State :=
  let bs := if ok then s.recordBytes k gen else List.replicate 0x8000 0
  let s1 := { s with cal := { s.cal with
    mtp := s.cal.mtp.writeL (0x8000 * k) bs, save := none, bad := if ok then s.cal.bad else k :: s.cal.bad } }
  let s2 := ((s1.wrB F.CAL_STATUS.SAVE_BUSY false).countSat (F.REC_SLOT.WRITES k)).wrB F.CAL_EVENT.CAL_SAVE_DONE true
  if ok then ((s2.wrB (F.REC_SLOT.VALID k) true).wr (F.REC_SLOT.GEN k) gen).wr F.CAL_STATUS.CUR_GEN gen
  else (s2.wrB (F.REC_SLOT.VALID k) false).wrB (F.REC_SLOT.SLOT_BAD k) true

/-! ### Quality figures (R640) -/

/-- The margin of pair `x` in 1/16 dB (R640). -/
def State.qfMargin (s : State) (n : Fin 8) (x : Nat) : Int :=
  let snr : Int := s.rd (F.EQ_STATUS.SLC_SNR n x)
  if !s.linkUp n then 0
  else if s.spire n then
    let bits := pairBits (rungBits (s.rd (F.LAD_STATUS.RX_RUNG n))) (s.rd (F.LAD_STATUS.RX_LOAD n))
    (s.refSnr n).getD x 0 - s.reqSnr n (bits.getD x 2)
  else match s.rd (F.LINK_STATUS.MODE n) with | 1 => snr - 240 | 2 => snr - 272 | _ => snr - 368

/-- A margin as QF_MARGIN holds it (R650). -/
def qfCode (v : Int) : Nat := unsignedOf 10 (if v < -512 then -512 else if 511 < v then 511 else v)

/-- QF_MARGIN.CUR and QF_EYE follow (R640, R651). -/
def State.syncQf (s : State) : State :=
  if s.monOn then
    (List.finRange 8).foldl (fun (s : State) (n : Fin 8) =>
      let s1 := [0, 1, 2, 3].foldl (fun (s : State) x => s.wr (F.QF_MARGIN.CUR n x) (qfCode (s.qfMargin n x))) s
      s1.wr (F.QF_EYE.EYE_CUR n) (s.rd (F.HL_STATUS.EYE_W n))) s
  else s

/-! ### Calibrations (R634-R636) -/

/-- CAL_RESULT codes (R645). -/
abbrev crDONE : Nat := 1
abbrev crREFUSED : Nat := 2
abbrev crREVERTED : Nat := 3
abbrev crCONV_TIMEOUT : Nat := 4
abbrev crABORTED : Nat := 5
abbrev crREF_BAD : Nat := 6

/-- No calibration runs any more; the crossbar of a handover goes back to IDLE (R635 step 6). Trims whose copy has not been
made stay out of the active set (R636). -/
def State.calClose (s : State) (r : CalRun) : State :=
  let s1 := s.iff (r.step == .trim) fun s => s.wrB (F.SLICE_CTRL.TRIM_PEND r.n r.x.val) false
  { s1 with cal := { s1.cal with
    run := none,
    leave := if r.handover && !s1.cal.leave.contains r.n then s1.cal.leave ++ [r.n] else s1.cal.leave } }

/-- A result is shown: CAL_STATUS, CAL_EVENT, the count and the time of the last trims written (R645, R649, R652). -/
def State.calShow (s : State) (result : Nat) : State :=
  let s2 := (((s.wrB F.CAL_STATUS.CAL_BUSY false).wr F.CAL_STATUS.CAL_RESULT result).wrB F.CAL_EVENT.CAL_DONE true).iff
    (result == crREVERTED) fun s => s.wrB F.CAL_EVENT.REVERTED true
  let s3 := s2.iff (decide (crCONV_TIMEOUT ≤ result)) fun s => s.wrB F.CAL_EVENT.CAL_FAIL true
  if result = crDONE ∨ result = crREVERTED then
    ((s3.countSat F.CAL_COUNT.COUNT).wr F.CAL_LAST_LO.LAST_LO s.tb).wr F.CAL_LAST_HI.LAST_HI.hidden (s.tb / 2 ^ 32)
  else s3

/-- A calibration ends with a result; its crossbar goes back to IDLE (R635, R645, R652). -/
def State.calEnd (s : State) (r : CalRun) (result : Nat) : State :=
  (((s.calClose r).calShow result).modSliceCal r.n r.x fun c =>
    if result = crDONE then { tCal := r.temp, tb := s.tb, meas := r.meas }
    else { c with failed := true }).syncDue r.n

/-- The shadow echo canceller and FFE start afresh (R635 step 1). -/
def State.shadowStart (s : State) (n : Fin 8) : State :=
  s.modPort n fun p => { p with eq := { p.eq with
    coef := spPut (p.eq.coef.filter fun e => !coefIsShadow (4 * e.1)) (ffeOff 4 (s.rd (F.EQ_CFG.FFE_MAIN n 4)) / 4) ffeOne } }

/-- The start is refused (R634). -/
def State.calRefused (s : State) (n : Fin 8) (x : Nat) : Bool :=
  let st := s.link n
  let m := s.rd (F.LINK_STATUS.MODE n)
  s.on F.CAL_STATUS.CAL_BUSY || decide (5 ≤ x) || !s.domOn (14 * n.val + x) || !s.domOn (14 * n.val + 4) ||
    (if x < 4 then st == stTRAIN || (s.linkUp n && (m == 1 || m == 2)) else s.rd (F.XB_STATUS.XB_STATE n) != xbIDLE)

/-- CAL_GO = 1 (R634, R635). -/
def State.calGo (s : State) : State :=
  let n : Fin 8 := ⟨s.rd F.CAL_CTRL.CAL_PORT % 8, by omega⟩
  let x := s.rd F.CAL_CTRL.CAL_PAIR
  if s.calRefused n x then s.wr F.CAL_STATUS.CAL_RESULT crREFUSED
  else
    let ovr := decide (x < 4) && s.linkUp n
    let r : CalRun := { n := n, x := ⟨x % 5, by omega⟩, handover := ovr, step := if ovr then .converge else .measure,
                        snr := s.rd (F.EQ_STATUS.SLC_SNR n x) }
    let s1 : State := { (s.wrB F.CAL_STATUS.CAL_BUSY true) with cal := { s.cal with run := some r } }
    if ovr then
      let s2 := ((s1.wr (F.QF_MARGIN.PRE n x) (qfCode (s.qfMargin n x))).xbGo n xbSHADOW x).lpiTrigger n
      if s2.rd (F.XB_STATUS.XB_STATE n) = xbSHADOW ∧ s2.rd (F.XB_STATUS.XB_CUR_PAIR n) = x then s2.shadowStart n
      else s2.calEnd { r with handover := false } crABORTED
    else s1

/-- CAL_REVERT as it acts (R644). -/
def State.calRevert (s : State) : Nat := max 1 (s.rd F.CAL_CTRL.CAL_REVERT)

/-- Put the calibration at a step. -/
def State.calStep (s : State) (r : CalRun) (st : CalStep) : State :=
  { s with cal := { s.cal with run := some { r with step := st } } }

/-- The shadow set has converged: SWAP is requested (R635 step 3). -/
def State.calSwap (s : State) (r : CalRun) : State := ((s.calStep r .swap).xbGo r.n xbSWAP r.x.val).lpiTrigger r.n

/-- The measurement ends (R632, R635, R636): `none` where too many samples fell to the impulse flag. -/
def State.calMeasured (s : State) (r : CalRun) (m : Option CalMeas) : State :=
  match (if s.refBad then none else m) with
  | none => s.calEnd r crREF_BAD
  | some m =>
    let r1 := { r with old := s.activeTrims r.n.val r.x.val, temp := unsignedOf 16 (s.afeTemp r.n), meas := some (m.hRef, m.residual) }
    let s1 := s.putTrims r.n.val r.x.val m.trims
    if r.handover then (s1.calStep r1 .trim).trimApply r.n r.x.val
    else (s1.trimCopy r.n r.x.val).calEnd r1 crDONE

/-- Two SNR blocks after the handback (R635 step 5). -/
def State.calChecked (s : State) (r : CalRun) : State :=
  let s1 := s.wr (F.QF_MARGIN.POST r.n r.x.val) (qfCode (s.qfMargin r.n r.x.val))
  if s.rd (F.EQ_STATUS.SLC_SNR r.n r.x.val) + s.calRevert < r.snr then
    ((s1.putTrims r.n.val r.x.val r.old).trimApply r.n r.x.val).calEnd r crREVERTED
  else s1.calEnd r crDONE

/-- The calibration that runs ends with ABORTED (R636). -/
def State.calAbort (s : State) : State := match s.cal.run with | some r => s.calEnd r crABORTED | none => s

/-- A handover on port `n` ends with ABORTED (R636, R666). -/
def State.calAbortPort (s : State) (n : Fin 8) : State := if s.handover n then s.calAbort else s

/-- The handover goes on with what the crossbar and the port have done (R635, R636). -/
def State.calWatch (s : State) : State :=
  match s.cal.run with
  | none => s
  | some r =>
    let st := s.rd (F.XB_STATUS.XB_STATE r.n)
    if !s.domOn (14 * r.n.val + r.x.val) || !s.domOn (14 * r.n.val + 4) || !s.monOn then s.calEnd r crABORTED
    else if !r.handover then s
    else if !s.linkUp r.n || st == xbSPARE || st == xbIDLE then s.calEnd r crABORTED
    else match r.step with
      | .swap => if st = xbSWAP then s.calStep r .measure else s
      | .trim => if s.on (F.SLICE_CTRL.TRIM_PEND r.n r.x.val) then s
                 else ((s.calStep r .handback).xbGo r.n xbSHADOW r.x.val).lpiTrigger r.n
      | .handback => if st = xbSHADOW then s.calStep r .check else s
      | _ => s

/-- Crossbars that a calibration left go back to IDLE: by the handback first, from SWAP (R635 step 6, R636). -/
def State.calLeave (s : State) : State :=
  s.cal.leave.foldl (fun (s : State) (n : Fin 8) =>
    let st := s.rd (F.XB_STATUS.XB_STATE n)
    let s1 := if st = xbSWAP ∧ !s.on (F.XB_STATUS.XB_BUSY n) then (s.xbGo n xbSHADOW (s.rd (F.XB_STATUS.XB_CUR_PAIR n))).lpiTrigger n else s
    if s1.rd (F.XB_STATUS.XB_STATE n) = xbSHADOW ∧ !s1.on (F.XB_STATUS.XB_BUSY n) then
      let s2 := s1.xbGo n xbIDLE 0
      { s2 with cal := { s2.cal with leave := s2.cal.leave.filter (· ≠ n) } }
    else if s1.rd (F.XB_STATUS.XB_STATE n) = xbIDLE ∨ s1.rd (F.XB_STATUS.XB_STATE n) = xbSPARE then
      { s1 with cal := { s1.cal with leave := s1.cal.leave.filter (· ≠ n) } }
    else s1) s

/-! ### Monitors (R632, R642, R643) -/

/-- MON converts: MON_EN, its domain and its gate (R590, R642). -/
def State.monRuns (s : State) : Bool := s.monOn && s.on F.MON_CTRL.MON_EN && s.gateOn 25

/-- One conversion against a limit: beyond it, inside it (R643): whether this conversion makes the crossing. -/
def Limit.step (l : Limit) (beyond inside : Bool) : Bool × Limit :=
  let counts := if l.crossed then inside else beyond
  if !counts then (false, { l with run := 0 })
  else if l.run + 1 < 4 then (false, { l with run := l.run + 1 })
  else (!l.crossed, { run := 0, crossed := !l.crossed })

/-- A limit of the list takes a conversion; a crossing reports. -/
def State.limitStep (s : State) (k : Nat) (beyond inside : Bool) (src : Nat) (ev : Fld) (word : Nat) : State :=
  let r := ((spFind s.cal.limit k).getD {}).step beyond inside
  let s1 := { s with cal := { s.cal with limit := spPut s.cal.limit k r.2 } }
  if r.1 then (s1.wrB ev true).rise src [word] else s1

/-- A thermal sensor is converted: `t` in 1/8 °C (R642, R643). -/
def State.tempConv (s : State) (i : Nat) (t : Int) : State :=
  let v := if t < -2047 then -2047 else if 2047 < t then 2047 else t
  let s1 := s.wr (F.MON_TEMP.T_NOW i) (unsignedOf 12 v)
  let s2 := if signedOf 12 (s1.rd (F.MON_TEMP.T_MAX i)) < v then s1.wr (F.MON_TEMP.T_MAX i) (unsignedOf 12 v) else s1
  let w := s2.word [F.MON_TEMP.T_MAX i, F.MON_TEMP.T_NOW i]
  let warn : Int := 8 * s.rd F.MON_CTRL.T_WARN
  let crit : Int := 8 * (min 134 (s.rd F.MON_CTRL.T_CRIT) : Nat)
  let s3 := (s2.limitStep i (decide (warn < v)) (decide (v ≤ warn - 16)) 0x240 F.MON_EVENT.T_WARN w).limitStep (24 + i)
    (decide (crit < v)) (decide (v ≤ crit - 16)) 0x241 F.MON_EVENT.T_CRIT w
  if i < 16 ∧ i % 2 = 0 then s3.syncDue ⟨i / 2 % 8, by omega⟩ else s3

/-- A voltage monitor is converted: mV (R642, R643). -/
def State.voltConv (s : State) (i mv : Nat) : State :=
  let v := min 4095 mv
  let s1 := s.wr (F.MON_VOLT.V_NOW i) v
  let uv := s.rd (F.MON_VLIM.UV i)
  let ov := s.rd (F.MON_VLIM.OV i)
  (s1.limitStep (48 + i) (decide (v < uv)) (decide (uv ≤ v)) 0x243 F.MON_EVENT.VOLT v).limitStep (64 + i) (decide (ov < v))
    (decide (v ≤ ov)) 0x243 F.MON_EVENT.VOLT v

/-- AVS_TARGET is computed again (R621): the spec gives no formula; the step it takes, if any, is a free value. -/
def State.avsUpdate (s : State) : State :=
  let d := s.drawFree 2
  let s1 := d.2.wrB F.PWC_AVS.AVS_VALID true
  let cur := s.rd F.PWC_AVS.AVS_TARGET
  let new := if d.1 = 1 then cur + 10 else if d.1 = 2 then cur - 10 else cur
  let wait := match s.cal.avsTb with | some t => decide (s.tb < t + 1000000000) | none => false
  if new = cur ∨ new < 720 ∨ 880 < new ∨ wait = true then s1
  else
    { ((s1.wr F.PWC_AVS.AVS_TARGET new).wrB F.PWC_EVENT.AVS_CHANGE true) with cal := { s1.cal with avsTb := some s.tb } }

end Sys2Proof.Machine
end

