-- ==== Sys2Proof/Machine/FramerOps.lean ====
section
/-! DEFINITION. The framer and the retransmission engine at work: what a frame start sends, what a decoded frame does, the
merge of a twin pair, the shift handshake (05 R136-R163, 06 R178-R185, 07 R206-R218, 08 R260-R271, 11 R383). -/

namespace Sys2Proof.Machine

/-- PD_Pn_PCS is ON: the port's state machine runs (R50). -/
def State.pcsOn (s : State) (n : Fin 8) : Bool := s.domOn (14 * n.val + 9)

/-! ### Decoder halves (R153, R162, R166) -/

/-- The iteration limit that FRM_STATUS shows (R153). -/
def iterMaxOf (v : Nat) : Nat := if v = 0 then 32 else v
def State.halvesUp (s : State) (n : Fin 8) : Nat := s.rd (F.FRM_STATUS.HALF0_UP n) + s.rd (F.FRM_STATUS.HALF1_UP n)
/-- The frame time that sets the limit: that of the receive rung, or of the standard mode (R153, R154). -/
def State.rxFramePs (s : State) (n : Fin 8) : Nat :=
  match s.rd (F.LINK_STATUS.MODE n) with
  | 7 => framePs (s.rd (F.LAD_STATUS.RX_RUNG n))
  | 6 => 128000
  | 5 => 320000
  | 4 => 640000
  | _ => 1280000
/-- The limit under ITER_MAX `v` with one half in service or both, for frames of `ps` ps (R153). -/
def limitOf (v halves ps : Nat) : Nat := if halves = 2 then min (iterMaxOf v) (ps / 8000) else min (iterMaxOf v) (ps / 16000)
/-- The limit for the next frame (R153, R166). With no half in service there is no frame to decode and the spec does not say
what ITER_LIMIT reads: the one-half limit is the model's choice (log entry 93). -/
def State.iterLimit (s : State) (n : Fin 8) : Nat := limitOf (s.rd (F.FRM_CTRL.ITER_MAX n)) (s.halvesUp n) (s.rxFramePs n)
/-- ITER_LIMIT follows; 0 when no LDPC mode runs (R166). -/
def State.syncLimit (s : State) (n : Fin 8) : State :=
  let run := (s.linkUp n && decide (3 ≤ s.rd (F.LINK_STATUS.MODE n))) || s.phase n == phFRAME_SYNC
  s.wr (F.FRM_STATUS.ITER_LIMIT n) (if run then s.iterLimit n else 0)

/-- Half `h` is in service (R162). -/
def State.halfIn (s : State) (n : Fin 8) (h : Nat) : Bool := s.halfOk n h && s.halfChosen n h
/-- Half `h` is in service as FRM_STATUS has it. -/
def State.halfUp (s : State) (n : Fin 8) (h : Nat) : Bool := s.on (if h = 0 then F.FRM_STATUS.HALF0_UP n else F.FRM_STATUS.HALF1_UP n)
/-- HALFh_UP follow (R166); with a change of either, alternation begins afresh (R163). -/
def State.syncHalves (s : State) (n : Fin 8) : State :=
  let same := s.halfUp n 0 == s.halfIn n 0 && s.halfUp n 1 == s.halfIn n 1
  let s1 := ((s.wrB (F.FRM_STATUS.HALF0_UP n) (s.halfIn n 0)).wrB (F.FRM_STATUS.HALF1_UP n) (s.halfIn n 1)).modPort n fun p =>
    { p with fr := { p.fr with par := if same then p.fr.par else none } }
  s1.syncLimit n


/-! ### The ingress stream (R146) -/

/-- An Ethernet frame's blocks in a stream, from its start block on, as far as held: how many up to the block that ends it,
and whether that is among them; `more` says that the last frame is still coming in. -/
def frameHeld (more : Bool) : List Blk → Nat → Nat × Bool
  | [], k => (k, false)
  | b :: bs, k => if b.endsFrame bs.head? more then (k + 1, true) else frameHeld more bs (k + 1)

/-- The framer may take the start block at the head of a stream (R146). -/
def mayStart (cut : Nat) (more : Bool) (stream : List Blk) : Bool :=
  let r := frameHeld more stream 0
  r.2 || (decide (0 < cut) && decide (8 * cut ≤ r.1))

/-- Take blocks for the rest of a frame: `src` is what can be taken, `rest` what the port holds behind it, `more` says that the
last Ethernet frame held is still coming in, `k` the positions left, `inF` whether the stream is inside an Ethernet frame. Answers the blocks taken, what stays of `src`, and
whether the stream now is inside a frame. -/
def takeBlocks (cut : Nat) (more : Bool) (rest : List Blk) : Nat → Bool → List Blk → List Blk × List Blk × Bool
  | 0, inF, src => ([], src, inF)
  | _ + 1, inF, [] => ([], [], inF)
  | k + 1, inF, b :: bs =>
    if inF then
      let r := takeBlocks cut more rest k (!b.endsFrame (bs ++ rest).head? more) bs
      (b :: r.1, r.2)
    else if b.isFill then takeBlocks cut more rest (k + 1) false bs
    else if b.isStart then
      if mayStart cut more (b :: bs ++ rest) then
        let r := takeBlocks cut more rest k true bs
        (b :: r.1, r.2)
      else ([], b :: bs, false)
    else
      let r := takeBlocks cut more rest k false bs
      (b :: r.1, r.2)

/-- What the framer can take now, and what the owner holds behind it (R146, R219). -/
def State.stream (s : State) (o : Fin 12) : List Blk × List Blk :=
  let h := s.side[o]
  if s.spilling o then (h.rbuf, h.pages.flatMap SpillPage.held ++ h.wbuf ++ h.ingress) else (h.ingress, [])

/-- The blocks of a new DATA frame of an owner's stream, or none where a FILLER is sent; and the state with those blocks
taken (R146). -/
def State.takeFrame (s : State) (o : Fin 12) (cut : Nat) : Option (List Blk) × State :=
  let st := s.stream o
  let r := takeBlocks cut s.side[o].coming st.2 52 s.side[o].lineIn st.1
  let gone := st.1.length - r.2.1.length
  let s1 :=
    if s.spilling o then (s.modSide o fun h => { h with rbuf := r.2.1, lineIn := r.2.2 }).leftBuffer o gone
    else (s.modSide o fun h => { h with ingress := r.2.1, lineIn := r.2.2, outFrame := r.2.2 }).spillCheck o
  if r.1.isEmpty then (none, s1)
  else
    let left := 52 - r.1.length
    if r.2.2 && decide (0 < left) then
      (some (r.1 ++ List.replicate left errorBlk), s1.blkErr o F.BLK_ERR.UNDERRUN left)
    else (some (r.1 ++ List.replicate left idleBlk), s1)

/-! ### What each frame carries (R138-R141, R178-R182, R215) -/

/-- Boundary `j` or the next symbol-aligned one after it, of total bits `b`. -/
def alignUp (b j : Nat) : Nat := (j + alignFrames b - 1) / alignFrames b * alignFrames b

/-- The countdown's starting value C0 (R180): SHIFT_T µs over the alignment period. -/
def countStart (shiftT rung : Nat) : Nat :=
  let t := if shiftT = 0 then 8 else shiftT
  let a := alignSymbols (rungBits rung)
  max 1 (min 63 ((t * tierRate (rungTier rung) + a - 1) / a))

/-- The argument of an ANNOUNCE in frame `j` of the rung that names boundary `bound` (R181). -/
def announceArg (rung j bound : Nat) : Nat :=
  (bound - alignUp (rungBits rung) (j + 1)) / alignFrames (rungBits rung)

/-- Transmit direction in ACTIVE (R375). -/
def State.txActive (s : State) (n : Fin 8) : Bool := s.rd (F.LPI_STATUS.TX_LPI n) == lpiACTIVE

/-- The ladder message of the frame that begins, and the state after (R178-R181). A refresh carries NONE (R357). -/
def State.ladderMsg (s : State) (n : Fin 8) : Nat × Nat × State :=
  let f := s.port[n].fr
  let rung := s.rd (F.LAD_STATUS.TX_RUNG n)
  let t := s.rd (F.LAD_STATUS.TX_STATE n)
  if !s.txActive n then (lcNONE, 0, s)
  else if f.txIdx % 2 = 0 then
    if t = txARMED then
      let c0 := countStart (s.rd (F.LAD_CTRL.SHIFT_T n)) rung
      let bound := alignUp (rungBits rung) (f.txRungIdx + 1) + c0 * alignFrames (rungBits rung)
      (lcANNOUNCE, c0, (s.wr (F.LAD_STATUS.TX_STATE n) txCOUNTDOWN).modPort n fun p =>
        { p with lad := { p.lad with txBound := bound } })
    else if t = txCOUNTDOWN ∨ t = txCOMMITTED then (lcANNOUNCE, announceArg rung f.txRungIdx s.port[n].lad.txBound, s)
    else (lcNONE, 0, s)
  else if s.rd (F.LAD_STATUS.RX_STATE n) = rxREQUESTING then
    let l := s.port[n].lad
    let s1 := s.modPort n fun p => { p with lad := { p.lad with reqPhase := !p.lad.reqPhase } }
    if l.reqPhase then (lcREQ_RUNG, l.reqRung, s1) else (lcREQ_LOAD, l.reqLoad, s1)
  else (lcNONE, 0, s)

/-- GAP_p lets a member send NAK (R270). -/
def State.gapReady (s : State) (n : Fin 8) : Bool :=
  let m := s.member n
  s.rd (F.TW_STATUS.PAIR_STATE (pairOf n)) == pSOLO || m.gapStall || decide (m.gapTb + s.mrgWait (pairOf n) ≤ s.tb)

/-- NAK of the frame that begins (R215, R270). -/
def State.nakBit (s : State) (n : Fin 8) : Bool :=
  s.gapOf n && s.on (F.RTX_CTRL.NAK_EN n) && s.link n != stHOLD &&
    (if s.twinned n then s.gapReady n else true)

/-- A frame, scrambled and encoded, goes through the mapper and the precoders of the transmit rung to the converters of pairs
A-D (R70, R71, R76, R77, R81, R143, R150). -/
def State.lineSend (s : State) (n : Fin 8) (scr : BitVec 58) (f : Frame) : LineTx :=
  let rung := s.rd (F.LAD_STATUS.TX_RUNG n)
  let thp := [0, 1, 2, 3].map fun x => coefsAt s.port[n].eq.coef (thpOff x 1) (s.rd (F.EQ_STATUS.THP_LEN n x))
  s.port[n].fr.tx.send (tierRate (rungTier rung)) (rungBits rung) (s.rd (F.LAD_STATUS.TX_LOAD n)) thp
    ((List.range 4096).map (f.codeword scr))

/-- Begin a frame on the line (R137, R143, R178). -/
def State.sendFrame (s : State) (n : Fin 8) (typ seq : Nat) (blks : List Blk) : State :=
  let msg := s.ladderMsg n
  let s1 := msg.2.2
  let up := s.linkUp n
  let f : Frame := {
    seq := if up then seq else 0
    ack := if up then s.expectOf n else 0
    typ := typ
    nak := up && s.nakBit n
    lock := s.on (F.FRM_STATUS.LOCK_RX n)
    lcmd := if up then msg.1 else lcNONE
    larg := if up then msg.2.1 else 0
    blks := blks }
  (if up then s1 else s).modPort n fun p => { p with fr := { p.fr with
    txFrame := some f,
    tx := s.lineSend n (if p.fr.txIdx = 0 then scrOnes else scrAdvance 3456 p.fr.txScr) f,
    txScr := if p.fr.txIdx = 0 then scrOnes else scrAdvance 3456 p.fr.txScr,
    txIdx := p.fr.txIdx + 1, txRungIdx := p.fr.txRungIdx + 1, upFrames := p.fr.upFrames + (if up ∧ p.fr.upFrames < 16 then 1 else 0) } }

/-- 52 Idle blocks. -/
def idle52 : List Blk := List.replicate 52 idleBlk

/-- A FILLER (R139). -/
def State.sendFiller (s : State) (n : Fin 8) : State := s.sendFrame n typFILLER (s.seqNextOf n) idle52

/-- The blocks of the window slot of SEQ `q` (R206). -/
def State.slot (s : State) (n : Fin 8) (q : Nat) : List Blk := (spFind s.port[n].rtx.win q).getD idle52

/-- A slot due for sending holds an uncorrectable error (R228, R275). -/
def State.winUe (s : State) (n : Fin 8) : State :=
  (s.wrB (F.RTX_EVENT.WIN_UE n) true).rise (portSrc n 0xA) [s.word [F.RTX_STATUS.TX_NEXT n, F.RTX_STATUS.OUTSTANDING n,
    F.RTX_STATUS.REPLAY n, F.RTX_STATUS.GAP n, F.RTX_STATUS.ACK_TMR n]]

/-- Count a SKIP sent by port `n`. -/
def State.skipTx (s : State) (n : Fin 8) : State :=
  s.count (if memberOf n = 0 then F.TW_SKIP.SKIP_TX0 (pairOf n) else F.TW_SKIP.SKIP_TX1 (pairOf n))

/-- A SKIP with SEQ = SP_p (R262, R265, R275). -/
def State.sendSkip (s : State) (n : Fin 8) (seq : Nat) : State := (s.skipTx n).sendFrame n typSKIP seq idle52

/-- Send the slot at the replay pointer `a`; the pointer advances (R209, R228, R264, R275). -/
def State.sendReplay (s : State) (n : Fin 8) (a : Nat) (ue : Bool) : State :=
  let s1 := s.setReplay n (seqNext a)
  if ue then
    if s.twinned n && s.rd (F.TW_STATUS.PAIR_STATE (pairOf n)) == pTWIN then (s1.winUe n).sendSkip n (seqNext a)
    else ((s1.winUe n).count (F.RTX_FRAMES.RTX_FRAMES n)).sendFrame n typDATA a (List.replicate 52 errorBlk)
  else (s1.count (F.RTX_FRAMES.RTX_FRAMES n)).sendFrame n typDATA a (s.slot n a)

/-- The frame that a port outside twin operation sends in UP or HOLD (R209, R140, R146). -/
def State.txOwn (s : State) (n : Fin 8) (ue : Bool) : State :=
  if s.port[n].fr.upFrames < 16 then s.sendFiller n
  else
    match s.port[n].rtx.replay with
    | some a => s.sendReplay n a ue
    | none =>
      if s.outstanding n < s.port[n].rtx.winSize then
        let r := s.takeFrame (ownPort n) (s.rd (F.FRM_CTRL.CUT_TH n))
        match r.1 with
        | some bs =>
          let q := s.port[n].rtx.next
          (r.2.modPort n fun p => { p with rtx := { p.rtx with win := spPut p.rtx.win q bs, next := seqNext q } }).sendFrame n
            typDATA q bs
        | none => r.2.sendFiller n
      else s.sendFiller n

/-- TW_LAG as it acts (R276). -/
def State.twLag (s : State) (k : Fin 4) : Nat :=
  let v := s.rd (F.TW_CTRL.TW_LAG k)
  if v = 0 then 0 else max 4 v

/-- The smaller window of the members that are IN (R263). -/
def State.twinWin (s : State) (k : Fin 4) : Nat :=
  let w (m : Nat) : Nat := if s.rd (memberFld k m) = mIN then s.port[portOf k m].rtx.winSize else 512
  min (w 0) (w 1)

/-- Write a new frame into the window of every member that is IN, and of a JOINING member from J on (R263). -/
def State.writeTwinWin (s : State) (k : Fin 4) (q : Nat) (bs : List Blk) : State :=
  let put (m : Nat) (s : State) : State :=
    let st := s.rd (memberFld k m)
    if st = mIN ∨ (st = mJOINING ∧ (s.twin[k].mem m).join.isSome) then
      s.modPort (portOf k m) fun p => { p with rtx := { p.rtx with win := spPut p.rtx.win q bs } }
    else s
  put 1 (put 0 s)

/-- Membership moves on: a JOINING member whose both sides are ready becomes IN (R262). -/
def State.joinEval (s : State) (n : Fin 8) : State :=
  let k := pairOf n
  let m := s.member n
  if s.twActive k && s.mState n == mJOINING then
    match m.join with
    | some j =>
      let s1 := s.modMember n fun q => { q with txReady := decide (0 ≤ seqDist (s.twTo k) j), rxReady := q.skipSeen }
      if (s1.member n).txReady && (s1.member n).rxReady then (s1.wr (memberFld k (memberOf n)) mIN).pairEval k else s1
    | none => s
  else s

/-- The SP_p that R265 calls for, if any. -/
def State.skipTo (s : State) (n : Fin 8) : Option Nat :=
  let k := pairOf n
  let sp := (s.member n).sp
  let lag := s.twLag k
  let o := otherOf n
  if 0 < seqDist (s.twTo k) sp then some (s.twTo k)
  else if 0 < lag ∧ s.mState o = mIN ∧ s.link o = stUP ∧ (lag : Int) < seqDist (s.ts k) sp then
    some ((s.ts k + 65536 - lag / 2) % 65536)
  else none

/-- The frame that a member of an active pair sends in UP or HOLD (R260-R265, R275). -/
def State.txMember (s : State) (n : Fin 8) (ue : Bool) : State :=
  let k := pairOf n
  let m := s.member n
  let st := s.mState n
  if st = mEXCLUDED then s.sendFiller n
  else if s.port[n].fr.upFrames < 16 then
    (if st = mJOINING then s.modMember n fun q => { q with sp := s.ts k } else s).sendFiller n
  else if st = mJOINING ∧ m.join.isNone then
    let j := s.ts k
    ((s.modMember n fun q => { q with sp := j, join := some j }).sendSkip n j).joinEval n
  else
    match s.port[n].rtx.replay with
    | some a => s.sendReplay n a ue
    | none =>
      match s.skipTo n with
      | some sp => (s.modMember n fun q => { q with sp := sp, skipped := some sp }).sendSkip n sp
      | none =>
        if 0 < seqDist (s.ts k) m.sp then
          let s1 := s.modMember n fun q => { q with sp := seqNext m.sp }
          if ue then
            if s.rd (F.TW_STATUS.PAIR_STATE k) = pTWIN then (s1.winUe n).sendSkip n (seqNext m.sp)
            else (s1.winUe n).sendFrame n typDATA m.sp (List.replicate 52 errorBlk)
          else s1.sendFrame n typDATA m.sp (s.slot n m.sp)
        else if seqDist (s.ts k) (s.twTo k) < s.twinWin k then
          let r := s.takeFrame (ownTwin k) (s.rd (F.FRM_CTRL.CUT_TH n))
          match r.1 with
          | some bs =>
            let q := s.ts k
            (((r.2.writeTwinWin k q bs).wr (F.TW_SEQ.TS k) (seqNext q)).modMember n fun x =>
              { x with sp := seqNext q }).sendFrame n typDATA q bs
          | none => r.2.sendFiller n
        else s.sendFiller n

/-- Frames go out: Spire in FRAME_SYNC, UP or HOLD, the transmit direction ACTIVE or in the frames of a refresh. -/
def State.txRuns (s : State) (n : Fin 8) : Bool :=
  s.domOn (14 * n.val + 9) && s.spire n && (s.linkUp n || s.phase n == phFRAME_SYNC) &&
    (s.txActive n || (s.rd (F.LPI_STATUS.TX_LPI n) == lpiREFRESH && decide (0 < s.port[n].lpi.refreshLeft)))

/-- The transmit direction is awake (R357, R359): symbol-aligned boundaries count afresh. -/
def State.lpiAwake (s : State) (n : Fin 8) : State :=
  (s.wr (F.LPI_STATUS.TX_LPI n) lpiACTIVE).modPort n fun p => { p with
    fr := { p.fr with tx := { p.fr.tx with rest := [] } }
    trn := { p.trn with sends := .frames }
    lpi := { p.lpi with wokeTb := some s.tb, wakeDue := false, refreshLeft := 0 } }

/-- A quiet period begins, or the frames of a refresh: after the signal `g` the port sends `x` (R357, R377). -/
def State.lpiSends (s : State) (n : Fin 8) (x : TrnTx) (g : Option LpiSignal) : State :=
  s.modPort n fun p => { p with trn := { p.trn with sends := x }, lpi := { p.lpi with txStart := s.tb, sent := g } }

/-- One frame of a refresh has been sent (R357, R359): after the last, the sleep signal, or frames go on where a trigger
has come. -/
def State.refreshSent (s : State) (n : Fin 8) : State :=
  let k := s.port[n].lpi.refreshLeft - 1
  let s1 := s.modPort n fun p => { p with lpi := { p.lpi with refreshLeft := k } }
  if k = 0 then
    if s.port[n].lpi.wakeDue then s1.lpiAwake n
    else (s1.wr (F.LPI_STATUS.TX_LPI n) lpiQUIET).lpiSends n .silent (some .sleep)
  else s1

/-- A frame start (R209, R264). -/
def State.txFrameStart (s : State) (n : Fin 8) (ue : Bool) : State :=
  let s1 :=
    if !s.linkUp n then s.sendFiller n
    else if !s.txActive n then (s.sendFiller n).refreshSent n
    else if s.twinned n then s.txMember n ue
    else s.txOwn n ue
  if s.twinned n then s1.syncTwin (pairOf n) else s1.syncRtx n

/-! ### Received frames: egress (R145, R382, R383) -/

/-- Room in the egress FIFO for one frame. -/
def State.egressRoom (s : State) (o : Fin 12) : Bool :=
  !s.hlOn (s.laneOf o) || decide (52 ≤ fifoCap - s.side[o].egress.length)

/-- Deliver blocks toward the host; with PD_HLn not ON they are discarded (R232). -/
def State.egressPush (s : State) (o : Fin 12) (bs : List Blk) : State :=
  if s.hlOn (s.laneOf o) then s.modSide o fun h => { h with egress := h.egress ++ bs }
  else s.hostCount o (F.DOWN_DISCARD.DOWN_DISCARD (spillPort o)) (countable bs)

/-- A refusal for lack of room (R383). -/
def State.backoff (s : State) (o : Fin 12) : State := s.count (F.HL_CNT_EG.EG_BACKOFF (s.laneOf o))

/-! ### Received frames outside twin operation (R214) -/

/-- Set or clear GAP of a port. GAP set wakes the transmit direction (R359). -/
def State.setGap (s : State) (n : Fin 8) (v : Bool) : State :=
  let s1 := s.modPort n fun p => { p with rtx := { p.rtx with gap := v } }
  if v then s1.lpiTrigger n else s1

/-- The TYPE row of R214. -/
def State.rxOwn (s : State) (n : Fin 8) (f : Frame) : State :=
  let d := seqDist f.seq s.port[n].rtx.expect
  if f.typ = typDATA then
    if d = 0 then
      if s.egressRoom (ownPort n) then
        (((s.egressPush (ownPort n) f.blks).modPort n fun p =>
          { p with rtx := { p.rtx with expect := seqNext p.rtx.expect, gap := false } })).lpiTrigger n
      else s.backoff (ownPort n)
    else if d < 0 then s.count (F.RTX_DUP.RX_DUP n)
    else if d ≤ 512 then (s.count (F.RTX_RX_CNT.RX_AHEAD n)).setGap n true
    else (s.count (F.RTX_RX_CNT.SEQ_FAR n)).setGap n true
  else if f.typ = typFILLER then
    if d = 0 then s.setGap n false else if 0 < d then s.setGap n true else s
  else s.count (F.FIELD_ERR.TYPE_BAD n)

/-! ### The merge (R268-R270, R280) -/

/-- Set GAP_p of a member. -/
def State.memberGap (s : State) (n : Fin 8) : State :=
  s.modMember n fun q => if q.gap then q else { q with gap := true, gapStall := false, gapTb := s.tb }

/-- GAP_p clears where d(E_M, PE_p) ≥ 0 (R270). -/
def State.gapClear (s : State) (n : Fin 8) : State :=
  if 0 ≤ seqDist (s.em (pairOf n)) (s.member n).pe then s.modMember n fun q => { q with gap := false, gapStall := false } else s

/-- Remember a delivery for TW_SKEW (R280): `m` is the member that brought the frame. -/
def State.noteDelivery (s : State) (k : Fin 4) (q m : Nat) : State :=
  s.modTwin k fun t => { t with recent := (q, m, s.tb) :: t.recent.take 511 }

/-- A copy arrives of a frame that the other member has brought (R280): the other leads, and where that frame has been
delivered the time since counts. -/
def State.noteSkew (s : State) (n : Fin 8) (q : Nat) : State :=
  let k := pairOf n
  match s.twin[k].recent.find? fun e => e.1 == q && e.2.1 != memberOf n with
  | none => match spFind s.twin[k].heldBy q with
    | some m => if m = memberOf n then s else s.wr (F.TW_SKEW.LEAD k) m
    | none => s
  | some e =>
    let d := s.tb - e.2.2
    let s1 := (s.wr (F.TW_SKEW.LEAD k) e.2.1).peak (F.TW_SKEW.SKEW_MAX k) (d / 10)
    if 50000 < d then s1.wrB (F.TW_EVENT.SKEW_HIGH k) true else s1

/-- The blocks of frame E_M go toward the host and E_M advances; `m` is the member that brought it (R269, R280). -/
def State.deliverOne (s : State) (k : Fin 4) (m : Nat) (bs : List Blk) : State :=
  let o := ownTwin k
  ((((s.noteDelivery k (s.em k) m).egressPush o bs).modSide o fun h => { h with backoff := false }).wr
    (F.TW_MERGE.E_M k) (seqNext (s.em k)))

/-- Deliver the frames held from E_M on, as far as there is room (R269, R383); `bad` names the slots that prove
uncorrectable on release (R268). -/
def State.deliverHeld (s : State) (k : Fin 4) (bad : List Nat) : Nat → State
  | 0 => s
  | fuel + 1 =>
    let q := s.em k
    match spFind s.twin[k].held q with
    | none => s
    | some bs =>
      let o := ownTwin k
      if s.egressRoom o then
        let ue := bad.contains q
        let s1 := if ue then
            (((s.count (F.ING_LOSS.SPILL_LOST (spillPort o)) 52).hostEvent o F.RTX_EVENT.SPILL_LOST).rise 0x294 [k.val]).rise
              0x296 [k.val]
          else s
        let m := (spFind s.twin[k].heldBy q).getD 0
        let s2 := s1.modTwin k fun t => { t with held := spDel t.held q, heldBy := spDel t.heldBy q }
        (s2.deliverOne k m (if ue then List.replicate 52 errorBlk else bs)).deliverHeld k bad fuel
      else if s.side[o].backoff then s
      else (s.backoff o).modSide o fun h => { h with backoff := true }

/-- What follows where E_M may have advanced from `em0`: if it has, both gap flags are looked at; HELD follows
(R270, R279). -/
def State.emAdvanced (s : State) (k : Fin 4) (em0 : Nat) : State :=
  (if s.em k = em0 then s else (s.gapClear (portOf k 0)).gapClear (portOf k 1)).syncTwin k

/-- A frame is held in its merge slot (R268). -/
def State.holdFrame (s : State) (n : Fin 8) (f : Frame) : State :=
  s.modTwin (pairOf n) fun t => { t with held := spPut t.held f.seq f.blks, heldBy := spPut t.heldBy f.seq (memberOf n) }

/-- The DATA rows of R269; an EXCLUDED member discards every DATA frame (R260). -/
def State.rxMemberData (s : State) (n : Fin 8) (f : Frame) (bad : List Nat) : State :=
  let k := pairOf n
  let d := seqDist f.seq (s.em k)
  if s.mState n = mEXCLUDED then s
  else if d < 0 || (spFind s.twin[k].held f.seq).isSome then (s.noteSkew n f.seq).count (F.TW_DUP.MRG_DUP k)
  else if d = 0 then
    (if s.egressRoom (ownTwin k) then s.deliverOne k (memberOf n) f.blks else s.holdFrame n f).deliverHeld k bad 512
  else if d ≤ 511 then
    let s2 := s.holdFrame n f
    if 0 < seqDist f.seq (s.member n).pe then s2.memberGap n else s2
  else (s.count (F.RTX_RX_CNT.SEQ_FAR n)).memberGap n

/-- The TYPE row of R269. -/
def State.rxMember (s : State) (n : Fin 8) (f : Frame) (bad : List Nat) : State :=
  let k := pairOf n
  let m := s.member n
  let d := seqDist f.seq (s.em k)
  let dp := seqDist f.seq m.pe
  if f.typ = typDATA then (s.rxMemberData n f bad).modMember n fun q => { q with pe := seqNext f.seq }
  else if f.typ = typFILLER then
    let s1 := if 0 < dp ∧ 0 < d ∧ m.skipSeen then s.memberGap n else s
    if m.skipSeen then s1.modMember n fun q => { q with pe := f.seq } else s1
  else if f.typ = typSKIP then
    let first := s.mState n = mJOINING && !m.skipTried
    let s1 := s.modMember n fun q => { q with skipTried := true }
    if (first || decide (0 < dp)) && decide (d ≤ 511) then s1.modMember n fun q => { q with pe := f.seq, skipSeen := true }
    else s1.count (F.TW_CNT.SKIP_BAD k)
  else s.count (F.FIELD_ERR.TYPE_BAD n)

/-! ### Ladder messages received (R141, R178-R182) -/

/-- A rung is in the resolved rung set and the current tier of a direction (R180, R188). -/
def State.rungOk (s : State) (n : Fin 8) (cur r : Nat) : Bool :=
  decide (r ≤ s.rd (F.PARTNER_INFO.RES_TOP_RUNG n)) && decide (rungTier r = rungTier cur) && decide (r ≤ 26)

/-- The transmitter acts on requests (R180, R182). -/
def State.txListens (s : State) (n : Fin 8) : Bool :=
  let t := s.rd (F.LAD_STATUS.TX_STATE n)
  (t == txIDLE || t == txARMED) && !s.port[n].lad.txIgnore

/-- A request's part is held; both parts arm the transmitter (R180). -/
def State.txArm (s : State) (n : Fin 8) : State :=
  let l := s.port[n].lad
  if l.gotRung.isSome && l.gotLoad.isSome then s.wr (F.LAD_STATUS.TX_STATE n) txARMED else s

/-- An ANNOUNCE in received frame `j` of the rung (R181, R182). -/
def State.rxAnnounce (s : State) (n : Fin 8) (j c : Nat) : State :=
  let b := rungBits (s.rd (F.LAD_STATUS.RX_RUNG n))
  let bound := alignUp b (j + 1) + c * alignFrames b
  let r := s.rd (F.LAD_STATUS.RX_STATE n)
  if r = rxREQUESTING then
    (s.wr (F.LAD_STATUS.RX_STATE n) rxARMED).modPort n fun p => { p with lad := { p.lad with rxBound := bound } }
  else if (r = rxARMED ∨ r = rxDUAL) ∧ s.port[n].lad.rxBound = bound then s
  else s.count (F.FIELD_ERR.CTL_BAD n)

/-- Act on LCMD and LARG of received frame `i`, frame `j` of the rung (R141, R178, R180-R182). -/
def State.rxLadder (s : State) (n : Fin 8) (i j : Nat) (f : Frame) : State :=
  if f.lcmd = lcNONE then
    if i % 2 = 1 ∧ s.rd (F.LAD_STATUS.TX_STATE n) = txCOUNTDOWN then s.wr (F.LAD_STATUS.TX_STATE n) txCOMMITTED else s
  else if (f.lcmd = lcANNOUNCE) = (i % 2 = 1) then s.count (F.FIELD_ERR.CTL_BAD n)
  else if f.lcmd = lcANNOUNCE then s.rxAnnounce n j f.larg
  else if f.lcmd = lcREQ_RUNG then
    if 26 < f.larg then s.count (F.FIELD_ERR.CTL_BAD n)
    else if !s.txListens n then s
    else if s.rungOk n (s.rd (F.LAD_STATUS.TX_RUNG n)) f.larg then
      (s.modPort n fun p => { p with lad := { p.lad with gotRung := some f.larg } }).txArm n
    else s.count (F.LAD_ABORT.TX_REQ_BAD n)
  else if 47 < f.larg then s.count (F.FIELD_ERR.CTL_BAD n)
  else if !s.txListens n then s
  else (s.modPort n fun p => { p with lad := { p.lad with gotLoad := some f.larg } }).txArm n

/-! ### Decode (R153-R155, R183, R184) -/

/-- The limit of one path's frame in dual tracking under ITER_MAX `v` (R183, R184), from its frame time in ps. -/
def State.dualLimit (s : State) (n : Fin 8) (v ps : Nat) : Nat :=
  if s.halvesUp n = 2 then min (iterMaxOf v) (ps / 16000) else min (iterMaxOf v) (max 1 (ps / 32000))

/-- What decoding a received word comes to: the frame where it decodes and passes its CRC, whether it decoded, and the
iterations used (R152, R155); `llr` are the LLRs of its samples. -/
def decodeWord (norm limit : Nat) (et : Bool) (scr : BitVec 58) (llr : List Int) : RxWord → Option Frame × Bool × Nat
  | .samples _ _ =>
    match ldpcDecode norm limit et llr with
    | (none, it) => (none, false, it)
    | (some bs, it) =>
      let d := scramble scr bs
      if crcGood d then (some (frameOfBits d), true, it) else (none, true, it)
  | .decided f it => (some f, true, min it limit)
  | .crcBad it => (none, true, min it limit)
  | .lost it => (none, false, min it limit)

/-- The same for one LDPC frame of a standard mode: its blocks stand in a frame's (R157, log entry 92). -/
def decodeStd (mode norm limit : Nat) (et erase : Bool) (sums : List Nat) : RxWord → Option Frame × Bool × Nat
  | .samples ss _ =>
    let r := Config.stdLdpc mode norm limit et erase (ss.map fun x => (x.pair, x.y, x.flagged)) sums
    (if r.decoded && r.good then
        some { seq := 0, ack := 0, typ := typDATA, nak := false, lock := false, lcmd := 0, larg := 0,
               blks := r.blks.map fun b => ⟨b.1, b.2⟩ }
      else none, r.decoded, min r.iters limit)
  | .decided f it => (some f, true, min it limit)
  | .crcBad it => (none, true, min it limit)
  | .lost it => (none, false, min it limit)

/-- Some symbol of the word was taken under the port impulse flag. -/
def RxWord.flagged : RxWord → Bool
  | .samples ss _ => ss.any RxSym.flagged
  | _ => false

/-- The sums of 2^16 squared errors that the demapper works with, by pair (R151). -/
def State.noiseSums (s : State) (n : Fin 8) : List Nat :=
  [0, 1, 2, 3].map fun x => (spFind s.port[n].eq.errSq x).getD (Config.noise n.val x)

/-- The LLRs of a word's samples under the loading of its path (R151, R183). -/
def State.llrs (s : State) (n : Fin 8) (newPath erase : Bool) : RxWord → List Int
  | .samples ss skip =>
    let l := s.port[n].lad
    let bits := if newPath then pairBits (rungBits l.reqRung) l.reqLoad
      else pairBits (rungBits (s.rd (F.LAD_STATUS.RX_RUNG n))) (s.rd (F.LAD_STATUS.RX_LOAD n))
    demap bits (s.noiseSums n) erase skip ss
  | _ => []

/-- The word of FRM_CTRL that governs decoding (R165), and its fields. -/
def State.frmWord (s : State) (n : Fin 8) : Nat :=
  s.word [F.FRM_CTRL.ERASE_EN n, F.FRM_CTRL.NORM n, F.FRM_CTRL.ET_EN n, F.FRM_CTRL.ITER_MAX n]
def State.frmUsed (s : State) (n : Fin 8) (early : Bool) : Nat :=
  if early then s.port[n].fr.ctlOld.getD (s.frmWord n) else s.frmWord n

/-- A frame has decoded; two in a row end the DECODE cause (R123). -/
def State.decodedOne (s : State) (n : Fin 8) : State :=
  let g := s.port[n].eq.decGood + 1
  let s1 := s.modPort n fun p => { p with eq := { p.eq with decGood := min g 2 } }
  if g = 2 then s1.freeze n isDD frzDECODE false else s1

/-- A failure is reported: counters, DECODE cause, ladder input (R155, R123, R186). -/
def State.failReport (s : State) (n : Fin 8) (d : RxDone) (clean : Bool) : State :=
  let s1 := if d.crc then s.count (F.FRM_CRC_FAIL.CRC_FAIL n) else s.count (F.FRM_DEC_FAIL.DEC_FAIL n)
  let s2 := if d.half < 2 ∧ s.domOn (14 * n.val + 7 + d.half) then s1.count (F.DEC_STAT.H_FAIL n d.half) else s1
  let s3 := s2.modPort n fun p => { p with
    eq := { p.eq with decGood := 0 }, lad := { p.lad with cleanFails := p.lad.cleanFails + b2n clean } }
  if s.on (F.FRZ_CTRL.DEC_FRZ_EN n) then s3.freeze n isDD frzDECODE true else s3

/-- One more consecutive failure toward a blackout (R216). -/
def State.blackoutCount (s : State) (n : Fin 8) : State :=
  let s1 := s.modPort n fun p => { p with rtx := { p.rtx with fails := p.rtx.fails + 1 } }
  if s.blkFails n ≤ s1.port[n].rtx.fails then s1.enterHold n else s1

/-- Put a decoded frame at its place in received order (R156). -/
def State.putDone (s : State) (n : Fin 8) (k : Nat) (d : RxDone) : State :=
  s.modPort n fun p => { p with fr := { p.fr with done := spPut p.fr.done k d } }

/-- The failed frames of the winning path, reported in received order (R183). -/
def State.reportHeld (s : State) (n : Fin 8) : Sparse RxDone → State
  | [] => s
  | (k, d) :: r => (((s.failReport n d false).putDone n k { d with counted := true }).reportHeld n r)

/-- The receiver returns to IDLE after a request; normal alternation resumes (R183). -/
def State.rxIdle (s : State) (n : Fin 8) (hold : Bool) : State :=
  ((s.wr (F.LAD_STATUS.RX_STATE n) rxIDLE).modPort n fun p => { p with
    lad := { p.lad with
      oldHeld := [], newHeld := [], same := false, rxHoldoff := hold,
      holdoffTb := if p.lad.reqFallback || hold then some s.tb else p.lad.holdoffTb, reqFallback := false }
    fr := { p.fr with par := none } }).ladFallback n

/-- The request resolves to the new path (R126, R183, R189-R191, R204): SNR blocks restart. A shift to another loading at an
unchanged rung counts in RX_DOWN; that it is no downshift for UP_HOLDOFF (R190) is the model's choice (log entry 94). -/
def State.resolveNew (s : State) (n : Fin 8) : State :=
  let l := s.port[n].lad
  let r0 := s.rd (F.LAD_STATUS.RX_RUNG n)
  let l0 := s.rd (F.LAD_STATUS.RX_LOAD n)
  let up := decide (r0 < l.reqRung)
  let down := decide (l.reqRung < r0) || (decide (l.reqRung = r0) && decide (l.reqLoad ≠ l0))
  let s1 := if up then s.count (F.LAD_COUNT.RX_UP n) else if down then s.count (F.LAD_COUNT.RX_DOWN n) else s
  let s2 := ((s1.wr (F.LAD_STATUS.RX_RUNG n) l.reqRung).wr (F.LAD_STATUS.RX_LOAD n) l.reqLoad).wrB (F.LAD_EVENT.RX_SHIFT n) true
  let s3 := s2.modPort n fun p => { p with
    fr := { p.fr with rxStart := p.fr.rxStart + p.lad.rxBound },
    eq := { p.eq with snrValid := [false, false, false, false] },
    lad := { p.lad with
      prevRung := r0, prevLoad := l0, sinceUp := if up then some 0 else none,
      dnRun := 0, upRun := 0, holdoffTb := if l.reqRung < r0 then some s.tb else p.lad.holdoffTb } }
  (((s3.reportHeld n l.newHeld).rxIdle n false).syncBound n).syncLimit n

/-- The request resolves to the old path (R183). -/
def State.resolveOld (s : State) (n : Fin 8) : State :=
  let l := s.port[n].lad
  ((((s.count (F.LAD_ABORT.RX_ABORT n)).wrB (F.LAD_EVENT.RX_ABORTED n) true).reportHeld n l.oldHeld).rxIdle n true).syncLimit n

/-- Absolute index of the first frame after the receive shift boundary. -/
def State.rxBoundAbs (s : State) (n : Fin 8) : Nat := s.port[n].fr.rxStart + s.port[n].lad.rxBound

/-- Frame `k` belongs to a path of dual tracking (R183). -/
def State.onPath (s : State) (n : Fin 8) (k : Nat) : Bool :=
  s.rd (F.LAD_STATUS.RX_STATE n) == rxDUAL && decide (s.rxBoundAbs n ≤ k)

/-- The receiver tracks two paths; where both are the same it decodes as outside dual tracking (R183). -/
def State.dual (s : State) (n : Fin 8) : Bool := s.rd (F.LAD_STATUS.RX_STATE n) == rxDUAL && !s.port[n].lad.same

/-- The result of half `h`'s decoding of frame `k` reaches the framer (R155, R156, R183). -/
def State.decodeResult (s : State) (n : Fin 8) (k : Nat) (newPath flagged : Bool) (d : RxDone) : State :=
  let spire := s.spire n
  match d.result with
  | .good f =>
    let s1 := (if s.onPath n k then (if newPath || s.port[n].lad.same then s.resolveNew n else s.resolveOld n) else s)
    let s2 := (s1.count64 (F.FRM_GOOD_LO.GOOD_LO n) (F.FRM_GOOD_HI.GOOD_HI n)).decodedOne n
    if spire then s2.putDone n k d else if s.twinned n then s2 else s2.egressPush (ownPort n) f.blks
  | .failed =>
    if s.onPath n k && !s.port[n].lad.same then
      if newPath then
        (s.modPort n fun p => { p with lad := { p.lad with newHeld := spPut p.lad.newHeld k { d with counted := true } } }).blackoutCount n
      else s.modPort n fun p => { p with lad := { p.lad with oldHeld := spPut p.lad.oldHeld k { d with counted := true } } }
    else
      let clean := !flagged && s.link n != stHOLD && !s.dual n
      let s1 := s.failReport n d clean
      if spire then s1.putDone n k d else s1

/-- A half completes a decoding: its own counters (R173-R175). -/
def State.halfCount (s : State) (n : Fin 8) (h iters : Nat) : State :=
  ((s.count (F.DEC_FRAMES.H_FRAMES n h)).count (F.DEC_ITER_SUM.H_ITER_SUM n h) iters).peak (F.DEC_STAT.ITER_PEAK n h) iters

/-- Frames come in: Spire in FRAME_SYNC, UP or HOLD, or an LDPC-coded standard mode in UP (R155, R157). -/
def State.rxRuns (s : State) (n : Fin 8) : Bool :=
  s.domOn (14 * n.val + 9) &&
    ((s.spire n && (s.linkUp n || s.phase n == phFRAME_SYNC)) ||
     (s.linkUp n && decide (3 ≤ s.rd (F.LINK_STATUS.MODE n)) && !s.spire n))

/-- Half `h` is the one to decode frame `k` (R153, R162, R163, R183, R184): a deselected half completes the frame it holds; with
both halves in service frames alternate, and in dual tracking half 0 takes the old path and half 1 the new one; with one in
service it takes every frame; with none every frame fails. -/
def State.halfTakes (s : State) (n : Fin 8) (h k : Nat) (newPath : Bool) : Bool :=
  let fr := s.port[n].fr
  if fr.drain.contains h then true
  else if s.halvesUp n = 2 then
    if s.onPath n k && !s.port[n].lad.same then newPath == (h == 1)
    else match fr.par with | some p => (h + k) % 2 == p | none => true
  else s.halvesUp n == 0 || s.halfUp n h

/-- Half `h` has taken frame `k`. -/
def State.halfTaken (s : State) (n : Fin 8) (h k : Nat) : State :=
  s.modPort n fun p => { p with fr := { p.fr with
    drain := p.fr.drain.filter (· ≠ h)
    par := if s.halvesUp n = 2 ∧ !p.fr.drain.contains h ∧ !(s.onPath n k && !p.lad.same) then some ((h + k) % 2) else p.fr.par } }

/-- The iteration limit of frame `k` at half `h` under ITER_MAX `v` (R153, R163, R183, R184). -/
def State.limitAt (s : State) (n : Fin 8) (h k : Nat) (newPath : Bool) (ran : Option Nat) (v : Nat) : Nat :=
  let ps := s.rxFramePs n
  if s.onPath n k && !s.port[n].lad.same then
    s.dualLimit n v (framePs (if newPath then s.port[n].lad.reqRung else s.rd (F.LAD_STATUS.RX_RUNG n)))
  else match ran with
    | some r => max (limitOf v 1 ps) (min r (limitOf v 2 ps))
    | none => limitOf v (if s.port[n].fr.drain.contains h then 2 else s.halvesUp n) ps

/-- Half `h` ends frame `k` (R151-R157). -/
def State.frameDecode (s : State) (n : Fin 8) (h k : Nat) (newPath flagged : Bool) (c : DecCtx) (w : RxWord) : State :=
  let failed := s.on (if h = 0 then F.FRM_STATUS.HALF0_FAIL n else F.FRM_STATUS.HALF1_FAIL n)
  let fl := flagged || w.flagged
  let s0 := s.halfTaken n h k
  if !s.domOn (14 * n.val + 7 + h) || failed then
    s0.decodeResult n k newPath fl { result := .failed, flagged := fl, counted := false, half := 2 }
  else
    let v := s.frmUsed n c.early
    let norm := max 8 (bitsOf v 19 16)
    let limit := s.limitAt n h k newPath c.ran (bitsOf v 4 0)
    let f := s.port[n].fr
    let r := if s.spire n then
        decodeWord norm limit (bitB v 7) (scrAdvance (3456 * (k - f.rxIdx)) f.rxScr) (s.llrs n newPath (bitB v 20) w) w
      else decodeStd (s.rd (F.LINK_STATUS.MODE n)) norm limit (bitB v 7) (bitB v 20) (s.noiseSums n) w
    let s1 := s0.halfCount n h r.2.2
    match r.1 with
    | some fr => s1.decodeResult n k newPath fl { result := .good fr, flagged := fl, counted := false, half := h }
    | none => s1.decodeResult n k newPath fl { result := .failed, flagged := fl, counted := false, crc := r.2.1, half := h }

/-! ### Hand-off in received order (R156, R159, R210-R217, R269) -/

/-- A failed frame reaches the retransmission engine (R214, R216, R217, R270). -/
def State.handFailed (s : State) (n : Fin 8) (d : RxDone) : State :=
  if s.linkUp n then
    let s1 := if s.twinned n then (s.memberGap n).lpiTrigger n else s.setGap n true
    let s2 := s1.modPort n fun p => { p with rtx := { p.rtx with goods := 0 } }
    if d.counted || s.dual n then s2 else s2.blackoutCount n
  else s.modPort n fun p => { p with fr := { p.fr with lockCount := 0 } }

/-- What the fields of a good frame received in FRAME_SYNC do (R139, R141, R171). Nothing that this end has sent is
outstanding: ACK = 0 and NAK ask for nothing; another ACK is outside the window, but for a member of an active pair, whose
partner may be in UP already (log entry 88). -/
def State.syncFields (s : State) (n : Fin 8) (i : Nat) (f : Frame) : State :=
  let s1 := if f.ack = 0 then s else if s.twinned n then s.ackRelease n f.ack else s.count (F.RTX_RX_CNT.ACK_BAD n)
  let s2 := s1.rxLadder n i (i - s.port[n].fr.rxStart) f
  if f.typ = 3 ∨ (f.typ = typSKIP ∧ !s.twinned n) then s2.count (F.FIELD_ERR.TYPE_BAD n) else s2

/-- A good frame `i` in FRAME_SYNC: frame lock, and completion (R159). -/
def State.handSync (s : State) (n : Fin 8) (i : Nat) (f : Frame) : State :=
  let c := s.port[n].fr.lockCount + 1
  let s1 := (s.wrB (F.FRM_STATUS.LOCK_PARTNER n) f.lock).modPort n fun p => { p with fr := { p.fr with lockCount := min 8 c } }
  let s2 := (if 8 ≤ c then s1.wrB (F.FRM_STATUS.LOCK_RX n) true else s1).syncFields n i f
  if s2.on (F.FRM_STATUS.LOCK_RX n) && f.lock then
    (s2.enterUp n (s.port[n].neg.advEee && s.port[n].neg.partnerEee)).syncHalves n
  else s2

/-- A good frame `i` in UP or HOLD (R139, R210-R217, R266, R269, R270). -/
def State.handGood (s : State) (n : Fin 8) (i : Nat) (d : RxDone) (f : Frame) (bad : List Nat) : State :=
  let s1 := (s.wrB (F.FRM_STATUS.LOCK_PARTNER n) f.lock).modPort n fun p => { p with rtx := { p.rtx with
    fails := 0, goods := if d.flagged then p.rtx.goods else p.rtx.goods + 1 } }
  let ok := s1.ackOk n f.ack
  let s2 := s1.ackRelease n f.ack
  let s3 := if f.nak && ok then s2.nakReplay n f.ack else s2
  let s4 := s3.rxLadder n i (i - s.port[n].fr.rxStart) f
  let s5 := if s.twinned n then
      ((((s4.rxMember n f bad).gapClear n).joinEval n).joinEval (otherOf n)).emAdvanced (pairOf n) (s4.em (pairOf n))
    else s4.rxOwn n f
  (if s.twinned n then s5 else s5.syncRtx n).holdExitCheck n

/-- The next frame in received order is handed off (R156, R214). -/
def State.frameHandoff (s : State) (n : Fin 8) (bad : List Nat) : State :=
  let fr := s.port[n].fr
  match spFind fr.done fr.rxIdx with
  | none => s
  | some d =>
    let s1 := s.modPort n fun p => { p with
      fr := { p.fr with done := spDel p.fr.done fr.rxIdx, rxIdx := fr.rxIdx + 1, rxScr := scrAdvance 3456 fr.rxScr },
      lad := { p.lad with sinceUp := p.lad.sinceUp.map (· + 1) } }
    match d.result with
    | .failed => ((s1.handFailed n d).iff (s.twinned n) fun s => s.syncTwin (pairOf n)).syncRtx n
    | .good f => if s.linkUp n then s1.handGood n fr.rxIdx d f bad else s1.handSync n fr.rxIdx f

/-- Half `h` fails while it holds frame `k`, if any (R155, R162, R163): with both halves in service its path in dual tracking is
that of R183, else the one given. -/
def State.halfFail (s : State) (n : Fin 8) (h : Nat) (k : Option Nat) (newPath flagged : Bool) : State :=
  let path := if s.halvesUp n = 2 then h == 1 else newPath
  let s1 := (s.wrB (if h = 0 then F.FRM_STATUS.HALF0_FAIL n else F.FRM_STATUS.HALF1_FAIL n) true).syncHalves n
  match k with
  | none => s1
  | some k => s1.iff (s.rxRuns n) fun s =>
      s.decodeResult n k (s.onPath n k && path) flagged { result := .failed, flagged := flagged, counted := false, half := h }

/-- PD_Pn_LDPCh comes ON: its half has not failed since (R162). -/
def State.halfOn (s : State) (n : Fin 8) (h : Nat) : State :=
  (s.wrB (if h = 0 then F.FRM_STATUS.HALF0_FAIL n else F.FRM_STATUS.HALF1_FAIL n) false).syncHalves n

end Sys2Proof.Machine
end

