-- ==== Sys2Proof/Machine/KeepOps.lean ====
section
/-! DEFINITION. The Keep: images, start-up, commands, zeroisation, the boot lock (20_keep_startup.md). -/

namespace Sys2Proof.Machine

/-- PD_KEEP is ON and the device is out of reset. -/
def State.keepOn (s : State) : Bool := s.domOn 130 && !s.pwc.porst && !s.pwc.aonLow

/-! ### Registers (R716-R720) -/

/-- What KEP_STATUS, KEP_LOCK and KEP_DEVID show of the fuses and the Keep's own state. -/
def State.syncKeep (s : State) : State :=
  if s.domOn 130 then
    let k := s.kepStore
    let slots := (List.range 8).foldl (fun a i => a + b2n (k.keys.getD i none).isSome * 2 ^ i) 0
    ((((((((s.wr F.KEP_STATUS.LIFECYCLE k.lifecycle).wrB F.KEP_STATUS.DBG_OPEN s.kep.dbg).wrB F.KEP_STATUS.LOCKED s.kep.locked).wr
      F.KEP_STATUS.KEY_SLOTS slots).wr F.KEP_STATUS.SVN k.svn).wrB F.KEP_STATUS.DEV_KEY k.devKey.isSome).wrB
      F.KEP_LOCK.LOCK s.kep.locked).wr F.KEP_DEVID_LO.DEVID_LO s.devId).wr F.KEP_DEVID_HI.DEVID_HI (s.devId / 2 ^ 32)
  else s

/-- Change the Keep's own state. -/
def State.modKep (s : State) (f : Keep → Keep) : State := { s with kep := f s.kep }

/-- Argument word `w` of the running command, as KEP_ARG held it when the command was issued. -/
def State.argWord (s : State) (w : Nat) : Nat := s.kep.arg.getD w 0
/-- The bytes of `k` argument words from word `w` on. -/
def State.argBytes (s : State) (w k : Nat) : List Nat := (List.range k).flatMap fun i => natsLE 4 (s.argWord (w + i))

/-- Write bytes to the argument words from word `w` on. -/
def State.putArgs (s : State) (w : Nat) (bs : List Nat) : State :=
  (List.range (bs.length / 4)).foldl (fun (s : State) i => s.wr (F.KEP_ARG.WORD (w + i)) (natOfLE ((bs.drop (4 * i)).take 4))) s

/-- The lifecycle states (R700, R716). -/
abbrev lcENG : Nat := 0
abbrev lcBLANK : Nat := 1
abbrev lcSECURE : Nat := 2

/-! ### Images (R705) -/

/-- Codes of R705 and R716. -/
abbrev imOK : Nat := 0
abbrev imBAD_HDR : Nat := 1
abbrev imROOT : Nat := 2
abbrev imSIG : Nat := 3
abbrev imHASH : Nat := 4
abbrev imROLLBACK : Nat := 5
abbrev imWAIT_HOST : Nat := 0xE
abbrev imWAIT_PROVISION : Nat := 0xF

/-- A number in bytes of a header, lowest first. -/
def hdrNat (h : List Nat) (o k : Nat) : Nat := natOfLE ((h.drop o).take k)

/-- ECDSA over SHA-256 of a message, public key and signature as 64 bytes each (R705, R711). -/
def sigOk (pub sig msg : List Nat) : Bool :=
  ecdsaOk (hdrNat pub 0 32, hdrNat pub 32 32) (sha256 msg) (hdrNat sig 0 32) (hdrNat sig 32 32)

/-- The checks of R705 in order. -/
def State.imgCheck (s : State) (h payload : List Nat) (kind : Nat) : Nat :=
  if hdrNat h 0 4 ≠ 0x3146584B ∨ h.getD 5 0 ≠ 1 ∨ hdrNat h 6 2 ≠ 0x200 ∨ hdrNat h 0x18 4 < hdrNat h 0x1C 4 ∨ h.getD 4 0 ≠ kind then
    imBAD_HDR
  else if sha256 ((h.drop 0x40).take 64) ≠ s.kepStore.rootHash then imROOT
  else if !sigOk ((h.drop 0x40).take 64) ((h.drop 0xA0).take 64) (h.take 0xA0) then imSIG
  else if sha256 payload ≠ (h.drop 0x80).take 32 then imHASH
  else if hdrNat h 0x10 2 < s.kepStore.svn then imROLLBACK
  else imOK

/-- Read bytes for the Keep at a physical address. -/
def State.keepRead (s : State) (a len : Nat) : List Nat × State :=
  let r := s.memRead 0 16 a len
  (r.1.map BitVec.toNat, r.2.2)

/-- Read an image at a physical address: header and payload. -/
def State.readImage (s : State) (a : Nat) : List Nat × List Nat × State :=
  let h := s.keepRead a 0x200
  let p := h.2.keepRead (a + 0x200) (hdrNat h.1 0x18 4)
  (h.1, p.1, p.2)

/-! ### Zeroisation (R712) -/

/-- Steps 2 to 4: every copy of the secrets is erased, and the marker. -/
def State.zeroise (s : State) : State :=
  let s1 := { s with kepStore := { s.kepStore with devKey := none, keys := List.replicate 8 none, marker := false } }
  (List.finRange 2).foldl (fun (s : State) b => if s.domOn (125 + b.val) then s.keysLoad b else s) s1

/-! ### Start-up (R704, R706, R708, R710) -/

/-- Step 1: fuses are read, an interrupted zeroisation completes, FC is reserved (R708). -/
def State.keepStart (s : State) : State :=
  let s1 := if s.kepStore.marker then s.zeroise else s
  let s2 := { (s1.setFc s1.kepStore.fcRsv) with
    kepStore := { s1.kepStore with fcRsv := (s1.kepStore.fcRsv + 2 ^ 32) % 2 ^ 48 } }
  (s2.modKep fun k => { k with step := 1, cmd := none, nonce := none, runTb := none }).syncKeep

/-- Step 2 goes on as the crystals settle and PLL_ROOT locks (R708); step 1 is made by then. -/
def State.keepWatch (s : State) : State :=
  let settled (x : Fin 2) : Bool := s.xt x == xtREADY || s.xt x == xtFAILED
  if !s.keepOn then s
  else if s.kep.step ≤ 1 ∧ settled 0 ∧ settled 1 then
    let s1 := if s.kep.step = 0 then s.keepStart else s
    if s.xt 0 = xtFAILED ∧ s.xt 1 = xtFAILED then (s1.modKep fun k => { k with step := 3 }).wrB F.KEP_STATUS.XTAL_FB true
    else (s1.refSwitch (decide (s.xt 0 = xtFAILED))).modKep fun k => { k with step := 2 }
  else if s.kep.step = 2 then
    if s.on F.CKC_SW_STATUS.SRC_CUR then s.modKep fun k => { k with step := 3 }
    else if s.on (F.CKC_PLL_STATUS.LOCK 0) && s.ckc.sw.isNone then s.switchStart true false false
    else s
  else s

/-- The digest of R710: Lantern IMEM and TCM. -/
def State.lanternDigest (s : State) : List Nat :=
  sha256 (((s.core[lantern].imem.readN 0 0x20000) ++ (s.core[lantern].tcm.readN 0 0x20000)).map BitVec.toNat)

/-- Step 4: the Lantern runs from an entry (R708). -/
def State.lanternRun (s : State) (src result entry svn : Nat) : State :=
  let s1 := ((s.wr (F.RESET_PC.RESET_PC 10) (entry / 4)).coreStart lantern).wr F.KEP_STATUS.BOOT_SRC src
  let s2 := s1.wr F.KEP_STATUS.BOOT_RESULT result
  s2.modKep fun k => { k with
    step := 4, digest := some s2.lanternDigest, entry := entry, imgSvn := svn, runTb := some s.tb, warm := false }

/-- A checked image is placed: its IMEM part, and the rest at LOAD (R708 step 3). -/
def State.lanternLoad (s : State) (h payload : List Nat) (src result : Nat) : State :=
  let n := min 0x20000 (hdrNat h 0x1C 4)
  let bs : List Byte := payload.map (BitVec.ofNat 8)
  let s1 := s.modCore lantern fun k => { k with imem := k.imem.writeL 0 (bs.take n), flaws := [] }
  let s2 := (s1.memWrite 0 16 (hdrNat h 0x20 8 % 2 ^ 40) (bs.drop n)).2
  s2.lanternRun src result (hdrNat h 0x28 4) (hdrNat h 0x10 2)

/-- Try the image at an address: placed and run where R700 and R705 let it (R706). -/
def State.tryImage (s : State) (a src : Nat) : Option State × State :=
  let i := s.readImage a
  let code := i.2.2.imgCheck i.1 i.2.1 1
  if code = imOK ∨ s.kepStore.lifecycle = lcENG then (some (i.2.2.lanternLoad i.1 i.2.1 src code), i.2.2)
  else (none, i.2.2.wr F.KEP_STATUS.BOOT_RESULT code)

/-- The boot ROM seeks a Lantern image (R700, R706, R710). -/
def State.imageSearch (s : State) : State :=
  if s.kepStore.lifecycle = lcBLANK then (s.wr F.KEP_STATUS.BOOT_RESULT imWAIT_PROVISION).modKep fun k => { k with step := 5 }
  else if s.kep.warm && s.kep.digest == some s.lanternDigest then
    (s.wrB F.KEP_STATUS.WARM true).lanternRun 4 imOK s.kep.entry s.kep.imgSvn
  else
    let a := s.tryImage 0x0020000000 1
    match a.1 with
    | some t => t
    | none =>
      let b := a.2.tryImage (0x0020000000 + 0x4000000) 2
      match b.1 with
      | some t => t
      | none => (b.2.wr F.KEP_STATUS.BOOT_RESULT imWAIT_HOST).modKep fun k => { k with step := 5 }

/-- The boot lock is set (R709). -/
def State.bootLock (s : State) : State := (s.modKep fun k => { k with locked := true, runTb := none }).syncKeep

/-! ### Commands (R703, R704, R707, R711-R717) -/

/-- RESULT codes (R717). -/
abbrev krDONE : Nat := 1
abbrev krREFUSED : Nat := 2
abbrev krDENIED : Nat := 3
abbrev krFUSE_FAIL : Nat := 4

/-- No key is accepted: debug access is open on a SECURE part (R713). -/
def State.noKeys (s : State) : Bool := s.kep.dbg && s.kepStore.lifecycle == lcSECURE

/-- A command of an identity is refused (R703, R707, R709, R711, R713, R714). -/
def State.keepRefuses (s : State) (code who : Nat) : Bool :=
  match code with
  | 1 => who != 0x10 || s.kepStore.lifecycle != lcBLANK || s.kep.locked
  | 2 => s.rd F.KEP_STATUS.BOOT_RESULT != imWAIT_HOST || s.kep.step != 5
  | 3 => false
  | 4 =>
    let v := s.rd (F.KEP_ARG.WORD 0)
    who != 1 || decide (v < s.kepStore.svn) || decide (64 < v) || decide (s.kep.imgSvn < v)
  | 5 => who != 1
  | 6 => !(who == 1 || (who == 0x10 && !s.kep.locked)) || s.noKeys
  | 7 => !(who == 1 || who == 0x10) || s.kep.locked || s.noKeys
  | 8 => !(who == 1 || who == 0x10 || who == 0x13)
  | 9 => false
  | 10 => s.kepStore.lifecycle == lcENG
  | _ => true

/-- KEP_CMD written with GO = 1 (R715, R717). -/
def State.keepGo (s : State) (code who : Nat) : State :=
  let s1 := s.wr F.KEP_CMD.CMD code
  if s.on F.KEP_CMD.BUSY || s.keepRefuses code who then s1.wr F.KEP_CMD.RESULT krREFUSED
  else (s1.wrB F.KEP_CMD.BUSY true).modKep fun k => { k with
    cmd := some (code, who), arg := (List.range 32).map fun w => s.rd (F.KEP_ARG.WORD w) }

/-- A command ends with a result. -/
def State.keepEnd (s : State) (r : Nat) : State :=
  (((s.wrB F.KEP_CMD.BUSY false).wr F.KEP_CMD.RESULT r).modKep fun k => { k with cmd := none, arg := [] }).syncKeep

/-- PROVISION: the fuses as blown; whether they read back (R703). -/
def State.provision (s : State) (ok : Bool) : Bool × State :=
  if ok && !s.kepStore.fuseBad then
    (true, { s with kepStore := { s.kepStore with rootHash := s.argBytes 0 8, lifecycle := lcSECURE } })
  else
    let d := s.drawFree 256
    (false, { d.2 with kepStore := { d.2.kepStore with rootHash := natsLE 32 d.1, fuseBad := true } })

/-- BOOT_HOST: the image in shared SRAM (R706). -/
def State.bootHost (s : State) : State :=
  let r := s.tryImage 0x0010000000 3
  match r.1 with
  | some t => t
  | none => r.2.wr F.KEP_STATUS.BOOT_RESULT imWAIT_HOST

/-- VERIFY (R707). -/
def State.verify (s : State) : State :=
  let i := s.readImage (s.argWord 0 + 2 ^ 32 * s.argWord 1)
  i.2.2.wr F.KEP_CMD.RESULT_CODE (i.2.2.imgCheck i.1 i.2.1 (s.argWord 2))

/-- KEY_LOAD (R702, R714, R720). -/
def State.keyLoad (s : State) : State :=
  let i := s.argWord 4 % 8
  let s1 := { s with kepStore := { s.kepStore with keys := s.kepStore.keys.set i (some (s.argBytes 0 4)) } }
  let s2 := (List.range 32).foldl (fun (s : State) w => s.wr (F.KEP_ARG.WORD w) 0) s1
  (List.finRange 2).foldl (fun (s : State) b => if s.domOn (125 + b.val) then s.keysLoad b else s) s2

/-- DEV_KEY_GEN (R714): the private key is a free value. -/
def State.devKeyGen (s : State) : State :=
  let d := s.drawFree 256
  let k := d.1 % (n256 - 1) + 1
  let s1 := { d.2 with kepStore := { d.2.kepStore with devKey := some k } }
  match ecMul 256 k (some g256) with
  | some (x, y) => s1.putArgs 0 (natsLE 32 x ++ natsLE 32 y)
  | none => s1

/-- DBG_NONCE (R711): a free value. -/
def State.dbgNonce (s : State) : State :=
  let d := s.drawFree 128
  (d.2.putArgs 0 (natsLE 16 d.1)).modKep fun k => { k with nonce := some d.1 }

/-- Both checks of DBG_OPEN pass (R711). -/
def State.dbgGood (s : State) : Bool :=
  let pub := s.argBytes 0 16
  match s.kep.nonce with
  | some v => sha256 pub == s.kepStore.rootHash &&
      sigOk pub (s.argBytes 16 16) ([0x4B, 0x58, 0x44, 0x42, 0x47] ++ natsLE 8 s.devId ++ natsLE 16 v)
  | none => false

/-- DBG_OPEN (R711, R712): `ok` says that the erased keys read back as zeros. -/
def State.dbgOpen (s : State) (ok : Bool) : State :=
  let s1 := s.modKep fun k => { k with nonce := none }
  if !s.dbgGood then s1.keepEnd krDENIED
  else if ok then (s1.zeroise.modKep fun k => { k with dbg := true }).keepEnd krDONE
  else ({ s1.zeroise with kepStore := { s1.zeroise.kepStore with marker := true } }.rise 0x260 [s1.rd F.KEP_STATUS.BOOT_RESULT]).keepEnd
    krFUSE_FAIL

/-- The work of the running command ends (R717); PROVISION that succeeds asks for a chip reset besides. `ok` says that the
fuses or the MTP read back as written. -/
def State.keepWork (s : State) (code : Nat) (ok : Bool) : State :=
  match code with
  | 1 => let r := s.provision ok; r.2.keepEnd (if r.1 then krDONE else krFUSE_FAIL)
  | 2 => s.bootHost.keepEnd krDONE
  | 3 => s.verify.keepEnd krDONE
  | 4 =>
    if ok then ({ s with kepStore := { s.kepStore with svn := s.argWord 0 } }).keepEnd krDONE
    else s.keepEnd krFUSE_FAIL
  | 5 => ({ s with kepStore := { s.kepStore with fcRsv := (s.fc + 2 ^ 32) % 2 ^ 48 } }).keepEnd krDONE
  | 6 => s.keyLoad.keepEnd krDONE
  | 7 => s.devKeyGen.keepEnd krDONE
  | 8 => s.dbgNonce.keepEnd krDONE
  | 9 => s.dbgOpen ok
  | 10 => (s.modKep fun k => { k with dbg := false }).keepEnd krDONE
  | _ => s.keepEnd krREFUSED

/-- Fuses and MTP where power goes while a command writes: of the two copies of an MTP item one is good, with the old value or
the new (R701); of the SVN fuses some are blown; zeroisation has set its marker or has not begun (R712). How far the write
came is a free value (log entry 103). -/
def State.keepCut (s : State) : State :=
  let d := s.drawFree 8
  let keeps (u : State) : State := if bitB d.1 0 then { u with kepStore := s.kepStore } else u
  match s.kep.cmd with
  | some (1, _) => keeps (d.2.provision false).2
  | some (4, _) => { d.2 with kepStore := { s.kepStore with svn := s.kepStore.svn + d.1 % (s.argWord 0 - s.kepStore.svn + 1) } }
  | some (9, _) => { d.2 with kepStore := { s.kepStore with marker := s.kepStore.marker || (s.dbgGood && bitB d.1 0) } }
  | some (code, _) => if code ∈ [5, 6, 7] then keeps (d.2.keepWork code true) else s
  | none => s

end Sys2Proof.Machine
end

