-- ==== Sys2Proof/Machine/LaneOps.lean ====
section
/-! DEFINITION. The host lane at work: loopbacks, failover, egress toward the host (08_twin_paths.md R257,
11_host_lanes.md R382-R393). -/

namespace Sys2Proof.Machine

/-! ### Status and failover (R257, R391, R393) -/

/-- The word of HL_STATUS (R398). -/
def State.laneWord (s : State) (n : Fin 8) : Nat :=
  s.word [F.HL_STATUS.PROTO_CUR n, F.HL_STATUS.FEC_ACT n, F.HL_STATUS.LOS n, F.HL_STATUS.LOL n, F.HL_STATUS.BLOCK_LOCK n,
    F.HL_STATUS.HI_BER n, F.HL_STATUS.FEC_ALIGN n, F.HL_STATUS.TX_EI n, F.HL_STATUS.EI_CAUSE n, F.HL_STATUS.LB_CUR n,
    F.HL_STATUS.LB_RESULT n, F.HL_STATUS.PRBS_LOCK n, F.HL_STATUS.EYE_W n]

/-- Blocks held in a failed lane's FIFOs are lost (R257): an Ethernet frame cut toward the host or the line ends. -/
def State.laneFifoLost (s : State) (o : Fin 12) : State :=
  s.modSide o fun h => { h with
    egress := [], egFrame := false, egError := h.egError || h.egFrame, backoff := false, pauseOut := [],
    ingress := if h.inFrame && !h.dropping then h.ingress ++ [errorBlk] else h.ingress, dropping := h.inFrame }

/-- A test on a lane ends (R393). -/
def State.testEnd (s : State) (n : Fin 8) : State :=
  (((s.lbAbort n).wrB (F.HL_PRBS_CTRL.GEN_EN n) false).wrB (F.HL_PRBS_CTRL.CHK_EN n) false).wrB (F.HL_STATUS.PRBS_LOCK n) false

/-- LOS, LOL or a class U or F source of lane `n`: the pair moves to the secondary's lane where it is the primary's and
LANE_FO = 1 (R257). -/
def State.laneFailover (s : State) (n : Fin 8) : State :=
  let k := pairOf n
  let o := ownTwin k
  let other := otherOf n
  if s.twActive k && s.on (F.TW_CTRL.LANE_FO k) && !s.on (F.TW_STATUS.LANE k) && memberOf n == s.twin[k].primary then
    let s1 := ((s.laneFifoLost o).wrB (F.TW_STATUS.LANE k) true).wrB (F.TW_EVENT.LANE_FO k) true
    let s2 := if s1.hlOn other then s1.testEnd other else s1
    (((s2.deliverHeld k [] 512).emAdvanced k (s2.em k)).syncLane n).syncLane other
  else s

/-- EYE_W takes a value, and QF_EYE with it while PD_MON is ON (R392, R640). -/
def State.setEye (s : State) (n : Fin 8) (v : Nat) : State :=
  (s.wr (F.HL_STATUS.EYE_W n) v).iff (s.domOn 131) fun s =>
    (s.wr (F.QF_EYE.EYE_CUR n) v).wr (F.QF_EYE.EYE_MIN n) (min v (s.rd (F.QF_EYE.EYE_MIN n)))

/-- SIGNAL_OK where LOS and LOL are clear with block lock held (R409). -/
def State.signalOk (s : State) (n : Fin 8) : State :=
  if !s.on (F.HL_STATUS.LOS n) && !s.on (F.HL_STATUS.LOL n) && s.on (F.HL_STATUS.BLOCK_LOCK n) then
    s.wrB (F.HL_EVENT.SIGNAL_OK n) true
  else s

/-! ### Loopbacks (R389) -/

/-- A loopback mode is accepted (R389). -/
def State.lbOk (s : State) (n : Fin 8) (mode : Nat) : Bool :=
  mode < 3 || (mode == 3 && s.linkUp n && !s.twinned n)

/-- LB_MODE as written acts (R389). -/
def State.lbGo (s : State) (n : Fin 8) : State :=
  let mode := s.rd (F.HL_CTRL.LB_MODE n)
  if s.lbOk n mode then
    let s1 := if s.rd (F.HL_STATUS.LB_CUR n) = mode then s else ((s.lbCut n).wr (F.HL_STATUS.LB_CUR n) mode).syncLane n
    s1.lbResult n 1
  else s.lbResult n 2

/-! ### PRBS (R390) -/

/-- The exponents of the polynomial that POLY selects: the degree, and the inner term (R390). -/
def prbsPoly (poly : Nat) : Nat × Nat :=
  match poly with
  | 0 => (7, 6)
  | 1 => (9, 5)
  | 2 => (15, 14)
  | 3 => (23, 18)
  | _ => (31, 28)

/-- The next `k` bits of a generator, inverted with `inv`, and its register (R390). -/
def prbsBits (poly : Nat) (inv : Bool) : Nat → Nat → List Bool × Nat
  | 0, r => ([], r)
  | k + 1, r =>
    let d := prbsPoly poly
    let b := bitB r (d.1 - 1) != bitB r (d.2 - 1)
    let t := prbsBits poly inv k ((2 * r + b2n b) % 2 ^ d.1)
    ((b != inv) :: t.1, t.2)

/-- The generator starts from a register that is not zero, and that the spec does not give (R390; log entry 1). -/
def State.prbsStart (s : State) (n : Fin 8) : State :=
  let d := (prbsPoly (s.rd (F.HL_PRBS_CTRL.GEN_POLY n))).1
  let r := s.drawFree 31
  r.2.modLane n fun l => { l with prbs := 1 + r.1 % (2 ^ d - 1) }

/-- One block time of the generator: 66 bits, or eight code groups of ten (R390). -/
def State.prbsSend (s : State) (n : Fin 8) : State :=
  let k := if s.rd (F.HL_STATUS.PROTO_CUR n) = 3 then 80 else 66
  let r := prbsBits (s.rd (F.HL_PRBS_CTRL.GEN_POLY n)) (s.on (F.HL_PRBS_CTRL.GEN_INV n)) k s.lane[n].prbs
  s.modLane n fun l => { l with prbs := r.2, prbsOut := r.1, out := none }

/-! ### PAUSE (R384) -/

/-- The 60 bytes of a PAUSE frame before its FCS (R384). -/
def pauseBytes (saLo saHi q : Nat) : List Byte :=
  [0x01, 0x80, 0xC2, 0x00, 0x00, 0x01] ++ bytesLE 4 saLo ++ bytesLE 2 saHi ++ [0x88, 0x08, 0x00, 0x01] ++
    [BitVec.ofNat 8 (q / 256), BitVec.ofNat 8 q] ++ List.replicate 42 0

/-- Data blocks of bytes, eight to a block. -/
def dataBlks : Nat → List Byte → List Blk
  | 0, _ => []
  | k + 1, bs => ⟨false, natLE (bs.take 8)⟩ :: dataBlks k (bs.drop 8)

/-- The blocks of a PAUSE frame: start block with preamble, eight data blocks, terminate block (R384). -/
def pauseBlks (saLo saHi q : Nat) : List Blk :=
  let b := pauseBytes saLo saHi q
  ⟨true, natLE [0x78, 0x55, 0x55, 0x55, 0x55, 0x55, 0x55, 0xD5]⟩ :: dataBlks 8 (b ++ bytesLE 4 (byteCrc b)) ++ [⟨true, 0x87⟩]

/-! ### Egress (R382, R386, R387, R389) -/

/-- The FIFO may release the start block at its head (R382). -/
def mayRelease (cut : Nat) (fifo : List Blk) : Bool :=
  let r := frameHeld true fifo 0
  r.2 || (decide (0 < cut) && decide (8 * cut ≤ r.1)) || decide (fifoCap - fifo.length < 52)

/-- An Idle block at the head that is to be deleted (R381, R382). -/
def egDeletes (prevTerm : Bool) : List Blk → Bool
  | b :: c :: _ => b.isIdle && !(prevTerm && c.isStart)
  | _ => false

/-- Delete the deletable Idle blocks at the head of the egress FIFO: what stays, how many went. -/
def egTrim (prevTerm : Bool) : List Blk → List Blk × Nat
  | [] => ([], 0)
  | b :: bs =>
    if egDeletes prevTerm (b :: bs) then
      let r := egTrim prevTerm bs
      (r.1, r.2 + 1)
    else (b :: bs, 0)

/-- What the lane sends while the port is down (R386), or beside a far-end loopback (R389). -/
def downBlk (downTx : Nat) (baseX : Bool) : Option Blk :=
  if downTx = 2 then some idleBlk
  else if downTx = 1 || baseX then none
  else some localFaultBlk

/-- The lane sends `b`, or is electrically idle. -/
def State.laneOut (s : State) (n : Fin 8) (b : Option Blk) : State := s.modLane n fun l => { l with out := b }

/-- The next block of the egress stream between or inside Ethernet frames: the block, the state without it (R382). The
block is none where nothing can be taken. -/
def State.egressNext (s : State) (n : Fin 8) (o : Fin 12) : Option Blk × State :=
  let h := s.side[o]
  if h.egFrame then
    match h.egress with
    | b :: bs => (some b, s.modSide o fun h => { h with egress := bs, egFrame := !b.endsFrame bs.head? true })
    | [] => (some errorBlk, (s.count (F.HL_CNT_EG.EG_UNDERRUN n)).wrB (F.HL_EVENT.UNDERRUN n) true)
  else
    let prevTerm := match s.lane[n].out with | some b => b.isTerm | none => false
    let t := egTrim prevTerm h.egress
    let s1 := (s.modSide o fun h => { h with egress := t.1 }).count (F.HL_CNT_RM.IDLE_DEL n) t.2
    match t.1 with
    | [] => (none, s1)
    | b :: bs =>
      if b.isStart then
        if mayRelease (s.rd (F.HL_CTRL.EG_CUT n)) t.1 then
          (some b, s1.modSide o fun h => { h with egress := bs, egFrame := true })
        else (none, s1)
      else (some b, s1.modSide o fun h => { h with egress := bs })

/-- Idle, or LPI while the line's receive direction is QUIET (R38, R362, R382, R387). -/
def State.laneFill (s : State) (n : Fin 8) : State :=
  if s.lane[n].lpiTx then s.laneOut n (if s.lane[n].lpiEi then none else some lpiBlk)
  else (s.laneOut n (some idleBlk)).count (F.HL_CNT_RM.IDLE_INS n)

/-- A PAUSE frame or its next block, where one is due between Ethernet frames (R384). -/
def State.pauseNext (s : State) (n : Fin 8) (o : Fin 12) : Option (Blk × State) :=
  let h := s.side[o]
  match h.pauseOut with
  | b :: bs => some (b, s.modSide o fun h => { h with pauseOut := bs })
  | [] =>
    match h.pause with
    | some q =>
      match pauseBlks (s.rd (F.HL_PAUSE_SA_LO.SA_LO n)) (s.rd (F.HL_PAUSE_SA_HI.SA_HI n)) q with
      | b :: bs => some (b, (s.modSide o fun h => { h with pause := none, pauseOut := bs, pauseTb := s.tb }).count
          (F.HL_CNT_PAUSE.PAUSE_TX n))
      | [] => none
    | none => none

/-- The lane leaves electrical idle in low-power idle, for a PAUSE frame or what else it has to send (R387, R393). -/
def State.laneExit (s : State) (n : Fin 8) : State :=
  s.iff s.lane[n].lpiEi fun s => (s.modLane n fun l => { l with lpiEi := false }).syncLane n

/-- One block time of a lane toward the host with no test on it (R382-R387). -/
def State.laneSend (s : State) (n : Fin 8) (o : Fin 12) : State :=
  let h := s.side[o]
  if h.egError then (s.laneOut n (some errorBlk)).modSide o fun h => { h with egError := false }
  else if !s.ownerUp o then
    s.laneOut n (downBlk (s.rd (F.HL_CTRL.DOWN_TX n)) (s.rd (F.HL_STATUS.PROTO_CUR n) == 3))
  else
    match (if h.egFrame then none else s.pauseNext n o) with
    | some r => (r.2.laneExit n).laneOut n (some r.1)
    | none =>
      let r := s.egressNext n o
      match r.1 with
      | some b => (r.2.laneExit n).laneOut n (some b)
      | none => r.2.laneFill n

/-- Room may have come: waiting merge slots of the pair are delivered, those in `bad` uncorrectable (R268, R383). -/
def State.egressDrained (s : State) (o : Fin 12) (bad : List Nat) : State :=
  if o.val < 8 then s
  else if s.side[o].backoff then
    (s.deliverHeld (pairOfOwner o) bad 512).emAdvanced (pairOfOwner o) (s.em (pairOfOwner o))
  else s

end Sys2Proof.Machine
end

