-- ==== Sys2Proof/Machine/PowerOps.lean ====
section
/-! DEFINITION. The power controller: domains, requests, modes, wakes, supplies (17_power.md). -/

namespace Sys2Proof.Machine

/-! ### What a domain takes with it, and brings back (R605, R608, R612) -/

/-- An FLR of PFx (15_host_access_mailboxes.md R546): its requests still in the fabric go without completion. -/
def State.flr (s : State) (f : Fin 2) : State :=
  let s1 := { s with
    hif := { s.hif with
      fn := s.hif.fn.set f {},
      queue := s.hif.queue.map fun (q : Nat × List Held) => (q.1, q.2.filter fun h => h.mid != 0x10 + f.val) },
    cup := { s.cup with waiting := s.cup.waiting.filter fun u => u.mid != 0x10 + f.val } }
  s1.masterReset (0x10 + f.val)

/-- The PCIe link goes down, or a hot or fundamental reset (R546). -/
def State.pcieDown (s : State) : State :=
  let s1 := (s.flr 0).flr 1
  { s1 with hif := { s1.hif with linkUp := false } }

/-- A port in DISABLED with PORT_EN = 1 goes to SENSE (R52, third row). -/
def State.reenable (s : State) (n : Fin 8) : State :=
  if s.link n = stDISABLED ∧ s.on (F.NEG_CTRL.PORT_EN n) then s.setLink n stSENSE else s

/-- Domain `14n + k` of a port leaves ON: the link goes to DISABLED with POWER_STATE, and on to SENSE while PORT_EN = 1; a
decoder half fails, the crossbar returns to IDLE, a diagnostic run ends (R52, R91, R162, R612). Which of the domains of R606
R52 means by a port domain is the model's reading: those that the link stands on (log entry 78). -/
def State.portLose (s : State) (n : Fin 8) (k : Nat) : State :=
  let s1 := if s.on (F.DIAG_STATUS.DIAG_BUSY n) && (decide (k < 4) || k == 9) then s.diagEnd n 3 else s
  if k = 7 ∨ k = 8 then (if s1.halfChosen n (k - 7) then s1.halfFail n (k - 7) none false false else s1)
  else if k = 4 then s1.xbDrop n
  else if k = 9 then s1.disable n rPOWER_STATE
  else if (k = 0 ∨ k = 5 ∨ k = 6 ∨ k = 10 ∨ (k < 4 ∧ s1.carries n k)) ∧ s1.active n then
    (s1.disable n rPOWER_STATE).reenable n
  else s1

/-- A 64 KiB bank of IMEM or TCM is kept (R606). -/
def keepCore (sel lo : Nat) (m : Mem) : Mem := m.filter fun e => bitB sel (lo + e.1 / 0x10000)

/-- Core `i` loses its domain: what RETAIN keeps stays (R606, R607). -/
def State.coreLose (s : State) (i : Fin 11) (target : Nat) : State :=
  let sel := if target = domRETAIN then s.rd (F.PWC_DOM.RET_SEL (coreDom i)) else 0
  s.modCore i fun k =>
    { imem := keepCore sel 0 k.imem, tcm := keepCore sel 2 k.tcm,
      flaws := k.flaws.filter fun w => bitB sel (w / 0x4000), img := if sel % 4 = 3 then k.img else none }

/-- The core of a domain. -/
def domCore (d : Nat) : Option (Fin 11) := (List.finRange 11).find? fun i => coreDom i.val == d

/-- The blocks of domain `i` stop, and lose what `target` does not keep (R605-R607, R612). -/
def State.blocksStop (s : State) (i target : Nat) : State :=
  if h : i < 112 then
    let n : Fin 8 := ⟨i / 14, by omega⟩
    let s1 := s.portLose n (i % 14)
    if i % 14 = 0 then s1.pllOff ⟨4 + n.val, by omega⟩ else s1
  else if h : 112 ≤ i ∧ i < 120 then
    let n : Fin 8 := ⟨i - 112, by omega⟩
    (s.lbAbort n).dropEgress (s.ownerOf n) true
  else if h : 120 ≤ i ∧ i < 124 then
    let c : Fin 4 := ⟨i - 120, by omega⟩
    let s1 := s.chLowered c target
    if target = domOFF then s1.dropDram c else s1
  else if i = 124 then
    { s with cup := { s.cup with spt := {}, waiting := [], granted := [], winBytes := [], retireDue := [] },
             twin := Vector.replicate 4 {},
             side := Vector.ofFn fun o => if o.val < 8 then s.side[o] else {} }
  else if i = 125 then s.bfLost 0
  else if i = 126 then s.bfLost 1
  else if i = 130 then s.keepCut.modKep fun k => { k with cmd := none, nonce := none, step := 0 }
  else if i = 131 then
    let s1 := s.calAbort
    { s1 with cal := { s1.cal.cutSave with loaded := none, limit := [] } }
  else if i = 132 then s.pcieDown
  else if i = 134 then (if s.on F.CKC_SW_STATUS.SRC_CUR then s.pllLost 0 else s).pllOff 0
  else if h : 135 ≤ i ∧ i < 138 then s.pllOff ⟨i - 134, by omega⟩
  else if 138 ≤ i then
    let sel := if target = domRETAIN then s.rd (F.PWC_DOM.RET_SEL i) else 0
    { s with sram := s.sram.filter fun e => e.1 / 0x200000 != i - 138 || bitB sel (e.1 % 0x200000 / 0x40000) }
  else s

/-- Domain `i` goes to a lower state (R605, R612). -/
def State.lowerDomain (s : State) (i target : Nat) : State :=
  let s1 := if s.domOn i then s.blocksStop i target
    else if target = domOFF ∧ 120 ≤ i ∧ i < 124 then
      let c : Fin 4 := ⟨(i - 120) % 4, by omega⟩
      (s.modCh c fun h => { h with resting := false }).dropDram c
    else if target = domOFF ∧ 138 ≤ i then s.blocksStop i domOFF
    else s
  let s2 := match domCore i with | some c => s1.coreLose c target | none => s1
  ((s2.dropDomain i target).setDom i target).syncDues

/-- IN_USE and WR_DEMOTED of a port show what stands (R232, R246, R506). -/
def State.spillShown (s : State) (n : Fin 8) : State :=
  s.iff (s.domOn (14 * n.val + 10)) fun s =>
    (s.syncInUse (ownPort n)).wrB (F.SPILL_STATUS.WR_DEMOTED n) (s.on F.BWR_FLAGS.ADM_OVER)

/-- A domain that has come ON: what its logic step sets up (R162, R608, R639, R747). -/
def State.domainUp (s : State) (i : Nat) : State :=
  if h : i < 112 then
    let n : Fin 8 := ⟨i / 14, by omega⟩
    let k := i % 14
    if hk : k < 5 then
      let s1 := s.afRaised n ⟨k, hk⟩
      if k = 0 then s1.wrB (pllLock ⟨4 + n.val, by omega⟩) true else s1
    else if (k = 7 ∨ k = 8) ∧ s.pcsOn n then s.halfOn n (k - 7)
    else if k = 10 then s.spillShown n
    else s
  else if h : 112 ≤ i ∧ i < 120 then
    let n : Fin 8 := ⟨i - 112, by omega⟩
    if stTRAIN ≤ s.link n then s.protoStart n else s.syncLane n
  else if h : 120 ≤ i ∧ i < 124 then s.chRaised ⟨i - 120, by omega⟩
  else if i = 130 then s.keepStart
  else if h : 134 ≤ i ∧ i < 138 then s.wrB (pllLock ⟨i - 134, by omega⟩) true
  else match domCore i with
    | some c => (s.syncCore c).syncSqc
    | none => s

/-- Domains that automatic power-up has brought ON (R618). -/
def State.autoUps (s : State) : State :=
  s.pwc.cameOn.foldl State.domainUp { s with pwc := { s.pwc with cameOn := [] } }

/-! ### Steps (R608, R609) -/

/-- The steps of a raise from one state to another (R608). -/
def raiseSteps (i st target : Nat) : List PStep :=
  if target = domRETAIN then [.reg]
  else match domClass i with
    | .lg => [.reg, .logic]
    | .mb => if st = domRETAIN then [.mem, .logic] else [.reg, .mem, .logic]
    | .dr => if st = domRETAIN then [.osc, .mem, .logic] else [.reg, .osc, .logic]
    | .aon => []
    | _ => [.reg, .osc, .logic]

/-- Domain `i` begins to come up (R608). -/
def State.raiseStart (s : State) (i target : Nat) : State :=
  let st := s.rd (F.PWC_DOM.STATE i)
  let s1 := { s with pwc := { s.pwc with rising := s.pwc.rising ++ [({ dom := i, target := target, steps := raiseSteps i st target } : Rising)] } }
  s1.setDom i domCHANGING

/-- Domains in the order in which several go down: children before parents (R609). -/
def downOrder : List Nat :=
  ((List.range 8).flatMap fun n => [7, 8, 5, 6, 10, 4, 3, 2, 1, 0, 12, 13, 9, 11].map (14 * n + ·)) ++
    (List.range 30).map (112 + ·)

/-! ### Requests (R610-R613, R616, R624) -/

/-- INFLIGHT, QUEUED and INF_TAG follow. -/
def State.syncPwc (s : State) : State :=
  ((s.wrB F.PWC_RESULT.INFLIGHT s.pwc.inflight.isSome).wrB F.PWC_RESULT.QUEUED s.pwc.queued.isSome).wr F.PWC_RESULT.INF_TAG
    (match s.pwc.inflight with | some r => r.req.tag | none => 0)

/-- LAST_RESULT codes and refusal reasons (R611, R624). -/
abbrev pwDONE : Nat := 1
abbrev pwABORTED : Nat := 2
abbrev pwSUPERSEDED : Nat := 3
abbrev pwREFUSED : Nat := 4
abbrev pwFAILED : Nat := 5
abbrev whFIXED : Nat := 1
abbrev whNO_RETAIN : Nat := 2
abbrev whPARENT : Nat := 3
abbrev whCHILD : Nat := 4
abbrev whIN_USE : Nat := 5

/-- A request completes with a result (R610, R624, R629). -/
def State.pwcResult (s : State) (tag result why : Nat) : State :=
  let s1 := (((s.wr F.PWC_RESULT.LAST_TAG tag).wr F.PWC_RESULT.LAST_RESULT result).wr F.PWC_RESULT.WHY why).wrB
    F.PWC_EVENT.REQ_DONE true
  if result = pwABORTED then s1.wrB F.PWC_EVENT.ABORTED true
  else if result = pwSUPERSEDED then (s1.wr F.PWC_RESULT.SUP_TAG tag).wrB F.PWC_EVENT.SUPERSEDED true
  else if result = pwFAILED then s1.wrB F.PWC_EVENT.FAILED true
  else s1

/-- The request in flight completes; an automatic action that waited for it acts (R616). -/
def State.pwcEnd (s : State) (r : PwcReq) (result why : Nat) : State :=
  let s1 : State := (({ s with pwc := { s.pwc with inflight := none } } : State).pwcResult r.tag result why).syncPwc
  if h : !r.mode ∧ r.index < 112 then
    let n : Fin 8 := ⟨r.index / 14, by omega⟩
    if s1.link n = stDORMANT ∧ s1.pcsOn n = true then s1.dormantDown n else s1
  else s1

/-- The refusal reason of a domain request, if any (R611). -/
def State.pwcRefuses (s : State) (r : PwcReq) : Option Nat :=
  let i := r.index
  let low := r.target != domON
  if i = 133 ∨ (i = 130 ∧ r.who ≠ 0) ∨ (i = 127 ∧ low) then some whFIXED
  else if r.target = domRETAIN ∧ domRetBanks i = 0 then some whNO_RETAIN
  else if r.target = domON ∧ (domParents i).any (fun p => !s.domOn p) then some whPARENT
  else if low ∧ (List.range numDomains).any (fun k => decide (i ∈ domParents k) && s.domOn k) then some whCHILD
  else if low && s.rd (F.PWC_DOM.STATE i) == domON &&
      ((i == 134 && s.on F.CKC_SW_STATUS.SRC_CUR) ||
       (i == 124 && (s.on F.SPL_CFG.SPL_EN || [0, 1, 2, 3].any fun k => s.on (F.TW_CTRL.TW_EN k))) ||
       (i == 135 && [0, 1, 2, 3].any fun c => s.domOn (120 + c) &&
         (let st := s.rd (F.CH_STATUS.CH_STATE c); st == chTRAINING || st == chINIT || st == chSERVICE))) then some whIN_USE
  else none

/-- What a domain request in QUIET leaves recorded (R617). -/
def State.recordNote (s : State) (i target : Nat) : State :=
  if s.rd F.PWC_MODE.MODE = 1 then { s with pwc := { s.pwc with recorded := spPut s.pwc.recorded i target } } else s

/-- The requested state of domain `i` is `target` from now on: automatic power-up no longer touches it (R618). -/
def State.autoForget (s : State) (i target : Nat) : State :=
  if target = domON then s else { s with pwc := { s.pwc with autoOff := s.pwc.autoOff.filter (· ≠ i) } }

/-- The domains that a return from QUIET raises (R617). -/
def State.restoreList (s : State) : List (Nat × Nat) :=
  s.pwc.recorded.filter fun e => decide (s.rd (F.PWC_DOM.STATE e.1) < e.2) && decide (e.2 ≤ domON) && decide (e.1 ∉ s.pwc.autoOff)

/-- Raise every domain of a list. -/
def State.raiseAll (s : State) (l : List (Nat × Nat)) : State := l.foldl (fun (s : State) e => s.raiseStart e.1 e.2) s

/-- A request starts (R611-R613, R617). -/
def State.pwcStart (s : State) (r : PwcReq) : State :=
  let fly (s : State) (deciding : Bool) (todo : List Nat) : State :=
    ({ s with pwc := { s.pwc with inflight := some { req := r, deciding := deciding, todo := todo } } }).syncPwc
  if r.target = 3 then s.pwcEnd r pwREFUSED whFIXED
  else if r.mode then
    if r.target = 0 then
      let l := s.restoreList
      if l.isEmpty then
        ({ (s.wr F.PWC_MODE.MODE 0) with pwc := { s.pwc with recorded := [] } }).pwcEnd r pwDONE 0
      else fly (s.raiseAll l) false (l.map Prod.fst)
    else fly s true []
  else if numDomains ≤ r.index then s.pwcEnd r pwREFUSED whFIXED
  else
    let st := s.rd (F.PWC_DOM.STATE r.index)
    if st = r.target then ((s.autoForget r.index r.target).recordNote r.index r.target).pwcEnd r pwDONE 0
    else match s.pwcRefuses r with
      | some why => s.pwcEnd r pwREFUSED why
      | none =>
        let s1 := (s.autoForget r.index r.target).recordNote r.index r.target
        if r.target < st then
          if st = domON then fly (if r.index = 131 then s1.calAbort else s1) true []
          else (s1.lowerDomain r.index r.target).pwcEnd r pwDONE 0
        else fly (s1.raiseStart r.index r.target) false [r.index]

/-- PWC_REQ written with GO = 1 (R610). -/
def State.pwcWrite (s : State) (r : PwcReq) : State :=
  let s1 := (((s.wrB F.PWC_REQ.KIND r.mode).wr F.PWC_REQ.TARGET r.target).wr F.PWC_REQ.INDEX r.index).wr F.PWC_REQ.TAG r.tag
  match s1.pwc.queued with
  | some q => (({ s1 with pwc := { s1.pwc with queued := some r } }).pwcResult q.tag pwSUPERSEDED 0).syncPwc
  | none =>
    if s1.pwc.inflight.isSome then ({ s1 with pwc := { s1.pwc with queued := some r } }).syncPwc
    else s1.pwcStart r

/-- The PWC is clocked: not in DEPOT before a wake (R617). -/
def State.pwcRuns (s : State) : Bool := s.familyRuns || s.inGap

/-- The queued request starts once none is in flight (R610). -/
def State.pwcNext (s : State) : State :=
  match s.pwc.inflight, s.pwc.queued with
  | none, some r => ({ s with pwc := { s.pwc with queued := none } }).pwcStart r
  | _, _ => s

/-! ### Commits (R612, R617) -/

/-- The state that a domain takes at a mode's target: RETAIN acts as OFF where the domain has no retention (R617). -/
def modeTarget (i t : Nat) : Nat := if t = domRETAIN ∧ domRetBanks i = 0 then domOFF else t

/-- Entry to QUIET (R617, R618). Only a DEPOT request lowers PD_LNT (R611). -/
def State.quietEnter (s : State) : State :=
  let rec' : Sparse Nat := (List.range numDomains).map fun i => (i, s.rd (F.PWC_DOM.STATE i))
  let s1 := { s with pwc := { s.pwc with recorded := if s.rd F.PWC_MODE.MODE = 1 then s.pwc.recorded else rec' } }
  let s2 := downOrder.foldl (fun (s : State) i =>
    let t := modeTarget i (s.rd (F.PWC_DOM.QUIET_TGT i))
    if i ≠ 133 ∧ i ≠ 127 ∧ t < s.rd (F.PWC_DOM.STATE i) ∧ s.rd (F.PWC_DOM.STATE i) ≤ domON then
      (s.lowerDomain i t).autoForget i t
    else s) s1
  let s3 := s2.wr F.PWC_MODE.MODE 1
  (List.finRange 8).foldl (fun (s : State) n => if s.pcsOn n && s.link n == stDORMANT then s.dormantDown n else s) s3

/-- Entry to DEPOT (R617): cores halt, domains go to their targets, PLLs, crystals and the family stop. -/
def State.depotEnter (s : State) : State :=
  let s1 := (List.finRange 11).foldl (fun (s : State) i => if s.core[i].up then s.coreHalt i else s) s
  let s2 := downOrder.foldl (fun (s : State) i =>
    let st := s.rd (F.PWC_DOM.STATE i)
    let t := modeTarget i (s.rd (F.PWC_DOM.DEPOT_TGT i))
    if i = 133 ∨ domON < st ∨ domON ≤ t ∨ t = st then s
    else if t < st then s.lowerDomain i t else s.setDom i t) s1
  let s3 := (plls.foldl State.pllOff s2).fcAbort
  let s4 := ((s3.wr F.CKC_OSC_STATUS.XA_STATE xtSTARTING).wr F.CKC_OSC_STATUS.XB_STATE xtSTARTING).wr F.PWC_MODE.MODE 2
  { s4 with pwc := { s4.pwc with rising := [], waking := none, recorded := [], autoOff := [] } }

/-- The commit (R612). -/
def State.pwcCommit (s : State) (r : PwcReq) : State :=
  if r.mode then
    if r.target = 1 then s.quietEnter.pwcEnd r pwDONE 0 else s.depotEnter.pwcEnd r pwDONE 0
  else (s.lowerDomain r.index r.target).pwcEnd r pwDONE 0

/-! ### Raising (R613, R617) -/

/-- A wake is served: the mode becomes RUN (R617). -/
def State.wakeEnd (s : State) : State :=
  match s.pwc.waking with
  | none => s
  | some depot =>
    let s1 := ({ s with pwc := { s.pwc with waking := none, recorded := [] } }).wr F.PWC_MODE.MODE 0
    if depot then s1.wrB F.PWC_EVENT.WAKE_DONE true else s1

/-- The raises that ended are taken off the request and the wake (R613, R617). -/
def State.risingSettle (s : State) : State :=
  let s1 := match s.pwc.inflight with
    | some r =>
      let left := r.todo.filter fun i => s.pwc.rising.any fun x => x.dom == i
      if r.deciding ∨ !left.isEmpty then s
      else
        let s1 := if r.req.mode then (({ s with pwc := { s.pwc with recorded := [] } }).wr F.PWC_MODE.MODE 0) else s
        s1.pwcEnd r.req pwDONE 0
    | none => s
  if s1.pwc.waking.isSome ∧ s1.pwc.rising.isEmpty then s1.wakeEnd else s1

/-- A step of domain `i` signals ready (R608, R609, R613). With both crystals FAILED no port, host lane or channel comes up
(R708). -/
def State.stepReady (s : State) (i : Nat) : State :=
  match s.pwc.rising.find? fun x => x.dom == i with
  | none => s
  | some x =>
    let ready := match x.steps.head? with
      | some .osc =>
        let dead := s.xt 0 == xtFAILED && s.xt 1 == xtFAILED
        if i = 134 ∨ i = 135 ∨ domClass i = .afClock then s.refReady
        else if domClass i = .dr then s.on (F.CKC_PLL_STATUS.LOCK 1) && !dead
        else !(dead && decide (112 ≤ i ∧ i < 120))
      | _ => true
    if !ready || (domParents i).any (fun p => !s.domOn p) then s
    else
      let rest := s.pwc.rising.filter fun y => y.dom != i
      match x.steps.drop 1 with
      | [] =>
        let s1 := ({ s with pwc := { s.pwc with rising := rest } }).setDom i x.target
        (if x.target = domON then s1.domainUp i else s1).risingSettle
      | l => { s with pwc := { s.pwc with rising := rest ++ [{ x with steps := l }] } }

/-- The word of PWC_RESULT. -/
def State.pwcWord (s : State) : Nat :=
  s.word [F.PWC_RESULT.INFLIGHT, F.PWC_RESULT.QUEUED, F.PWC_RESULT.INF_TAG, F.PWC_RESULT.LAST_TAG,
    F.PWC_RESULT.LAST_RESULT, F.PWC_RESULT.WHY, F.PWC_RESULT.SUP_TAG]

/-- Domain `i` misses a ready signal (R613). -/
def State.readyTimeout (s : State) (i : Nat) : State :=
  if s.pwc.rising.any fun x => x.dom == i then
    let s1 := (({ s with pwc := { s.pwc with rising := s.pwc.rising.filter fun y => y.dom != i } }).lowerDomain i domOFF).rise 0x220
      [s.pwcWord]
    match s1.pwc.inflight with
    | some r => if i ∈ r.todo then s1.pwcEnd r.req pwFAILED 0 else s1.risingSettle
    | none => s1.risingSettle
  else s

/-! ### Wakes (R614, R615, R617) -/

/-- Parents of a list of domains, and theirs. -/
def withParents (l : List Nat) : List Nat :=
  let p := l.flatMap domParents
  l ++ (p ++ p.flatMap domParents).filter fun i => i ∉ l

/-- A wake from DEPOT (R617, R710). -/
def State.depotWake (s : State) (cause : Nat) : State :=
  let warm := s.rd (F.PWC_DOM.STATE 127) == domRETAIN && s.rd (F.PWC_DOM.RET_SEL 127) % 16 == 15
  let up := withParents ((List.range numDomains).filter fun i => s.rd (F.PWC_DOM.STATE i) == domRETAIN || domResetCode i == domON)
  let l := (up.eraseDups.filter fun i => !s.domOn i).map fun i => (i, domON)
  let s1 := ((({ s with ckc := {} }).wrB F.CKC_SW_STATUS.SRC_CUR false).wrB F.CKC_SW_STATUS.SW_BUSY false).wr
    F.PWC_MODE.WAKE_CAUSE cause
  let s2 := ({ s1 with pwc := { s1.pwc with waking := some true } }).modKep fun k => { k with warm := warm }
  let s3 := s2.raiseAll l
  if l.isEmpty then s3.wakeEnd else s3

/-- A wake from QUIET restores the recorded states (R615, R617). -/
def State.quietWake (s : State) : State :=
  let l := s.restoreList
  let s1 := ({ s with pwc := { s.pwc with waking := some false } }).raiseAll l
  if l.isEmpty then s1.wakeEnd else s1

/-- A lowering request, which a wake concerns (R612, R615). -/
def State.lowers (s : State) (r : PwcReq) : Bool :=
  if r.mode then decide (r.target = 1 ∨ r.target = 2) else decide (r.target < s.rd (F.PWC_DOM.STATE r.index))

/-- A wake meets requests (R615). -/
def State.wakeMeets (s : State) : State :=
  let s1 := match s.pwc.inflight with
    | some r => if r.deciding then s.pwcEnd r.req pwABORTED 0 else s
    | none => s
  match s1.pwc.queued with
  | some q => if s1.lowers q then (({ s1 with pwc := { s1.pwc with queued := none } }).pwcResult q.tag pwABORTED 0).syncPwc else s1
  | none => s1

/-- WAKE_N for two SOSC cycles (R614). -/
def State.wakeN (s : State) : State :=
  let s1 := s.wakeMeets
  if s1.pwc.waking.isSome then s1
  else if s1.rd F.PWC_MODE.MODE = 2 then s1.depotWake 1
  else if s1.rd F.PWC_MODE.MODE = 1 then s1.quietWake
  else s1

/-! ### Supplies and resets (R606, R607, R620) -/

/-- The supplies other than VDD_AON, in the order of R619: CORE, AFE, LD, SER, DDR I/O, IO, BF; the domains that each
feeds (R606, R607). -/
def supplyFeeds (sup i : Nat) : Bool :=
  let k := i % 14
  let port := decide (i < 112)
  match sup with
  | 0 => (port && decide (5 ≤ k)) || (decide (112 ≤ i ∧ i ≤ 132)) || decide (138 ≤ i)
  | 1 => (port && decide (k < 5)) || i == 134 || i == 135
  | 2 => port && decide (k < 5)
  | 3 => decide (112 ≤ i ∧ i < 120) || i == 132 || i == 136 || i == 137
  | 4 => decide (120 ≤ i ∧ i < 124)
  | 5 => i == 131
  | _ => i == 125 || i == 126

/-- A domain loses its supply: its core fails with POWER (R463), its channel as a lowered one (R493). -/
def State.supplyLost (s : State) (i : Nat) : State :=
  let s0 := match domCore i with
    | some c => if s.domOn i && (s.core[c].up || s.core[c].serving.isSome) then s.coreFail c fcPOWER else s
    | none => s
  if s0.rd (F.PWC_DOM.STATE i) = domOFF then s0
  else (({ s0 with pwc := { s0.pwc with
      rising := s0.pwc.rising.filter fun x => x.dom != i, autoOff := s0.pwc.autoOff.filter (· ≠ i) } }).lowerDomain i domOFF)

/-- A supply leaves tolerance (R620). -/
def State.supplyLoss (s : State) (sup : Nat) : State :=
  (downOrder.filter (supplyFeeds sup)).foldl State.supplyLost s |>.risingSettle

/-- The state at PORST_N low: only fuses, MTP and flash hold (R620, R659, R701). -/
def State.powerCycle (s : State) : State :=
  { pending := s.pending, freeCtr := s.keepCut.freeCtr, kepStore := s.keepCut.kepStore, flash := s.flash,
    cal := { mtp := s.cal.cutSave.mtp, bad := s.cal.bad } }

/-- The device leaves reset: straps are sampled, start-up begins (R31, R620, R708, R716). -/
def State.release (s : State) (dly : Nat) : State :=
  let s1 := s.wr F.IDS_STRAP.XTAL_DLY dly
  (s1.modKep fun k => { k with dbg := decide (s.kepStore.lifecycle = lcENG) }).keepStart

end Sys2Proof.Machine
end

