-- ==== Sys2Proof/Machine/FaultOps.lean ====
section
/-! DEFINITION. Reset depths, reactions, repair, the safe state, injection, the journal's mirror
(19_faults_availability.md). -/

namespace Sys2Proof.Machine

/-! ### Access to PD_AON registers -/

/-- A register of PD_AON can be written now: the family runs, the device is out of reset and not in the safe state
(R26, R586, R620, R668). -/
def State.aonWrites (s : State) : Bool := s.familyRuns && !s.on F.FLT_STATUS.SAFE

/-! ### Sources (R660-R662) -/

/-- The power domain of the checker of source `i`, which isolates its wire (R662). -/
def srcDom (i : Nat) : Nat :=
  let b := i / 16 % 16
  let k := i % 16
  let n := (srcPort i).val
  if i < 512 then
    if b < 4 then
      if k < 5 then 14 * n + k
      else if k < 7 then 14 * n + k + 2
      else match k with
        | 7 => 14 * n + 5
        | 9 | 0xA => 14 * n + 10
        | 0xC | 0xD => 14 * n + 11
        | _ => 14 * n + 9
    else if b < 8 then 112 + 4 * (i / 256) + (b - 4)
    else if b < 10 then 120 + 2 * (i / 256) + (b - 8)
    else if k = 0 then 136 + i / 256
    else 133
  else match b with
    | 1 => if k = 2 then 134 else if k = 3 then 135 else 133
    | 4 => 131
    | 5 => if k < 2 then 132 else 133
    | 6 => 130
    | 7 => 125
    | 8 => 126
    | 9 => 124
    | 0xA => if k = 0 ∨ k = 5 then 128 else if k = 1 then 129 else 133
    | 0xB => 127
    | 0xC => 138
    | _ => 133

/-- FAULT_N is low while a latched source has PIN, and in the safe state (R665). -/
def State.syncPin (s : State) : State :=
  s.wrB F.FLT_STATUS.FAULT_N_LOW (s.on F.FLT_STATUS.SAFE ||
    (List.range 768).any fun i => s.on (F.FLT_SRC_STAT.LATCHED i) && s.on (F.FLT_SRC_CFG.PIN i))

/-- LATCHED of source `i` is cleared by a write while its wire is idle (R663). -/
def State.unlatch (s : State) (i : Nat) : State :=
  match srcClass? i with
  | some kl =>
    if s.on (F.FLT_SRC_STAT.LATCHED i) && !s.on (F.FLT_SRC_STAT.ACTIVE i) then
      ((s.wrB (F.FLT_SRC_STAT.LATCHED i) false).wr (latchedCount kl) (s.rd (latchedCount kl) - 1)).syncPin
    else s
  | none => s

/-! ### Block reset (R659, R683) -/

/-- The block, by identifier bits [9:4], that holds the register at an address of the register store. The registers that
both Belfry pages show, and that lie in PD_AON (BF_NODE, TX_FC, the freshness table), belong to neither BFA nor BFB: the spec
does not say which block holds them, and that a block reset of either leaves them is the model's choice (log entry 79). -/
def addrBlock (a : Nat) : Option Nat :=
  if 0x20000000 ≤ a then some 0x29
  else match pageOf (a % activeOff) with
    | none => none
    | some r =>
      match r.info.kind with
      | .ckc => some 0x21
      | .pwc => some 0x22
      | .mon | .cal => some 0x24
      | .mbx => some 0x25
      | .kep => some 0x26
      | .bf =>
        if r.off != 0xFFC && (match r.reg? with | some g => g.dom == 133 | none => true) then none else some (0x27 + r.inst)
      | .hl => some (16 * (r.inst / 4) + 4 + r.inst % 4)
      | .cup =>
        let d := match r.reg? with | some g => g.dom | none => 124
        if 120 ≤ d ∧ d < 124 then some (16 * ((d - 120) / 2) + 8 + (d - 120) % 2) else some 0x29
      | .bwr => some 0x29
      | .port => some (16 * (r.inst / 4) + r.inst % 4)
      | .sqc =>
        let k := (r.off - 0x10000) / 0x30000
        if r.off < 0x10000 ∨ 8 ≤ k then some 0x2A else some (16 * (k / 4) + k % 4)
      | .lnt => some 0x2B
      | _ => none

/-- The state of power domains and clocks, which a block reset leaves (R659): domain states, the device mode, the source
and gates of the family, crystals, references and PLLs; and LINK_COUNT, CAL_COUNT and CAL_LAST, which clear on chip reset
alone (02_port_modes_negotiation.md R68, 18_calibration_monitors.md R641). -/
def keptByBlockReset (key : Nat) : Bool :=
  let a := key / 32
  let lo := key % 32
  (decide (0x2400 ≤ a ∧ a < 0x2400 + 4 * 142) && lo == 30) ||
    (decide (0x200000 ≤ a ∧ a < 0xA00000) && a % 0x100000 == 0x1030) || chipOnly a ||
    (F.PWC_MODE.MODE.key :: F.CKC_SW_STATUS.SRC_CUR.key :: F.CKC_SW_STATUS.SW_BUSY.key :: F.CKC_GATE_STATUS.GATE_STATE.key ::
      F.CKC_OSC_STATUS.XA_STATE.key :: F.CKC_OSC_STATUS.XB_STATE.key :: F.CKC_REF.REF_SEL.key ::
      (plls.map fun p => (pllLock p).key) ++ plls.map fun p => (pllHold p).key).contains key

/-- Put the registers of block `b` back to their Reset values, latched high words with them. -/
def State.clearBlock (s : State) (b : Nat) : State :=
  { s with regs := s.regs.filter fun e => keptByBlockReset e.1 || addrBlock (e.1 / 32) != some b
           hif := { s.hif with latch := s.hif.latch.filter fun e => addrBlock (e.1 / 64) != some b } }

/-- The pages of block `b`: posted writes that wait for them end with the block (R537, R659). -/
def State.dropHeld (s : State) (b : Nat) : State :=
  { s with hif := { s.hif with queue := s.hif.queue.map fun (q : Nat × List Held) =>
      (q.1, q.2.filter fun h => addrBlock h.addr != some b) } }

/-- What a port's block reset does before its registers return to Reset (R52, R91, R344, R469, R562). -/
def State.portReset (s : State) (n : Fin 8) : State :=
  let i : Fin 11 := ⟨n.val, by omega⟩
  let s1 := if s.on (F.DIAG_STATUS.DIAG_BUSY n) then s.diagEnd n 3 else s
  let s2 := ((s1.disable n rPORT_RESET).xbDrop n).calAbortPort n
  let s3 := s2.modPort n fun p => { mem0 := p.mem0, mem1 := p.mem1 }
  if s3.coreOn i then s3.coreReset i else s3

/-- The effect of R52 on a link that a block reset took down, which outlives the reset of the registers that show it: LINK_DOWN
and the reason PORT_RESET (log entry 80). -/
def State.downReset (s : State) (n : Fin 8) (wasActive : Bool) : State :=
  s.iff (wasActive && s.pcsOn n) fun s => (s.wr (F.LINK_STATUS.LAST_DOWN n) rPORT_RESET).wrB (F.LINK_EVENT.LINK_DOWN n) true

/-- A channel's block reset: it is UNTRAINED, and its content is no longer refreshed. -/
def State.chanReset (s : State) (c : Fin 4) : State :=
  let s1 := if s.chState c = chSERVICE then (s.setService c false).dropDram c else s
  (s1.modCh c fun _ => {}).roundEnd

/-- The Lantern's block reset (R472): with LNT_HOT = 1 it resumes from its last checkpoint, else it starts at RESET_PC. -/
def State.lanternReset (s : State) (hot : Bool) (pc : Nat) : State :=
  if !s.coreOn lantern then s
  else
    let s1 := (s.coreReset lantern).wr (F.RESET_PC.RESET_PC 10) pc
    if hot then (s1.loadCore lantern 10 rsRESTART).2 else s1.coreStart lantern

/-- A block reset of block `b` (R659). Blocks that are not implemented, or have no block reset, are ignored (R683). -/
def State.blockReset (s : State) (b : Nat) : State :=
  let q := b / 16
  let k := b % 16
  let go (f : State → State) : State := (f (s.dropHeld b)).clearBlock b
  if q < 2 ∧ k < 4 then
    let n : Fin 8 := ⟨(4 * q + k) % 8, by omega⟩
    (((go fun s => s.portReset n).downReset n (s.active n)).spillShown n).syncCore ⟨n.val, by omega⟩
  else if q < 2 ∧ k < 8 then
    let n : Fin 8 := ⟨(4 * q + k - 4) % 8, by omega⟩
    (go fun s => ((s.lbAbort n).dropEgress (s.ownerOf n) true).modLane n fun _ => {}).syncLane n
  else if q < 2 ∧ k < 10 then go fun s => s.chanReset ⟨(2 * q + k - 8) % 4, by omega⟩
  else match b with
    | 0x21 => go fun s => { s.fcAbort with ckc := { s.ckc with gate := none } }
    | 0x22 => go fun s => { s with pwc := { s.pwc with inflight := none, queued := none } }
    | 0x24 => (go fun s => { s.calAbort with cal := { s.calAbort.cal with save := none, limit := [], run := none } }).syncDues
    | 0x25 => go fun s => { ((s.flr 0).flr 1) with hif := { ((s.flr 0).flr 1).hif with mdio := {} } }
    | 0x26 => (go fun s => s.modKep fun k => { k with cmd := none, nonce := none }).syncKeep
    | 0x27 => go fun s => s.bfLost 0
    | 0x28 => go fun s => s.bfLost 1
    | 0x29 => go fun s => s.blocksStop 124 domOFF
    | 0x2A =>
      let s1 := go fun s => { ((s.coreReset 8).coreReset 9) with sqc := {} }
      ((s1.syncCore 8).syncCore 9).syncSqc
    | 0x2B =>
      let hot := s.on F.LNT_CORE_CTRL.LNT_HOT
      (go fun s => s).lanternReset hot (s.rd (F.RESET_PC.RESET_PC 10))
    | _ => s

/-! ### Chip reset (R659, R663, R672) -/

/-- The registers that a chip reset keeps: the journal's ring and numbers, FLT_PERSIST, the straps (R659). -/
def keptByChipReset (key : Nat) : Bool :=
  let a := key / 32
  decide (0xA800 ≤ a ∧ a < 0xB000) || a == F.EVJ_SEQ.NEXT_SEQ.addr || a == F.EVJ_EPOCH.EPOCH.addr ||
    a == F.FLT_PERSIST.RST_ID.addr || key == F.IDS_STRAP.XTAL_DLY.key

/-- The word of FLT_PERSIST. -/
def State.persistWord (s : State) : Nat :=
  s.word [F.FLT_PERSIST.LAST_RESET, F.FLT_PERSIST.RST_ID, F.FLT_PERSIST.CHIP_RESETS]

/-- A fuse or MTP write of a Keep command in progress completes before a chip reset (R715); a zeroisation goes on from its marker
(R712). -/
def State.keepFlush (s : State) : State :=
  match s.kep.cmd with
  | some (code, _) => if code ∈ [1, 4, 5, 6, 7] then s.keepWork code true else if code = 9 then s.keepCut else s
  | none => s

/-- A chip reset (R659): `why` and `id` as FLT_PERSIST records them. It has no effect in the safe state (R668). -/
def State.chipReset (s0 : State) (why id : Nat) : State :=
  if s0.on F.FLT_STATUS.SAFE then s0
  else
    let s := s0.keepFlush
    let xa := s.xt 0
    let xb := s.xt 1
    let s1 : State :=
      { pending := s.pending, freeCtr := s.freeCtr, tbq := s.tbq, kepStore := s.kepStore, flash := s.flash,
        cal := { mtp := s.cal.mtp, bad := s.cal.bad }, kep := { dbg := s.kep.dbg }, tap := s.tap,
        regs := s.regs.filter fun e => keptByChipReset e.1 }
    let s2 := (s1.wr (xtFld 0) (if xa = xtREADY then xtREADY else xtSTARTING)).wr (xtFld 1)
      (if xb = xtREADY then xtREADY else xtSTARTING)
    let s3 := ((s2.wr F.FLT_PERSIST.LAST_RESET why).wr F.FLT_PERSIST.RST_ID id).countSat F.FLT_PERSIST.CHIP_RESETS
    (s3.record 0x3FF 3 kRESET 0 0 [s3.persistWord]).keepStart

/-! ### The safe state (R668) -/

/-- The family goes to FOSC at once: by a switch with both sources running, or by giving up a switch to ROOT. -/
def State.toFosc (s : State) : State :=
  let s1 := if s.on F.CKC_SW_STATUS.SRC_CUR then s.switchDone { src := false, ramp := false, auto := false } else s
  ({ s1 with ckc := {} }).wrB F.CKC_SW_STATUS.SW_BUSY false

/-- A channel in service enters self-refresh and leaves service (R668). -/
def State.selfRefresh (s : State) (c : Fin 4) : State :=
  if s.chState c = chSERVICE then
    ((s.modCh c fun h => { h with resting := true }).setService c false).wr (F.CH_STATUS.CH_STATE c) chUNTRAINED
  else s

/-- Entry to the safe state on class F source `id` (R668). -/
def State.safeState (s : State) (id : Nat) : State :=
  if s.on F.FLT_STATUS.SAFE then s
  else
    let s1 := (List.finRange 11).foldl (fun (s : State) i =>
      if s.coreOn i then (s.dmaAbortAll i).coreHalt i else s) s
    let s2 := (List.finRange 4).foldl State.selfRefresh s1
    let s3 := s2.toFosc
    let s4 : State := { s3 with pwc := { s3.pwc with inflight := none, queued := none, rising := [], waking := none } }
    let s5 := downOrder.foldl (fun (s : State) i =>
      if i = 131 ∨ i = 132 ∨ i = 133 ∨ s.rd (F.PWC_DOM.STATE i) = domOFF then s else s.lowerDomain i domOFF) s4.syncPwc
    let s6 : State := { s5 with pwc := { s5.pwc with autoOff := [] } }
    (((s6.wrB F.FLT_STATUS.FAULT_N_LOW true).wrB F.FLT_STATUS.SAFE true).wr F.FLT_PERSIST.LAST_RESET 4).wr
      F.FLT_PERSIST.RST_ID id

/-! ### Repair (R91, R666) -/

/-- The FAULT record with number `seq` comes to carry REPAIR_NONE (R666, R671). -/
def State.noteNone (s : State) (seq : Nat) : State :=
  let f := F.EVJ_RING.WORD (seq % 64) 4
  let mark (ws : List Nat) : List Nat := if ws.headD 0 = seq then ws.set 4 (ws.getD 4 0 ||| 4) else ws
  let s1 : State := { s with flt := { s.flt with mirrorQ := s.flt.mirrorQ.map mark } }
  if s1.rd (F.EVJ_RING.WORD (seq % 64) 0) = seq then s1.wr f (s1.rd f ||| 4) else s1

/-- A crossbar request of a repair: it discards a pending request (R91). -/
def State.repairXb (s : State) (n : Fin 8) (req p : Nat) : State :=
  let s1 := (s.wrB (F.XB_STATUS.XB_BUSY n) false).modPort n fun q => { q with sl := { q.sl with xbPend := none } }
  ((s1.calAbortPort n).xbGo n req p).lpiTrigger n

/-- REPAIR of latched slice source `i` begins (R666). -/
def State.repairStart (s : State) (i seq : Nat) : State :=
  let n := srcPort i
  let st := s.rd (F.XB_STATUS.XB_STATE n)
  let cur := s.rd (F.XB_STATUS.XB_CUR_PAIR n)
  if s.repairNone i then s.noteNone seq
  else if i % 16 = 4 then
    if st = xbSWAP then s.repairXb n xbSHADOW cur else if st = xbSHADOW then s.repairXb n xbIDLE 0 else s
  else
    let s1 := if st = xbSWAP ∧ cur ≠ i % 16 then s.repairXb n xbSHADOW cur else s
    { s1 with flt := { s1.flt with repair := s1.flt.repair ++ [(i, seq)] } }

/-- The echo and FFE of pair `p` are copied into the shadow set (R127, R666). -/
def copyShadow (p : Nat) (m : Sparse Nat) : Sparse Nat :=
  let m1 := m.filter fun e => !coefIsShadow (4 * e.1)
  m1.foldl (fun a e => if exchKey p e.1 = e.1 then a else spPut a (exchKey p e.1) e.2) m1

/-- The copy of the first repair of port `n` ends and SPARE is requested (R666); a handback still awaited holds it. -/
def State.repairSpare (s : State) (n : Fin 8) : State :=
  match s.flt.repair.find? fun r => srcPort r.1 == n with
  | none => s
  | some r =>
    let p := r.1 % 16
    let st := s.rd (F.XB_STATUS.XB_STATE n)
    let drop (s : State) : State := { s with flt := { s.flt with repair := s.flt.repair.erase r } }
    if !s.domOn (14 * n.val + 4) || st == xbSPARE then (drop s).noteNone r.2
    else if st = xbSWAP ∧ s.rd (F.XB_STATUS.XB_CUR_PAIR n) ≠ p then s
    else
      let s1 := (drop s).modPort n fun q => { q with eq := { q.eq with
        coef := if st = xbSWAP then q.eq.coef else copyShadow p q.eq.coef } }
      s1.repairXb n xbSPARE p

/-- The wire of a source is held at idle: its domain is not ON, or it is slice A's in SPARE(A) (R88, R662). -/
def State.wireHeld (s : State) (i : Nat) : Bool :=
  !s.domOn (srcDom i) ||
    (srcIsSlice i && i % 16 == 0 && s.rd (F.XB_STATUS.XB_STATE (srcPort i)) == xbSPARE &&
      s.rd (F.XB_STATUS.XB_CUR_PAIR (srcPort i)) == 0)

/-! ### Injection (R669) -/

/-- FLT_INJ written with GO = 1, its fields in place. -/
def State.injArm (s : State) : State :=
  let i := s.rd F.FLT_INJ.INJ_ID
  let m := s.rd F.FLT_INJ.INJ_MODE
  let ok := (match srcClass? i with | some .c => true | some .u => true | _ => false) && s.domOn (srcDom i) &&
    s.flt.inj.isNone && m != 0 && (m == 3 || decide (s.rd F.FLT_INJ.INJ_UNIT < srcUnits i))
  if ok then { (s.wr F.FLT_INJ.INJ_RESULT 1) with flt := { s.flt with inj := some ⟨m, i⟩ } } else s.wr F.FLT_INJ.INJ_RESULT 3

/-- A checker of a decoder half reports: the half fails whatever reaction the source has (05_spire_framing_ldpc.md R162); the frame
it held is reported by DECODER_HALF_FAIL. -/
def State.halfChecker (s : State) (i : Nat) : State :=
  let n := srcPort i
  s.iff (decide (i < 512) && decide (i / 16 % 16 < 4) && (i % 16 == 5 || i % 16 == 6) && s.pcsOn n) fun s =>
    s.halfFail n (i % 16 - 5) none false false

/-- The armed injection acts: INVCHK makes the named source report, a forced word the source of the checker that saw it; a wire
held at idle reports nothing (R88, R662). -/
def State.injAct (s : State) (seen : Option Nat) (data : List Nat) : State :=
  match s.flt.inj with
  | none => s
  | some j =>
    let s1 : State := { (s.wr F.FLT_INJ.INJ_RESULT 2) with flt := { s.flt with inj := none } }
    match (if j.mode = 3 then some j.src else seen) with
    | some i => if !s.wireHeld i then (s1.rise i data true (s.on F.FLT_CTRL.INJ_QUIET)).halfChecker i else s1
    | none => s1

/-- An injection whose source's domain has left ON is discarded. -/
def State.injWatch (s : State) : State :=
  match s.flt.inj with
  | some j => if s.domOn (srcDom j.src) then s else { (s.wr F.FLT_INJ.INJ_RESULT 3) with flt := { s.flt with inj := none } }
  | none => s

/-! ### Reports (R662, R663) -/

/-- The wire of source `i` rises to error (R663). A class U source of a host lane also moves a twin pair's lane (R257). -/
def State.faultReport (s : State) (i : Nat) (data : List Nat) : State :=
  match srcClass? i with
  | none => s
  | some kl =>
    if s.wireHeld i then s
    else if kl = .record then s.rise i data
    else if s.on (F.FLT_SRC_STAT.ACTIVE i) then s
    else
      let s1 := ((s.wrB (F.FLT_SRC_STAT.ACTIVE i) true).rise i data).halfChecker i
      if h : i < 512 ∧ 4 ≤ i / 16 % 16 ∧ i / 16 % 16 < 8 ∧ (kl = .u ∨ kl = .f) then
        s1.laneFailover ⟨(4 * (i / 256) + i / 16 % 16 - 4) % 8, by omega⟩
      else s1

/-- The wire of source `i` shows 0b00 or 0b11 (R662). -/
def State.wireFault (s : State) (i code : Nat) : State :=
  if (srcClass? i).isNone || s.wireHeld i || s.on (F.FLT_SRC_STAT.WIRE i) then s
  else ((s.wrB (F.FLT_SRC_STAT.WIRE i) true).rise 0x230 [i, code])

/-- The wire of source `i` returns to idle. -/
def State.wireIdle (s : State) (i : Nat) : State :=
  (s.wrB (F.FLT_SRC_STAT.ACTIVE i) false).wrB (F.FLT_SRC_STAT.WIRE i) false

/-! ### Journal (R673, R675) -/

/-- EVJ_SWGO with GO = 1 (R673). -/
def State.swRecord (s : State) (k : Nat) : State :=
  s.record (0x2F0 + k % 16) 3 kSOFTWARE 0 0 [s.rd (F.EVJ_SWDATA.WORD 0), s.rd (F.EVJ_SWDATA.WORD 1), s.rd (F.EVJ_SWDATA.WORD 2)]

/-- MEM_LOG as it acts (R691). -/
def memLog (v : Nat) : Nat := max 6 (min 20 v)

/-- The oldest record that waits is written to the mirror (R675). -/
def State.mirrorWrite (s : State) : State :=
  match s.flt.mirrorQ with
  | [] => s
  | ws :: rest =>
    let a := 4096 * s.rd F.EVJ_MEM_BASE.BASE + 32 * (ws.headD 0 % 2 ^ memLog (s.rd F.EVJ_CTRL.MEM_LOG))
    let s1 : State := { s with flt := { s.flt with mirrorQ := rest } }
    let w := s1.memWrite 0x22 30 a (ws.flatMap (bytesLE 4))
    if w.1 = .bus then (w.2.wrB F.EVJ_CTRL.MIRROR_EN false).rise 0x232 [a / 2 ^ 12, a % 2 ^ 12] else w.2

/-! ### Reactions (R665) -/

/-- The reactions of one latched source that are no levels, in the order of R665; the safe state for class F. -/
def State.react1 (s : State) (i seq : Nat) : State :=
  if srcClass? i = some .f then s.safeState i
  else
    let s1 := if srcIsSlice i && s.on (F.FLT_SRC_CFG.REPAIR i) then s.repairStart i seq else s
    let s2 := if s.on (F.FLT_SRC_CFG.BLK_RST i) && !srcNoBlock i then s1.blockReset (i / 16) else s1
    if s.on (F.FLT_SRC_CFG.CHIP_RST i) then s2.chipReset 1 i else s2

/-- The reactions that wait, and those that they cause, oldest first. -/
def State.reactAll (s : State) : Nat → State
  | 0 => s
  | k + 1 =>
    match s.flt.react with
    | [] => s
    | p :: rest => (({ s with flt := { s.flt with react := rest } }).react1 p.1 p.2).reactAll k

/-- A pending Lantern NMI is taken at a boundary with EXL = 0 (R665). -/
def State.nmiTake (s : State) : State :=
  let x := s.ctx lantern 0
  if s.flt.nmi && s.coreUp lantern && x.ran && !x.halted && !x.exl && x.load.isNone then
    { (s.setCtx lantern 0 fun x => x.enter exINTERRUPT 1 10 0 x.pc) with flt := { s.flt with nmi := false } }
  else s

end Sys2Proof.Machine
end

