-- ==== Sys2Proof/Machine/IrqOps.lean ====
section
/-! DEFINITION. Interrupt levels, MSI-X, INT_N, the Lantern's doorbell, and the events of a core
(15_host_access_mailboxes.md R547, R548, R555, R556; 12_molx_isa.md R433). -/

namespace Sys2Proof.Machine

/-! ### Levels (R547) -/

/-- Event bits `lo` to `hi` of the event register at an address, at their places. -/
def State.evBits (s : State) (a lo hi : Nat) : Nat :=
  (List.range (hi + 1)).foldl (fun v k => if lo ≤ k ∧ s.on ⟨a, k, 1, .w1c, 0⟩ then v + 2 ^ k else v) 0

/-- An event bit whose mask bit is 1. -/
def State.evLine (s : State) (a lo hi : Nat) (mask : Fld) : Bool := (s.evBits a lo hi &&& s.rd mask) != 0

/-- The link interrupt of Pn (R58, R202, R254, R284, R378, R409). -/
def State.linkInt (s : State) (n : Nat) : Bool :=
  s.evLine (F.LINK_EVENT.LINK_UP n).addr 0 7 (F.LINK_EVENT_MASK.EV_MASK n) ||
  s.evLine (F.LAD_EVENT.TIER n).addr 1 7 (F.LAD_EVENT_MASK.LEV_MASK n) ||
  s.evLine (F.RTX_EVENT.DROP n).addr 1 7 (F.RTX_EVENT_MASK.RTX_MASK n) ||
  s.evLine (F.TW_EVENT.SOLO (n % 4)).addr 0 5 (F.TW_EVENT_MASK.TW_MASK (n % 4)) ||
  s.evLine (F.DIAG_EVENT.WEAR n).addr 0 3 (F.DIAG_EVENT_MASK.DEV_MASK n) ||
  s.evLine (F.HL_EVENT.LOS n).addr 0 7 (F.HL_EVENT_MASK.HEV_MASK n)

/-- The interrupt of BFA or BFB (R335). -/
def State.bfInt (s : State) (b : Nat) : Bool := s.evLine (F.BF_EVENT.RX_PKT b).addr 0 7 (F.BF_EVENT_MASK.BEV_MASK b)
/-- The Cupola, SQC, monitor, calibration, and power and clock interrupts (R477, R509, R603, R629, R652, R658). -/
def State.cupInt (s : State) : Bool := s.evLine F.CUP_EVENT.UE.addr 0 4 F.CUP_EVENT_MASK.MASK
def State.sqcInt (s : State) : Bool := s.evLine F.SQC_EVENT.TAKEOVER.addr 0 7 F.SQC_EVENT_MASK.MASK
def State.monInt (s : State) : Bool := s.evLine F.MON_EVENT.VOLT.addr 0 3 F.MON_EVENT_MASK.MASK
def State.calInt (s : State) : Bool := s.evLine F.CAL_EVENT.CAL_DONE.addr 0 4 F.CAL_EVENT_MASK.MASK
def State.pwrInt (s : State) : Bool :=
  s.evLine F.PWC_EVENT.FAILED.addr 0 5 F.PWC_EVENT_MASK.MASK || s.evLine F.CKC_EVENT.SW_DONE.addr 0 7 F.CKC_EVENT_MASK.CEV_MASK

/-- Some source is latched, and one whose reaction `f` is chosen. -/
def State.anyLatched (s : State) (f : Nat → Fld) : Bool :=
  (s.rd F.FLT_STATUS.N_C != 0 || s.rd F.FLT_STATUS.N_U != 0 || s.rd F.FLT_STATUS.N_F != 0) &&
    (List.range 768).any fun i => s.on (F.FLT_SRC_STAT.LATCHED i) && s.on (f i)
/-- The FLT host and Lantern interrupts (R665). -/
def State.fltHostInt (s : State) : Bool := s.anyLatched F.FLT_SRC_CFG.HOST_INT
def State.fltLntInt (s : State) : Bool := s.anyLatched F.FLT_SRC_CFG.LNT_INT

/-- Vectors 0-15 of PF0, vector 0 in bit 0. -/
def State.intLevels (s : State) : Nat :=
  (List.range 8).foldl (fun a n => a + b2n (s.linkInt n) * 2 ^ n) 0 + 2 ^ 8 * b2n (s.bfInt 0) + 2 ^ 9 * b2n (s.bfInt 1) +
    2 ^ 10 * b2n s.cupInt + 2 ^ 11 * b2n s.sqcInt + 2 ^ 12 * b2n s.fltHostInt + 2 ^ 13 * b2n s.monInt +
    2 ^ 14 * b2n s.calInt + 2 ^ 15 * b2n s.pwrInt

/-- The doorbell bits of endpoint `e` that are set and unmasked (R561). -/
def State.dbLevels (s : State) (e : Nat) : Nat := s.rd (F.DB_PEND.DB e) &&& s.rd (F.DB_MASK.DB_EN e)

/-- The levels of the vectors of PFx, given vectors 0-15 of PF0. -/
def State.pfLevels (s : State) (irq : Nat) (f : Fin 2) : Nat :=
  (if f = 0 then irq else 0) + 2 ^ 16 * s.dbLevels (4 + f.val) +
    2 ^ 48 * b2n (s.on F.HIF_ERR_INFO.VALID && s.rd F.HIF_ERR_INFO.MID == 0x10 + f.val)

/-! ### MSI-X (R543, R548) -/

/-- A word of the MSI-X table at its reset value: every vector masked. -/
def msixReset (w : Nat) : Nat := if w % 4 = 3 then 1 else 0
/-- Word `w` of a function's table. -/
def PcieFn.word (p : PcieFn) (w : Nat) : Nat := (spFind p.table w).getD (msixReset w)
/-- Vector `v` is unmasked. -/
def PcieFn.open (p : PcieFn) (v : Nat) : Bool := !p.mask && !bitB (p.word (4 * v + 3)) 0

/-- The vectors of a function follow their levels (R548): a rise, or a pending vector that is unmasked, makes a message
due. -/
def PcieFn.follow (p : PcieFn) (lv : Nat) : PcieFn :=
  (List.range 49).foldl (fun p v =>
    let rise := bitB lv v && !bitB p.level v
    if (rise || bitB p.pba v) && p.open v then
      { p with pba := if bitB p.pba v then p.pba - 2 ^ v else p.pba, due := p.due ||| 2 ^ v }
    else if rise then { p with pba := p.pba ||| 2 ^ v }
    else p) p |> fun p => { p with level := lv }

/-- Change a function. -/
def State.modFn (s : State) (f : Fin 2) (g : PcieFn → PcieFn) : State :=
  { s with hif := { s.hif with fn := s.hif.fn.set f (g s.hif.fn[f]) } }

/-- A function's vectors follow, where a level, a pending bit or a message due makes it needed. -/
def State.msixFollow (s : State) (irq : Nat) (f : Fin 2) : State :=
  let lv := s.pfLevels irq f
  let p := s.hif.fn[f]
  if lv = p.level ∧ p.pba = 0 then s else s.modFn f fun p => p.follow lv

/-- The message of a vector that is due is sent (R548). -/
def State.msixSend (s : State) (f : Fin 2) (v : Nat) : State :=
  let p := s.hif.fn[f]
  if s.hif.linkUp && !p.d3 && bitB p.due v then
    s.modFn f fun p => { p with
      due := p.due - 2 ^ v,
      sent := some (v, p.word (4 * v) + 2 ^ 32 * p.word (4 * v + 1), p.word (4 * v + 2)) }
  else s

/-! ### HIF_INT_SRC, INT_N, the Lantern's doorbell (R555, R556, R567) -/

/-- The sources that ring the Lantern's doorbell: power and clock, Cupola, SQC, monitor, calibration, from bit 26. -/
def ringLevels (irq : Nat) : Nat :=
  bitOf irq 15 + 2 * bitOf irq 10 + 4 * bitOf irq 11 + 8 * bitOf irq 13 + 16 * bitOf irq 14

/-- Each rise sets its doorbell bit (R556). -/
def State.ringFollow (s : State) (irq : Nat) : State :=
  let lv := ringLevels irq
  if lv = s.hif.rung then s
  else
    let s1 := (List.range 5).foldl (fun (s' : State) k =>
      if bitB lv k && !bitB s.hif.rung k then s'.dbRing 1 (26 + k) else s') s
    { s1 with hif := { s1.hif with rung := lv } }

/-- HIF_INT_SRC follows the levels, and INT_N (R555, R567). -/
def State.srcFollow (s : State) (irq : Nat) : State :=
  let s1 := ((((s.wr F.HIF_INT_SRC.SRC irq).wrB F.HIF_INT_SRC.DB_PF0 (s.dbLevels 4 != 0)).wrB F.HIF_INT_SRC.DB_PF1
    (s.dbLevels 5 != 0)).wrB F.HIF_INT_SRC.DB_MDIO (s.dbLevels 6 != 0)).wrB F.HIF_INT_SRC.ERR (s.on F.HIF_ERR_INFO.VALID)
  let w := s1.word [F.HIF_INT_SRC.SRC, F.HIF_INT_SRC.DB_PF0, F.HIF_INT_SRC.DB_PF1, F.HIF_INT_SRC.DB_MDIO, F.HIF_INT_SRC.ERR]
  { s1 with hif := { s1.hif with intN := (w &&& s.rd F.HIF_INTN_MASK.INTN_EN) != 0 } }

/-- Everything that follows the interrupt levels. -/
def State.irqFollow (s : State) : State :=
  let irq := s.intLevels
  (((s.srcFollow irq).msixFollow irq 0).msixFollow irq 1).ringFollow irq

/-! ### Events of a core (R433) -/

/-- Event `k` of context `c` of core `i` is pending. -/
def State.eventPend (s : State) (i : Fin 11) (c : Fin 4) (k : Nat) : Bool :=
  let x := s.ctx i c
  if 42 ≤ k then
    match k with
    | 42 => s.core[i].dma[(0 : Fin 4)].cpl
    | 43 => s.core[i].dma[(1 : Fin 4)].cpl
    | 44 => s.core[i].dma[(2 : Fin 4)].cpl
    | 45 => s.core[i].dma[(3 : Fin 4)].cpl
    | 47 => match epOf (s.coreMid i) with | some e => s.dbSignal e | none => false
    | 48 => x.tcmp != 0 && decide (x.tcmp ≤ s.tb)
    | 50 => x.flag
    | _ => false
  else
    match s.coefPort i with
    | some n =>
      let bit (a b : Nat) : Bool := s.on ⟨a, b, 1, .w1c, 0⟩
      if k < 8 then bit (F.LINK_EVENT.LINK_UP n).addr k
      else if k < 16 then k != 8 && bit (F.LAD_EVENT.TIER n).addr (k - 8)
      else if k < 24 then k != 16 && bit (F.RTX_EVENT.DROP n).addr (k - 16)
      else if k < 28 then bit (F.DIAG_EVENT.WEAR n).addr (k - 24)
      else if k < 36 then bit (F.HL_EVENT.LOS n).addr (k - 28)
      else bit (F.TW_EVENT.SOLO (n.val % 4)).addr (k - 36)
    | none =>
      if k < 8 then s.linkInt k
      else match k with
        | 8 => s.bfInt 0
        | 9 => s.bfInt 1
        | 10 => s.fltLntInt
        | _ => false

/-- The lowest pending event of a mask. -/
def State.lowestEvent (s : State) (i : Fin 11) (c : Fin 4) (mask : Nat) : Option Nat :=
  (List.range 51).find? fun k => bitB mask k && s.eventPend i c k

end Sys2Proof.Machine
end

