-- ==== Sys2Proof/Machine/Settle.lean ====
section
/-! DEFINITION. How every command ends: domains that automatic power-up raised are set up, retirements and fault reactions
are taken, what waits on a condition goes on, interrupt levels follow (14_cupola.md R495, 15_host_access_mailboxes.md R547,
16_clocks.md R591, 17_power.md R618, 18_calibration_monitors.md R635, 19_faults_availability.md R665). -/

namespace Sys2Proof.Machine

/-- Reactions, retirements and waits, in the order in which one can cause the next. -/
def State.settleWork (s : State) : State :=
  let s1 := if s.pwc.cameOn.isEmpty then s else s.autoUps
  let s2 := if s1.cup.retireDue.isEmpty then s1 else s1.retireAll
  let s3 := s2.reactAll 16
  let s4 := s3.injWatch.gateWatch
  let s5 := if s4.cal.run.isSome then s4.calWatch else s4
  let s6 := if s5.cal.leave.isEmpty then s5 else s5.calLeave
  if s6.flt.nmi then s6.nmiTake else s6

/-- The Keep's start-up goes on where it waits for the clocks (20_keep_startup.md R708). -/
def State.settle (s : State) : State :=
  let s1 := s.settleWork
  (if s1.kep.step ≤ 2 then s1.keepWatch else s1).irqFollow

/-- A command that goes on. -/
def done (s : State) : Host.Outcome State Fault Refusal := .next s.settle

end Sys2Proof.Machine
end

