-- ==== Sys2Proof/Machine/Belfry.lean ====
section
/-! DEFINITION. Meanings of the commands of the Belfry train-line channel (09_belfry.md R297-R318, 20_keep_startup.md
R702). -/

namespace Sys2Proof.Machine

/-- BF_ENABLE (R302, R315). -/
def execBfEnable (b : Fin 2) (s : State) : Host.Outcome State Fault Refusal :=
  done (s.iff (s.bfOn b) fun s => s.bfEnable b)

/-- BF_DISABLE (R318). -/
def execBfDisable (b : Fin 2) (s : State) : Host.Outcome State Fault Refusal :=
  done (s.iff (s.bfOn b) fun s => s.bfDisable b)

/-- BF_TX_DISABLE (R318): TX_EN is written 0. -/
def execBfTxDisable (b : Fin 2) (s : State) : Host.Outcome State Fault Refusal :=
  done (s.iff (s.bfOn b) fun s => ((s.wrB (F.BF_CTRL.TX_EN b) false).bfCut b).dualDrop b)

/-- IDLE_EDGE (R301): at a packet's end, or by the energy rule. -/
def execIdleEdge (b : Fin 2) (energy : Bool) (s : State) : Host.Outcome State Fault Refusal :=
  done (s.iff (s.bfEn b && s.bf[b].tx.isNone) fun s =>
    (s.wrB (F.BF_STATUS.CH_BUSY b) false).modBf b fun f => { f with edge := some s.tb, energy := energy })

/-- ACCESS_SLOT (R302, R305): the packet that starts ends its SFD at `tb`. A busy channel sends the transceiver back to wait for
the next idle edge. -/
def execAccessSlot (b : Fin 2) (tb : Nat) (s : State) : Host.Outcome State Fault Refusal :=
  done (s.iff (s.bfEn b && s.on (F.BF_CTRL.TX_EN b) && !s.on (F.BF_STATUS.SERVED b) && s.bf[b].edge.isSome &&
      !s.bf[b].energy && s.bf[b].tx.isNone) fun s =>
    if s.bfBusy b then s.modBf b fun f => { f with edge := none } else s.accessSlot b tb)

/-- ROUND_GAP (R302). -/
def execRoundGap (b : Fin 2) (s : State) : Host.Outcome State Fault Refusal :=
  done (s.iff (s.bfEn b && s.bf[b].edge.isSome && !s.bfBusy b) fun s =>
    (s.wrB (F.BF_STATUS.SERVED b) false).modBf b fun f => { f with edge := some s.tb, energy := false })

/-- PACKET_TX_DONE (R316). -/
def execPacketTxDone (b : Fin 2) (s : State) : Host.Outcome State Fault Refusal :=
  done (s.iff (s.bfEn b) fun s =>
    match s.bf[b].tx with
    | some t => s.bfSent b t
    | none => s)

/-- TX_RING_POLL (R315). -/
def execTxRingPoll (b : Fin 2) (s : State) : Host.Outcome State Fault Refusal :=
  done (s.iff (s.bfEn b) fun s => s.ringGo b)

/-- TX_KICK (R315). -/
def execTxKick (b : Fin 2) (s : State) : Host.Outcome State Fault Refusal :=
  done (s.iff (s.bfEn b) fun s => s.ringGo b)

/-- BEACON_PERIOD (R311). -/
def execBeaconPeriod (b : Fin 2) (s : State) : Host.Outcome State Fault Refusal :=
  done (s.iff (s.bfEn b && s.on (F.BF_BCN.BCN_EN b)) fun s => s.bcnQueue b)

/-- BCN_NOW (R311). -/
def execBcnNow (b : Fin 2) (s : State) : Host.Outcome State Fault Refusal :=
  done (s.iff (s.bfEn b && s.on (F.BF_BCN.BCN_EN b)) fun s => s.bcnQueue b)

/-- PREAMBLE_DETECT (R298). -/
def execPreambleDetect (b : Fin 2) (s : State) : Host.Outcome State Fault Refusal :=
  done (s.iff (s.bfEn b && s.bf[b].tx.isNone && s.bf[b].rx.isNone) fun s => s.rxBegin b)

/-- SFD_DETECT (R298, R299): TB at the SFD end, the time since this node's last request ended its SFD in 1/16 ns, the
frozen offset in 1/64 ppm, and the SNR and the samples, which train the equaliser (R300). -/
def execSfdDetect (b : Fin 2) (tb since : Nat) (fofs : Int) (m : SfdMeas) (s : State) : Host.Outcome State Fault Refusal :=
  done (s.iff (s.bfEn b && s.rd (F.BF_STATUS.RX_STATE b) == 1) fun s =>
    (((s.wr (F.BF_STATUS.RX_STATE b) 2).wr (F.BF_STATUS.FOFS_LAST b) (unsignedOf 16 fofs)).modBf b fun f =>
      { f with rx := f.rx.map fun r => { r.train m.ys with tb := tb, since := since, fofs := fofs, snr := m.snr } }))

/-- SFD_TIMEOUT (R298). -/
def execSfdTimeout (b : Fin 2) (s : State) : Host.Outcome State Fault Refusal :=
  done (s.iff (s.bfEn b && s.rd (F.BF_STATUS.RX_STATE b) == 1) fun s =>
    (s.rxDone b).wrB (F.BF_STATUS.CH_BUSY b) false)

/-- CAPTURE (R304): the new preamble exceeds the reference by `db` dB. -/
def execCapture (b : Fin 2) (db : Nat) (s : State) : Host.Outcome State Fault Refusal :=
  done (s.iff (s.bfEn b && s.on (F.BF_ACCESS.CAPT_EN b) && decide (s.rd (F.BF_ACCESS.CAPT_DB b) ≤ db)) fun s =>
    match s.bf[b].rx with
    | some r => s.rxCapture b r
    | none => s)

/-- HEADER_DECODE (R292, R308). -/
def execHeaderDecode (b : Fin 2) (w : BfWord) (s : State) : Host.Outcome State Fault Refusal :=
  done (s.iff (s.bfEn b && s.rd (F.BF_STATUS.RX_STATE b) == 2) fun s =>
    match s.bf[b].rx with
    | none => (s.rxDone b).count (F.BF_CNT_ERR.HDR_FAIL b)
    | some r =>
      match r.decode w with
      | (some v, _, r1) =>
        if hdrBad (v % 2 ^ 64) || decide (8 ≤ (hdrOf v).ptype) then (s.rxDone b).count (F.BF_CNT_ERR.HDR_FAIL b)
        else s.rxHeader b (hdrOf v) r1
      | (none, _, _) => (s.rxDone b).count (F.BF_CNT_ERR.HDR_FAIL b))

/-- CODEWORD_DECODE (R297, R308). -/
def execCodewordDecode (b : Fin 2) (w : BfWord) (s : State) : Host.Outcome State Fault Refusal :=
  done (s.iff (s.bfEn b && s.rd (F.BF_STATUS.RX_STATE b) == 3) fun s =>
    match s.bf[b].rx with
    | none => s
    | some r =>
      match r.hdr with
      | none => s
      | some h =>
        let d := r.decode w
        let r1 := { d.2.2 with words := r.words ++ [d.1], iters := max r.iters d.2.1 }
        if h.ncw + 1 ≤ r1.words.length then s.rxFinish b h r1 else s.modBf b fun f => { f with rx := some r1 })

/-- RNG_GO = 1 with RNG_CTRL as it stands (R309, R318). -/
def State.rngGo (s : State) (b : Fin 2) : State :=
  if s.bf[b].rng.isSome || !s.on (F.BF_CTRL.BF_EN b) then s.wr (F.RNG_CTRL.RNG_STATUS b) 5
  else
    let form : BfHdr :=
      { ptype := 2, src := s.bf[b].node, dst := s.rd (F.RNG_CTRL.RNG_DST b), bcast := false, ncw := 0,
        qpsk := s.on (F.RNG_CTRL.RNG_MOD b), sf := s.rd (F.RNG_CTRL.RNG_SF b), pseq := 0, len := 0,
        keyId := s.rd (F.RNG_CTRL.RNG_KEY b), auth := s.on (F.RNG_CTRL.RNG_AUTH b) }
    (s.wr (F.RNG_CTRL.RNG_STATUS b) 1).modBf b fun f =>
      { f with rng := some { dst := form.dst, form := form }, third := f.third ++ [false] }

/-- RNG_GO (R309): RNG_GO is written 1 with the word `v` of RNG_CTRL. -/
def execRngGo (b : Fin 2) (v : Nat) (s : State) : Host.Outcome State Fault Refusal :=
  done (s.iff (s.bfOn b) fun s =>
    (((((s.wr (F.RNG_CTRL.RNG_DST b) (v / 2 ^ 25)).wr (F.RNG_CTRL.RNG_AUTH b) (v / 2 ^ 24)).wr (F.RNG_CTRL.RNG_KEY b)
      (v / 2 ^ 21)).wr (F.RNG_CTRL.RNG_MOD b) (v / 2 ^ 20)).wr (F.RNG_CTRL.RNG_SF b) (v / 2 ^ 18)).rngGo b)

/-- RANGE_RSP_SEND (R309): T_B in 1/16 ns, and TB at the RSP's SFD end. -/
def execRangeRspSend (b : Fin 2) (tB tb : Nat) (s : State) : Host.Outcome State Fault Refusal :=
  done (s.iff (s.bfEn b && s.on (F.BF_CTRL.TX_EN b) && s.bf[b].tx.isNone) fun s =>
    match s.bf[b].rsp with
    | none => s
    | some q =>
      let s1 := s.modBf b fun f => { f with rsp := none }
      let h := { q.req with ptype := 3, src := s.bf[b].node, dst := q.req.src, len := 10 }
      let body := [q.req.src] ++ natsLE 2 q.req.pseq ++ natsLE 4 tB ++ [q.snr % 256] ++ natsLE 2 (unsignedOf 16 q.fofs)
      if s.bfCanAuth b h then
        let m := s1.bfMake b .rsp h body tb
        m.2.bfStart b m.1 false
      else s1)

/-- RANGE_TIMEOUT (R309). -/
def execRangeTimeout (b : Fin 2) (s : State) : Host.Outcome State Fault Refusal :=
  done (s.iff (s.bfOn b && s.bfClock) fun s =>
    match s.bf[b].rng with
    | some g => if g.sent && !g.heard then s.rngEnd b 3 else s
    | none => s)

/-- BF_KEY_SLOT_LOAD (20_keep_startup.md R702). -/
def execBfKeySlotLoad (b : Fin 2) (s : State) : Host.Outcome State Fault Refusal :=
  done (s.iff (s.bfOn b) fun s => s.keysLoad b)

end Sys2Proof.Machine
end

