-- ==== Sys2Proof/Machine/Ports.lean ====
section
/-! DEFINITION. Meanings of the commands of port modes, negotiation, training and presence checks
(02_port_modes_negotiation.md, 04_equalisation_cancellation.md R115-R122). -/

namespace Sys2Proof.Machine


/-! ### Enabling and restarting -/

/-- PORT_EN := 1: a port wake, and DISABLED goes to SENSE (R52, R618). -/
def State.portEnable (s : State) (n : Fin 8) : State :=
  s.iff (s.pcsOn n) fun s =>
    let s1 := (s.portWake n).wrB (F.NEG_CTRL.PORT_EN n) true
    if s.link n = stDISABLED then s1.setLink n stSENSE else s1

/-- PORT_EN := 0: DISABLED, and a diagnostic run is ABORTED (R52, R344). -/
def State.portDisable (s : State) (n : Fin 8) : State :=
  s.iff (s.pcsOn n) fun s =>
    let s1 := ((s.portWake n).wrB (F.NEG_CTRL.PORT_EN n) false).disable n rHOST_DISABLE
    if s.on (F.DIAG_STATUS.DIAG_BUSY n) then s1.diagEnd n 3 else s1

/-- AN_RESTART := 1 (R52). -/
def State.anRestart (s : State) (n : Fin 8) : State :=
  if s.active n then s.linkDown n stSENSE rHOST_RESTART
  else if s.link n = stAN then
    (s.setLink n stSENSE).modPort n fun p => { p with neg := { p.neg with breakSilence := true } }
  else s

/-- EXPECT_MODE = enforce while the link is up, in any mode, acts at once if the recorded identity differs (R49). That
EXPECT_MISMATCH (R48) sets with it, and that an identity is recorded from the first Spire resolution on, are the model's
choices (log entry 75). -/
def State.expectEnforce (s : State) (n : Fin 8) : State :=
  let g := s.rd (F.PARTNER_INFO.P_NODE n) ≠ s.rd (F.SPIRE_EXPECT.EXP_NODE n) ||
    s.rd (F.PARTNER_INFO.P_PORT n) ≠ s.rd (F.SPIRE_EXPECT.EXP_PORT n)
  if s.linkUp n && s.port[n].neg.recorded && g then (s.linkEvent n F.LINK_EVENT.EXPECT_MISMATCH).linkDown n stSENSE rPARTNER_MISMATCH
  else s

/-- PORT_ENABLE (R52). -/
def execPortEnable (n : Fin 8) (s : State) : Host.Outcome State Fault Refusal := done (s.portEnable n)

/-- PORT_DISABLE (R52). -/
def execPortDisable (n : Fin 8) (s : State) : Host.Outcome State Fault Refusal := done (s.portDisable n)

/-- AN_RESTART (R52, R54). -/
def execAnRestart (n : Fin 8) (s : State) : Host.Outcome State Fault Refusal :=
  done (s.iff (s.pcsOn n) fun s => s.anRestart n)

/-- EXPECT_ENFORCE_WRITE (R49): the expected identity and enforce are written, and act at once while the link is up. -/
def execExpectEnforceWrite (n : Fin 8) (node prt : Nat) (s : State) : Host.Outcome State Fault Refusal :=
  done (s.iff (s.pcsOn n) fun s =>
    (((s.wr (F.SPIRE_EXPECT.EXPECT_MODE n) 2).wr (F.SPIRE_EXPECT.EXP_NODE n) node).wr
      (F.SPIRE_EXPECT.EXP_PORT n) prt).expectEnforce n)

/-! ### Sensing -/

/-- The port listens in SENSE, its break silence over (R51, R53). -/
def State.sensing (s : State) (n : Fin 8) : Bool :=
  s.pcsOn n && s.link n == stSENSE && !s.port[n].neg.breakSilence

/-- ENERGY_QUALIFIED (R55, R354, R373). -/
def execEnergyQualified (n : Fin 8) (s : State) : Host.Outcome State Fault Refusal :=
  done (s.iff (s.pcsOn n) fun s =>
    let s1 := s.count (F.ED_STATUS.ED_QUAL n)
    if s.link n = stDORMANT then s1.wakeToSense n else s1)

/-- FLP_BURST_RECEIVED (R52). -/
def execFlpBurstReceived (n : Fin 8) (s : State) : Host.Outcome State Fault Refusal :=
  done (s.iff (s.sensing n) fun s => (s.enterAn n).partnerArrive n)

/-- What the automatic MDI/MDI-X finds on a link without a page exchange: MDIX is a free value (R39, R64, log entry 1). -/
def State.autoMdix (s : State) (n : Fin 8) : State :=
  let d := s.drawFree 1
  d.2.wr (F.LINK_STATUS.MDIX n) d.1

/-- A link without a page exchange has no abilities of the partner (R355). -/
def State.noPages (s : State) (n : Fin 8) : State :=
  s.modPort n fun p => { p with neg := { p.neg with partnerEee := false, partnerModes := [1], s1 := none, s2 := none } }

/-- PARALLEL_DETECT (R52). -/
def execParallelDetect (n : Fin 8) (s : State) : Host.Outcome State Fault Refusal :=
  done (s.iff (s.sensing n && s.on (F.NEG_CTRL.PARDET_EN n)) fun s =>
    ((((s.wrB (F.LINK_STATUS.PD_FD n) true).noPages n).autoMdix n).resolveStd n 1).partnerArrive n)

/-- FORCE_100_TRAIN (R52). -/
def execForce100Train (n : Fin 8) (s : State) : Host.Outcome State Fault Refusal :=
  done (s.iff (s.sensing n && s.on (F.NEG_CTRL.FORCE_100 n)) fun s => ((s.noPages n).autoMdix n).resolveStd n 1)

/-- AN_WAIT_EXPIRY (R52, R53): `nlp` says that normal link pulses were all that came. -/
def execAnWaitExpiry (n : Fin 8) (nlp : Bool) (s : State) : Host.Outcome State Fault Refusal :=
  done (
    if s.sensing n then
      let g := s.port[n].neg
      let s1 := if nlp then s.wr (F.LINK_STATUS.LAST_DOWN n) rNLP_ONLY
        else if g.woke && !g.arrived then s.count (F.LINK_COUNT.FALSE_WAKE n) else s
      if s.on (F.NEG_CTRL.DORM_EN n) then s1.enterDormant n else s1
    else s.iff (s.pcsOn n && s.link n == stAN) fun s => s.anFail n rAN_TIMEOUT)

/-- SENSE_FLP_BURST (R51). -/
def execSenseFlpBurst (n : Fin 8) (s : State) : Host.Outcome State Fault Refusal :=
  done (s.iff (s.sensing n) fun s =>
    s.modPort n fun p => { p with neg := { p.neg with flpSent := p.neg.flpSent + 1 } })

/-- DORM_BURST_EXPIRY (R51, R53, R618): the front end is ON for the burst alone; a TDR or WEAR run suspends the bursts
(R344). -/
def execDormBurstExpiry (n : Fin 8) (s : State) : Host.Outcome State Fault Refusal :=
  done (s.iff (s.pcsOn n && s.link n == stDORMANT && !s.on (F.DIAG_STATUS.DIAG_BUSY n)) fun s =>
    s.modPort n fun p => { p with neg := { p.neg with flpSent := p.neg.flpSent + 1 } })

/-- BREAK_SILENCE_END (R53). -/
def execBreakSilenceEnd (n : Fin 8) (s : State) : Host.Outcome State Fault Refusal :=
  done (s.iff (s.pcsOn n && s.link n == stSENSE) fun s =>
    s.modPort n fun p => { p with neg := { p.neg with breakSilence := false } })

/-! ### Page exchange -/

/-- Take one page into the negotiation (R42-R44). -/
def Neg.page (g : Neg) (pg : AnPage) : Neg :=
  match pg with
  | .std modes x e =>
    { g with partnerModes := g.partnerModes ++ modes, partnerExtNp := g.partnerExtNp || x, partnerEee := g.partnerEee || e }
  | .ext true d u => { g with s1 := some (d, u), s2 := none }
  | .ext false d u => if g.s1.isSome then { g with s2 := some (d, u) } else g
  | .null => g

/-- AN_PAGE_RECEIVED (R42-R48): the port answers with its next page while the exchange goes on; `last` says that the page
exchange ends with this page, `mdix` what the automatic MDI-X found. -/
def execAnPageReceived (n : Fin 8) (pg : AnPage) (last mdix : Bool) (s : State) : Host.Outcome State Fault Refusal :=
  done (s.iff (s.pcsOn n && s.link n == stAN) fun s =>
    let s1 := (s.wrB (F.LINK_STATUS.MDIX n) mdix).modPort n fun p => { p with neg := p.neg.page pg }
    let g := s1.port[n].neg
    let isS2 := match pg with | .ext false _ _ => true | _ => false
    let tie := isS2 && g.advModes.contains 7 && g.spireCapable &&
      (match g.s2 with | some (d, u) => tied g (readS2 d u) | none => false)
    if tie && decide (g.ties < 6) then (s1.tie n).sendPage n
    else if tie || last then s1.resolve n
    else s1.sendPage n)

/-! ### Training -/

/-- A Spire attempt runs: TRAIN in Spire, not in the silence between attempts (R46, R115). -/
def State.training (s : State) (n : Fin 8) : Bool :=
  s.pcsOn n && s.link n == stTRAIN && s.spire n && !s.port[n].trn.silence

/-- The four SLC_SNR values at the end of a phase with PAM-4 (R115, R126). -/
def PhaseMeas.snr (m : PhaseMeas) : List Nat := [0, 1, 2, 3].map fun x => slcSnr (.inl 4) (m.sums.getD x 0)

/-- Store the four SLC_SNR values and the sums behind them (R126). -/
def State.setSnr (s : State) (n : Fin 8) (m : PhaseMeas) : State :=
  ([0, 1, 2, 3].foldl (fun s x => s.wr (F.EQ_STATUS.SLC_SNR n x) (m.snr.getD x 0)) s).modPort n fun p =>
    { p with eq := { p.eq with errSq := [0, 1, 2, 3].map fun x => (x, m.sums.getD x 0) } }

/-- The PGA gain that brings a pair's signal to -12 dBFS RMS at the ADC, in steps of 0.5 dB from -6 dB (R83, R115): from the
gain now and the signal's power in 1/16 dBFS; between two steps either (log entry 84). -/
def pgaFor (gain : Nat) (rms : Int) : Nat := min 48 ((min 48 gain : Nat) + narrow (-192 - rms) 3).toNat

/-- The receive-only phase of this end sets the gain of each pair's slice (R115). -/
def State.setPga (s : State) (n : Fin 8) (m : PhaseMeas) : State :=
  [0, 1, 2, 3].foldl (fun s x =>
    let y := s.pairSlice n x
    s.iff (s.domOn (14 * n.val + y)) fun s =>
      s.wr (F.SLICE_CTRL.PGA_GAIN n y) (pgaFor (s.rd (F.SLICE_CTRL.PGA_GAIN n y)) (m.rms.getD x (-192)))) s

/-- The pairs in descending order of reference SNR, A before B before C before D where equal (R188). -/
def pairRank (ref : List Int) : List Nat :=
  let ins := fun (l : List Nat) (x : Nat) =>
    (l.filter fun y => decide (ref.getD x 0 ≤ ref.getD y 0)) ++ [x] ++ l.filter fun y => decide (ref.getD y 0 < ref.getD x 0)
  [0, 1, 2, 3].foldl ins []

/-- The margin of a pair order and loading (R188). -/
def State.margin (s : State) (n : Fin 8) (ref : List Int) (order : List Nat) (bits : List Nat) : Int :=
  let ms := (List.range 4).map fun i => ref.getD (order.getD i 0) 0 - s.reqSnr n (bits.getD i 0)
  ms.foldl min (ms.headD 0)

/-- The better loading at `b` for the best pair order: its skew and margin (R188). -/
def State.better (s : State) (n : Fin 8) (ref : List Int) (b : Nat) : Bool × Int :=
  let o := pairRank ref
  let mb := s.margin n ref o (loading b false)
  if b < 12 then (false, mb)
  else
    let ms := s.margin n ref o (loading b true)
    if mb < ms then (true, ms) else (false, mb)

/-- The highest b of a tier up to RES_TOP_RUNG (R188); at least 8. -/
def State.topBits (s : State) (n : Fin 8) (tier : Nat) : Nat :=
  max 8 (min 16 (8 + s.rd (F.PARTNER_INFO.RES_TOP_RUNG n) - 9 * tier))

/-- The highest b up to `top` whose better loading has the target margin, if any (R189, R192). -/
def State.bestBits (s : State) (n : Fin 8) (ref : List Int) (top : Nat) : Option Nat :=
  ((List.range 9).reverse.map (· + 8)).find? fun b =>
    decide (b ≤ top) && decide ((s.rd (F.LAD_MARGIN.TGT_MARGIN n) : Int) ≤ (s.better n ref b).2)

/-- The decisions at the end of DUPLEX4 (R115, R192), with the precoder coefficients taken from the long DFE: a tap goes from
S1.14 to S2.13, and which of the two values beside half of an odd one it takes the spec does not say; that it is rounded down
is the model's choice (log entry 91). -/
def State.decideRung (s : State) (n : Fin 8) (snr : List Nat) : State :=
  let ref := snr.map fun (v : Nat) => ((v : Int) + corrOf 2)
  let tier := s.port[n].trn.tier
  let b := (s.bestBits n ref (s.topBits n tier)).getD 8
  let coef := s.port[n].eq.coef
  let own := [0, 1, 2, 3].flatMap fun x => (List.range 48).map fun i =>
    unsignedOf 16 (signedOf 16 ((spFind coef (dfeOff x (i + 1) / 4)).getD 0 / 256) / 2)
  s.modPort n fun p => { p with trn := { p.trn with
    snrD4 := snr, ownOrder := pairRank ref, ownSkew := (s.better n ref b).1, ownRung := 9 * tier + (b - 8), ownCoef := own } }

/-- The lowest rung of the rate is supported (R120, R192). -/
def State.supported (s : State) (n : Fin 8) (snr : List Nat) : Bool :=
  decide ((s.rd (F.LAD_MARGIN.DN_MARGIN n) : Int) ≤ (s.better n (snr.map fun (v : Nat) => ((v : Int) + corrOf 2)) 8).2)

/-- Enter PRECODE: the received coefficients act as THP, the long DFE is cleared (R114, R115). -/
def State.enterPrecode (s : State) (n : Fin 8) : State :=
  let info := s.port[n].trn.info
  let m := s.port[n].eq.coef.filter fun e => !(coefIsDfe (4 * e.1) || coefIsThp (4 * e.1))
  let thp := match info with | some i => i.coef | none => []
  let m' := (List.range 192).foldl (fun m j =>
    let v := thp.getD j 0 % 2 ^ 16 * 256
    if v = 0 then m else spPut m (thpOff (j / 48) (j % 48 + 1) / 4) v) m
  ((s.modPort n fun p => { p with eq := { p.eq with coef := m' } }).setLens n 48 16).enterPhase n phPRECODE

/-- Enter FRAME_SYNC: rungs and loadings from INFO, frame counts and scramblers afresh, the cable delay measured
(R118, R143, R158, R200, R213). The precoders' histories are what PRECODE has left, which the model does not follow symbol by
symbol: free values (log entry 1). -/
def State.enterSync (s : State) (n : Fin 8) (dly : Nat) : State :=
  let t := s.port[n].trn
  let i := t.info.getD { coef := [], order := [0, 1, 2, 3], skew := false, rung := 9 * t.tier }
  let s1 := ((((s.wr (F.LAD_STATUS.TX_RUNG n) i.rung).wr (F.LAD_STATUS.TX_LOAD n)
    (actLoad i.rung (loadCode i.order i.skew))).wr (F.LAD_STATUS.RX_RUNG n) t.ownRung).wr (F.LAD_STATUS.RX_LOAD n)
    (actLoad t.ownRung (loadCode t.ownOrder t.ownSkew)))
  let d := s1.drawFree 3072
  let hist := [0, 1, 2, 3].map fun x => (List.range 48).map fun j => signedOf 16 (d.1 / 2 ^ (16 * (48 * x + j)) % 2 ^ 16)
  let s2 := (d.2.ladEnd n).modPort n fun p => { p with
    fr := { p.fr with
      tx := { hist := hist }, txScr := scrOnes, rxScr := scrOnes, txIdx := 0, txRungIdx := 0, rxIdx := 0, rxStart := 0, txFrame := none,
      done := [], lockCount := 0, upFrames := 0, halfSel := s.rd (F.FRM_CTRL.HALF_SEL n) },
    eq := { p.eq with snrValid := [false, false, false, false] } }
  let s3 := ((s2.wrB (F.FRM_STATUS.LOCK_RX n) false).wrB (F.FRM_STATUS.LOCK_PARTNER n) false).wr (F.RTX_RTT.CABLE_DLY n)
    (min 4095 dly)
  ((s3.enterPhase n phFRAME_SYNC).syncBound n).syncHalves n

/-- The end of the current phase at one end: what it checks, and the next phase (R115-R120). -/
def State.phaseEnd (s : State) (n : Fin 8) (m : PhaseMeas) : State :=
  let ph := s.phase n
  if ph = phQUIET then
    ((s.modPort n fun p => { p with trn := { p.trn with noise := m.noise } }).adaptsAt n (tierRate s.port[n].trn.tier)).enterPhase
      n phECHO_M
  else if ph = phECHO_M then
    if s.master n && decide (-384 < m.residual) then s.attemptFail n 2
    else (if s.master n then s else s.setPga n m).enterPhase n phECHO_S
  else if ph = phECHO_S then
    if !s.master n && decide (-384 < m.residual) then s.attemptFail n 2
    else (if s.master n then s.setPga n m else s).enterPhase n phDUPLEX2
  else if ph = phDUPLEX2 then s.enterPhase n phDUPLEX4
  else if ph = phDUPLEX4 then
    let s1 := s.setSnr n m
    if s.supported n m.snr then (s1.decideRung n m.snr).enterPhase n phINFO else s1.attemptFail n 3
  else if ph = phINFO then
    if s.port[n].trn.info.isSome then s.enterPrecode n else s.attemptFail n 4
  else if ph = phPRECODE then
    let s1 := s.setSnr n m
    let lost := [0, 1, 2, 3].any fun x => decide (m.snr.getD x 0 + 24 < s.port[n].trn.snrD4.getD x 0)
    if lost then s1.attemptFail n 5 else s1.enterSync n m.cableDly
  else s

/-- TRAIN_PHASE_END (R119): the master's count runs out. FRAME_SYNC ends otherwise (R159). -/
def execTrainPhaseEnd (n : Fin 8) (m : PhaseMeas) (s : State) : Host.Outcome State Fault Refusal :=
  done (s.iff (s.training n && s.master n) fun s => s.phaseEnd n m)

/-- TRAIN_PHASE_RECOGNISED (R116): the slave follows. -/
def execTrainPhaseRecognised (n : Fin 8) (m : PhaseMeas) (s : State) : Host.Outcome State Fault Refusal :=
  done (s.iff (s.training n && !s.master n) fun s => s.phaseEnd n m)

/-- INFO_BLOCK_RECEIVED (R118): one repetition, as how many of the 256 symbols of each bit of its content (3,104) and of its CRC (32) spell 1; the first
whose CRC checks is accepted. -/
def execInfoBlockReceived (n : Fin 8) (content crc : List Nat) (s : State) : Host.Outcome State Fault Refusal :=
  done (s.iff (s.training n && s.phase n == phINFO && s.port[n].trn.info.isNone && infoCrcGood (majorityBits (content ++ crc))) fun s =>
    s.modPort n fun p => { p with trn := { p.trn with info := some (infoOf (majorityBits (content ++ crc))) } })

/-- PARTNER_SILENT_EXPIRY (R120). -/
def execPartnerSilentExpiry (n : Fin 8) (s : State) : Host.Outcome State Fault Refusal :=
  done (s.iff (s.training n) fun s => s.attemptFail n 1)

/-- TRAIN_WAIT_EXPIRY (R53, R120): an attempt in Spire; the whole training in a standard mode. -/
def execTrainWaitExpiry (n : Fin 8) (s : State) : Host.Outcome State Fault Refusal :=
  done (
    if s.training n then s.attemptFail n 7
    else s.iff (s.pcsOn n && s.link n == stTRAIN && !s.spire n) fun s => s.linkDown n stSENSE rTRAIN_TIMEOUT)

/-- FRAME_SYNC_TIMEOUT (R120). -/
def execFrameSyncTimeout (n : Fin 8) (s : State) : Host.Outcome State Fault Refusal :=
  done (s.iff (s.training n && s.phase n == phFRAME_SYNC) fun s => s.attemptFail n 6)

/-- TRAIN_SILENCE_END (R46). -/
def execTrainSilenceEnd (n : Fin 8) (s : State) : Host.Outcome State Fault Refusal :=
  done (s.iff (s.pcsOn n && s.link n == stTRAIN && s.port[n].trn.silence) fun s => s.attemptStart n)

/-- STD_TRAIN_COMPLETE (R78, R114, R122): `e` is the precoder exchange of the clause; EEE is resolved where both ends
advertised it (10_diagnostics_lpi.md R355). -/
def execStdTrainComplete (n : Fin 8) (e : StdExchange) (s : State) : Host.Outcome State Fault Refusal :=
  done (s.iff (s.pcsOn n && s.link n == stTRAIN && !s.spire n) fun s =>
    ((s.stdPrecode n e.coef e.own).enterUp n (s.port[n].neg.advEee && s.port[n].neg.partnerEee)).syncHalves n)

/-- STD_LINK_FAIL (R52). -/
def execStdLinkFail (n : Fin 8) (s : State) : Host.Outcome State Fault Refusal :=
  done (s.iff (s.pcsOn n && s.link n == stUP && !s.spire n) fun s => s.linkDown n stSENSE rSTD_LINK_FAIL)

/-! ### Leaving HOLD -/

/-- LINK_DOWN_TIMER_EXPIRY (R52). -/
def execLinkDownTimerExpiry (n : Fin 8) (s : State) : Host.Outcome State Fault Refusal :=
  done (s.iff (s.pcsOn n && s.link n == stHOLD) fun s => s.linkDown n stSENSE rSPIRE_LDT)

/-- FAST_DEPARTURE (R52, R55, R58). -/
def execFastDeparture (n : Fin 8) (s : State) : Host.Outcome State Fault Refusal :=
  done (s.iff (s.pcsOn n && s.link n == stHOLD && s.on (F.SENSE_CTRL.FAST_DEPART n)) fun s =>
    (s.linkDown n stSENSE rPARTNER_GONE).partnerLeave n)

/-- INP_EXCEEDED (R231). -/
def execInpExceeded (n : Fin 8) (s : State) : Host.Outcome State Fault Refusal :=
  done (s.iff (s.link n == stHOLD && s.domOn (14 * n.val + 10)) fun s => s.wrB (F.RTX_EVENT.INP_EXCEEDED n) true)

/-! ### Presence checks (R56, R57, R748) -/

/-- Start a presence check where R56 accepts one. -/
def State.pchkStart (s : State) (n : Fin 8) : State :=
  ((((s.portWake n).wrB (F.PCHK.PCHK_BUSY n) true).wr (F.PCHK.PCHK_RESULT n) 0).wr (F.PCHK.PCHK_DIST n) 0).modPort n fun p =>
    { p with diag := { p.diag with pchkPair := s.rd (F.PCHK.PCHK_PAIR n) } }

/-- PCHK_GO = 1 on the pair in PCHK_PAIR: a check starts, or completes at once as REFUSED (R56). The pair's front end is the
slice that carries it (03_line_signal_path.md R87). That a refused check sets PCHK_DONE, with its record, is the model's
choice: `completes' against `no other effect' (log entry 76). -/
def State.pchkGo (s : State) (n : Fin 8) : State :=
  let dom := 14 * n.val + s.pairSlice n (s.rd (F.PCHK.PCHK_PAIR n))
  if !s.checking n && ((s.link n == stDISABLED && s.domOn dom) || s.link n == stDORMANT) then s.pchkStart n
  else (s.wr (F.PCHK.PCHK_RESULT n) 5).linkEvent n F.LINK_EVENT.PCHK_DONE

/-- PCHK_GO (R56). -/
def execPchkGo (n : Fin 8) (pair : Fin 4) (s : State) : Host.Outcome State Fault Refusal :=
  done (s.iff (s.pcsOn n) fun s => (s.wr (F.PCHK.PCHK_PAIR n) pair.val).pchkGo n)

/-- PCHK_PERIOD_EXPIRY (R56, R344): skipped while a check or a run is in progress. -/
def execPchkPeriodExpiry (n : Fin 8) (s : State) : Host.Outcome State Fault Refusal :=
  done (s.iff (s.pcsOn n && s.link n == stDORMANT && s.rd (F.SENSE_CTRL.PCHK_PERIOD n) != 0 && !s.checking n) fun s =>
    s.pchkStart n)

/-- The peak of largest magnitude. -/
def topPeak : List Refl → Option Refl
  | [] => none
  | p :: ps => match topPeak ps with
    | none => some p
    | some q => if q.2.natAbs ≤ p.2.natAbs then some p else some q

/-- PCHK_DIST of position `i`: 0 within 0.5 m, 0x7FF from 204.7 m (R57, R748). -/
def pchkDist (k : Scale) (i : Nat) : Nat := if k.near i then 0 else min (k.dist i) 0x7FF

/-- The result code and the distance of a presence check from the peaks of the averaged response, where `full` stands for Γ = 1
(R57, R748). -/
def classify (active : Bool) (full : Nat) (k : Scale) (peaks : List Refl) : Nat × Nat :=
  if active then (4, 0)
  else
    match topPeak peaks with
    | none => (1, 0)
    | some p =>
      if (full : Int) ≤ 2 * p.2 then (2, pchkDist k p.1)
      else if 2 * p.2 ≤ -(full : Int) then (3, pchkDist k p.1)
      else if peaks.any fun q => decide (1000 * q.2 ≤ -(111 * full : Nat) ∨ (91 * full : Nat) ≤ 1000 * q.2) then
        (6, pchkDist k p.1)
      else (1, 0)

/-- What a presence check finds on its pair: 32 shots of 2^13 samples, from their sums and the positions of the peaks, with the
hybrid residual, NVP_DLY and H_REF as for a TDR run (R345-R347, R748). -/
def State.pchkFind (s : State) (n : Fin 8) (active : Bool) (sums : List Int) (peaks : List Nat) : (Nat × Nat) × State :=
  let x := s.port[n].diag.pchkPair
  let h := s.hRef n x
  (classify active (2 * h.1) (tdrScale (s.nvp n)) (pickPeaks peaks fun i => s.tdrValue n x 5 i (sums.getD i 0)), h.2)

/-- PCHK_DONE (R52, R56, R748): `active` says that a partner signal crossed ED_THRESH during the shots. -/
def execPchkDone (n : Fin 8) (active : Bool) (m : PchkMeas) (s : State) :
    Host.Outcome State Fault Refusal :=
  done (s.iff (s.pcsOn n && s.on (F.PCHK.PCHK_BUSY n)) fun s =>
    let f := s.pchkFind n active m.sums m.peaks
    let r := f.1
    let s := f.2
    let s1 := (((s.wrB (F.PCHK.PCHK_BUSY n) false).wr (F.PCHK.PCHK_RESULT n) r.1).wr (F.PCHK.PCHK_DIST n) r.2).linkEvent n
      F.LINK_EVENT.PCHK_DONE
    if s.link n = stDORMANT then
      if r.1 = 1 ∨ r.1 = 4 then s1.wakeToSense n else s1.dormantDown n
    else s1)

end Sys2Proof.Machine
end

