-- ==== Sys2Proof/Machine/Ladder.lean ====
section
/-! DEFINITION. Meanings of the commands of the rate ladder: the default policy and its overrides, and the ends of the
handshake (06_rate_ladder.md R180-R195). -/

namespace Sys2Proof.Machine

/-- What a tick of the policy sees (R186). -/
structure TickIn where
  /-- reference SNR of pairs A-D, where every pair has completed a block since the last shift -/
  ref : Option (List Int)
  frames : Nat
  iters : Nat
  fails : Nat

/-- DEC_FRAMES and DEC_ITER_SUM of both halves. -/
def State.decFrames (s : State) (n : Fin 8) : Nat := s.rd (F.DEC_FRAMES.H_FRAMES n 0) + s.rd (F.DEC_FRAMES.H_FRAMES n 1)
def State.decIters (s : State) (n : Fin 8) : Nat := s.rd (F.DEC_ITER_SUM.H_ITER_SUM n 0) + s.rd (F.DEC_ITER_SUM.H_ITER_SUM n 1)

/-- The inputs of a tick (R186). -/
def State.tickIn (s : State) (n : Fin 8) : TickIn :=
  let l := s.port[n].lad
  { ref := if (s.port[n].eq.snrValid.take 4).all id then some (s.refSnr n) else none
    frames := (s.decFrames n + 2 ^ 33 - l.lastFrames) % 2 ^ 32
    iters := (s.decIters n + 2 ^ 33 - l.lastIter) % 2 ^ 32
    fails := l.cleanFails }

/-- The inputs count afresh (R186). -/
def State.tickTaken (s : State) (n : Fin 8) : State :=
  s.modPort n fun p => { p with lad := { p.lad with
    lastFrames := s.decFrames n, lastIter := s.decIters n, cleanFails := 0 } }

/-- ITER_DN, FAIL_DN and UP_DWELL as they act (R196). -/
def State.iterDn (s : State) (n : Fin 8) : Nat := max 1 (s.rd (F.LAD_CTRL.ITER_DN n))
def State.failDn (s : State) (n : Fin 8) : Nat := max 1 (s.rd (F.LAD_CTRL.FAIL_DN n))
def State.upDwell (s : State) (n : Fin 8) : Nat := max 1 (s.rd (F.LAD_CTRL.UP_DWELL n))

/-- A margin as LAD_PROPOSE shows it (R201). -/
def marginField (m : Int) : Nat := unsignedOf 10 (max (-512) (min 511 m))

/-- Where a run of consecutive ticks stands. -/
def runOn (c : Bool) (k : Nat) : Nat := if c then k + 1 else 0

/-- What a tick finds: the inputs, the present rung and loading, margins and triggers (R188-R193). -/
structure TickView where
  b : Nat
  tier : Nat
  load : Nat
  margin : Option Int
  dnRun : Nat
  upRun : Nat
  lowRun : Nat
  highRun : Nat
  /-- the downshift triggers of R189: margin, iterations, failures -/
  bySnr : Bool
  byIter : Bool
  byFail : Bool

/-- Evaluate a tick (R188-R193). -/
def State.tickView (s : State) (n : Fin 8) (i : TickIn) : TickView :=
  let l := s.port[n].lad
  let rung := s.rd (F.LAD_STATUS.RX_RUNG n)
  let load := s.rd (F.LAD_STATUS.RX_LOAD n)
  let b := rungBits rung
  let tier := rungTier rung
  let mg := i.ref.map fun ref => s.margin n ref (orderOf (load % 24)) (loading b (decide (24 ≤ load)))
  let dn : Int := s.rd (F.LAD_MARGIN.DN_MARGIN n)
  let tgt : Int := s.rd (F.LAD_MARGIN.TGT_MARGIN n)
  let hyst : Int := s.rd (F.LAD_MARGIN.HYST n)
  let low := match mg with | some m => decide (m < dn) | none => false
  let lim := s.rd (F.FRM_STATUS.ITER_LIMIT n)
  let top := s.topBits n tier
  let upOk := match i.ref with
    | some ref => decide (b + 1 ≤ top) && decide (tgt + hyst ≤ (s.better n ref (b + 1)).2) && decide (i.fails = 0) &&
        (i.frames == 0 || decide (8 * i.iters ≤ s.rd (F.LAD_CTRL.ITER_UP n) * lim * i.frames))
    | none => false
  let dnRun := runOn low l.dnRun
  { b := b, tier := tier, load := load, margin := mg
    dnRun := dnRun
    upRun := runOn upOk l.upRun
    lowRun := runOn (low && b == 8) l.lowRun
    highRun := runOn (b == top && (match mg with | some m => decide (tgt + hyst + 96 ≤ m) | none => false)) l.highRun
    bySnr := decide (2 ≤ dnRun)
    byIter := i.frames != 0 && decide (s.iterDn n * lim * i.frames < 8 * i.iters)
    byFail := decide (s.failDn n ≤ i.fails) }

/-- A request the policy would make: rung, loading and margin where known. -/
structure Want where
  rung : Nat
  load : Nat
  margin : Option Int

/-- The better loading at `b` as a request (R188). -/
def State.wantBetter (s : State) (n : Fin 8) (ref : List Int) (tier b : Nat) : Want :=
  let r := s.better n ref b
  { rung := 9 * tier + (b - 8), load := loadCode (pairRank ref) r.1, margin := some r.2 }

/-- The downshift of R189, if any. The rule's highest b with the target margin may lie above the present b; that the search ends
at the present b is the model's choice (log entry 96). -/
def State.wantDown (s : State) (n : Fin 8) (i : TickIn) (v : TickView) : Option Want :=
  match i.ref with
  | some ref =>
    let t := (s.bestBits n ref (min v.b (s.topBits n v.tier))).getD 8
    if v.bySnr then
      if t < v.b then some (s.wantBetter n ref v.tier t)
      else
        let w := s.wantBetter n ref v.tier v.b
        let cur := v.margin.getD 0
        if w.load ≠ actLoad w.rung v.load ∧ cur + (s.rd (F.LAD_MARGIN.HYST n) : Int) ≤ w.margin.getD 0 then some w else none
    else if v.byIter || v.byFail then
      if v.b = 8 then none else some (s.wantBetter n ref v.tier (if t < v.b then t else v.b - 1))
    else none
  | none =>
    if (v.byIter || v.byFail) && decide (8 < v.b) then
      let r := 9 * v.tier + (v.b - 1 - 8)
      some { rung := r, load := actLoad r v.load, margin := none }
    else none

/-- UP_HOLDOFF has passed (R190). -/
def State.upFree (s : State) (n : Fin 8) : Bool :=
  match s.port[n].lad.holdoffTb with
  | none => true
  | some t => decide (t + 16000000 * s.rd (F.LAD_CTRL.UP_HOLDOFF n) ≤ s.tb)

/-- The upshift of R190, if any. -/
def State.wantUp (s : State) (n : Fin 8) (i : TickIn) (v : TickView) : Option Want :=
  match i.ref with
  | some ref =>
    if decide (s.upDwell n ≤ v.upRun) && s.upFree n && decide (s.rd (F.LAD_CTRL.ITER_UP n) < s.iterDn n) then
      some (s.wantBetter n ref v.tier (v.b + 1))
    else none
  | none => none

/-- Write LAD_PROPOSE (R194, R201). -/
def State.propose (s : State) (n : Fin 8) (w : Want) : State :=
  let d := s.drawFree 10
  let s1 := match w.margin with
    | some m => s.wr (F.LAD_PROPOSE.P_MARGIN n) (marginField m)
    | none => d.2.wr (F.LAD_PROPOSE.P_MARGIN n) d.1
  ((s1.wrB (F.LAD_PROPOSE.P_VALID n) true).wr (F.LAD_PROPOSE.P_RUNG n) w.rung).wr (F.LAD_PROPOSE.P_LOAD n) w.load

/-- What becomes of the policy's target under LAD_MODE (R194). -/
def State.policyTarget (s : State) (n : Fin 8) (w : Want) : State :=
  match s.rd (F.LAD_CTRL.LAD_MODE n) with
  | 0 => s.ladRequest n w.rung w.load
  | 1 => (s.propose n w).wrB (F.LAD_EVENT.PROPOSAL n) true
  | 2 => s.propose n w
  | _ => s

/-- Set TIER_HINT (R193). -/
def State.setHint (s : State) (n : Fin 8) (h : Nat) : State :=
  if s.rd (F.LAD_STATUS.TIER_HINT n) = h then s
  else (s.wr (F.LAD_STATUS.TIER_HINT n) h).wrB (F.LAD_EVENT.TIER n) true

/-- TIER_HINT at a tick (R193). -/
def State.tierHint (s : State) (n : Fin 8) (v : TickView) : State :=
  let rates := s.rd (F.PARTNER_INFO.RES_SRATES n)
  let lower := (List.range v.tier).any fun k => bitB rates k
  let higher := (List.range (2 - v.tier)).any fun k => bitB rates (v.tier + 1 + k)
  if lower && v.b == 8 && (decide (8 ≤ v.lowRun) || v.byFail) then s.setHint n 1
  else if higher && decide (s.upDwell n ≤ v.highRun) then s.setHint n 2
  else s

/-- The policy's evaluation at a tick in UP (R186-R193). -/
def State.policy (s : State) (n : Fin 8) : State :=
  let i := s.tickIn n
  let v := s.tickView n i
  let s1 := match v.margin with | some m => s.wr (F.LAD_PROPOSE.CUR_MARGIN n) (marginField m) | none => s
  let s2 := (s1.modPort n fun p => { p with lad := { p.lad with
    dnRun := v.dnRun, upRun := v.upRun, lowRun := v.lowRun, highRun := v.highRun } }).tierHint n v
  if s.ladIdle n then
    match s.wantDown n i v with
    | some w => s2.policyTarget n w
    | none =>
      if v.bySnr || v.byIter || v.byFail then s2
      else match s.wantUp n i v with
        | some w => s2.policyTarget n w
        | none => s2
  else s2

/-- LADDER_TICK (R186, R191). -/
def execLadderTick (n : Fin 8) (s : State) : Host.Outcome State Fault Refusal :=
  done (s.iff (s.pcsOn n && s.linkUp n && s.spire n) fun s =>
    let s1 :=
      if s.link n = stHOLD then s
      else if 0 < s.port[n].lad.skipTicks then
        s.modPort n fun p => { p with lad := { p.lad with skipTicks := p.lad.skipTicks - 1 } }
      else s.policy n
    s1.tickTaken n)

/-- LREQ_GO = 1 on LREQ_RUNG and LREQ_LOAD as they stand (R195). -/
def State.lreqGo (s : State) (n : Fin 8) : State :=
  let r := s.rd (F.LAD_REQ.LREQ_RUNG n)
  let l := s.rd (F.LAD_REQ.LREQ_LOAD n)
  if s.linkUp n && s.spire n && s.ladIdle n && s.rd (F.LAD_CTRL.LAD_MODE n) != 3 &&
      s.rungOk n (s.rd (F.LAD_STATUS.RX_RUNG n)) r && decide (l ≤ 47) then
    (s.wr (F.LAD_REQ.LREQ_RESULT n) 1).ladRequest n r l
  else s.wr (F.LAD_REQ.LREQ_RESULT n) 2

/-- LREQ_GO (R195). -/
def execLreqGo (n : Fin 8) (rung load : Nat) (s : State) : Host.Outcome State Fault Refusal :=
  done (s.iff (s.pcsOn n) fun s =>
    ((s.wr (F.LAD_REQ.LREQ_RUNG n) rung).wr (F.LAD_REQ.LREQ_LOAD n) load).lreqGo n)

/-- The transmitter's requests are done with. -/
def State.txForget (s : State) (n : Fin 8) (ignore : Bool) : State :=
  (s.wr (F.LAD_STATUS.TX_STATE n) txIDLE).modPort n fun p =>
    { p with lad := { p.lad with gotRung := none, gotLoad := none, txIgnore := ignore } }

/-- SHIFT_ABORT (R182). -/
def execShiftAbort (n : Fin 8) (s : State) : Host.Outcome State Fault Refusal :=
  done (s.iff (s.pcsOn n && s.rd (F.LAD_STATUS.TX_STATE n) == txCOUNTDOWN) fun s =>
    ((s.count (F.LAD_ABORT.TX_ABORT n)).wrB (F.LAD_EVENT.TX_ABORTED n) true).txForget n true)

/-- SHIFT_BOUNDARY (R181, R182). -/
def execShiftBoundary (n : Fin 8) (s : State) : Host.Outcome State Fault Refusal :=
  done (s.iff (s.pcsOn n && s.rd (F.LAD_STATUS.TX_STATE n) == txCOMMITTED &&
      s.port[n].fr.txRungIdx == s.port[n].lad.txBound) fun s =>
    let l := s.port[n].lad
    let r := l.gotRung.getD (s.rd (F.LAD_STATUS.TX_RUNG n))
    let ld := actLoad r (l.gotLoad.getD (s.rd (F.LAD_STATUS.TX_LOAD n)))
    let s1 := ((s.wr (F.LAD_STATUS.TX_RUNG n) r).wr (F.LAD_STATUS.TX_LOAD n) ld).wrB (F.LAD_EVENT.TX_SHIFT n) true
    (((s1.modPort n fun p => { p with fr := { p.fr with txRungIdx := 0 } }).txForget n false).syncBound n).syncRtx n)

/-- DUAL_TRACK_START (R123, R183). -/
def execDualTrackStart (n : Fin 8) (s : State) : Host.Outcome State Fault Refusal :=
  done (s.iff (s.pcsOn n && s.rd (F.LAD_STATUS.RX_STATE n) == rxARMED) fun s =>
    let l := s.port[n].lad
    let same := l.reqRung == s.rd (F.LAD_STATUS.RX_RUNG n) && l.reqLoad == s.rd (F.LAD_STATUS.RX_LOAD n)
    ((s.wr (F.LAD_STATUS.RX_STATE n) rxDUAL).modPort n fun p => { p with
      lad := { p.lad with same := same, oldHeld := [], newHeld := [] } }).guard n fun _ => true)

/-- RX_REQUEST_HOLDOFF_END (R183). -/
def execRxRequestHoldoffEnd (n : Fin 8) (s : State) : Host.Outcome State Fault Refusal :=
  done (s.iff (s.pcsOn n) fun s =>
    (s.modPort n fun p => { p with lad := { p.lad with rxHoldoff := false } }).ladFallback n)

/-- TX_REQ_IGNORE_END (R182). -/
def execTxReqIgnoreEnd (n : Fin 8) (s : State) : Host.Outcome State Fault Refusal :=
  done (s.iff (s.pcsOn n) fun s => s.modPort n fun p => { p with lad := { p.lad with txIgnore := false } })

end Sys2Proof.Machine
end

