-- ==== Sys2Proof/Machine/Slices.lean ====
section
/-! DEFINITION. Meanings of the commands of slices, crossbar, impulse detectors and adaptation
(03_line_signal_path.md R85-R94, 04_equalisation_cancellation.md R121-R126). -/

namespace Sys2Proof.Machine

/-- The domain of slice `x` of port `n` is ON. -/
def State.sliceOn (s : State) (n : Fin 8) (x : Fin 5) : Bool := s.domOn (14 * n.val + x.val)

/-- TRIM_APPLY (R85). -/
def execTrimApply (n : Fin 8) (x : Fin 5) (s : State) : Host.Outcome State Fault Refusal :=
  done (s.iff (s.sliceOn n x) fun s => s.trimApply n x)

/-- TRIM_COPY (R75, R85): at a boundary of R75, and not while the port is in HOLD. -/
def execTrimCopy (n : Fin 8) (x : Fin 5) (s : State) : Host.Outcome State Fault Refusal :=
  done (s.iff (s.sliceOn n x && s.on (F.SLICE_CTRL.TRIM_PEND n x) && s.link n != stHOLD && s.aligned n) fun s => s.trimCopy n x)

/-- PD_Pn_AFE_S is ON: the crossbar registers can be written. -/
def State.xbOn (s : State) (n : Fin 8) : Bool := s.domOn (14 * n.val + 4)

/-- XB_SHADOW (R89). -/
def execXbShadow (n : Fin 8) (p : Fin 4) (s : State) : Host.Outcome State Fault Refusal :=
  done (s.iff (s.xbOn n) fun s => s.xbRequest n xbSHADOW p)

/-- XB_SWAP (R89). -/
def execXbSwap (n : Fin 8) (p : Fin 4) (s : State) : Host.Outcome State Fault Refusal :=
  done (s.iff (s.xbOn n) fun s => s.xbRequest n xbSWAP p)

/-- XB_HANDBACK (R89): SHADOW(p) asked for in SWAP(p). -/
def execXbHandback (n : Fin 8) (p : Fin 4) (s : State) : Host.Outcome State Fault Refusal :=
  done (s.iff (s.xbOn n) fun s => s.xbRequest n xbSHADOW p)

/-- XB_SPARE (R89, R91). -/
def execXbSpare (n : Fin 8) (p : Fin 4) (s : State) : Host.Outcome State Fault Refusal :=
  done (s.iff (s.xbOn n) fun s => s.xbRequest n xbSPARE p)

/-- XB_IDLE (R89). -/
def execXbIdle (n : Fin 8) (p : Fin 4) (s : State) : Host.Outcome State Fault Refusal :=
  done (s.iff (s.xbOn n) fun s => s.xbRequest n xbIDLE p)

/-- The boundary coincides with a shift boundary, or falls in dual tracking (R91). -/
def State.shiftHere (s : State) (n : Fin 8) : Bool :=
  let t := s.rd (F.LAD_STATUS.TX_STATE n)
  let r := s.rd (F.LAD_STATUS.RX_STATE n)
  let p := s.port[n]
  (t == txCOMMITTED && p.fr.txRungIdx == p.lad.txBound) || r == rxDUAL || (r == rxARMED && p.fr.rxIdx - p.fr.rxStart == p.lad.rxBound)

/-- XB_SWITCH_POINT (R75, R90, R91). -/
def execXbSwitchPoint (n : Fin 8) (s : State) : Host.Outcome State Fault Refusal :=
  done (s.iff (s.xbOn n && s.link n != stHOLD && s.aligned n && !s.shiftHere n) fun s =>
    match s.port[n].sl.xbPend with
    | none => s
    | some (.swap p) => s.xbDone n xbSWAP p
    | some (.handback p) => s.xbDone n xbSHADOW p)

/-- IMPULSE_FLAG_RISE (R92): `past` and `last` are the magnitudes in ADC codes of the samples since the detector's last
command, the newest last. The last 16 are held to the criteria, the windows before them track the mean, and the last one too where no
criterion holds: the mean stands still while the flag is set (log entry 87). -/
def execImpulseFlagRise (n : Fin 8) (x : Fin 5) (past last : List Nat) (s : State) : Host.Outcome State Fault Refusal :=
  done (s.iff (s.sliceOn n x && s.rd (F.LPI_STATUS.RX_LPI n) != lpiQUIET && !s.on (F.IMP_STATUS.IMP_FLAG n x)) fun s =>
    let ms := adcMags (past ++ last)
    let last := ms.drop (ms.length - 16)
    let sums := sums16 ms
    let s1 := s.impTrack n x sums.dropLast
    if s.on (F.IMP_CTRL.IMP_EN n x) && (s.critA n x last || s.critB n x last (s1.impMean n x)) then s1.impSet n x
    else s1.impTrack n x (sums.drop (sums.length - 1)))

/-- IMPULSE_FLAG_CLEAR (R93). -/
def execImpulseFlagClear (n : Fin 8) (x : Fin 5) (s : State) : Host.Outcome State Fault Refusal :=
  done (s.iff (s.sliceOn n x) fun s => s.impClr n x)

/-- IMP_EN_CLEAR (R92). -/
def execImpEnClear (n : Fin 8) (x : Fin 5) (s : State) : Host.Outcome State Fault Refusal :=
  done (s.iff (s.sliceOn n x) fun s => (s.wrB (F.IMP_CTRL.IMP_EN n x) false).impClr n x)

/-- IMPB_VALID_SET (R92). -/
def execImpbValidSet (n : Fin 8) (x : Fin 5) (s : State) : Host.Outcome State Fault Refusal :=
  done (s.iff (s.sliceOn n x) fun s => s.wrB (F.IMP_STATUS.IMPB_VALID n x) true)

/-- ADAPT_COMMIT (R104, R111-R113, R124): `w` is the offset in the coefficient window, `k` the symbol, `half2` the second half
of a training phase, `early` an update computed before the last write of ADAPT, `win` what the receive chain works on. -/
def execAdaptCommit (n : Fin 8) (w k : Nat) (half2 early : Bool) (win : RxWin) (s : State) : Host.Outcome State Fault Refusal :=
  done (s.adaptCommit n w k half2 early win)

/-- GUARD_END (R123). -/
def execGuardEnd (n : Fin 8) (p : Fin 5) (s : State) : Host.Outcome State Fault Refusal :=
  done (s.freeze n (fun f => isDD f && f.1 == p.val) 3 false)

/-- FREEZE_HANG_EXPIRY (R123): `hold` tells the HOLD cause from the IMPULSE cause. -/
def execFreezeHangExpiry (n : Fin 8) (hold : Bool) (s : State) : Host.Outcome State Fault Refusal :=
  done (
    if hold then s.iff s.port[n].eq.hangHold fun s =>
      (s.freeze n (fun _ => true) frzHOLD false).modPort n fun p => { p with eq := { p.eq with hangHold := false } }
    else s.iff s.port[n].eq.hangImp fun s =>
      (s.freeze n (fun _ => true) frzIMPULSE false).modPort n fun p => { p with eq := { p.eq with hangImp := false } })

/-- PGA_GAIN_WRITE (R95, R121). -/
def execPgaGainWrite (n : Fin 8) (x : Fin 5) (gain : Nat) (s : State) : Host.Outcome State Fault Refusal :=
  done (s.iff (s.sliceOn n x) fun s =>
    let s1 := s.wr (F.SLICE_CTRL.PGA_GAIN n x) gain
    if s.link n = stTRAIN ∨ s.link n = stUP then s1.guard n fun y => some y == s.carriedPair n x else s1)

/-- SNR_BLOCK_DONE (R126, R132). The block is complete with 2^16 symbols that count. The shadow set's value
stands in SHADOW only. -/
def execSnrBlockDone (n : Fin 8) (x : Fin 5) (m : SnrBlock) (s : State) : Host.Outcome State Fault Refusal :=
  let t := errTotals m.errs
  done (s.iff (s.domOn (14 * n.val + 6) && decide (t.1 = 2 ^ 16) &&
      (x.val != 4 || s.rd (F.XB_STATUS.XB_STATE n) == xbSHADOW)) fun s =>
    let p := if s.spire n then .inl (s.slicerOrder n (s.chainPair n x)) else .inr m.ps
    (s.wr (F.EQ_STATUS.SLC_SNR n x) (slcSnr p t.2)).modPort n fun q =>
      { q with eq := { q.eq with snrValid := q.eq.snrValid.set x true, errSq := spPut q.eq.errSq x t.2 } })

end Sys2Proof.Machine
end

