-- ==== Sys2Proof/Machine/Spills.lean ====
section
/-! DEFINITION. Meanings of the commands of retransmission, ingress, spill and twin paths (07_retransmission_spill.md
R212-R232, 08_twin_paths.md R259, R270, 11_host_lanes.md R381, R391, 14_cupola.md R499). -/

namespace Sys2Proof.Machine

/-- A replay of port `n` has begun in this very nanosecond. -/
def State.replayNow (s : State) (n : Fin 8) : Bool :=
  match s.port[n].rtx.lastReplay with | some e => e.2 == s.tb && s.port[n].rtx.replay.isSome | none => false

/-- ACK_TIMER_EXPIRY (R212, R266): with a NAK replay in the same cycle, that one replay runs, at the NAK's value. -/
def execAckTimerExpiry (n : Fin 8) (s : State) : Host.Outcome State Fault Refusal :=
  done (s.iff (s.domOn (14 * n.val + 10) && s.on (F.RTX_STATUS.ACK_TMR n) && !s.replayNow n) fun s =>
    let s1 := s.timeoutReplay n
    if s.twinned n then s1.syncTwin (pairOf n) else s1.syncRtx n)

/-! ### Ingress (R226, R232, R381, R388, R391) -/

/-- A block from the host goes by: no part of its Ethernet frame is taken. -/
def State.passBy (s : State) (o : Fin 12) (b : Blk) : State :=
  s.modSide o fun h =>
    if b.isStart then { h with inFrame := true, dropping := true }
    else if b.isTerm then { h with inFrame := false, dropping := false }
    else h

/-- A block from the host while the owner is down is discarded (R232). -/
def State.downDiscard (s : State) (o : Fin 12) (b : Blk) : State :=
  let s1 := if b.isIdle || !s.spillRegs o then s else s.count (F.DOWN_DISCARD.DOWN_DISCARD (spillPort o))
  s1.passBy o b

/-- One block enters the ingress FIFO (R226, R359). -/
def State.ingressBlk (s : State) (n : Fin 8) (o : Fin 12) (b : Blk) : State :=
  if s.ownerUp o then
    let s1 := (s.ingressPush o b).spillCheck o
    if b.isFill then s1 else s1.lpiTrigger n
  else s.downDiscard o b

/-- What the rate-matching FIFO does to a block at fill level `fill` (R381): deleted, or followed by an inserted Idle
block. -/
def rmDeletes (prev : Option Blk) (b : Blk) (fill : Nat) (nextStart : Bool) : Bool :=
  decide (48 ≤ fill) &&
    ((b.isIdle && !((match prev with | some p => p.isTerm | none => false) && nextStart)) ||
     (b.isOrdered && prev == some b))
def rmInserts (b : Blk) (fill : Nat) (inFrame : Bool) : Bool :=
  decide (fill ≤ 16) && (b.isTerm || (!inFrame && (b.isIdle || b.isOrdered)))

/-- Rate matching and the FIFO input (R381). -/
def State.rateMatch (s : State) (n : Fin 8) (b : Blk) (fill : Nat) (nextStart : Bool) : State :=
  let o := s.ownerOf n
  let s1 := s.modSide o fun h => { h with rmPrev := some b }
  if rmDeletes s.side[o].rmPrev b fill nextStart then s1.count (F.HL_CNT_RM.IDLE_DEL n)
  else if rmInserts b fill s.side[o].inFrame then
    ((s1.ingressBlk n o b).ingressBlk n o idleBlk).count (F.HL_CNT_RM.IDLE_INS n)
  else s1.ingressBlk n o b

/-- The lane cannot deliver what the host sends (R391). -/
def State.laneLost (s : State) (n : Fin 8) : Bool :=
  s.on (F.HL_STATUS.LOS n) || s.on (F.HL_STATUS.LOL n) || !s.on (F.HL_STATUS.BLOCK_LOCK n)

/-- A near-end loopback, serial or parallel, is in effect (R389). -/
def State.nearEnd (s : State) (n : Fin 8) : Bool :=
  s.rd (F.HL_STATUS.LB_CUR n) == 1 || s.rd (F.HL_STATUS.LB_CUR n) == 2

/-- What a near-end loopback sends back to the host: its own signal, or what the receive PCS makes of it, unless the generator
runs or the lane is in electrical idle (R386, R389, R390). -/
def State.hostBack (s : State) (n : Fin 8) (b : Blk) : State :=
  s.iff (s.nearEnd n && !s.on (F.HL_PRBS_CTRL.GEN_EN n) && s.eiCause n == 0) fun s =>
    s.modLane n fun l => { l with
      out := some (if s.rd (F.HL_STATUS.LB_CUR n) = 2 && s.laneLost n then localFaultBlk else b) }

/-- A block that Clause 49 gives no meaning: an invalid sync header, or a block type it does not list (R404). -/
def badBlock (sync pay : Nat) : Bool :=
  let b : Blk := ⟨true, pay⟩
  !(sync == 1 || (sync == 2 && (b.type == 0x1E || b.isStart || b.isTerm || b.isOrdered)))

/-- A block time without signal or lock: one Local Fault ordered set in every 64 enters the ingress stream (R391). -/
def State.lostBlock (s : State) (n : Fin 8) : State :=
  (s.iff (s.lane[n].lostTimes % 64 == 0) fun s => s.ingressBlk n (s.ownerOf n) localFaultBlk).modLane n fun l =>
    { l with lostTimes := l.lostTimes + 1 }

/-- A block from the host at the lane's receive PCS (R381, R388-R391). -/
def State.hostBlock (s : State) (n : Fin 8) (sync pay fill : Nat) (nextStart : Bool) : State :=
  let t := transcodeIn sync pay
  let test := s.on (F.HL_PRBS_CTRL.CHK_EN n) || s.rd (F.HL_STATUS.LB_CUR n) != 0
  if s.laneLost n then (if s.on (F.LPI_STATUS.HOST_LPI n) || test then s else s.lostBlock n)
  else if s.on (F.HL_PRBS_CTRL.CHK_EN n) then s
  else
    let s0 := (s.modLane n fun l => { l with lostTimes := 0 }).iff (badBlock sync pay) fun s => s.count (F.HL_CNT_ERR.ERR_BLK n)
    if test then s0.iff (s.nearEnd n) fun s => s.passBy (s.ownerOf n) t.1
    else
      let s1 := if t.2 then s0.blkErr (s.ownerOf n) F.BLK_ERR.SYNC_BAD 1 else s0
      let lpi := t.1 == lpiBlk
      let s2 := if s.domOn (14 * n.val + 9) then s1.wrB (F.LPI_STATUS.HOST_LPI n) lpi else s1
      (s2.iff (lpi && s.rd (F.HL_STATUS.EYE_W n) != 0) fun s => s.setEye n 0).rateMatch n t.1 fill nextStart

/-- INGRESS_BLOCK (R381): a 66-bit host block, the fill level of the rate-matching FIFO, and whether a start block
follows. On a lane without signal or lock it is a block time of that lane. -/
def execIngressBlock (n : Fin 8) (sync pay fill : Nat) (nextStart : Bool) (s : State) : Host.Outcome State Fault Refusal :=
  done (s.iff (s.hlOn n) fun s =>
    (s.hostBack n (transcodeIn sync pay).1).iff (!s.laneIdle n) fun s => s.hostBlock n sync pay fill nextStart)

/-! ### Spill (R219-R227, R499) -/

/-- The spill interface of the Cupola front end runs: PD_CUP_SPILL is ON and the pool ready. -/
def State.spillRuns (s : State) : Bool := s.domOn 124 && s.on F.SPL_STATUS.SPL_RDY

/-- The owner has reached the entry level in direct mode (R220). -/
def State.atEntry (s : State) (o : Fin 12) : Bool :=
  !s.spilling o && s.ownerSpire o && s.on (F.SPILL_CTRL.SPILL_EN (spillPort o)) &&
    decide (s.spillOn o ≤ s.side[o].ingress.length)

/-- SPILL_PAGE_ALLOC (R220, R223-R225, R499). -/
def execSpillPageAlloc (o : Fin 12) (s : State) : Host.Outcome State Fault Refusal :=
  done (s.iff (s.spillRuns && (s.needPage o || s.atEntry o)) fun s =>
    if s.canAlloc o then
      let s1 := if s.spilling o then s else s.spillEnter o
      ((s1.allocPage o).wrB (F.SPILL_STATUS.SPILL_FULL (spillPort o)) false).icongAll
    else (s.setSpillFull o).icong o)

/-- SPILL_WRITE_DONE (R219, R222). -/
def execSpillWriteDone (o : Fin 12) (s : State) : Host.Outcome State Fault Refusal :=
  done (s.iff (s.spillRuns && s.spilling o) fun s =>
    let s1 := s.fillWrite o
    match s1.side[o].open? with
    | none => s1.spillCheck o
    | some p => ((if 8 ≤ s1.side[o].wbuf.length then s1.writeGroup o p else s1).closeCheck o).spillCheck o)

/-- SPILL_READ_DONE (R219, R222, R227): `ue` says that the read met an uncorrectable error. -/
def execSpillReadDone (o : Fin 12) (ue : Bool) (s : State) : Host.Outcome State Fault Refusal :=
  done (s.iff (s.spillRuns && decide (s.side[o].rbuf.length + 8 ≤ rbufCap)) fun s =>
    match nextRead 0 s.side[o].pages with
    | none => s.closeCheck o
    | some (i, p) => ((s.readGroup o i p ue).closeCheck o).spillCheck o)

/-- The owner whose spill registers port `n`'s page shows (R258). -/
def State.spillOwner (s : State) (n : Fin 8) : Fin 12 := s.ownerOf n

/-- The pool against which SPILL_RSV is judged (R223). -/
def State.rsvPool (s : State) : Nat :=
  if s.on F.SPL_STATUS.SPL_RDY then s.cup.spt.pages - s.cup.spt.bad.length else s.rd F.SPL_CFG.SPL_PAGES

/-- A write of SPILL_PAGES (R223). -/
def State.rsvWrite (s : State) (n : Fin 8) (rsv mx : Nat) : State :=
  let o := s.spillOwner n
  let q := spillPort o
  let r := rsv % 2 ^ 16
  let old := s.spillRsv o
  let s1 := s.wr (F.SPILL_PAGES.SPILL_MAX q) mx
  if old < r ∧ s.rsvPool < s.rsvSum - old + r then (s1.wrB (F.SPILL_STATUS.RSV_REFUSED q) true).icong o
  else ((((s1.wr (F.SPILL_PAGES.SPILL_RSV q) r).wrB (F.SPILL_STATUS.RSV_REFUSED q) false).syncPool)).icongAll

/-- SPILL_RSV_WRITE (R223). -/
def execSpillRsvWrite (n : Fin 8) (rsv mx : Nat) (s : State) : Host.Outcome State Fault Refusal :=
  done (s.iff (s.domOn (14 * n.val + 10)) fun s => s.rsvWrite n rsv mx)

/-- SPILL_PAGES_RELEASE (R232): what link down left is returned. -/
def execSpillPagesRelease (o : Fin 12) (s : State) : Host.Outcome State Fault Refusal :=
  done (s.iff (s.domOn 124) fun s =>
    let ks := s.side[o].toRelease
    (((ks.foldl State.freePage s).modSide o fun h => { h with toRelease := [] }).syncInUse o).icongAll)

/-! ### Twin configuration and stall (R259, R270) -/

/-- The engine's copy of a spill register set at the rise of TW_ACTIVE (R258; log entry 13). -/
def State.copySpill (s : State) (k : Fin 4) : State :=
  let a := k.val
  let e := 4096 + 8 + k.val
  let cp (f : Nat → Fld) (s : State) : State := s.wr (f e) (s.rd (f a))
  let z (f : Nat → Fld) (s : State) : State := s.wr (f e) 0
  let s1 := cp F.SPILL_CTRL.SPILL_EN (cp F.SPILL_CTRL.FC_EN (cp F.SPILL_CTRL.SPILL_ON (cp F.SPILL_CTRL.PAUSE_FIFO
    (cp F.SPILL_CTRL.HEADROOM (cp F.SPILL_PAGES.SPILL_RSV (cp F.SPILL_PAGES.SPILL_MAX s))))))
  let s2 := z F.SPILL_STATUS.SPILLING (z F.SPILL_STATUS.ICONG (z F.SPILL_STATUS.SPILL_FULL (z F.SPILL_STATUS.RSV_REFUSED
    (z F.SPILL_PEAK.PEAK s1))))
  (((((((z F.SPILL_BLOCKS_LO.SPB_LO (z F.SPILL_BLOCKS_HI.SPB_HI s2)).wr (F.SPILL_BLOCKS_HI.SPB_HI e).hidden 0).wr
    (F.SPILL_EV.SPILL_ENTRIES e) 0).wr (F.SPILL_EV.ICONG_ON e) 0).wr (F.ING_DROP.DROP_FRAMES e) 0).wr (F.ING_LOSS.TRUNC e)
    0).wr (F.ING_LOSS.SPILL_LOST e) 0).wr (F.DOWN_DISCARD.DOWN_DISCARD e) 0

/-- TW_ACTIVE rises: the engine afresh, its counters at 0 (R256, R276-R285). -/
def State.twinStart (s : State) (k : Fin 4) : State :=
  let s1 := s.clearRegs fun a => decide (0x1F0008 + 0x100 * k.val ≤ a ∧ a < 0x1F0020 + 0x100 * k.val)
  ((((s1.copySpill k).modTwin k fun t => { primary := t.primary }).modSide (ownTwin k) fun h =>
    { toRelease := h.toRelease, pages := [] }).syncPool).syncInUse (ownTwin k)

/-- TW_EN and PRIMARY take effect (R257-R259). -/
def State.twinApply (s : State) (k : Fin 4) : State :=
  let en := s.on (F.TW_CTRL.TW_EN k)
  let was := s.twActive k
  let s1 := if was && !en then s.dropSide (ownTwin k) else s
  let s2 := ((((s1.wrB (F.TW_STATUS.TW_ACTIVE k) en).wrB (F.TW_STATUS.CFG_PEND k) false).modTwin k fun t =>
    { t with primary := s.rd (F.TW_CTRL.PRIMARY k) }).wr (F.TW_STATUS.PAIR_STATE k) pDOWN)
  let s3 := if en && !was then s2.twinStart k else s2
  let s4 := if en then s3 else s3.wrB (F.TW_STATUS.LANE k) false
  (((s4.syncPool).icongAll).syncLane (portOf k 0)).syncLane (portOf k 1)

/-- TWIN_CFG_APPLY (R259). -/
def execTwinCfgApply (k : Fin 4) (s : State) : Host.Outcome State Fault Refusal :=
  done (s.iff (s.domOn 124 && s.on (F.TW_STATUS.CFG_PEND k) && !s.active (portOf k 0) && !s.active (portOf k 1)) fun s =>
    s.twinApply k)

/-- MERGE_STALL (R270). -/
def execMergeStall (k : Fin 4) (s : State) : Host.Outcome State Fault Refusal :=
  done (s.iff (s.domOn 124 && s.twActive k) fun s => s.stall k)

end Sys2Proof.Machine
end

