-- ==== Sys2Proof/Machine/Fabric.lean ====
section
/-! DEFINITION. The register fabric: where an offset leads, the ordered checks, what a write and a read do to each kind of
register, hold queues and latches (15_host_access_mailboxes.md R532-R541, R549, R550, R746; 01_architecture.md R21-R28,
R37). -/

namespace Sys2Proof.Machine

/-! ### Places (R22-R27, R127, R479) -/

/-- What answers at an offset of a page. -/
inductive Place
  | ident (p : PageRef)
  | busy (p : PageRef)
  | reg (p : PageRef) (g : Reg)
  /-- a word of the coefficient window -/
  | coef (p : PageRef) (n : Fin 8) (w : Nat)
  /-- a word of the windows onto MEM0 and MEM1 -/
  | bank (p : PageRef) (n : Fin 8) (second : Bool) (o : Nat)
  /-- a word of a core's window onto IMEM or TCM -/
  | core (p : PageRef) (i : Fin 11) (o : Nat)

/-- The page of a place. -/
def Place.page : Place → PageRef
  | .ident p => p
  | .busy p => p
  | .reg p _ => p
  | .coef p _ _ => p
  | .bank p _ _ _ => p
  | .core p _ _ => p

/-- The register of a card, as a place. -/
def PageRef.regPlace (p : PageRef) : Option Place := p.reg?.map fun g => .reg p g

/-- The port of a port page. -/
def PageRef.port (p : PageRef) : Fin 8 := ⟨p.inst % 8, by omega⟩

/-- The place in a port page. -/
def PageRef.portPlace (p : PageRef) : Option Place :=
  if p.off < 0x20000 then p.regPlace
  else if p.off < 0x40000 then (if coefWordB (p.off - 0x20000) then some (.coef p p.port (p.off - 0x20000)) else none)
  else if p.off < 0x60000 then some (.bank p p.port false (p.off - 0x40000))
  else if p.off < 0x80000 then some (.bank p p.port true (p.off - 0x60000))
  else p.regPlace

/-- The place in the SQC page. -/
def PageRef.sqcPlace (p : PageRef) : Option Place :=
  let i := (p.off - 0x10000) / 0x30000
  let o := (p.off - 0x10000) % 0x30000
  if p.off < 0x10000 then p.regPlace
  else if h : i < 10 then (if 0x10000 ≤ o then some (.core p ⟨i, by omega⟩ (o - 0x10000)) else p.regPlace)
  else none

/-- The place at a word-aligned offset of a page (R23, R25). -/
def PageRef.place (p : PageRef) : Option Place :=
  if p.off = 0 then some (.ident p)
  else if p.off = 0xFFC ∧ p.info.busy then some (.busy p)
  else match p.info.kind with
    | .port => p.portPlace
    | .sqc => p.sqcPlace
    | .lnt => if 0x10000 ≤ p.off ∧ p.off < 0x30000 then some (.core p lantern (p.off - 0x10000)) else p.regPlace
    | _ => p.regPlace

/-- The place at a normal-view offset. -/
def placeOf (a : Nat) : Option Place := match pageOf (a - a % 4) with | some p => p.place | none => none

/-- The view that offset bits [27:26] select (R22). -/
def viewOf (ofs : Nat) : View := match ofs / 2 ^ 26 % 4 with | 0 => .normal | 1 => .set | 2 => .clear | _ => .toggle

/-- The view is listed for the place (R10). -/
def Place.hasView (pl : Place) (v : View) : Bool :=
  match v, pl with
  | .normal, _ => true
  | .clear, .busy _ => true
  | .set, .reg _ g => g.card.vSet
  | .clear, .reg _ g => g.card.vClr
  | .toggle, .reg _ g => g.card.vTgl
  | _, _ => false

/-- Writes to the place are posted. -/
def Place.posted : Place → Bool
  | .ident _ => false
  | .busy _ => false
  | .reg _ g => g.card.posted
  | _ => true

/-- The power domain of the place (R26): none where the place answers in every power state. -/
def Place.dom : Place → Option Nat
  | .ident _ => none
  | .busy _ => none
  | .reg _ g => some g.dom
  | .coef _ n w => some (14 * n.val + (if coefIsCanc w then 5 else 6))
  | .bank _ n second _ => some (14 * n.val + (if second then 13 else 12))
  | .core _ i _ => some (coreDom i.val)

/-- The place's power domain is ON. -/
def State.placeOn (s : State) (pl : Place) : Bool := match pl.dom with | some d => s.domOn d | none => true

/-- The gates of core `i` are on (R590). -/
def State.coreClocked (s : State) (i : Nat) : Bool :=
  s.gateOn i && (i == 10 || s.gateOn (if i < 4 then 16 else if i < 8 then 17 else 18))

/-- The clock of a register's domain runs (R35, R37, R590). -/
def State.regClocked (s : State) (p : PageRef) (g : Reg) : Bool :=
  match p.info.kind, g.card.clk with
  | .port, .line => s.domOn (14 * p.inst)
  | .cup, .cupc => s.gateOn 11
  | .cup, .ddr => s.gateOn (20 + g.i) && s.gateOn 24
  | .sqc, .seq => s.coreClocked g.n
  | .lnt, _ => s.gateOn 10
  | .mon, _ => s.gateOn 25
  | .cal, _ => s.gateOn 25
  | .bf, .bf => s.xt 1 == xtREADY
  | _, _ => true

/-- The clock of the place's domain runs. -/
def State.placeClocked (s : State) : Place → Bool
  | .ident _ => true
  | .busy _ => true
  | .reg p g => s.regClocked p g
  | .coef _ n _ => s.domOn (14 * n.val)
  | .bank _ _ _ _ => true
  | .core _ i _ => s.coreClocked i.val

/-! ### Rights (R21, R473, R549, R560, R641, R669) -/

/-- Identities that the Keep, SQC and LNT pages take (R473, 20_keep_startup.md). -/
def State.inner (s : State) (mid : Nat) : Bool := mid == 0 || mid == 1 || mid == 0x10 || (mid == 0x13 && s.kep.dbg)

/-- The table of R549. -/
def State.admits549 (s : State) (mid : Nat) (p : PageRef) (wr : Bool) : Bool :=
  let k := p.info.kind
  let outer := k != .kep && k != .sqc && k != .lnt
  if mid = 0 ∨ mid = 1 ∨ mid = 0x10 then true
  else if mid = 0x13 then s.kep.dbg
  else if mid = 2 ∨ mid = 3 ∨ mid = 0x11 then !wr && outer
  else if mid = 0x12 then outer && (s.on F.HIF_CTRL.MDIO_PRIV || !wr)
  else if 8 ≤ mid ∧ mid < 16 then
    let tw := 0xF0000 + 0x100 * ((mid - 8) % 4)
    ((k == .port || k == .hl) && p.inst == mid - 8) || (k == .cup && decide (tw ≤ p.off ∧ p.off < tw + 0x100)) ||
      (!wr && (k == .ids || k == .mon || k == .flt || k == .evj || k == .bwr))
  else false

/-- The MBX page (R560). -/
def State.admitsMbx (s : State) (mid : Nat) (p : PageRef) (wr : Bool) : Bool :=
  let o := p.off
  let c := (o - 0x1000) / 0x100
  let r := (o - 0x1000) % 0x100
  let snd := mid == s.rd (F.MBX_BIND.SND_ID c)
  let rcv := mid == s.rd (F.MBX_BIND.RCV_ID c)
  if mid = 0x13 ∧ !s.kep.dbg then false
  else if o = 0 then s.admits549 mid p wr
  else if o < 0x200 then s.inner mid
  else if o < 0x400 then (if wr then decide (mid < 2) else s.admits549 mid p false)
  else if o < 0x1000 then epOf mid == some ((o - 0x400) / 0x10) || (!wr && (mid == 1 || mid == 0x10))
  else if r ≤ 0x40 then snd || (!wr && rcv)
  else if r = 0x44 then !wr && (snd || rcv || mid == 1 || mid == 0x10)
  else rcv

/-- The identity is admitted to the page and the register; `wr` is the word of a write. -/
def State.admits (s : State) (mid : Nat) (p : PageRef) (v : View) (wr : Option Nat) : Bool :=
  match p.info.kind with
  | .mbx => s.admitsMbx mid p wr.isSome
  | .kep =>
    s.inner mid && (match (if p.off = 0x108 ∧ (v = .normal ∨ v = .set) then wr else none) with
      | some w => !bitB w 0 || mid == 1 || mid == 0x10
      | none => true)
  | .sqc => s.inner mid
  | .lnt => s.inner mid
  | .flt => if wr.isSome || p.off == 0x10C then s.inner mid else s.admits549 mid p false
  | .evj => if wr.isSome then s.inner mid else s.admits549 mid p false
  | .cal =>
    if p.off = 0x180 ∨ p.off = 0x188 ∨ p.off = 0x18C then mid == 0 || mid == 1 || mid == 0x10
    else s.admits549 mid p wr.isSome
  | _ => s.admits549 mid p wr.isSome

/-! ### The ordered checks (R746) -/

/-- A check that fails: the source it raises, CAUSE, SAFE and LOCK. -/
structure Fail where
  src : Option Nat
  cause : Nat
  safe : Bool := false
  lock : Bool := false

/-- Width and alignment are those of R532. -/
def widthOk (ofs len : Nat) (wr : Bool) : Bool :=
  if len = 4 then ofs % 4 == 0 else (len == 1 || len == 2) && !wr && decide (ofs % 4 + len ≤ 4)

/-- The pages whose reads the safe state serves (R668). -/
def safeKind (k : PageKind) : Bool := k == .ids || k == .flt || k == .evj || k == .mon

/-- Checks 1 to 6 (R746): the place and the view, or the check that fails. -/
def State.judge (s : State) (mid ofs len : Nat) (wr : Option Nat) : Except Fail (Place × View) :=
  let v := viewOf ofs
  match placeOf (ofs % 2 ^ 26) with
  | none => .error ⟨some 0x201, 1, false, false⟩
  | some pl =>
    if !s.admits mid pl.page v wr then .error ⟨some 0x200, 2, false, false⟩
    else if !widthOk ofs len wr.isSome then .error ⟨some 0x200, 3, false, false⟩
    else if !pl.hasView v then .error ⟨some 0x200, 6, false, false⟩
    else if s.on F.FLT_STATUS.SAFE && (wr.isSome || !safeKind pl.page.info.kind) then .error ⟨none, 4, true, false⟩
    else if !s.placeOn pl then .error ⟨none, 4, false, false⟩
    else .ok (pl, v)

/-- A host access that ends in a bus error is captured (R545, R568). -/
def State.hostErr (s : State) (mid ofs : Nat) (wr : Bool) (f : Fail) : State :=
  if mid = 0x10 ∨ mid = 0x11 ∨ mid = 0x12 then
    let s1 := s.count F.HIF_ERR_INFO.ERR_CNT
    if s.on F.HIF_ERR_INFO.VALID then s1
    else ((((((s1.wrB F.HIF_ERR_INFO.VALID true).wrB F.HIF_ERR_INFO.WRITE wr).wr F.HIF_ERR_INFO.CAUSE f.cause).wrB
      F.HIF_ERR_INFO.SAFE f.safe).wrB F.HIF_ERR_INFO.LOCK f.lock).wr F.HIF_ERR_INFO.MID mid).wr F.HIF_ERR_ADDR.ERR_OFS ofs
  else s

/-- A check fails: its source, with identity, offset and kind of access, and the host's capture. -/
def State.refuse (s : State) (mid ofs : Nat) (wr : Bool) (f : Fail) : State :=
  (match f.src with | some i => s.rise i [mid, ofs, b2n wr] | none => s).hostErr mid ofs wr f

/-- The access that check 7 refuses, that check 8 refuses, and that the block itself refuses. -/
def failClock : Fail := ⟨some 0x202, 5, false, false⟩
def failLock : Fail := ⟨some 0x200, 2, false, true⟩
def failBlock : Fail := ⟨none, 0, false, false⟩

/-! ### The types of field (R8, R539) -/

/-- A field's value after a write of `w` in a view; for WO what acts. -/
def fieldNew (ty : FType) (v : View) (locked : Bool) (width old w : Nat) : Nat :=
  let rw := match v with
    | .normal => w
    | .set => old ||| w
    | .clear => old - (old &&& w)
    | .toggle => (old ^^^ w) % 2 ^ width
  match ty with
  | .rw => rw
  | .rsv => rw
  | .rwl => if locked then old else rw
  | .w1c => (match v with | .normal => old - (old &&& w) | .clear => old - (old &&& w) | _ => old)
  | .w1s => (match v with | .normal => old ||| w | .set => old ||| w | _ => old)
  | .wo => (match v with | .normal => w | .set => w | _ => 0)
  | .ro => old
  | .rcl => old

/-- A field of a write's word. -/
def Fld.of (f : Fld) (w : Nat) : Nat := w / 2 ^ f.lo % 2 ^ f.width

/-- The word that a write leaves: each field by its type, WO fields as they act. -/
def State.effWord (s : State) (fs : List Fld) (v : View) (locked : Bool) (w : Nat) : Nat :=
  fs.foldl (fun a f => a + fieldNew f.ty v locked f.width (s.rd f) (f.of w) * 2 ^ f.lo) 0

/-- Fields that a write does not store: RO and RCL never change by it, WO fields hold nothing. -/
def Fld.stores (f : Fld) : Bool := match f.ty with | .ro => false | .rcl => false | .wo => false | _ => true

/-- Store a word in the fields of a register, but for those in `skip`. -/
def State.store (s : State) (fs skip : List Fld) (eff : Nat) : State :=
  fs.foldl (fun s f => if f.stores && !skip.contains f then s.wr f (f.of eff) else s) s

/-- An RWL field that the write would change after the boot lock (R8, R539). -/
def State.lockHit (s : State) (fs : List Fld) (v : View) (w : Nat) : Bool :=
  s.kep.locked && fs.any fun f => f.ty == .rwl && fieldNew .rw v false f.width (s.rd f) (f.of w) != s.rd f

/-! ### Writes (what each register's rule makes of them) -/

/-- A register as the page shows it: the spill registers of a port in a twin pair are the engine's (R258), the shared
registers of BFB are those of BFA (R320, R328). -/
def State.aim (s : State) (p : PageRef) (g : Reg) : Reg :=
  match p.info.kind with
  | .port => if 0x18040 ≤ p.off ∧ p.off < 0x18068 then { g with n := spillPort (s.ownerOf p.port) } else g
  | .bf => if g.card.clk == .reg then { g with n := 0 } else g
  | _ => g

/-- A bit of the written word. -/
def goBit (eff k : Nat) : Bool := bitB eff k

/-- Registers of a port page, but for the slices and filters. -/
def State.portReg (s : State) (n : Fin 8) (g : Reg) (fs : List Fld) (eff : Nat) : State :=
  let st := s.store fs [] eff
  match g.card.rel with
  | 0x1000 =>
    let s1 := s.store fs [F.NEG_CTRL.PORT_EN n] eff
    let s2 := if goBit eff 0 then (if s.on (F.NEG_CTRL.PORT_EN n) && s.link n != stDISABLED then s1 else s1.portEnable n)
      else if s.on (F.NEG_CTRL.PORT_EN n) then s1.portDisable n
      else if s.on (F.DIAG_STATUS.DIAG_BUSY n) then s1.diagEnd n 3
      else s1
    if goBit eff 1 then s2.anRestart n else s2
  | 0x1008 => if expectOfMode (st.rd (F.SPIRE_EXPECT.EXPECT_MODE n)) = 2 then st.expectEnforce n else st
  | 0x1010 => if goBit eff 31 then st.pchkGo n else st
  | 0x2000 => (st.modPort n fun p => { p with fr := { p.fr with ctlOld := some (s.frmWord n) } }).syncLimit n
  | 0x300C => if goBit eff 31 then st.lreqGo n else st
  | 0x18040 => st.spillCheck (s.ownerOf n)
  | 0x18044 => s.rsvWrite n (eff / 2 ^ 16) (eff % 2 ^ 16)
  | 0x80000 => if goBit eff 31 then st.diagGo n else st
  | 0x80400 =>
    let s1 := if goBit eff 31 && !s.on (F.LM_CFG.LM_EN n g.i g.j) then st.lmFresh n g.i g.j else st
    if goBit eff 30 then s1.lmSet n g.i g.j else s1
  | 0x81000 => if goBit eff 31 then st else st.lpiTrigger n
  | 0xA400 => if goBit eff 31 then st.xbRequest n (eff / 2 ^ 24 % 8) (eff / 2 ^ 22 % 4) else st
  | _ => st

/-- Registers of slices and filters of a port page (R95, R100, R130). -/
def State.sliceReg (s : State) (n : Fin 8) (g : Reg) (fs : List Fld) (eff : Nat) : State :=
  let x : Fin 5 := ⟨g.i % 5, by omega⟩
  let st := s.store fs [] eff
  match g.card.rel with
  | 0x8000 =>
    let s1 := if s.link n == stTRAIN || s.link n == stUP then st.guard n fun y => some y == s.carriedPair n x else st
    if goBit eff 31 then s1.trimApply n x else s1
  | 0x8200 => if s.on (F.IMP_CTRL.IMP_EN n x) && !goBit eff 31 then st.impClr n x else st
  | 0xC000 => (st.modPort n fun p => { p with eq := { p.eq with
      prevAdapt := spPut p.eq.prevAdapt (8 * g.i + g.j) (s.adaptWord n g.i g.j) } }).syncSw n g.i g.j
  | _ => st

/-- Registers of the CUP page (R256-R259, R507-R524). -/
def State.cupReg (s : State) (g : Reg) (fs : List Fld) (eff : Nat) : State :=
  let st := s.store fs [] eff
  match g.card.rel with
  | 0xF0000 =>
    let k : Fin 4 := ⟨g.i % 4, by omega⟩
    st.wrB (F.TW_STATUS.CFG_PEND k) (st.on (F.TW_CTRL.TW_EN k) != s.twActive k ||
      st.rd (F.TW_CTRL.PRIMARY k) != s.twin[k].primary)
  | 0x100 => if goBit eff 31 then st.retire (ch4 (st.rd F.CUP_CTRL.RETIRE_CH)) 5 else st
  | 0x200 => (s.store fs [F.SPL_BASE.BASE] eff).splBaseWrite (eff / 16)
  | 0x204 => (s.store fs [F.SPL_CFG.SPL_EN, F.SPL_CFG.SPL_PAGES] eff).splWrite (goBit eff 31) (eff % 2 ^ 18)
  | 0x40000 => s.sptWrite g.i eff
  | 0x10004 => if goBit eff 31 then st.trainGo (ch4 g.i) else st
  | _ => st

/-- Registers of a Belfry page (R319-R336). -/
def State.bfReg (s : State) (b : Fin 2) (g : Reg) (fs : List Fld) (eff : Nat) : Bool × State :=
  let st := s.store fs [] eff
  match g.card.rel with
  | 0x100 =>
    let s1 := s.store fs [F.BF_CTRL.BF_EN b] eff
    let s2 := if s.on (F.BF_CTRL.TX_EN b) && !s1.on (F.BF_CTRL.TX_EN b) then (s1.bfCut b).dualDrop b else s1
    (false, if F.BF_CTRL.BF_EN b |>.of eff |> (· == 1) then s2.bfEnable b else s2.bfDisable b)
  | 0x110 => (false, if goBit eff 30 && st.bfEn b && st.on (F.BF_BCN.BCN_EN b) then st.bcnQueue b else st)
  | 0x124 => (false, if goBit eff 31 && st.bfEn b then st.ringGo b else st)
  | 0x140 => (false, if goBit eff 31 then st.rngGo b else st)
  | 0x130 =>
    if s.bfSet 0 || s.bfSet 1 then (true, s) else (false, st)
  | 0x134 =>
    if s.bfSet 0 || s.bfSet 1 then (true, s)
    else (false, (s.store fs [F.TX_FC_HI.FC_HI 0] eff).wr (F.TX_FC_HI.FC_HI 0).hidden ((F.TX_FC_HI.FC_HI 0).of eff))
  | _ => (false, st)

/-- Registers of a host-lane page (R394-R409). -/
def State.laneReg (s : State) (n : Fin 8) (g : Reg) (fs : List Fld) (eff : Nat) : State :=
  let st := s.store fs [] eff
  match g.card.rel with
  | 0x100 =>
    let s1 := st.syncLane n
    let lb := st.rd (F.HL_CTRL.LB_MODE n)
    if lb != s.rd (F.HL_CTRL.LB_MODE n) || lb != s1.rd (F.HL_STATUS.LB_CUR n) then s1.lbGo n else s1
  | 0x120 =>
    let s1 := st.iff (!st.on (F.HL_PRBS_CTRL.CHK_EN n)) fun st => st.wrB (F.HL_STATUS.PRBS_LOCK n) false
    let started := st.on (F.HL_PRBS_CTRL.GEN_EN n) && (!s.on (F.HL_PRBS_CTRL.GEN_EN n) ||
      st.rd (F.HL_PRBS_CTRL.GEN_POLY n) != s.rd (F.HL_PRBS_CTRL.GEN_POLY n))
    (s1.iff started fun s => s.prbsStart n).syncLane n
  | _ => st

/-- SQC_CMD with CMD_GO = 1 (R468, R475): a command that the table lists runs, where none does and no takeover. -/
def State.sqcGo (s : State) : State :=
  let c := s.rd F.SQC_CMD.CMD
  let t := s.rd F.SQC_CMD.TARGET
  let known := (decide (c = 1 ∨ c = 2) && decide (t < 8)) || (c == 3 && decide (t < 11))
  if known && s.sqc.run.isNone && !s.takeoverRuns then
    { (s.wr F.SQC_CMD.RESULT 1) with sqc := { s.sqc with run := some ⟨c, t⟩ } }
  else s.sqcRefuse

/-- Slot `k` is in use by a takeover, a command or a checkpoint (R478). -/
def State.slotBusy (s : State) (k : Nat) : Bool :=
  s.on (F.SLOT_CKPT_STAT.CK_BUSY k) ||
    (match s.sqc.run with | some r => r.target == k || (k < 8 && r.cmd != 3 && r.target == k) | none => false) ||
    (s.sqc.due.contains k && s.turPick.isSome)

/-- IMG_BASE of slot `k` is written: a takeover that its loader stopped is due again (R467). -/
def State.retryTakeover (s : State) (k : Nat) : State :=
  if s.sqc.stuck.contains k then
    { s with sqc := { s.sqc with stuck := s.sqc.stuck.filter (· ≠ k), due := s.sqc.due ++ [k] } }
  else s

/-- Registers of the SQC page's cluster control (R474-R478). -/
def State.sqcReg (s : State) (g : Reg) (fs : List Fld) (eff : Nat) : Bool × State :=
  let st := s.store fs [] eff
  match g.card.rel with
  | 0x100 => (false, st.syncSqc)
  | 0x104 => (false, if goBit eff 31 then st.sqcGo else st)
  | 0x1000 => if s.slotBusy g.i then (true, s) else (false, st.retryTakeover g.i)
  | r => if 0x1000 ≤ r ∧ s.slotBusy g.i then (true, s) else (false, st)

/-- Registers of a core (R479-R482). -/
def State.coreReg (s : State) (i : Fin 11) (g : Reg) (fs : List Fld) (eff : Nat) : State :=
  match g.card.rel with
  | 0x100 =>
    let s1 := s.store fs [F.CORE_CTRL.RUN i.val] eff
    if goBit eff 30 then s1.coreReset i
    else if goBit eff 31 then (if s.on (F.CORE_CTRL.RUN i.val) then s1 else s1.coreStart i)
    else if s.on (F.CORE_CTRL.RUN i.val) then s1.coreHalt i else s1
  | _ => s.store fs [] eff

/-- Registers of the CKC page (R594-R603). -/
def State.ckcReg (s : State) (g : Reg) (fs : List Fld) (eff : Nat) : State :=
  let st := s.store fs [] eff
  match g.card.rel with
  | 0x104 => (s.store fs [F.CKC_REF.REF_SEL] eff).refSwitch (F.CKC_REF.REF_SEL.of eff == 1)
  | 0x140 => if goBit eff 31 then st.swGo else st
  | 0x180 => if goBit eff 31 then st.gateGo else st
  | 0x1C0 => if goBit eff 31 then st.fcGo else st
  | _ => st

/-- Registers of the PWC page (R622-R630). -/
def State.pwcReg (s : State) (mid : Nat) (g : Reg) (fs : List Fld) (eff : Nat) : State :=
  let st := s.store fs [] eff
  match g.card.rel with
  | 0x100 =>
    if goBit eff 31 then
      st.pwcWrite { mode := goBit eff 30, target := eff / 2 ^ 28 % 4, index := eff / 2 ^ 20 % 256, tag := eff / 2 ^ 12 % 256,
                    who := mid }
    else st
  | _ => st

/-- Registers of the CAL page (R644-R652). -/
def State.calReg (s : State) (g : Reg) (fs : List Fld) (eff : Nat) : State :=
  let st := s.store fs [] eff
  match g.card.rel with
  | 0x100 =>
    let s1 := if goBit eff 31 then st.calGo else st
    if goBit eff 30 then s1.calSave else s1
  | _ => st

/-- Registers of the FLT page (R683-R690). -/
def State.fltReg (s : State) (g : Reg) (fs : List Fld) (eff : Nat) : State :=
  let st := s.store fs [] eff
  match g.card.rel with
  | 0x100 =>
    let s1 := if goBit eff 30 then st.blockReset (st.rd F.FLT_CTRL.BLK_SEL) else st
    if goBit eff 31 then s1.chipReset 2 0 else s1
  | 0x10C => if goBit eff 31 then st.injArm else st
  | 0x140 =>
    if s.on (F.FLT_FIRST_INFO.VALID g.i) && !st.on (F.FLT_FIRST_INFO.VALID g.i) then
      (st.wrB (F.FLT_FIRST_INFO.OVF g.i) false).wr (F.FLT_FIRST_INFO.OVF_CNT g.i) 0
    else st
  | 0x1000 => st.syncPin
  | 0x2000 =>
    let s1 := s.store fs [F.FLT_SRC_STAT.LATCHED g.i] eff
    if F.FLT_SRC_STAT.LATCHED g.i |>.of eff |> (· == 0) then s1.unlatch g.i else s1
  | _ => st

/-- Registers of the KEP page (R716-R720). -/
def State.kepReg (s : State) (mid : Nat) (g : Reg) (fs : List Fld) (eff : Nat) : State :=
  let st := s.store fs [] eff
  match g.card.rel with
  | 0x104 => if goBit eff 31 then st.keepGo (eff / 2 ^ 27 % 16) mid else st
  | 0x108 => if goBit eff 0 && !s.kep.locked then st.bootLock else st
  | _ => st

/-- Registers of the MBX page (R557-R578). -/
def State.mbxReg (s : State) (g : Reg) (fs : List Fld) (eff : Nat) : Bool × State :=
  let st := s.store fs [] eff
  match g.card.rel with
  | 0x200 => (false, st.mbEmpty g.i)
  | 0x1000 => if !s.mbValid g.i || s.on (F.MB_STATUS.FULL g.i) then (true, s) else (false, st)
  | 0x1040 =>
    if !s.mbValid g.i || s.on (F.MB_STATUS.FULL g.i) then (true, s)
    else (false, if goBit eff 31 then st.mbSend g.i (eff / 2 ^ 16 % 16) (eff / 2 ^ 24 % 32) (goBit eff 23) else st)
  | 0x1048 => if !s.mbValid g.i then (true, s) else (false, if goBit eff 31 then st.mbReset g.i else st)
  | _ => (false, st)

/-- A write of a card's register that has passed every check: whether the block ends it with a bus error, and the state. -/
def State.cardWrite (s : State) (mid : Nat) (p : PageRef) (g : Reg) (fs : List Fld) (eff : Nat) : Bool × State :=
  match p.info.kind with
  | .port =>
    (false, if g.card.rel = 0x8000 ∨ g.card.rel = 0x8200 ∨ g.card.rel = 0xC000 then s.sliceReg p.port g fs eff
      else s.portReg p.port g fs eff)
  | .cup => (false, s.cupReg g fs eff)
  | .bf => s.bfReg ⟨p.inst % 2, by omega⟩ g fs eff
  | .hl => (false, s.laneReg p.port g fs eff)
  | .sqc => if p.off < 0x10000 then s.sqcReg g fs eff else (false, s.coreReg (slot11 g.n) g fs eff)
  | .lnt => (false, s.coreReg lantern g fs eff)
  | .ckc => (false, s.ckcReg g fs eff)
  | .pwc => (false, s.pwcReg mid g fs eff)
  | .cal => (false, s.calReg g fs eff)
  | .flt => (false, s.fltReg g fs eff)
  | .evj =>
    (false, if g.card.rel = 0x130 ∧ goBit eff 31 then (s.store fs [] eff).swRecord (eff % 16) else s.store fs [] eff)
  | .kep => (false, s.kepReg mid g fs eff)
  | .mbx => s.mbxReg g fs eff
  | .bwr =>
    (false, if g.card.rel = 0x100 then s.bwrCtrlWrite eff else if g.card.rel = 0x200 then s.clientWrite ⟨g.i % 32, by omega⟩ eff
      else s.store fs [] eff)
  | _ => (false, s.store fs [] eff)

/-- A word of the coefficient window is written (R128, R129). -/
def State.coefWrite (s : State) (n : Fin 8) (w data : Nat) : State :=
  s.modPort n fun p => { p with eq := { p.eq with coef := putCoef p.eq.coef (w / 4) (data / 256 % 2 ^ 24) } }

/-- A write through a core's window (R479). -/
def State.windowWrite (s : State) (i : Fin 11) (o data : Nat) : Bool × State :=
  let tcm := s.on (F.CORE_CTRL.MEM_SEL i.val)
  let c := s.coreState i
  if !tcm && c != 1 && c != 3 then (true, s)
  else (false, s.localStore i (o + (if tcm then 0x20000 else 0)) (bytesLE 4 data))

/-- The fields of a register, or of BUSY. -/
def State.placeFields (s : State) : Place → List Fld
  | .reg p g => (s.aim p g).fields
  | .busy p => [F.BUSY.RSV31 p.pageBase, F.BUSY.WDROP p.pageBase]
  | _ => []

/-- A write that has passed checks 1 to 7 (R539). -/
def State.regWrite (s : State) (mid : Nat) (v : View) (data : Nat) (pl : Place) : Bool × State :=
  let fs := s.placeFields pl
  let eff := s.effWord fs v s.kep.locked data
  match pl with
  | .ident _ => (false, s)
  | .busy _ => (false, s.store fs [] eff)
  | .reg p g => s.cardWrite mid p (s.aim p g) fs eff
  | .coef _ n w => if coefIsThp w then (true, s) else (false, s.coefWrite n w data)
  | .bank _ n false o => (false, s.modPort n fun p => { p with mem0 := p.mem0.writeNat o 4 data })
  | .bank _ n true o => (false, s.modPort n fun p => { p with mem1 := p.mem1.writeNat o 4 data })
  | .core _ i o => s.windowWrite i o data

/-- A write at its register: checks 7 and 8, then its effect (R746). `posted` is of a write whose master has its
completion. -/
def State.takeEffect (s : State) (mid ofs : Nat) (v : View) (data : Nat) (pl : Place) (posted : Bool) : Bool × State :=
  if !s.placeClocked pl then (true, s.refuse mid ofs true failClock)
  else
    let fs := s.placeFields pl
    let r := s.regWrite mid v data pl
    if s.lockHit fs v data then (true, (s.store fs [] (s.effWord fs v true data)).refuse mid ofs true failLock)
    else if r.1 then (true, if posted then r.2 else r.2.hostErr mid ofs true failBlock)
    else r

/-! ### Hold queues (R535-R538) -/

/-- The writes that a page's queue holds. -/
def State.held (s : State) (pb : Nat) : List Held := (spFind s.hif.queue pb).getD []

/-- Set a page's queue. -/
def State.setHeld (s : State) (pb : Nat) (l : List Held) : State :=
  { s with hif := { s.hif with queue := if l.isEmpty then spDel s.hif.queue pb else spPut s.hif.queue pb l } }

/-- A posted write is dropped (R12, R535, R537): WDROP, and the page's class U source. -/
def State.wdrop (s : State) (p : PageRef) (mid ofs : Nat) : State :=
  let s1 := (s.wrB (F.BUSY.WDROP p.pageBase) true).rise p.dropSrc [mid, ofs, 1]
  if p.info.kind = .hl then s1.laneFailover p.port else s1

/-- A posted write that has passed checks 1 to 6 enters the queue, or finds it full (R535). -/
def State.enqueue (s : State) (p : PageRef) (h : Held) : State :=
  let q := s.held p.pageBase
  if 8 ≤ q.length then s.wdrop p h.mid h.addr else s.setHeld p.pageBase (q ++ [h])

/-- A held write can take effect: its domain is ON and its clock runs (R537). -/
def State.heldLive (s : State) (pl : Place) : Bool := s.placeOn pl && s.placeClocked pl && !s.on F.FLT_STATUS.SAFE

/-- The queue of page `pb` delivers its oldest write, or drops it where it cannot take effect (R535, R537). -/
def State.deliver (s : State) (pb : Nat) : State :=
  match s.held pb with
  | [] => s
  | h :: rest =>
    let s1 := s.setHeld pb rest
    match placeOf h.addr with
    | none => s1
    | some pl => if s.heldLive pl then (s1.takeEffect h.mid h.addr h.view h.data pl true).2 else s1.wdrop pl.page h.mid h.addr

/-- The oldest held write of a page is discarded (R537): its domain or its clock has gone, or its bound has run out. -/
def State.discard (s : State) (pb : Nat) (bound : Bool) : State :=
  match s.held pb with
  | [] => s
  | h :: rest =>
    match placeOf h.addr with
    | none => s.setHeld pb rest
    | some pl => if bound || !s.heldLive pl then (s.setHeld pb rest).wdrop pl.page h.mid h.addr else s

/-- Deliver while a held write satisfies `p`; a queue holds at most eight. -/
def State.drain (s : State) (pb : Nat) (p : Held → Bool) : Nat → State
  | 0 => s
  | k + 1 => if (s.held pb).any p then (s.deliver pb).drain pb p k else s

/-- The writes of context `tag` of identity `mid`, at every page, have taken effect (FENCE.P, R426). -/
def State.drainCtx (s : State) (mid tag : Nat) : State :=
  s.hif.queue.foldl (fun (s : State) (q : Nat × List Held) => s.drain q.1 (fun h => h.mid == mid && h.tag == tag) 8) s

/-! ### Reads (R8, R534, R536, R550) -/

/-- The identity's reads have no RCL side effect (R550). -/
def State.quietReader (s : State) (mid : Nat) : Bool := mid == 0x11 || (mid == 0x12 && !s.on F.HIF_CTRL.MDIO_PRIV)

/-- The high word that a read of the low word latches: none where the register is no low word of R534. -/
def State.highNow (s : State) (p : PageRef) (g : Reg) : Option Nat :=
  match p.info.kind, g.card.rel with
  | .port, 0x2010 => some (s.rd (F.FRM_GOOD_HI.GOOD_HI g.n).hidden)
  | .port, 0x18050 => some (s.rd (F.SPILL_BLOCKS_HI.SPB_HI g.n).hidden)
  | .bwr, 0x400 => some (s.rd (F.BWR_BYTES_HI.BYTES_HI g.i).hidden)
  | .cal, 0x188 => some (s.rd F.CAL_LAST_HI.LAST_HI.hidden)
  | .flt, 0x148 => if g.j = 0 then some (s.rd (F.FLT_FIRST_DATA.VALUE g.i 1)) else none
  | .evj, 0x118 => some (s.tb / 2 ^ 32)
  | _, _ => none

/-- The register is the high word of a pair of R534. -/
def isHigh (p : PageRef) (g : Reg) : Bool :=
  match p.info.kind, g.card.rel with
  | .port, 0x2014 => true
  | .port, 0x18054 => true
  | .bwr, 0x404 => true
  | .cal, 0x18C => true
  | .flt, 0x148 => g.j == 1
  | .evj, 0x11C => true
  | _, _ => false

/-- The key of a latch: the low word's address and the identity. -/
def latchKey (low mid : Nat) : Nat := 64 * low + mid

/-- The address that a latch goes by: the register's as it stands, the twin engine's for either member's page (R258). -/
def latchAddr (p : PageRef) (g : Reg) : Nat :=
  if p.info.kind = .port ∧ (p.off = 0x18050 ∨ p.off = 0x18054) then (F.SPILL_BLOCKS_LO.SPB_LO g.n).addr + (p.off - 0x18050)
  else p.pageBase + p.off

/-- A field as a read returns it; the shadow or the active trims by TRIM_VIEW (R95). -/
def State.fieldRead (s : State) (view : Bool) (f : Fld) : Nat :=
  match f.ty with
  | .wo => 0
  | _ => if view then s.rd f.hidden else s.rd f

/-- A register shows the active trims (R95). -/
def State.trimView (s : State) (p : PageRef) (g : Reg) : Bool :=
  p.info.kind == .port && (g.card.rel == 0x8004 || g.card.rel == 0x8100 || g.card.rel == 0x8104) &&
    s.on (F.SLICE_CTRL.TRIM_VIEW p.port g.i)

/-- The detector of pair A (0) or B (1) is above ED_THRESH now (R55, R354, R373); the level is what the line brings (log
entry 99). -/
def State.edAbove (s : State) (n : Fin 8) (k : Nat) : Bool :=
  decide (25 * (s.rd (F.SENSE_CTRL.ED_THRESH n) + 1) < Config.edLevel n.val k s.tb)

/-- The longest stay as a read shows it, the stay in progress included (R100, R242). -/
def longest (v len : Nat) : Nat := max v (min 0xFFFF (usUp len))

/-- Fields that show more than they hold (R30, R100, R123, R134, R242, R243, R498, R670, R720). -/
def State.shown (s : State) (p : PageRef) (g : Reg) (w : Nat) : Nat :=
  match p.info.kind, g.card.rel with
  | .port, 0x80800 => w % 2 ^ 30 + b2n (s.edAbove p.port 1) * 2 ^ 30 + b2n (s.edAbove p.port 0) * 2 ^ 31
  | .bf, 0x150 =>
    let b : Fin 2 := ⟨p.inst % 2, by omega⟩
    w % 2 ^ 31 + b2n (s.bfBusy b) * 2 ^ 31
  | .port, 0x8204 =>
    let f := F.IMP_STATUS.IMP_LONGEST p.port g.i
    if s.on (F.IMP_STATUS.IMP_FLAG p.port g.i) then
      w - s.rd f + longest (s.rd f) (s.tb - s.port[p.port].sl.impStart.getD g.i 0)
    else w
  | .port, 0x18020 =>
    let f := F.HOLD_STAT.HOLD_LONGEST p.port
    if s.link p.port = stHOLD then w - s.rd f + longest (s.rd f) (s.tb - s.port[p.port].rtx.holdStart) else w
  | .port, 0x18024 =>
    let r := s.port[p.port].rtx
    if s.link p.port = stHOLD then (r.holdTotal + (s.tb - r.holdStart)) / 1000 % 2 ^ 32 else w
  | .port, 0x8100C =>
    let l := s.port[p.port].lpi
    if s.rd (F.LPI_STATUS.TX_LPI p.port) = lpiQUIET then (l.quietNs + (s.tb - l.txStart)) / 1000 % 2 ^ 32 else w
  | .port, 0xC804 =>
    let f := F.TRN_STATUS.TRN_ELAPSED p.port
    if s.link p.port = stTRAIN ∧ !s.port[p.port].trn.silence then
      w - s.rd f + min 0xFFFF ((s.tb - s.port[p.port].trn.startTb) / 100000)
    else w
  | .port, 0xC000 => if g.i = 4 ∧ s.rd (F.XB_STATUS.XB_STATE p.port) ≠ xbSHADOW then w / 2 * 2 + 1 else w
  | .ids, 0x008 => w - s.rd F.IDS_ORDER.ORDER_CODE + s.kepStore.order % 2 ^ 8
  | .cup, 0x40000 => s.sptRead g.i
  | .evj, 0x118 => s.tb % 2 ^ 32
  | .kep, 0x140 => (match s.kep.cmd with | some (6, _) => 0 | _ => w)
  | _, _ => w

/-- Registers that follow other state are brought up to date before a read. -/
def State.refresh (s : State) (p : PageRef) (g : Reg) : State :=
  match p.info.kind with
  | .cal => if 0x200 ≤ g.card.rel then s.syncQf else s
  | .kep => s.syncKeep
  | _ => s

/-- A mailbox register that a read cannot reach (R557, R559). -/
def State.mbxReadBad (s : State) (mid : Nat) (p : PageRef) (g : Reg) : Bool :=
  p.info.kind == .mbx && decide (0x1000 ≤ g.card.rel) && (!s.mbValid g.i ||
    (g.card.rel == 0x1000 && mid == s.rd (F.MBX_BIND.RCV_ID g.i) && !s.on (F.MB_STATUS.FULL g.i)))

/-- What a read does to the register: RCL fields clear, the last word of a message frees its channel, TX_FC_LO latches
the high word; SPILL_PEAK begins again from the pages held now (R8, R247, R328, R559). -/
def State.readEffect (s : State) (mid : Nat) (p : PageRef) (g : Reg) : State :=
  let s1 := if s.quietReader mid then s else g.fields.foldl (fun s f => if f.ty == .rcl then s.wr f f.reset else s) s
  match p.info.kind, g.card.rel with
  | .mbx, 0x1000 =>
    if mid = s.rd (F.MBX_BIND.RCV_ID g.i) ∧ g.j = s.rd (F.MB_STATUS.LEN_M1 g.i) then s1.mbEmpty g.i else s1
  | .port, 0x1804C =>
    if s.quietReader mid then s1 else s1.wr (F.SPILL_PEAK.PEAK g.n) (s1.rd (F.SPILL_STATUS.IN_USE g.n))
  | .bf, 0x130 => s1.wr (F.TX_FC_HI.FC_HI 0) (s1.rd (F.TX_FC_HI.FC_HI 0).hidden)
  | _, _ => s1

/-- A read of a card's register: its word, whether the block ends it with a bus error, and the state. -/
def State.cardRead (s : State) (mid : Nat) (p : PageRef) (g : Reg) : Nat × Bool × State :=
  let s1 := s.refresh p g
  let low := latchAddr p g
  if s1.mbxReadBad mid p g then (0, true, s1)
  else if isHigh p g then ((spFind s1.hif.latch (latchKey (low - 4) mid)).getD 0, false, s1)
  else
    let w := s1.shown p g (g.fields.foldl (fun a f => a + s1.fieldRead (s1.trimView p g) f * 2 ^ f.lo) 0)
    let s2 := match s1.highNow p g with
      | some h => { s1 with hif := { s1.hif with latch := spPut s1.hif.latch (latchKey low mid) h } }
      | none => s1
    (w, false, s2.readEffect mid p g)

/-- A word of the coefficient window; before the first attempt after its domain came ON its value is open (R121, R128). -/
def State.coefRead (s : State) (n : Fin 8) (w : Nat) : Nat × State :=
  match spFind s.port[n].eq.coef (w / 4) with
  | some v => (v * 256, s)
  | none => if s.port[n].trn.coefKnown then (0, s) else
    let d := s.drawFree 24
    (d.1 * 256, d.2)

/-- ID_VERSION of a page (R11, R24). -/
def PageRef.idWord (p : PageRef) : Nat := p.info.blockId * 2 ^ 16 + p.info.major * 2 ^ 8 + p.info.minor

/-- A read through a core's window (R443, R479); an uncorrectable word ends it with a bus error. -/
def State.windowRead (s : State) (i : Fin 11) (o : Nat) : Nat × Bool × State :=
  let va := o + (if s.on (F.CORE_CTRL.MEM_SEL i.val) then 0x20000 else 0)
  if s.core[i].localBad va 4 then (0, true, s) else (natLE (s.core[i].localRead va 4), false, s)

/-- A read that has passed every check. -/
def State.regRead (s : State) (mid : Nat) (pl : Place) : Nat × Bool × State :=
  match pl with
  | .ident p => (p.idWord, false, s)
  | .busy p =>
    (s.word [F.BUSY.RSV31 p.pageBase, F.BUSY.WDROP p.pageBase] + b2n !(s.held p.pageBase).isEmpty, false, s)
  | .reg p g => s.cardRead mid p (s.aim p g)
  | .coef _ n w => let r := s.coefRead n w; (r.1, false, r.2)
  | .bank _ n false o => (s.port[n].mem0.readNat o 4, false, s)
  | .bank _ n true o => (s.port[n].mem1.readNat o 4, false, s)
  | .core _ i o => s.windowRead i o

/-! ### Accesses (R532-R538, R746) -/

/-- A THP word of the coefficient window, whose write completes with a bus error at once (R129). -/
def Place.isThp : Place → Bool
  | .coef _ _ w => coefIsThp w
  | _ => false

/-- One access of at most 32 bits that writes: whether it ends in a bus error, and the state. -/
def State.write32 (s : State) (mid tag ofs len data : Nat) : Bool × State :=
  match s.judge mid ofs len (some data) with
  | .error f => (true, s.refuse mid ofs true f)
  | .ok (pl, v) =>
    if pl.isThp then (true, s.hostErr mid ofs true failBlock)
    else if pl.posted then
      (false, s.enqueue pl.page { mid := mid, tag := tag, addr := ofs % 2 ^ 26, view := v, data := data % 2 ^ 32, tb := s.tb })
    else (s.drain pl.page.pageBase (fun _ => true) 8).takeEffect mid ofs v (data % 2 ^ 32) pl false

/-- One access of at most 32 bits that reads: the addressed bytes, whether it ends in a bus error, and the state. -/
def State.read32 (s : State) (mid ofs len : Nat) : Nat × Bool × State :=
  match s.judge mid ofs len none with
  | .error f => (0, true, s.refuse mid ofs false f)
  | .ok (pl, _) =>
    let s1 := match pl with | .busy _ => s | _ => s.drain pl.page.pageBase (fun h => h.mid == mid) 8
    if !s1.placeClocked pl then (0, true, s1.refuse mid ofs false failClock)
    else
      let r := s1.regRead mid pl
      if r.2.1 then (0, true, r.2.2.hostErr mid ofs false failBlock)
      else (r.1 / 2 ^ (8 * (ofs % 4)) % 2 ^ (8 * len), false, r.2.2)

/-- A write of any width (R533): 64 bits are two words, the low one first. -/
def State.accessWrite (s : State) (mid tag ofs len data : Nat) : Bool × State :=
  if len = 8 ∧ ofs % 8 = 0 then
    let a := s.write32 mid tag ofs 4 (data % 2 ^ 32)
    let b := a.2.write32 mid tag (ofs + 4) 4 (data / 2 ^ 32)
    (a.1 || b.1, b.2)
  else s.write32 mid tag ofs len data

/-- A read of any width (R533). -/
def State.accessRead (s : State) (mid ofs len : Nat) : Nat × Bool × State :=
  if len = 8 ∧ ofs % 8 = 0 then
    let a := s.read32 mid ofs 4
    let b := a.2.2.read32 mid (ofs + 4) 4
    (a.1 + 2 ^ 32 * b.1, a.2.1 || b.2.1, b.2.2)
  else s.read32 mid ofs len

/-- The fabric serves an access: its clock runs and the device is out of reset (R586, R617, R620). -/
def State.fabricRuns (s : State) : Bool := s.familyRuns

/-- A write access with its completion. -/
def State.busWrite (s : State) (mid ofs len data : Nat) : State :=
  s.iff s.fabricRuns fun s => let r := s.accessWrite mid 0 ofs len data; r.2.reply mid r.1 false 0

/-- A read access with its completion. -/
def State.busRead (s : State) (mid ofs len : Nat) : State :=
  s.iff s.fabricRuns fun s =>
    let r := s.accessRead mid ofs len
    r.2.2.reply mid r.2.1 false (if r.2.1 then 0 else r.1)

end Sys2Proof.Machine
end

