-- ==== Sys2Proof/Machine/HostOps.lean ====
section
/-! DEFINITION. The host interfaces: PCIe requests and MDIO frames (15_host_access_mailboxes.md R543-R546, R551-R554), and
accesses to any physical address (01_architecture.md R32). -/

namespace Sys2Proof.Machine

/-! ### Physical accesses (R32) -/

/-- Read registers at offset `a`, word by word (R532). -/
def State.regsRead (s : State) (mid : Nat) : Nat → Nat → Nat → List Byte × Bool × State
  | 0, _, _ => ([], false, s)
  | fuel + 1, a, len =>
    if len = 0 then ([], false, s)
    else
      let k := min len (4 - a % 4)
      let r := s.read32 mid a k
      let rest := r.2.2.regsRead mid fuel (a + k) (len - k)
      (bytesLE k r.1 ++ rest.1, r.2.1 || rest.2.1, rest.2.2)

/-- Write registers at offset `a`, word by word. -/
def State.regsWrite (s : State) (mid tag : Nat) : Nat → Nat → List Byte → Bool × State
  | 0, _, _ => (false, s)
  | fuel + 1, a, bs =>
    if bs.isEmpty then (false, s)
    else
      let k := min bs.length (4 - a % 4)
      let r := s.write32 mid tag a k (natLE (bs.take k))
      let rest := r.2.regsWrite mid tag fuel (a + k) (bs.drop k)
      (r.1 || rest.1, rest.2)

/-- Read `len` bytes at any physical address as identity `mid`. -/
def State.physRead (s : State) (mid cl a len : Nat) : List Byte × MStat × State :=
  if a < 0x10000000 then
    let r := s.regsRead mid (len + 1) a len
    (r.1, if r.2.1 then .bus else .ok, r.2.2)
  else s.memRead mid cl a len

/-- Write bytes at any physical address as identity `mid`, context `tag`. -/
def State.physWrite (s : State) (mid tag cl a : Nat) (bs : List Byte) : MStat × State :=
  if a < 0x10000000 then
    let r := s.regsWrite mid tag (bs.length + 1) a bs
    (if r.1 then .bus else .ok, r.2)
  else s.memWrite mid cl a bs

/-! ### PCIe (R543-R546) -/

/-- The bytes that byte enables select, as a mask. -/
def beMask (be : Nat) : Nat :=
  (List.range 4).foldl (fun a k => if bitB be k then a + 255 * 2 ^ (8 * k) else a) 0

/-- One DW of a BAR0 read: a DW without all its byte enables is a narrow access (R544). -/
def State.barRead1 (s : State) (mid ofs be : Nat) : Nat × Bool × State :=
  if be % 16 = 15 then s.read32 mid ofs 4
  else
    let r := s.read32 mid ofs 1
    if r.2.1 then (0, true, r.2.2)
    else
      let w := (s.read32 mid ofs 4).1
      (w &&& beMask be, false, r.2.2)

/-- The DWs of a BAR0 read in rising order (R544). -/
def State.barRead (s : State) (mid : Nat) : Nat → List (Nat × Nat) → List Nat × Bool × State
  | _, [] => ([], false, s)
  | ofs, d :: ds =>
    let r := s.barRead1 mid ofs d.1
    let rest := r.2.2.barRead mid (ofs + 4) ds
    (r.1 :: rest.1, r.2.1 || rest.2.1, rest.2.2)

/-- The DWs of a BAR0 write in rising order (R544, R545). -/
def State.barWrite (s : State) (mid : Nat) : Nat → List (Nat × Nat) → Bool × State
  | _, [] => (false, s)
  | ofs, d :: ds =>
    let r := s.write32 mid 0 ofs (if d.1 % 16 = 15 then 4 else 1) d.2
    let rest := r.2.barWrite mid (ofs + 4) ds
    (r.1 || rest.1, rest.2)

/-- The words of BAR4: MSI-X table, PBA (R543). -/
def PcieFn.barWord (p : PcieFn) (o : Nat) : Nat :=
  if o < 0x400 then p.word (o / 4)
  else if o = 0x1000 then p.pba % 2 ^ 32
  else if o = 0x1004 then p.pba / 2 ^ 32
  else 0

/-- A word of the MSI-X table is written; of vector control only the mask bit is held (R543). -/
def PcieFn.putWord (p : PcieFn) (w v : Nat) : PcieFn :=
  let v1 := if w % 4 = 3 then v % 2 else v % 2 ^ 32
  { p with table := if v1 = msixReset w then spDel p.table w else spPut p.table w v1 }

/-- A DW of BAR4 is written under its byte enables. -/
def PcieFn.barPut (p : PcieFn) (o be v : Nat) : PcieFn :=
  if o < 0x400 then
    let m := beMask be
    let old := p.barWord o
    p.putWord (o / 4) (old - (old &&& m) + (v &&& m))
  else p

/-- The host's completion. -/
def State.complete (s : State) (c : Cpl) : State := { s with hif := { s.hif with cpl := c } }

/-- The words of a list of bytes. -/
def wordsOf : Nat → List Byte → List Nat
  | 0, _ => []
  | k + 1, bs => natLE (bs.take 4) :: wordsOf k (bs.drop 4)

/-- A DW of PFx's configuration space (R542): the Device ID and the class code; what the spec does not give is free. -/
def State.configDw (s : State) (f : Fin 2) (dw : Nat) : Nat × State :=
  if dw = 0 then
    let d := s.drawFree 16
    ((0x8A25 + f.val) * 2 ^ 16 + d.1, d.2)
  else if dw = 2 then
    let d := s.drawFree 8
    (0x028000 * 2 ^ 8 + d.1, d.2)
  else s.drawFree 32

/-- AER of PFx logs a request that ends in a bus error, or a poisoned completion (R545). -/
def State.aerLog (s : State) (f : Fin 2) (abort poison : Bool) : State :=
  s.iff (abort || poison) fun s => s.modFn f fun p => { p with aerAbort := p.aerAbort || abort, aerPoison := p.aerPoison || poison }

/-- The capture of a BAR2 access that no target takes (R545, R568). -/
def State.bar2Err (s : State) (a : Nat) (wr : Bool) : State :=
  if a < 0x10000000 then s else s.hostErr 0x10 (a / 256) wr ⟨none, 7, false, false⟩

/-- A memory or configuration request of PFx (R543-R546). -/
def State.pcieRequest (s : State) (f : Fin 2) (q : PcieReq) : State :=
  let mid := 0x10 + f.val
  let a (ofs : Nat) : Nat := s.rd F.HIF_WIN.WIN_BASE * 2 ^ 28 + ofs
  match q with
  | .config d3 mask => (s.modFn f fun p => { p with d3 := d3, mask := mask }).complete .none
  | .configRead dw =>
    let r := s.configDw f dw
    r.2.complete (.data [r.1] false)
  | .bar0 wr ofs dws =>
    if s.hif.fn[f].d3 || decide (16 < dws.length) then s.complete .unsupported
    else if wr then
      let r := s.barWrite mid (ofs - ofs % 4) dws
      (r.2.aerLog f r.1 false).complete .none
    else
      let r := s.barRead mid (ofs - ofs % 4) dws
      (r.2.2.aerLog f r.2.1 false).complete (if r.2.1 then .abort else .data r.1 false)
  | .bar2Read ofs len =>
    if s.hif.fn[f].d3 || f.val == 1 || decide (256 < len) then s.complete .unsupported
    else
      let r := s.physRead mid 28 (a ofs) len
      match r.2.1 with
      | .bus => ((r.2.2.bar2Err (a ofs) false).aerLog f true false).complete .abort
      | .unc => (r.2.2.aerLog f false true).complete (.data (wordsOf ((len + 3) / 4) r.1) true)
      | .ok => r.2.2.complete (.data (wordsOf ((len + 3) / 4) r.1) false)
  | .bar2Write ofs bytes =>
    if s.hif.fn[f].d3 || f.val == 1 || decide (256 < bytes.length) then s.complete .unsupported
    else
      let r := s.physWrite mid 0 28 (a ofs) (bytes.map fun (b : Nat) => BitVec.ofNat 8 b)
      (match r.1 with | .bus => (r.2.bar2Err (a ofs) true).aerLog f true false | _ => r.2).complete .none
  | .bar4 wr ofs dws =>
    let o := ofs - ofs % 4
    let at4 := (List.range dws.length).map fun i => o + 4 * i
    if s.hif.fn[f].d3 then s.complete .unsupported
    else if wr then
      (s.modFn f fun p => (at4.zip dws).foldl (fun p d => p.barPut d.1 d.2.1 d.2.2) p).complete .none
    else s.complete (.data (at4.map s.hif.fn[f].barWord) false)

/-! ### MDIO (R551-R554) -/

/-- The port that a frame's port address names (R551, R564). -/
def State.mdioPort (s : State) (prt : Nat) : Option (Fin 8) :=
  let base := min 24 (s.rd F.HIF_CTRL.MDIO_BASE)
  if h : base ≤ prt ∧ prt < base + 8 then some ⟨prt - base, by omega⟩ else none

/-- Change the MDIO port. -/
def State.modMdio (s : State) (f : Mdio → Mdio) : State := { s with hif := { s.hif with mdio := f s.hif.mdio } }

/-- Set bit `k` of a word to `b`. -/
def putBit (v k : Nat) (b : Bool) : Nat := if bitB v k = b then v else if b then v + 2 ^ k else v - 2 ^ k

/-- The advertisement bits of a register: its bit and the bit of NEG_CTRL that it views (R59, R552). -/
def advBits (reg : Nat) : List (Nat × Nat) :=
  match reg with
  | 16 => [(8, 9)]
  | 32 => [(12, 13), (10, 14), (8, 12), (7, 11)]
  | 60 => [(1, 8), (2, 8), (3, 8)]
  | _ => []

/-- The link-partner ability bits of a register: its bit and the mode code that it shows (R552; bit positions as log
entry 83). -/
def lpBits (reg : Nat) : List (Nat × Nat) :=
  match reg with
  | 19 => [(8, 1)]
  | 33 => [(11, 5), (6, 4), (5, 3)]
  | 61 => [(1, 1), (2, 2), (3, 5)]
  | _ => []

/-- The partner has the ability that a bit of a link-partner register shows: a mode, or EEE for it
(02_port_modes_negotiation.md R58). -/
def Neg.lpHas (g : Neg) (reg m : Nat) : Bool := g.partnerModes.contains m && (reg != 61 || g.partnerEee)

/-- NEG_CTRL of a port as a word. -/
def State.negWord (s : State) (n : Fin 8) : Nat :=
  s.word [F.NEG_CTRL.ADV_25G n, F.NEG_CTRL.ADV_10G n, F.NEG_CTRL.ADV_5G n, F.NEG_CTRL.ADV_2P5G n, F.NEG_CTRL.ADV_1G n,
    F.NEG_CTRL.ADV_100 n, F.NEG_CTRL.ADV_EEE n, F.NEG_CTRL.PORT_EN n]

/-- A register of MMD 1, 3 or 7 (R552). Bits whose content only the clauses give are free values. -/
def State.mdioStd (s : State) (n : Fin 8) (mmd reg : Nat) : Nat × State :=
  if reg = 5 then (0x8A, s)
  else if reg = 6 then (0xC000, s)
  else if reg = 2 then (0x7095, s)
  else if reg = 3 then (0x8E52, s)
  else
    let d := s.drawFree 16
    let v := if reg = 1 then putBit d.1 2 (s.linkUp n) else if reg = 0 then putBit d.1 15 false else d.1
    let w :=
      if mmd = 7 ∧ reg = 0 then putBit (putBit v 12 true) 9 false
      else if mmd = 1 ∧ reg = 0 then putBit v 11 (!s.on (F.NEG_CTRL.PORT_EN n))
      else if mmd = 7 then
        (lpBits reg).foldl (fun v p => putBit v p.1 (s.port[n].neg.lpHas reg p.2))
          ((advBits reg).foldl (fun v p => putBit v p.1 (bitB (s.negWord n) p.2)) v)
      else v
    (w, d.2)

/-- MMD 30 (R553). -/
def State.mdioStat (s : State) (n : Fin 8) (reg : Nat) : Nat :=
  let sp := spillPort (s.ownerOf n)
  match reg with
  | 0 => s.rd (F.LINK_STATUS.MODE n) * 2 ^ 12 + s.rd (F.LINK_STATUS.STATE n) * 2 ^ 8 + s.rd (F.LINK_STATUS.LDT_RES n)
  | 1 => s.rd (F.LAD_STATUS.TX_RUNG n) * 2 ^ 8 + s.rd (F.LAD_STATUS.RX_RUNG n)
  | 2 => s.rd (F.EQ_STATUS.SLC_SNR n 0)
  | 3 => s.rd (F.EQ_STATUS.SLC_SNR n 1)
  | 4 => s.rd (F.EQ_STATUS.SLC_SNR n 2)
  | 5 => s.rd (F.EQ_STATUS.SLC_SNR n 3)
  | 6 => s.rd (F.SPILL_STATUS.SPILLING sp) * 2 ^ 15 + s.rd (F.SPILL_STATUS.ICONG sp) * 2 ^ 14 +
    s.rd (F.SPILL_STATUS.IN_USE sp) % 2 ^ 14
  | 7 => s.rd (F.TW_STATUS.PAIR_STATE (n.val % 4))
  | _ => 0

/-- MMD 31 (R554). -/
def Mdio.win (m : Mdio) (reg : Nat) : Nat :=
  match reg with
  | 0 => m.ofs % 2 ^ 16
  | 1 => m.ofs / 2 ^ 16
  | 2 => m.data % 2 ^ 16
  | 3 => m.data / 2 ^ 16
  | 4 => b2n m.write * 2 ^ 14 + b2n m.inc * 2 ^ 13 + 2 * b2n m.busy + b2n m.err
  | _ => 0

/-- A write to MMD 31 (R554): ignored while BUSY, but for GO, which sets ERR. -/
def Mdio.put (m : Mdio) (reg v : Nat) : Mdio :=
  if m.busy then (if reg = 4 ∧ bitB v 15 then { m with err := true } else m)
  else
    match reg with
    | 0 => { m with ofs := m.ofs / 2 ^ 16 * 2 ^ 16 + (v - v % 4) % 2 ^ 16 }
    | 1 => { m with ofs := v % 2 ^ 12 * 2 ^ 16 + m.ofs % 2 ^ 16 }
    | 2 => { m with data := m.data / 2 ^ 16 * 2 ^ 16 + v % 2 ^ 16 }
    | 3 => { m with data := v % 2 ^ 16 * 2 ^ 16 + m.data % 2 ^ 16 }
    | 4 =>
      let m1 := { m with write := bitB v 14, inc := bitB v 13 }
      if bitB v 15 then { m1 with busy := true, err := false } else m1
    | _ => m

/-- The offset of NEG_CTRL of Pn in the normal view. -/
def negOfs (n : Fin 8) : Nat := 0x201000 + 0x100000 * n.val

/-- MDIO sets the bits of `ones` in NEG_CTRL and clears those of `zeros`, as posted writes to the port page (R552). -/
def State.negPut (s : State) (n : Fin 8) (ones zeros : Nat) : State :=
  let s1 := if ones = 0 then s else (s.write32 0x12 0 (negOfs n + 0x4000000) 4 ones).2
  if zeros = 0 then s1 else (s1.write32 0x12 0 (negOfs n + 0x8000000) 4 zeros).2

/-- The mask of the NEG_CTRL bits that an advertisement register sets, or clears. -/
def advMask (reg v : Nat) (b : Bool) : Nat :=
  let hot (k : Nat) : Bool := (advBits reg).any fun p => p.2 == k && bitB v p.1
  (List.range 16).foldl (fun a k => if (advBits reg).any (fun p => p.2 == k) && hot k == b then a + 2 ^ k else a) 0

/-- A write to MMD 1, 3 or 7 (R552). -/
def State.mdioStdWrite (s : State) (n : Fin 8) (mmd reg v : Nat) : State :=
  if !s.on F.HIF_CTRL.MDIO_PRIV then s.hostErr 0x12 (negOfs n) true ⟨none, 2, false, false⟩
  else if (mmd = 1 ∨ mmd = 3) ∧ reg = 0 ∧ bitB v 15 then s.blockReset (16 * (n.val / 4) + n.val % 4)
  else if mmd = 1 ∧ reg = 0 then (if bitB v 11 then s.negPut n 0 1 else s.negPut n 1 0)
  else if mmd = 7 ∧ reg = 0 then (if bitB v 9 then s.negPut n 2 0 else s)
  else if mmd = 7 then s.negPut n (advMask reg v true) (advMask reg v false)
  else s

/-- What a read of a register of an MMD returns (R551-R554). -/
def State.mdioRead (s : State) (n : Fin 8) (mmd reg : Nat) : Nat × State :=
  if mmd = 1 ∨ mmd = 3 ∨ mmd = 7 then s.mdioStd n mmd reg
  else if mmd = 30 then (s.mdioStat n reg, s)
  else if mmd = 31 then (s.hif.mdio.win reg, s)
  else (0, s)

/-- A write of a register of an MMD. -/
def State.mdioWrite (s : State) (n : Fin 8) (mmd reg v : Nat) : State :=
  if mmd = 1 ∨ mmd = 3 ∨ mmd = 7 then s.mdioStdWrite n mmd reg v
  else if mmd = 31 then s.modMdio fun m => m.put reg v
  else s

/-- A Clause 45 frame (R551). -/
def State.mdioFrame (s : State) (prt mmd : Nat) (op : MdioOp) : State :=
  match s.mdioPort prt with
  | none => s.modMdio fun m => { m with out := none }
  | some n =>
    let k := 32 * n.val + mmd % 32
    let reg := (spFind s.hif.mdio.reg k).getD 0
    match op with
    | .address a => s.modMdio fun m => { m with reg := spPut m.reg k (a % 2 ^ 16), out := none }
    | .write v => (s.mdioWrite n mmd reg (v % 2 ^ 16)).modMdio fun m => { m with out := none }
    | .read =>
      let r := s.mdioRead n mmd reg
      r.2.modMdio fun m => { m with out := some r.1 }
    | .readInc =>
      let r := s.mdioRead n mmd reg
      r.2.modMdio fun m => { m with reg := spPut m.reg k ((reg + 1) % 2 ^ 16), out := some r.1 }

/-- A window access ends (R554). -/
def State.mdioWinDone (s : State) : State :=
  let m := s.hif.mdio
  if m.busy then
    if m.write then
      let r := s.write32 0x12 0 m.ofs 4 m.data
      r.2.modMdio fun m => { m with
        busy := false, err := m.err || r.1, ofs := if m.inc then (m.ofs + 4) % 2 ^ 28 else m.ofs }
    else
      let r := s.read32 0x12 m.ofs 4
      r.2.2.modMdio fun m => { m with
        busy := false, err := m.err || r.2.1, data := r.1, ofs := if m.inc then (m.ofs + 4) % 2 ^ 28 else m.ofs }
  else s

end Sys2Proof.Machine
end

