-- ==== Sys2Proof/Machine/Access.lean ====
section
/-! DEFINITION. Meanings of the commands of the register fabric, PCIe, MDIO and the mailboxes
(15_host_access_mailboxes.md, 00_scope.md R8, 01_architecture.md R37). -/

namespace Sys2Proof.Machine

/-! ### Register accesses -/

/-- REGISTER_WRITE (R746): identity, offset with its view, width in bytes, the data. -/
def execRegisterWrite (mid ofs len data : Nat) (s : State) : Host.Outcome State Fault Refusal :=
  done (s.busWrite mid ofs len data)

/-- POSTED_WRITE_DELIVERY (R535): the page by its base offset. -/
def execPostedWriteDelivery (page : Nat) (s : State) : Host.Outcome State Fault Refusal :=
  done (s.iff s.fabricRuns fun s => s.deliver page)

/-- POSTED_WRITE_DISCARD (R537): `bound` says that the register access bound has run out. -/
def execPostedWriteDiscard (page : Nat) (bound : Bool) (s : State) : Host.Outcome State Fault Refusal :=
  done (s.iff s.fabricRuns fun s => s.discard page bound)

/-- RCL_READ (R8, R550): a read of a register, its RCL fields among it. -/
def execRclRead (mid ofs len : Nat) (s : State) : Host.Outcome State Fault Refusal := done (s.busRead mid ofs len)

/-- COUNTER_LOW_READ (R534): a read whose register may be a low word of a designated counter. -/
def execCounterLowRead (mid ofs len : Nat) (s : State) : Host.Outcome State Fault Refusal := done (s.busRead mid ofs len)

/-- The clock of the register at an offset is stopped while its domain is ON. -/
def State.clockGone (s : State) (ofs : Nat) : Bool :=
  match placeOf (ofs % 2 ^ 26) with | some pl => s.placeOn pl && !s.placeClocked pl | none => false

/-- REGISTER_READ_TIMEOUT (R37, R746). -/
def execRegisterReadTimeout (mid ofs len : Nat) (s : State) : Host.Outcome State Fault Refusal :=
  done (s.iff (s.clockGone ofs) fun s => s.busRead mid ofs len)

/-! ### PCIe -/

/-- The PCIe endpoint takes requests: its domain is ON, its gate is on, the link is up. -/
def State.pcieRuns (s : State) : Bool := s.fabricRuns && s.domOn 132 && s.gateOn 12 && s.hif.linkUp

/-- PCIE_MEM_REQUEST (R543-R546). -/
def execPcieMemRequest (f : Fin 2) (q : PcieReq) (s : State) : Host.Outcome State Fault Refusal :=
  done (s.iff s.pcieRuns fun s => s.pcieRequest f q)

/-- PCIE_FLR (R546). -/
def execPcieFlr (f : Fin 2) (s : State) : Host.Outcome State Fault Refusal := done (s.iff s.pcieRuns fun s => s.flr f)

/-- PCIE_HOT_RESET (R546): `down` says that the link goes down. -/
def execPcieHotReset (down : Bool) (s : State) : Host.Outcome State Fault Refusal :=
  done (s.iff (s.domOn 132) fun s => if down then s.pcieDown else (s.flr 0).flr 1)

/-- MSIX_SEND (R548). -/
def execMsixSend (f : Fin 2) (v : Fin 64) (s : State) : Host.Outcome State Fault Refusal := done (s.msixSend f v.val)

/-- PCIE_LINK_UP (R542, R590). -/
def execPcieLinkUp (s : State) : Host.Outcome State Fault Refusal :=
  done (s.iff (s.domOn 132 && !s.pwc.porst && !s.pwc.aonLow) fun s => { s with hif := { s.hif with linkUp := true } })

/-! ### MDIO -/

/-- MDIO_FRAME (R551-R554): port address, MMD, operation. -/
def execMdioFrame (prt mmd : Nat) (op : MdioOp) (s : State) : Host.Outcome State Fault Refusal :=
  done (s.iff s.fabricRuns fun s => s.mdioFrame prt mmd op)

/-- MDIO_WIN_DONE (R554). -/
def execMdioWinDone (s : State) : Host.Outcome State Fault Refusal := done (s.iff s.fabricRuns State.mdioWinDone)

/-! ### Mailboxes -/

/-- The offset of word `w` of channel `c` of the MBX page (R575-R578). -/
def mbOfs (c : Fin 16) (r : Nat) : Nat := 0x11000 + 0x100 * c.val + r

/-- MB_SEND with GO = 1, by an identity (R558). -/
def execMbSend (mid : Nat) (c : Fin 16) (len1 : Fin 16) (db : Fin 32) (dbEn : Bool) (s : State) : Host.Outcome State Fault Refusal :=
  done (s.busWrite mid (mbOfs c 0x40) 4 (2 ^ 31 + db.val * 2 ^ 24 + b2n dbEn * 2 ^ 23 + len1.val * 2 ^ 16))

/-- MB_RECEIVE_LAST (R559): a read of word LEN − 1. -/
def execMbReceiveLast (mid : Nat) (c : Fin 16) (s : State) : Host.Outcome State Fault Refusal :=
  done (s.busRead mid (mbOfs c (4 * s.rd (F.MB_STATUS.LEN_M1 c.val))) 4)

/-- MB_RRESET (R562). -/
def execMbRreset (mid : Nat) (c : Fin 16) (s : State) : Host.Outcome State Fault Refusal :=
  done (s.busWrite mid (mbOfs c 0x48) 4 (2 ^ 31))

/-- MBX_BIND_WRITE (R557, R570). -/
def execMbxBindWrite (mid : Nat) (c : Fin 16) (v : Nat) (s : State) : Host.Outcome State Fault Refusal :=
  done (s.busWrite mid (0x10200 + 4 * c.val) 4 v)

end Sys2Proof.Machine
end

