-- ==== Sys2Proof/Machine/Calibration.lean ====
section
/-! DEFINITION. Meanings of the commands of calibration and monitors (18_calibration_monitors.md). -/

namespace Sys2Proof.Machine

/-- A register of the CAL or MON page can be written now: PD_MON and its gate are on (R26, R37). -/
def State.monWrites (s : State) : Bool := s.aonWrites && s.monOn && s.gateOn 25

/-! ### Calibrations (R634-R636) -/

/-- CAL_GO (R634): CAL_CTRL is written with CAL_GO = 1. -/
def execCalGo (port : Fin 8) (pair : Nat) (s : State) : Host.Outcome State Fault Refusal :=
  done (s.iff s.monWrites fun s => ((s.wr F.CAL_CTRL.CAL_PORT port).wr F.CAL_CTRL.CAL_PAIR pair).calGo)

/-- The receive direction of a port is QUIET (R360). -/
def State.rxQuiet (s : State) (n : Fin 8) : Bool := s.rd (F.LPI_STATUS.RX_LPI n) != 0

/-- CAL_CONVERGED (R635 step 2): the shadow SLC_SNR has come within CAL_REVERT of the pair's. -/
def execCalConverged (s : State) : Host.Outcome State Fault Refusal :=
  done (match s.cal.run with
    | some r =>
      if r.step = .converge ∧ !s.rxQuiet r.n ∧ r.snr ≤ s.rd (F.EQ_STATUS.SLC_SNR r.n 4) + s.calRevert then s.calSwap r else s
    | none => s)

/-- CAL_CONV_TIMEOUT (R635, R636): CONV_MAX does not run in HOLD or while the receive direction is QUIET. -/
def execCalConvTimeout (s : State) : Host.Outcome State Fault Refusal :=
  done (match s.cal.run with
    | some r =>
      if r.step = .converge ∧ !s.rxQuiet r.n ∧ s.link r.n ≠ stHOLD then s.calEnd r crCONV_TIMEOUT else s
    | none => s)

/-- CAL_MEASURE_DONE (R632, R635 step 3, R636). -/
def execCalMeasureDone (m : Option CalMeas) (s : State) : Host.Outcome State Fault Refusal :=
  done (match s.cal.run with
    | some r => if r.step = .measure then s.calMeasured r m else s
    | none => s)

/-- CAL_CHECK (R635 step 5). -/
def execCalCheck (s : State) : Host.Outcome State Fault Refusal :=
  done (match s.cal.run with
    | some r => if r.step = .check then s.calChecked r else s
    | none => s)

/-! ### Records (R638, R639) -/

/-- CAL_SAVE (R638). -/
def execCalSave (s : State) : Host.Outcome State Fault Refusal := done (s.iff s.monWrites State.calSave)

/-- CAL_SAVE_DONE (R638): `ok` says that the record verified. -/
def execCalSaveDone (ok : Bool) (s : State) : Host.Outcome State Fault Refusal :=
  done (match s.cal.save with
    | some (k, gen) => s.calSaved k gen ok
    | none => s)

/-- CAL_RECORD_LOAD (R639): once for each time PD_MON comes ON. -/
def execCalRecordLoad (s : State) : Host.Outcome State Fault Refusal :=
  done (s.iff (s.familyRuns && s.monOn && s.cal.loaded.isNone) State.calLoad)

/-- CAL_PERIOD_EXPIRY (R633). -/
def execCalPeriodExpiry (n : Fin 8) (x : Fin 5) (s : State) : Host.Outcome State Fault Refusal :=
  done (s.iff (s.monOn && s.rd F.CAL_CTRL.CAL_PERIOD != 0) fun s =>
    (s.modSliceCal n x fun c => { c with period := true }).syncDue n)

/-! ### Monitors (R632, R642, R643) -/

/-- VREF_CHECK (R632): CAL_VREF, and the CAL_RES current, are out of their bounds. -/
def execVrefCheck (v r : Bool) (s : State) : Host.Outcome State Fault Refusal :=
  done (s.iff (s.familyRuns && s.monOn && s.gateOn 25) fun s =>
    let s1 := (s.wrB F.CAL_STATUS.VREF_BAD v).wrB F.CAL_STATUS.RES_BAD r
    if (v && !s.on F.CAL_STATUS.VREF_BAD) || (r && !s.on F.CAL_STATUS.RES_BAD) then
      (s1.wrB F.CAL_EVENT.REF_BAD true).rise 0x247 [s1.word [F.CAL_STATUS.VREF_BAD, F.CAL_STATUS.RES_BAD]]
    else s1)

/-- TEMP_CONVERSION (R642, R643): sensor `i` reads `t`, in 1/8 °C. -/
def execTempConversion (i : Fin 24) (t : Int) (s : State) : Host.Outcome State Fault Refusal :=
  done (s.iff (s.familyRuns && s.monRuns) fun s => s.tempConv i t)

/-- VOLT_CONVERSION (R642, R643): monitor `i` reads `mv`. -/
def execVoltConversion (i : Fin 16) (mv : Nat) (s : State) : Host.Outcome State Fault Refusal :=
  done (s.iff (s.familyRuns && s.monRuns) fun s => s.voltConv i mv)

/-- PROC_CONVERSION (R642): ring oscillator `j` counted `edges`; a round ends with the last one. -/
def execProcConversion (j : Fin 6) (edges : Nat) (s : State) : Host.Outcome State Fault Refusal :=
  done (s.iff (s.familyRuns && s.monRuns) fun s =>
    let s1 := s.wr (F.MON_PROC.RO_CNT j) (edges / 16)
    if j.val = 5 then s1.wrB F.MON_EVENT.AVS_IN true else s1)

/-- OVERTEMP_TRIP (R643): the comparator of sensor `i` trips, whatever MON does. -/
def execOvertempTrip (i : Fin 24) (s : State) : Host.Outcome State Fault Refusal :=
  done (s.iff (!s.pwc.porst && !s.pwc.aonLow) fun s => s.rise 0x242 [i.val])

end Sys2Proof.Machine
end

