-- ==== Sys2Proof/Machine/Clocks.lean ====
section
/-! DEFINITION. Meanings of the commands of the clock controller (16_clocks.md). -/

namespace Sys2Proof.Machine

/-! ### Crystals and references (R580, R581, R583) -/

/-- The crystal oscillators run: out of reset, and not in DEPOT before a wake (R580, R617, R620). -/
def State.xtalRuns (s : State) : Bool :=
  !s.pwc.porst && !s.pwc.aonLow && (s.rd F.PWC_MODE.MODE != 2 || s.pwc.waking.isSome)

/-- XTAL_START_CHECK (R580): the amplitude of each crystal is checked at the end of the start delay. -/
def execXtalStartCheck (a b : Bool) (s : State) : Host.Outcome State Fault Refusal :=
  done (s.iff s.xtalRuns fun s =>
    let s1 := (s.xtalCheck 0 a).xtalCheck 1 b
    let s2 := if s1.xt 0 = xtFAILED ∧ s.xt 0 ≠ xtFAILED then s1.xtalDown 0 else s1
    if s2.xt 1 = xtFAILED ∧ s.xt 1 ≠ xtFAILED then s2.xtalDown 1 else s2)

/-- XTAL_LOST (R581). -/
def execXtalLost (x : Fin 2) (s : State) : Host.Outcome State Fault Refusal :=
  done (s.iff (s.xtalRuns && s.xt x == xtREADY) fun s => s.xtalLost x)

/-- XTAL_RECOVER (R581). -/
def execXtalRecover (x : Fin 2) (s : State) : Host.Outcome State Fault Refusal :=
  done (s.iff (s.xtalRuns && s.xt x == xtLOST) fun s => s.wr (xtFld x) xtREADY)

/-- REF_SWITCH (R583): REF_SEL is written. -/
def execRefSwitch (sel : Bool) (s : State) : Host.Outcome State Fault Refusal :=
  done (s.iff s.aonWrites fun s => s.refSwitch sel)

/-- HOLDOVER_EXPIRY (R583): with no ready reference every PLL in holdover loses lock. -/
def execHoldoverExpiry (s : State) : Host.Outcome State Fault Refusal :=
  done (s.iff (!s.refReady) fun s =>
    plls.foldl (fun (s : State) p => if pllRef p && s.on (pllHold p) then s.pllLost p else s) s)

/-! ### PLLs (R582, R589) -/

/-- PLL_LOCK_LOSS (R582). -/
def execPllLockLoss (p : Fin 12) (s : State) : Host.Outcome State Fault Refusal :=
  done (s.iff (s.domOn (pllDom p)) fun s => s.pllLost p)

/-- PLL_LOCK (R582, R583): the PLL is locked to its reference. -/
def execPllLock (p : Fin 12) (s : State) : Host.Outcome State Fault Refusal :=
  done (s.iff (s.domOn (pllDom p) && (!pllRef p || s.refReady)) fun s =>
    (s.wrB (pllLock p) true).wrB (pllHold p) false)

/-! ### Family switches (R586-R588) -/

/-- FAMILY_SWITCH (R586): CKC_SW is written with SW_GO = 1. -/
def execFamilySwitch (src ramp : Bool) (rampUs : Nat) (s : State) : Host.Outcome State Fault Refusal :=
  done (s.iff s.aonWrites fun s =>
    (((s.wrB F.CKC_SW.SW_SRC src).wrB F.CKC_SW.SW_MODE ramp).wr F.CKC_SW.RAMP_STEP rampUs).swGo)

/-- FAMILY_SWITCH_DONE (R586). -/
def execFamilySwitchDone (s : State) : Host.Outcome State Fault Refusal :=
  done (match s.ckc.sw with
    | some w => if w.ramping then s else s.switchDone w
    | none => s)

/-- SWITCH_FORCED (R588). -/
def execSwitchForced (s : State) : Host.Outcome State Fault Refusal :=
  done (match s.ckc.sw with
    | some w => if w.ramping then s else s.switchForced w
    | none => s)

/-- RAMP_STEP (R587). -/
def execRampStep (s : State) : Host.Outcome State Fault Refusal :=
  done (match s.ckc.sw with
    | some w => if w.ramping then s.rampStep else s
    | none => s)

/-! ### Gates (R590, R591) -/

/-- CKC_GATE is written with GATE_GO = 1 (R599). -/
def State.gateWrite (s : State) (g : Nat) (on force : Bool) (tmo : Nat) : State :=
  ((((s.wr F.CKC_GATE.GATE_ID g).wrB F.CKC_GATE.GATE_ON on).wrB F.CKC_GATE.GATE_FORCE force).wr F.CKC_GATE.GATE_TO tmo).gateGo

/-- GATE_ON (R591). -/
def execGateOn (g : Nat) (force : Bool) (tmo : Nat) (s : State) : Host.Outcome State Fault Refusal :=
  done (s.iff s.aonWrites fun s => s.gateWrite g true force tmo)

/-- GATE_OFF (R591). -/
def execGateOff (g : Nat) (force : Bool) (tmo : Nat) (s : State) : Host.Outcome State Fault Refusal :=
  done (s.iff s.aonWrites fun s => s.gateWrite g false force tmo)

/-- GATE_HANDSHAKE_ACK (R591). -/
def execGateHandshakeAck (s : State) : Host.Outcome State Fault Refusal :=
  done (match s.ckc.gate with
    | some (g, _) => (s.gateSet g false).gateEnd 1
    | none => s)

/-- GATE_TIMEOUT (R591). -/
def execGateTimeout (s : State) : Host.Outcome State Fault Refusal :=
  done (match s.ckc.gate with
    | some (g, force) => if force then (s.gateSet g false).gateEnd 4 else s.gateEnd 3
    | none => s)

/-! ### Frequency counter (R593) -/

/-- FC_GO (R593): CKC_FCNT_CTRL is written with FC_GO = 1. -/
def execFcGo (sel n : Nat) (s : State) : Host.Outcome State Fault Refusal :=
  done (s.iff s.aonWrites fun s => ((s.wr F.CKC_FCNT_CTRL.FC_SEL sel).wr F.CKC_FCNT_CTRL.FC_N n).fcGo)

/-- FC_WINDOW_END (R593): `cnt` edges were counted; the count saturates. -/
def execFcWindowEnd (cnt : Nat) (s : State) : Host.Outcome State Fault Refusal :=
  done (s.iff (s.on F.CKC_FCNT_RESULT.FC_BUSY) fun s =>
    ((((s.wr F.CKC_FCNT_RESULT.FC_COUNT (min cnt 0xFFFFFF)).wrB F.CKC_FCNT_RESULT.FC_OVF (decide (0xFFFFFF < cnt))).wrB
      F.CKC_FCNT_RESULT.FC_BUSY false).wrB F.CKC_FCNT_RESULT.FC_DONE true).wrB F.CKC_EVENT.FC_DONE true)

end Sys2Proof.Machine
end

