-- ==== Sys2Proof/Machine/MolxOps.lean ====
section
/-! DEFINITION. What the MOLX instructions share: which context issues, fetching, registers, exceptions, loads and stores
through the caches, exclusive access (12_molx_isa.md R411-R414, R420-R428, R437, R438; 13_molx_system.md R442-R454). -/

namespace Sys2Proof.Machine

/-! ### Issue (R414, R444, R449) -/

/-- A context number. -/
def ctx4 (c : Nat) : Fin 4 := ⟨c % 4, by omega⟩

/-- Core `i` executes and its clock runs. -/
def State.coreLive (s : State) (i : Fin 11) : Bool := s.coreUp i && s.coreClocked i.val && s.familyRuns

/-- Context `c` of core `i` can complete an instruction: its CTX_RUN bit is 1, it is not HALTED, and it waits neither on
events nor on a load. -/
def State.ctxIdle (s : State) (i : Fin 11) (c : Fin 4) : Bool :=
  bitB s.core[i].ctxRun c.val && !(s.ctx i c).halted && (s.ctx i c).wait.isNone && (s.ctx i c).load.isNone

/-- The context whose instruction core `i` issues now. -/
def State.issuing (s : State) (i : Fin 11) : Option (Fin 4) :=
  let c := ctx4 s.core[i].cur
  if s.coreLive i && s.ctxIdle i c then some c else none

/-! ### Registers (R411) -/

/-- g registers: g0 reads 0, and a write to it is discarded. -/
def Ctx.rg (x : Ctx) (r : Fin 32) : Word := if r = 0 then 0 else x.g[r]
def Ctx.setG (x : Ctx) (r : Fin 32) (v : Word) : Ctx := if r = 0 then x else { x with g := x.g.set r v }
/-- v registers. -/
def Ctx.rv (x : Ctx) (r : Fin 8) : Vec := x.v[r]
def Ctx.setV (x : Ctx) (r : Fin 8) (v : Vec) : Ctx := { x with v := x.v.set r v }

/-- The context goes on to the next instruction. -/
def Ctx.next (x : Ctx) : Ctx := { x with pc := (x.pc + 4) % 2 ^ 32 }
/-- The context goes on at `a`. -/
def Ctx.goto (x : Ctx) (a : Nat) : Ctx := { x with pc := a % 2 ^ 32 }

/-- A 16-bit immediate sign-extended, and zero-extended (R417). -/
def sextI (imm : Half) : Word := imm.signExtend 32
def zextI (imm : Half) : Word := imm.zeroExtend 32

/-- The virtual address gs1 + imm (R417, R422). -/
def Ctx.addr (x : Ctx) (rs1 : Fin 32) (imm : Half) : Nat := (x.rg rs1 + sextI imm).toNat

/-! ### Exceptions without a stated EVAL (R437, R446) -/

/-- An exception for which R446 names no EVAL: a free value stands there (log entry 1). -/
def State.raiseOpen (s : State) (i : Fin 11) (c : Fin 4) (code : Nat) : State :=
  let d := s.drawFree 32
  d.2.raise i c code 0 d.1

/-! ### Caches (R421, R441, R451, R452) -/

/-- A list without the entry at a free index; an index past the end keeps all of fewer than 512. -/
def evictAt {α : Type} (l : List α) (f : Nat) : Nat := if l.length < 512 then f % (l.length + 1) else f % l.length

/-- A line enters the I-cache. Which line leaves it, if any, the spec leaves open (log entry 1). -/
def State.icPut (s : State) (i : Fin 11) (line : Nat) : State :=
  let d := s.drawFree 16
  d.2.modCore i fun k => { k with icache := line :: k.icache.eraseIdx (evictAt k.icache d.1) }

/-- A D-cache line is written back if dirty (R421, R422). -/
def State.dcWriteBack (s : State) (i : Fin 11) (line : Nat) : State :=
  match spFind s.core[i].dcache line with
  | some l =>
    if l.dirty then
      let r := s.memWrite (s.coreMid i) (s.coreClient i) (32 * line) l.data
      let s1 := r.2.modCore i fun k => { k with dcache := spPut k.dcache line { l with dirty := false } }
      if r.1 = .ok then s1 else s1.wbFault i
    else s
  | none => s

/-- A D-cache line is dropped. -/
def State.dcDrop (s : State) (i : Fin 11) (line : Nat) : State :=
  s.modCore i fun k => { k with dcache := spDel k.dcache line }

/-- A D-cache line makes room for another; which one, if any, the spec leaves open (log entry 1). -/
def State.dcEvict (s : State) (i : Fin 11) : State :=
  let d := s.drawFree 16
  match s.core[i].dcache[evictAt s.core[i].dcache d.1]? with
  | some e => (d.2.dcWriteBack i e.1).dcDrop i e.1
  | none => d.2

/-- What the DRAM does to the codewords from `a` on, as a list tells. -/
def envAt (a : Nat) (errs : List Ecc) (q : Nat) : Ecc := if q < a / 16 then .ok else errs.getD (q - a / 16) .ok

/-- A line is filled from memory: whether it could be read. -/
def State.dcFill (s : State) (i : Fin 11) (line : Nat) (errs : List Ecc) : Bool × State :=
  let r := s.memRead (s.coreMid i) (s.coreClient i) (32 * line) 32 (envAt (32 * line) errs)
  if r.2.1 = .ok then
    (true, (r.2.2.dcEvict i).modCore i fun k => { k with dcache := spPut k.dcache line ⟨r.1, false⟩ })
  else (false, r.2.2)

/-- Bytes of a line, at a physical address within it. -/
def Line.bytes (l : Line) (pa len : Nat) : List Byte := (l.data.drop (pa % 32)).take len
/-- A line with bytes replaced, dirty. -/
def Line.put (l : Line) (pa : Nat) (bs : List Byte) : Line :=
  ⟨l.data.take (pa % 32) ++ bs ++ l.data.drop (pa % 32 + bs.length), true⟩

/-! ### Fetch (R437, R442, R443, R452) -/

/-- The instruction at the PC is fetched: the exception that the fetch raises, as code and sub-code. The command itself says
which instruction it is (log entry 15). -/
def State.fetch (s : State) (i : Fin 11) (c : Fin 4) : Option (Nat × Nat) × State :=
  let x := s.ctx i c
  let r := s.translate i x.space .fetch x.pc
  match r.1 with
  | .fault sub => (some (exIPF, sub), r.2)
  | .loc va => (if r.2.core[i].localBad va 4 then some (exECC, 0) else none, r.2)
  | .phys pa cached =>
    if cached && r.2.core[i].icache.contains (pa / 32) then (none, r.2)
    else if cached then
      let m := r.2.memRead (s.coreMid i) (s.coreClient i) (32 * (pa / 32)) 32
      if m.2.1 = .ok then (none, m.2.2.icPut i (pa / 32)) else (some (exIBUS, 0), m.2.2)
    else
      let m := r.2.physRead (s.coreMid i) (s.coreClient i) pa 4
      (if m.2.1 = .ok then none else some (exIBUS, 0), m.2.2)

/-- An instruction of core `i`: the context that issues fetches it, and then `f` is what it does. A core that issues nothing
does nothing (log entry 2). -/
def State.instr (s : State) (i : Fin 11) (f : State → Fin 4 → State) : State :=
  match s.issuing i with
  | none => s
  | some c =>
    let r := s.fetch i c
    match r.1 with
    | some e => r.2.raise i c e.1 e.2 (s.ctx i c).pc
    | none => f r.2 c

/-- An instruction that only changes its context, and goes on. -/
def State.regOp (s : State) (i : Fin 11) (f : Ctx → Ctx) : State :=
  s.instr i fun s c => s.modCtx i c fun x => (f x).next

/-- An instruction that writes one g register. -/
def State.gOp (s : State) (i : Fin 11) (rd : Fin 32) (v : Ctx → Word) : State :=
  s.regOp i fun x => x.setG rd (v x)

/-- An instruction that decides where its context goes on. -/
def State.branchOp (s : State) (i : Fin 11) (off : Half) (taken : Ctx → Bool) : State :=
  s.instr i fun s c => s.modCtx i c fun x => if taken x then x.goto (x.pc + 4 * (sextI off).toNat) else x.next

/-! ### Loads (R414, R422, R425, R427) -/

/-- The number of bytes of a load. -/
def LoadKind.len : LoadKind → Nat
  | .lb => 1
  | .lbu => 1
  | .lh => 2
  | .lhu => 2
  | .lw => 4
  | .ldx => 4

/-- The datum of a load, from its bytes (R420, R422). -/
def LoadKind.widen (k : LoadKind) (bs : List Byte) : Word :=
  match k with
  | .lb => (BitVec.ofNat 8 (natLE bs)).signExtend 32
  | .lh => (BitVec.ofNat 16 (natLE bs)).signExtend 32
  | _ => BitVec.ofNat 32 (natLE bs)

/-- A vector from 32 bytes, and its bytes (R412). -/
def vecOf (bs : List Byte) : Vec := Vector.ofFn fun l => BitVec.ofNat 16 (natLE ((bs.drop (2 * l.val)).take 2))
def vecBytes (v : Vec) : List Byte := v.toList.flatMap fun (h : Half) => bytesLE 2 h.toNat

/-- The bytes that a load takes. -/
def PendLoad.len (p : PendLoad) : Nat := if p.vec then 32 else p.kind.len

/-- The datum of a load reaches its register, and the context goes on; LDX sets the monitor on the granule of `key`. -/
def Ctx.loaded (x : Ctx) (p : PendLoad) (key tb : Nat) (bs : List Byte) : Ctx :=
  let y := { x with load := none }.next
  if p.vec then y.setV ⟨p.rd % 8, by omega⟩ (vecOf bs)
  else
    let z := y.setG ⟨p.rd % 32, by omega⟩ (p.kind.widen bs)
    if p.kind = .ldx then { z with mon := some (key / 32, tb) } else z

/-- A load has its datum. -/
def State.loadDone (s : State) (i : Fin 11) (c : Fin 4) (p : PendLoad) (key : Nat) (bs : List Byte) : State :=
  s.modCtx i c fun x => x.loaded p key s.tb bs

/-- A physical address lies in shared SRAM or DDR4. -/
def State.inMem (s : State) (pa : Nat) : Bool :=
  match physTarget s.cup.capacity pa with
  | .sram _ => true
  | .ddr _ => true
  | _ => false

/-- A load from the local window; `e` is what its memory does to the word (R442, R443). -/
def State.localLoad (s : State) (i : Fin 11) (c : Fin 4) (p : PendLoad) (e : Ecc) : State :=
  let imem := decide (p.va < 0x20000)
  if imem && p.vec then s.raise i c exBUS 0 p.va
  else if imem && p.kind == .ldx then s.raise i c exEXCL 0 p.va
  else if s.core[i].localBad p.va p.len || e.lost then
    let s1 := if e.lost && !s.core[i].flaws.contains (p.va / 4) then
      s.modCore i fun k => { k with flaws := k.flaws ++ [p.va / 4] } else s
    s1.raise i c exECC 0 p.va
  else
    let s1 := if e = .ok then s else s.coreCe i imem
    s1.loadDone i c p (tcmKey i p.va) (s.core[i].localRead p.va p.len)

/-- A load from `va` (R422, R425, R427, R438). It completes at once from the local window and from the D-cache; else the
context waits for it (R414). -/
def State.loadAt (s : State) (i : Fin 11) (c : Fin 4) (vec : Bool) (kind : LoadKind) (rd va : Nat) (e : Ecc) : State :=
  let p : PendLoad := ⟨vec, kind, rd, va, va, false⟩
  if va % p.len != 0 then s.raise i c exALIGN 0 va
  else
    let r := s.translate i (s.ctx i c).space .load va
    match r.1 with
    | .fault sub => r.2.raise i c exLPF sub va
    | .loc _ => r.2.localLoad i c p e
    | .phys pa cached =>
      if vec && !r.2.inMem pa then r.2.raise i c exBUS 0 va
      else if !vec && kind == .ldx && (cached || !r.2.inMem pa) then r.2.raise i c exEXCL 0 va
      else
        match (if cached then spFind r.2.core[i].dcache (pa / 32) else none) with
        | some l => r.2.loadDone i c p pa (l.bytes pa p.len)
        | none => r.2.modCtx i c fun x => { x with load := some { p with pa := pa, cached := cached } }

/-- The load that context `c` waits for ends; `errs` is what the DRAM does to its codewords (R414, R422, R491). -/
def State.loadEnd (s : State) (i : Fin 11) (c : Fin 4) (errs : List Ecc) : State :=
  match (s.ctx i c).load with
  | none => s
  | some p =>
    if p.cached then
      let r := if (spFind s.core[i].dcache (p.pa / 32)).isSome then (true, s) else s.dcFill i (p.pa / 32) errs
      match (if r.1 then spFind r.2.core[i].dcache (p.pa / 32) else none) with
      | some l => r.2.loadDone i c p p.pa (l.bytes p.pa p.len)
      | none => r.2.raise i c exBUS 0 p.va
    else if p.pa < 0x10000000 then
      let r := s.accessRead (s.coreMid i) p.pa p.len
      if r.2.1 then r.2.2.raise i c exBUS 0 p.va else r.2.2.loadDone i c p p.pa (bytesLE p.len r.1)
    else
      let r := s.memRead (s.coreMid i) (s.coreClient i) p.pa p.len (envAt p.pa errs)
      if r.2.1 = .ok then r.2.2.loadDone i c p p.pa r.1 else r.2.2.raise i c exBUS 0 p.va

/-! ### Stores (R422, R425, R427, R428) -/

/-- The context's own store leaves its monitor as it was (R428), and the context goes on. -/
def State.stored (s : State) (i : Fin 11) (c : Fin 4) (mon : Option (Nat × Nat)) : State :=
  s.modCtx i c fun x => { x with mon := mon }.next

/-- A store to a register: it can reset or halt the core that makes it, and then nothing more happens in the context. -/
def State.regStore (s : State) (i : Fin 11) (c : Fin 4) (pa va : Nat) (bs : List Byte) : State :=
  let r := s.accessWrite (s.coreMid i) c.val pa bs.length (natLE bs)
  if r.1 then r.2.raise i c exBUS 0 va
  else if r.2.ctx i c = s.ctx i c then r.2.stored i c (s.ctx i c).mon
  else r.2

/-- A store to a cached page: the line is filled first where the D-cache does not hold it. -/
def State.cacheStore (s : State) (i : Fin 11) (c : Fin 4) (pa va : Nat) (bs : List Byte) : State :=
  let r := if (spFind s.core[i].dcache (pa / 32)).isSome then (true, s) else s.dcFill i (pa / 32) []
  match (if r.1 then spFind r.2.core[i].dcache (pa / 32) else none) with
  | some l =>
    ((r.2.monClear pa bs.length).modCore i fun k => { k with dcache := spPut k.dcache (pa / 32) (l.put pa bs) }).stored i c
      (s.ctx i c).mon
  | none => r.2.raise i c exBUS 0 va

/-- A store to `va` (R422, R425, R438). -/
def State.storeAt (s : State) (i : Fin 11) (c : Fin 4) (va : Nat) (vec : Bool) (bs : List Byte) : State :=
  if va % bs.length != 0 then s.raise i c exALIGN 0 va
  else
    let r := s.translate i (s.ctx i c).space .store va
    let mon := (s.ctx i c).mon
    match r.1 with
    | .fault sub => r.2.raise i c exSPF sub va
    | .loc _ =>
      if vec && decide (va < 0x20000) then r.2.raise i c exBUS 0 va
      else (r.2.localStore i va bs).stored i c mon
    | .phys pa cached =>
      if vec && !r.2.inMem pa then r.2.raise i c exBUS 0 va
      else if cached then r.2.cacheStore i c pa va bs
      else if pa < 0x10000000 then r.2.regStore i c pa va bs
      else
        let w := r.2.memWrite (s.coreMid i) (s.coreClient i) pa bs
        if w.1 = .ok then w.2.stored i c mon else w.2.raise i c exBUS 0 va

/-! ### Exclusive stores (R427, R428) -/

/-- The monitor holds on the granule of `key`, set less than 10 µs of TB ago. -/
def State.monHolds (s : State) (i : Fin 11) (c : Fin 4) (key : Nat) : Bool :=
  match (s.ctx i c).mon with
  | some (g, t) => g == key / 32 && decide (s.tb < t + 10000)
  | none => false

/-- STX ends: gd, and the monitor is cleared. -/
def State.stxEnd (s : State) (i : Fin 11) (c : Fin 4) (rd : Fin 32) (fail : Bool) : State :=
  s.modCtx i c fun x => ({ x with mon := none }.setG rd (if fail then 1 else 0)).next

/-- STX at `va` (R427). -/
def State.stxAt (s : State) (i : Fin 11) (c : Fin 4) (rd : Fin 32) (va : Nat) (v : Word) : State :=
  if va % 4 != 0 then s.raise i c exALIGN 0 va
  else
    let r := s.translate i (s.ctx i c).space .store va
    match r.1 with
    | .fault sub => r.2.raise i c exSPF sub va
    | .loc _ =>
      if va < 0x20000 then r.2.raise i c exEXCL 0 va
      else if r.2.monHolds i c (tcmKey i va) then (r.2.localStore i va (bytesLE 4 v.toNat)).stxEnd i c rd false
      else r.2.stxEnd i c rd true
    | .phys pa cached =>
      if cached || !r.2.inMem pa then r.2.raise i c exEXCL 0 va
      else if r.2.monHolds i c pa then
        let w := r.2.memWrite (s.coreMid i) (s.coreClient i) pa (bytesLE 4 v.toNat)
        if w.1 = .ok then w.2.stxEnd i c rd false else w.2.raise i c exBUS 0 va
      else r.2.stxEnd i c rd true

end Sys2Proof.Machine
end

