-- ==== Sys2Proof/Machine/Coef.lean ====
section
/-! DEFINITION. Meanings of CLD, CST, VCLD and VCST (12_molx_isa.md R413, R430-R432). `i` is the core that issues. -/

namespace Sys2Proof.Machine

/-- COEF sub-codes (R431). -/
abbrev cfCALIGN : Nat := 1
abbrev cfRANGE : Nat := 2
abbrev cfTHP_WRITE : Nat := 3
abbrev cfPOWER : Nat := 4

/-- The power domain of a coefficient word of Pn is ON (R127). -/
def State.coefOn (s : State) (n : Fin 8) (w : Nat) : Bool := s.domOn (14 * n.val + (if coefIsCanc w then 5 else 6))

/-- The window offsets that an instruction at `a` addresses. -/
def coefWords (a count : Nat) : List Nat := (List.range count).map fun j => (a + 4 * j) % 2 ^ 32

/-- The checks of R431 in their order: sub-code and first failing word of the first that fails. -/
def State.coefCheck (s : State) (n : Fin 8) (wr : Bool) (a count : Nat) : Option (Nat × Nat) :=
  let ws := coefWords a count
  let bad (sub : Nat) (p : Nat → Bool) : Option (Nat × Nat) := (ws.find? p).map fun w => (sub, w)
  if a % 4 != 0 then some (cfCALIGN, a)
  else
    match bad cfRANGE fun w => decide (0x20000 ≤ w) || !coefWordB w with
    | some e => some e
    | none =>
      match (if wr then bad cfTHP_WRITE coefIsThp else none) with
      | some e => some e
      | none => bad cfPOWER fun w => !s.coefOn n w

/-- A coefficient instruction: ILLEGAL without the unit, COEF where a check fails, and then `f` for the unit's port and the
first offset. -/
def State.coefOp (s : State) (i : Fin 11) (rs1 : Fin 32) (imm : Half) (wr : Bool) (count : Nat)
    (f : State → Fin 4 → Fin 8 → Nat → State) : State :=
  s.instr i fun s c =>
    let a := (s.ctx i c).addr rs1 imm
    match s.coefPort i with
    | none => s.raiseOpen i c exILLEGAL
    | some n =>
      match s.coefCheck n wr a count with
      | some e => s.raise i c exCOEF e.1 e.2
      | none => f s c n a

/-- Read consecutive words of the window. -/
def State.coefReads (s : State) (n : Fin 8) (w : Nat) : Nat → List Nat × State
  | 0 => ([], s)
  | k + 1 =>
    let r := s.coefRead n w
    let rest := r.2.coefReads n (w + 4) k
    (r.1 :: rest.1, rest.2)

/-- Write consecutive words of the window. -/
def State.coefWrites (s : State) (n : Fin 8) (w : Nat) : List Nat → State
  | [] => s
  | v :: vs => (s.coefWrite n w v).coefWrites n (w + 4) vs

/-- CLD (R430). -/
def execCld (i : Fin 11) (rd rs1 : Fin 32) (imm : Half) (s : State) : Host.Outcome State Fault Refusal :=
  done (s.coefOp i rs1 imm false 1 fun s c n a =>
    let r := s.coefRead n a
    r.2.modCtx i c fun x => (x.setG rd (BitVec.ofNat 32 r.1)).next)

/-- CST (R430): bits [7:0] are ignored. -/
def execCst (i : Fin 11) (rs2 rs1 : Fin 32) (imm : Half) (s : State) : Host.Outcome State Fault Refusal :=
  done (s.coefOp i rs1 imm true 1 fun s c n a =>
    (s.coefWrite n a ((s.ctx i c).rg rs2).toNat).modCtx i c Ctx.next)

/-- VCLD (R430): lane `l` takes bits [31:16] of word `l`. -/
def execVcld (i : Fin 11) (vd : Fin 8) (rs1 : Fin 32) (imm : Half) (s : State) : Host.Outcome State Fault Refusal :=
  done (s.coefOp i rs1 imm false 16 fun s c n a =>
    let r := s.coefReads n a 16
    r.2.modCtx i c fun x =>
      (x.setV vd (Vector.ofFn fun l => BitVec.ofNat 16 (r.1.getD l.val 0 / 2 ^ 16))).next)

/-- VCST (R430): word `l` takes lane `l` in bits [31:16], and zeros. -/
def execVcst (i : Fin 11) (vs : Fin 8) (rs1 : Fin 32) (imm : Half) (s : State) : Host.Outcome State Fault Refusal :=
  done (s.coefOp i rs1 imm true 16 fun s c n a =>
    (s.coefWrites n a (((s.ctx i c).rv vs).toList.map fun (h : Half) => h.toNat * 2 ^ 16)).modCtx i c Ctx.next)

end Sys2Proof.Machine
end

