-- ==== Sys2Proof/Machine/Control.lean ====
section
/-! DEFINITION. Meanings of the MOLX branches, jumps and SYS operations (12_molx_isa.md R421, R423, R426, R436,
13_molx_system.md R447, R454). `i` is the core that issues. -/

namespace Sys2Proof.Machine

/-! ### Branches and jumps -/

/-- BEQ (R423). -/
def execBeq (i : Fin 11) (rs1 rs2 : Fin 32) (off : Half) (s : State) : Host.Outcome State Fault Refusal :=
  done (s.branchOp i off fun x => x.rg rs1 == x.rg rs2)

/-- BNE (R423). -/
def execBne (i : Fin 11) (rs1 rs2 : Fin 32) (off : Half) (s : State) : Host.Outcome State Fault Refusal :=
  done (s.branchOp i off fun x => x.rg rs1 != x.rg rs2)

/-- BLT (R423). -/
def execBlt (i : Fin 11) (rs1 rs2 : Fin 32) (off : Half) (s : State) : Host.Outcome State Fault Refusal :=
  done (s.branchOp i off fun x => (x.rg rs1).slt (x.rg rs2))

/-- BGE (R423). -/
def execBge (i : Fin 11) (rs1 rs2 : Fin 32) (off : Half) (s : State) : Host.Outcome State Fault Refusal :=
  done (s.branchOp i off fun x => !(x.rg rs1).slt (x.rg rs2))

/-- BLTU (R423). -/
def execBltu (i : Fin 11) (rs1 rs2 : Fin 32) (off : Half) (s : State) : Host.Outcome State Fault Refusal :=
  done (s.branchOp i off fun x => (x.rg rs1).ult (x.rg rs2))

/-- BGEU (R423). -/
def execBgeu (i : Fin 11) (rs1 rs2 : Fin 32) (off : Half) (s : State) : Host.Outcome State Fault Refusal :=
  done (s.branchOp i off fun x => !(x.rg rs1).ult (x.rg rs2))

/-- CALL (R423). -/
def execCall (i : Fin 11) (off : BitVec 26) (s : State) : Host.Outcome State Fault Refusal :=
  done (s.instr i fun s c => s.modCtx i c fun x =>
    (x.setG 31 (BitVec.ofNat 32 (x.pc + 4))).goto (x.pc + 4 * (off.signExtend 32).toNat))

/-- CALLR (R423). -/
def execCallr (i : Fin 11) (rd rs1 : Fin 32) (imm : Half) (s : State) : Host.Outcome State Fault Refusal :=
  done (s.instr i fun s c =>
    let t := (s.ctx i c).addr rs1 imm
    if t % 4 != 0 then s.raise i c exIALIGN 0 t
    else s.modCtx i c fun x => (x.setG rd (BitVec.ofNat 32 (x.pc + 4))).goto t)

/-! ### SYS operations -/

/-- SYSCALL (R421, R446). -/
def execSyscall (i : Fin 11) (arg : Fin 32) (s : State) : Host.Outcome State Fault Refusal :=
  done (s.instr i fun s c => s.raise i c exSYSCALL 0 arg.val)

/-- BREAK (R421, R446). -/
def execBrk (i : Fin 11) (arg : Fin 32) (s : State) : Host.Outcome State Fault Refusal :=
  done (s.instr i fun s c => s.raise i c exBREAK 0 arg.val)

/-- Return from an exception (R447). -/
def Ctx.leave (x : Ctx) : Ctx := { x with pc := x.epc, task := x.plv, ie := x.pie, exl := false, mon := none }

/-- ERET (R421, R438, R447). -/
def execEret (i : Fin 11) (s : State) : Host.Outcome State Fault Refusal :=
  done (s.instr i fun s c =>
    let x := s.ctx i c
    if x.epc % 4 != 0 then s.raise i c exIALIGN 0 x.epc
    else if x.task then s.raiseOpen i c exPRIV
    else s.modCtx i c Ctx.leave)

/-- FENCE (R426): a context's accesses take effect in order, so only the PC moves. -/
def execFence (i : Fin 11) (s : State) : Host.Outcome State Fault Refusal := done (s.regOp i id)

/-- The posted writes of context `c` of core `i` have taken effect or been dropped (R426). -/
def State.ctxDrain (s : State) (i : Fin 11) (c : Fin 4) : State := s.drainCtx (s.coreMid i) c.val

/-- FENCE.P (R426). A write that takes effect can reset the core, and then the context does not go on. -/
def execFenceP (i : Fin 11) (s : State) : Host.Outcome State Fault Refusal :=
  done (s.instr i fun s c =>
    let s1 := s.ctxDrain i c
    if s1.ctx i c = s.ctx i c then s1.modCtx i c Ctx.next else s1)

/-- IFENCE (R426): a fetch follows every earlier store, so only the PC moves. -/
def execIfence (i : Fin 11) (s : State) : Host.Outcome State Fault Refusal := done (s.regOp i id)

/-- CLRX (R421). -/
def execClrx (i : Fin 11) (s : State) : Host.Outcome State Fault Refusal :=
  done (s.regOp i fun x => { x with mon := none })

/-- SEV (R436). -/
def execSev (i : Fin 11) (rs1 : Fin 32) (s : State) : Host.Outcome State Fault Refusal :=
  done (s.instr i fun s c =>
    let t := ctx4 ((s.ctx i c).rg rs1).toNat
    (s.modCtx i t fun x => { x with flag := true }).modCtx i c Ctx.next)

/-- An operation of level S: PRIV in level T (R421). -/
def State.superOp (s : State) (i : Fin 11) (f : State → Fin 4 → State) : State :=
  s.instr i fun s c => if (s.ctx i c).task then s.raiseOpen i c exPRIV else (f s c).modCtx i c Ctx.next

/-- TLBI with ARG[0] = 0 (R454). -/
def execTlbi (i : Fin 11) (rs1 : Fin 32) (s : State) : Host.Outcome State Fault Refusal :=
  done (s.superOp i fun s c =>
    let x := s.ctx i c
    s.modCore i fun k => { k with tlb := k.tlb.filter fun (e : TlbEntry) => !e.hits x.asid (x.rg rs1).toNat })

/-- TLBI with ARG[0] = 1 (R454). -/
def execTlbiAll (i : Fin 11) (s : State) : Host.Outcome State Fault Refusal :=
  done (s.superOp i fun s _ => s.modCore i fun k => { k with tlb := [] })

/-- The physical line of the virtual address in a g register: none in the local window, which bypasses the caches, or where
no access of any kind is translated (log entry 16). -/
def State.lineOf (s : State) (i : Fin 11) (c : Fin 4) (rs1 : Fin 32) : Option Nat × State :=
  let x := s.ctx i c
  let va := (x.rg rs1).toNat
  let r := s.translate i x.space .load va
  match r.1 with
  | .phys pa _ => (some (pa / 32), r.2)
  | .loc _ => (none, r.2)
  | .fault _ =>
    let w := r.2.translate i x.space .store va
    match w.1 with
    | .phys pa _ => (some (pa / 32), w.2)
    | .loc _ => (none, w.2)
    | .fault _ =>
      let f := w.2.translate i x.space .fetch va
      match f.1 with
      | .phys pa _ => (some (pa / 32), f.2)
      | _ => (none, f.2)

/-- A cache operation on the line that holds gs1. -/
def State.lineOp (s : State) (i : Fin 11) (c : Fin 4) (rs1 : Fin 32) (f : State → Nat → State) : State :=
  let r := s.lineOf i c rs1
  match r.1 with
  | some l => f r.2 l
  | none => r.2

/-- CACHE 0 (R421): invalidate the I-cache line. -/
def execCacheInvalIline (i : Fin 11) (rs1 : Fin 32) (s : State) : Host.Outcome State Fault Refusal :=
  done (s.instr i fun s c => (s.lineOp i c rs1 fun s l =>
    s.modCore i fun k => { k with icache := k.icache.filter (· ≠ l) }).modCtx i c Ctx.next)

/-- CACHE 1 (R421): clean the D-cache line. -/
def execCacheCleanDline (i : Fin 11) (rs1 : Fin 32) (s : State) : Host.Outcome State Fault Refusal :=
  done (s.instr i fun s c => (s.lineOp i c rs1 fun s l => s.dcWriteBack i l).modCtx i c Ctx.next)

/-- CACHE 2 (R421): invalidate the D-cache line without write-back. -/
def execCacheInvalDline (i : Fin 11) (rs1 : Fin 32) (s : State) : Host.Outcome State Fault Refusal :=
  done (s.superOp i fun s c => s.lineOp i c rs1 fun s l => s.dcDrop i l)

/-- CACHE 3 (R421): clean and invalidate the D-cache line. -/
def execCacheCleanInvalDline (i : Fin 11) (rs1 : Fin 32) (s : State) : Host.Outcome State Fault Refusal :=
  done (s.instr i fun s c => (s.lineOp i c rs1 fun s l => (s.dcWriteBack i l).dcDrop i l).modCtx i c Ctx.next)

/-- CACHE 8 (R421): invalidate the whole I-cache. -/
def execCacheInvalIcache (i : Fin 11) (s : State) : Host.Outcome State Fault Refusal :=
  done (s.superOp i fun s _ => s.modCore i fun k => { k with icache := [] })

/-- CACHE 9 (R421): clean the whole D-cache. -/
def execCacheCleanDcache (i : Fin 11) (s : State) : Host.Outcome State Fault Refusal :=
  done (s.superOp i fun s _ => s.dcCleanAll i)

/-- CACHE 11 (R421): clean and invalidate the whole D-cache. -/
def execCacheCleanInvalDcache (i : Fin 11) (s : State) : Host.Outcome State Fault Refusal :=
  done (s.superOp i fun s _ => (s.dcCleanAll i).modCore i fun k => { k with dcache := [] })

end Sys2Proof.Machine
end

