-- ==== Sys2Proof/Machine/DmaOps.lean ====
section
/-! DEFINITION. What a DMA channel does with one descriptor (13_molx_system.md R455-R458). -/

namespace Sys2Proof.Machine

/-- A descriptor's words 0 to 5 (R456). -/
structure DmaDesc where
  word0 : Nat
  src : Nat
  dst : Nat
  next : Nat
  result : Nat
  done : Nat
  deriving DecidableEq, Repr

/-- A descriptor from its 32 bytes. -/
def DmaDesc.ofBytes (bs : List Byte) : DmaDesc :=
  let w (k : Nat) : Nat := natLE ((bs.drop (4 * k)).take 4)
  ⟨w 0, w 1, w 2, w 3, w 4 / 2 ^ 28, w 5⟩

def DmaDesc.fill (e : DmaDesc) : Bool := e.word0 / 2 ^ 28 == 1
def DmaDesc.chain (e : DmaDesc) : Bool := bitB e.word0 27
def DmaDesc.sfix (e : DmaDesc) : Bool := bitB e.word0 26
def DmaDesc.dfix (e : DmaDesc) : Bool := bitB e.word0 25
def DmaDesc.words (e : DmaDesc) : Bool := bitB e.word0 24
def DmaDesc.len (e : DmaDesc) : Nat := e.word0 % 2 ^ 17

/-- The descriptor is one that R456 admits. -/
def DmaDesc.ok (e : DmaDesc) : Bool :=
  decide (e.word0 / 2 ^ 28 < 2) && bitsOf e.word0 23 17 == 0 && decide (1 ≤ e.len) && decide (e.len ≤ 0x10000) &&
    (!e.words || (e.len % 4 == 0 && e.dst % 4 == 0 && (e.fill || e.src % 4 == 0)))

/-- The addresses of offset `o` at either side. -/
def DmaDesc.srcAt (e : DmaDesc) (o : Nat) : Nat := (e.src + (if e.sfix then 0 else o)) % 2 ^ 32
def DmaDesc.dstAt (e : DmaDesc) (o : Nat) : Nat := (e.dst + (if e.dfix then 0 else o)) % 2 ^ 32

/-- The bytes that the access at offset `o` moves: it crosses no 64-byte boundary of its address, and has the width of a
word where WORD says so (R456, R457); at a fixed address it moves one word or one byte (log entry 17). -/
def DmaDesc.chunk (e : DmaDesc) (o : Nat) : Nat :=
  if e.words then 4
  else if e.dfix || (e.sfix && !e.fill) then 1
  else
    let d := min (e.len - o) (64 - e.dstAt o % 64)
    if e.fill then d else min d (64 - e.srcAt o % 64)

/-- The bytes of a FILL at offset `o` (R456): the pattern repeats from offset 0. -/
def DmaDesc.pattern (e : DmaDesc) (o n : Nat) : List Byte :=
  (List.range n).map fun k => BitVec.ofNat 8 (e.src / 2 ^ (8 * ((o + k) % 4)))

/-- Read bytes for a channel: or RESULT and SUB of the failure (R456, R457). -/
def State.dmaLoad (s : State) (i : Fin 11) (d : Dma) (word : Bool) (va len : Nat) : Except (Nat × Nat) (List Byte) × State :=
  let r := s.translate i d.space .load va
  match r.1 with
  | .loc a => (if r.2.core[i].localBad a len then .error (dmMEM_UE, 0) else .ok (r.2.core[i].localRead a len), r.2)
  | .phys pa _ =>
    if pa < 0x10000000 ∧ !word then (.error (dmBUS, 0), r.2)
    else
      let m := r.2.physRead (s.coreMid i) (s.coreClient i) pa len
      (match m.2.1 with | .ok => .ok m.1 | .bus => .error (dmBUS, 0) | .unc => .error (dmMEM_UE, 0), m.2.2)
  | .fault sub => (.error (dmXLATE, sub), r.2)

/-- The tag of a channel's posted writes: no context's. -/
def dmaTag : Nat := 4

/-- Write bytes for a channel: RESULT and SUB of the failure, if it fails. -/
def State.dmaStore (s : State) (i : Fin 11) (d : Dma) (word : Bool) (va : Nat) (bs : List Byte) :
    Option (Nat × Nat) × State :=
  let r := s.translate i d.space .store va
  match r.1 with
  | .loc a => (none, r.2.localStore i a bs)
  | .phys pa _ =>
    if pa < 0x10000000 ∧ !word then (some (dmBUS, 0), r.2)
    else
      let m := r.2.physWrite (s.coreMid i) dmaTag (s.coreClient i) pa bs
      (if m.1 = .ok then none else some (dmBUS, 0), m.2)
  | .fault sub => (some (dmXLATE, sub), r.2)

/-- How the transfer of a descriptor ended: the offset reached, and for an access that failed RESULT, SIDE, SUB and its
virtual address. -/
structure DmaStop where
  ofs : Nat
  fail : Option (Nat × Nat × Nat × Nat)

/-- Move the bytes from offset `o` on, access by access (R457). -/
def State.dmaMove (s : State) (i : Fin 11) (d : Dma) (e : DmaDesc) : Nat → Nat → DmaStop × State
  | 0, o => (⟨o, none⟩, s)
  | fuel + 1, o =>
    if e.len ≤ o then (⟨o, none⟩, s)
    else
      let n := e.chunk o
      let r := if e.fill then (.ok (e.pattern o n), s) else s.dmaLoad i d e.words (e.srcAt o) n
      match r.1 with
      | .error f => (⟨o, some (f.1, 0, f.2, e.srcAt o)⟩, r.2)
      | .ok bs =>
        let w := r.2.dmaStore i d e.words (e.dstAt o) bs
        match w.1 with
        | some f => (⟨o, some (f.1, 1, f.2, e.dstAt o)⟩, w.2)
        | none => w.2.dmaMove i d e fuel (o + n)

/-- A descriptor is done: the channel completes, or goes on with the next one (R456). -/
def State.dmaDone (s : State) (i : Fin 11) (ch : Fin 4) (e : DmaDesc) (done : Nat) : State :=
  if e.chain then
    let b := s.dmaBack i s.core[i].dma[ch] dmDONE 0 0 done 0
    if b.1.isSome then s.dmaEnd i ch dmDONE 0 0 done 0
    else
      b.2.modCore i fun k => { k with dma := k.dma.set ch { k.dma[ch] with
        desc := e.next - e.next % 32, result := dmDONE, side := 0, resume := false, ofs := 0 } }
  else s.dmaEnd i ch dmDONE 0 0 done 0

/-- A channel handles its descriptor to its end (R455-R458). -/
def State.dmaRun (s : State) (i : Fin 11) (ch : Fin 4) : State :=
  let d := s.core[i].dma[ch]
  let f := s.dmaFetch i d d.desc 32
  match f.1 with
  | .error x => f.2.dmaEnd i ch x.1 2 x.2 0 d.desc
  | .ok bs =>
    let e := DmaDesc.ofBytes bs
    let o := if d.resume then e.done else 0
    if !e.ok || (d.resume && (e.result == 0 || decide (dmBAD_DESC ≤ e.result))) then f.2.dmaEndOpen i ch dmBAD_DESC 2 o
    else if d.resume && e.result == dmDONE then f.2.dmaDone i ch e o
    else
      let m := f.2.dmaMove i d e e.len o
      match m.1.fail with
      | some x => m.2.dmaEnd i ch x.1 x.2.1 x.2.2.1 m.1.ofs x.2.2.2
      | none => m.2.dmaDone i ch e m.1.ofs

end Sys2Proof.Machine
end

