-- ==== Sys2Proof/Machine/MolxWord.lean ====
section
/-! DEFINITION. The words of the MOLX instructions: which words some table lists (12_molx_isa.md R415-R419, R421, R424,
R429; 13_molx_system.md R445), and the word of each instruction. -/

namespace Sys2Proof.Machine

/-- A CSR number that a table assigns (R429, R445). -/
def csrAssigned (n : Nat) : Bool :=
  n ≤ 4 || (decide (0x10 ≤ n) && decide (n ≤ 0x13)) || (decide (0x100 ≤ n) && decide (n ≤ 0x107)) || n == 0x110 ||
    n == 0x111 || n == 0x118 || (decide (0x120 ≤ n) && decide (n ≤ 0x122)) || n == 0x130 || n == 0x131 ||
    (decide (0x140 ≤ n) && decide (n < 0x14C))

/-- func codes of the OP group, with CLZ's rs2 = 0 (R419). -/
def opLegal (rs2 func : Nat) : Bool :=
  func < 0x12 || (func == 0x12 && rs2 == 0) || func == 0x18 || func == 0x19 || func == 0x1A ||
    (decide (0x1C ≤ func) && decide (func < 0x20))

/-- Operations of the SYS group: `op` func[5:0], `arg` func[10:6] (R421). -/
def sysLegal (rd rs1 rs2 arg op : Nat) : Bool :=
  rd == 0 && rs2 == 0 &&
    match op with
    | 0 => rs1 == 0
    | 1 => rs1 == 0
    | 2 => rs1 == 0 && arg == 0
    | 3 => rs1 == 0 && decide (arg < 2)
    | 4 => rs1 == 0 && arg == 0
    | 5 => rs1 == 0 && arg == 0
    | 6 => arg == 0
    | 7 => decide (arg < 2)
    | 8 => decide (arg < 4) || arg == 8 || arg == 9 || arg == 11
    | _ => false

/-- Operations of the VOP group: `op` func[6:0], `ln` func[10:7] (R424). -/
def vopLegal (rd rs1 rs2 ln op : Nat) : Bool :=
  let v (r : Nat) : Bool := decide (r < 8)
  if op ≤ 0x0A then v rd && v rs1 && v rs2 && ln == 0
  else match op with
    | 0x0B => v rd && v rs1 && rs2 == 0 && ln == 0
    | 0x0C => v rd && v rs1 && ln == 0
    | 0x0D => v rd && v rs1 && ln == 0
    | 0x0E => v rd && v rs1 && ln == 0
    | 0x10 => v rd && rs2 == 0 && ln == 0
    | 0x11 => v rs1 && rs2 == 0
    | 0x12 => v rd && rs2 == 0
    | 0x13 => v rs1 && rs2 == 0 && ln == 0
    | 0x14 => v rs1 && v rs2 && ln == 0
    | 0x15 => v rd && v rs1 && rs2 == 0 && ln == 0
    | 0x16 => v rs1 && v rs2 && ln == 0
    | _ => false

/-- A word that the tables list, all fields marked 0 being 0 (R415-R419, R421, R424). -/
def molxLegal (w : Nat) : Bool :=
  let rd := bitsOf w 25 21
  let rs1 := bitsOf w 20 16
  let rs2 := bitsOf w 15 11
  let func := bitsOf w 10 0
  let imm := bitsOf w 15 0
  match bitsOf w 31 26 with
  | 0x00 => opLegal rs2 func
  | 0x01 => true
  | 0x02 => true
  | 0x03 => true
  | 0x04 => true
  | 0x05 => true
  | 0x06 => true
  | 0x07 => rs1 == 0
  | 0x08 => decide (imm < 0x80)
  | 0x10 => true
  | 0x11 => true
  | 0x12 => true
  | 0x13 => true
  | 0x14 => true
  | 0x18 => true
  | 0x19 => true
  | 0x1A => true
  | 0x1C => true
  | 0x1D => func == 0
  | 0x20 => true
  | 0x21 => true
  | 0x22 => true
  | 0x23 => true
  | 0x24 => true
  | 0x25 => true
  | 0x28 => true
  | 0x29 => true
  | 0x30 => sysLegal rd rs1 rs2 (bitsOf w 10 6) (bitsOf w 5 0)
  | 0x31 => csrAssigned imm
  | 0x32 => csrAssigned imm
  | 0x33 => csrAssigned imm
  | 0x35 => rs1 == 0 && bitsOf w 14 6 == 0
  | 0x36 => bitsOf w 10 1 == 0
  | 0x38 => vopLegal rd rs1 rs2 (bitsOf w 10 7) (bitsOf w 6 0)
  | 0x39 => decide (rd < 8)
  | 0x3A => decide (rd < 8)
  | 0x3B => true
  | 0x3C => true
  | 0x3D => decide (rd < 8)
  | 0x3E => decide (rd < 8)
  | _ => false

/-- A word of R format (R415). -/
def encR (op rd rs1 rs2 func : Nat) : Nat := op * 2 ^ 26 + rd * 2 ^ 21 + rs1 * 2 ^ 16 + rs2 * 2 ^ 11 + func
/-- A word of I, S or B format: two register fields and 16 bits (R415). -/
def encI (op a b imm : Nat) : Nat := op * 2 ^ 26 + a * 2 ^ 21 + b * 2 ^ 16 + imm
/-- A word of J format (R415). -/
def encJ (op off : Nat) : Nat := op * 2 ^ 26 + off
/-- Words of the SYS and VOP groups (R421, R424). -/
def encSys (rs1 arg op : Nat) : Nat := encR 0x30 0 rs1 0 (64 * arg + op)
def encVop (rd rs1 rs2 ln op : Nat) : Nat := encR 0x38 rd rs1 rs2 (128 * ln + op)

/-- The core and the word of an instruction; none for a command that is no MOLX instruction. -/
def molxWord (c : Instr) : Option (Fin 11 × Nat) :=
  match c with
  | .add i rd a b => some (i, encR 0 rd.val a.val b.val 0)
  | .sub i rd a b => some (i, encR 0 rd.val a.val b.val 1)
  | .and i rd a b => some (i, encR 0 rd.val a.val b.val 2)
  | .or i rd a b => some (i, encR 0 rd.val a.val b.val 3)
  | .xor i rd a b => some (i, encR 0 rd.val a.val b.val 4)
  | .andn i rd a b => some (i, encR 0 rd.val a.val b.val 5)
  | .sll i rd a b => some (i, encR 0 rd.val a.val b.val 6)
  | .srl i rd a b => some (i, encR 0 rd.val a.val b.val 7)
  | .sra i rd a b => some (i, encR 0 rd.val a.val b.val 8)
  | .ror i rd a b => some (i, encR 0 rd.val a.val b.val 9)
  | .clt i rd a b => some (i, encR 0 rd.val a.val b.val 10)
  | .cltu i rd a b => some (i, encR 0 rd.val a.val b.val 11)
  | .min i rd a b => some (i, encR 0 rd.val a.val b.val 12)
  | .max i rd a b => some (i, encR 0 rd.val a.val b.val 13)
  | .minu i rd a b => some (i, encR 0 rd.val a.val b.val 14)
  | .maxu i rd a b => some (i, encR 0 rd.val a.val b.val 15)
  | .adds i rd a b => some (i, encR 0 rd.val a.val b.val 16)
  | .subs i rd a b => some (i, encR 0 rd.val a.val b.val 17)
  | .mul i rd a b => some (i, encR 0 rd.val a.val b.val 24)
  | .mulh i rd a b => some (i, encR 0 rd.val a.val b.val 25)
  | .mulhu i rd a b => some (i, encR 0 rd.val a.val b.val 26)
  | .div i rd a b => some (i, encR 0 rd.val a.val b.val 28)
  | .divu i rd a b => some (i, encR 0 rd.val a.val b.val 29)
  | .rem i rd a b => some (i, encR 0 rd.val a.val b.val 30)
  | .remu i rd a b => some (i, encR 0 rd.val a.val b.val 31)
  | .clz i rd a => some (i, encR 0 rd.val a.val 0 0x12)
  | .addi i rd a imm => some (i, encI 1 rd.val a.val imm.toNat)
  | .clti i rd a imm => some (i, encI 2 rd.val a.val imm.toNat)
  | .cltiu i rd a imm => some (i, encI 3 rd.val a.val imm.toNat)
  | .andi i rd a imm => some (i, encI 4 rd.val a.val imm.toNat)
  | .ori i rd a imm => some (i, encI 5 rd.val a.val imm.toNat)
  | .xori i rd a imm => some (i, encI 6 rd.val a.val imm.toNat)
  | .lhi i rd imm => some (i, encI 7 rd.val 0 imm.toNat)
  | .slli i rd a k => some (i, encI 8 rd.val a.val (32 * 0 + k.val))
  | .srli i rd a k => some (i, encI 8 rd.val a.val (32 * 1 + k.val))
  | .srai i rd a k => some (i, encI 8 rd.val a.val (32 * 2 + k.val))
  | .rori i rd a k => some (i, encI 8 rd.val a.val (32 * 3 + k.val))
  | .lb i rd a imm _ => some (i, encI 0x10 rd.val a.val imm.toNat)
  | .lh i rd a imm _ => some (i, encI 0x11 rd.val a.val imm.toNat)
  | .lw i rd a imm _ => some (i, encI 0x12 rd.val a.val imm.toNat)
  | .lbu i rd a imm _ => some (i, encI 0x13 rd.val a.val imm.toNat)
  | .lhu i rd a imm _ => some (i, encI 0x14 rd.val a.val imm.toNat)
  | .ldx i rd a imm _ => some (i, encI 0x1c rd.val a.val imm.toNat)
  | .sb i b a imm => some (i, encI 0x18 b.val a.val imm.toNat)
  | .sh i b a imm => some (i, encI 0x19 b.val a.val imm.toNat)
  | .sw i b a imm => some (i, encI 0x1a b.val a.val imm.toNat)
  | .stx i rd b a => some (i, encR 0x1D rd.val a.val b.val 0)
  | .beq i a b off => some (i, encI 0x20 a.val b.val off.toNat)
  | .bne i a b off => some (i, encI 0x21 a.val b.val off.toNat)
  | .blt i a b off => some (i, encI 0x22 a.val b.val off.toNat)
  | .bge i a b off => some (i, encI 0x23 a.val b.val off.toNat)
  | .bltu i a b off => some (i, encI 0x24 a.val b.val off.toNat)
  | .bgeu i a b off => some (i, encI 0x25 a.val b.val off.toNat)
  | .call i off => some (i, encJ 0x28 off.toNat)
  | .callr i rd a imm => some (i, encI 0x29 rd.val a.val imm.toNat)
  | .syscall i arg => some (i, encSys 0 arg.val 0)
  | .brk i arg => some (i, encSys 0 arg.val 1)
  | .eret i => some (i, encSys 0 0 2)
  | .fence i => some (i, encSys 0 0 3)
  | .fenceP i => some (i, encSys 0 1 3)
  | .ifence i => some (i, encSys 0 0 4)
  | .clrx i => some (i, encSys 0 0 5)
  | .sev i a => some (i, encSys a.val 0 6)
  | .tlbi i a => some (i, encSys a.val 0 7)
  | .tlbiAll i => some (i, encSys 0 1 7)
  | .cacheInvalIline i a => some (i, encSys a.val 0 8)
  | .cacheCleanDline i a => some (i, encSys a.val 1 8)
  | .cacheInvalDline i a => some (i, encSys a.val 2 8)
  | .cacheCleanInvalDline i a => some (i, encSys a.val 3 8)
  | .cacheInvalIcache i => some (i, encSys 0 8 8)
  | .cacheCleanDcache i => some (i, encSys 0 9 8)
  | .cacheCleanInvalDcache i => some (i, encSys 0 11 8)
  | .csrw i rd a csr => some (i, encI 0x31 rd.val a.val csr.toNat)
  | .csrs i rd a csr => some (i, encI 0x32 rd.val a.val csr.toNat)
  | .csrc i rd a csr => some (i, encI 0x33 rd.val a.val csr.toNat)
  | .wfe i rd a b d => some (i, encR 0x36 rd.val a.val b.val (b2n d))
  | .wfev i rd k d => some (i, encI 0x35 rd.val 0 (b2n d * 2 ^ 15 + k.val))
  | .vld i vd a imm _ => some (i, encI 0x39 vd.val a.val imm.toNat)
  | .vst i v a imm => some (i, encI 0x3A v.val a.val imm.toNat)
  | .cld i rd a imm => some (i, encI 0x3B rd.val a.val imm.toNat)
  | .cst i b a imm => some (i, encI 0x3C b.val a.val imm.toNat)
  | .vcld i vd a imm => some (i, encI 0x3D vd.val a.val imm.toNat)
  | .vcst i v a imm => some (i, encI 0x3E v.val a.val imm.toNat)
  | .vadd i d a b => some (i, encVop d.val a.val b.val 0 0)
  | .vsub i d a b => some (i, encVop d.val a.val b.val 0 1)
  | .vadds i d a b => some (i, encVop d.val a.val b.val 0 2)
  | .vsubs i d a b => some (i, encVop d.val a.val b.val 0 3)
  | .vmulq i d a b => some (i, encVop d.val a.val b.val 0 4)
  | .vmacq i d a b => some (i, encVop d.val a.val b.val 0 5)
  | .vand i d a b => some (i, encVop d.val a.val b.val 0 6)
  | .vor i d a b => some (i, encVop d.val a.val b.val 0 7)
  | .vxor i d a b => some (i, encVop d.val a.val b.val 0 8)
  | .vmin i d a b => some (i, encVop d.val a.val b.val 0 9)
  | .vmax i d a b => some (i, encVop d.val a.val b.val 0 10)
  | .vabs i d a => some (i, encVop d.val a.val 0 0 0x0B)
  | .vsra i d a b => some (i, encVop d.val a.val b.val 0 0xC)
  | .vsll i d a b => some (i, encVop d.val a.val b.val 0 0xD)
  | .vsrar i d a b => some (i, encVop d.val a.val b.val 0 0xE)
  | .vbcast i d a => some (i, encVop d.val a.val 0 0 0x10)
  | .vext i d a l => some (i, encVop d.val a.val 0 l.val 0x11)
  | .vins i d a l => some (i, encVop d.val a.val 0 l.val 0x12)
  | .vsum i d a => some (i, encVop d.val a.val 0 0 0x13)
  | .vdot i d a b => some (i, encVop d.val a.val b.val 0 0x14)
  | .vmov i d a => some (i, encVop d.val a.val 0 0 0x15)
  | .vcmpgt i d a b => some (i, encVop d.val a.val b.val 0 0x16)
  | _ => none

/-- The register, v register and lane of a field, and the 16 bits of an immediate. -/
def fld5 (v : Nat) : Fin 32 := ⟨v % 32, by omega⟩
def fldV (v : Nat) : Fin 8 := ⟨v % 8, by omega⟩
def fldL (v : Nat) : Fin 16 := ⟨v % 16, by omega⟩

/-- The instruction of the OP group (R419). -/
def opDecode (i : Fin 11) (rd a b : Fin 32) (func : Nat) : Option Instr :=
  match func with
  | 0x00 => some (.add i rd a b)
  | 0x01 => some (.sub i rd a b)
  | 0x02 => some (.and i rd a b)
  | 0x03 => some (.or i rd a b)
  | 0x04 => some (.xor i rd a b)
  | 0x05 => some (.andn i rd a b)
  | 0x06 => some (.sll i rd a b)
  | 0x07 => some (.srl i rd a b)
  | 0x08 => some (.sra i rd a b)
  | 0x09 => some (.ror i rd a b)
  | 0x0A => some (.clt i rd a b)
  | 0x0B => some (.cltu i rd a b)
  | 0x0C => some (.min i rd a b)
  | 0x0D => some (.max i rd a b)
  | 0x0E => some (.minu i rd a b)
  | 0x0F => some (.maxu i rd a b)
  | 0x10 => some (.adds i rd a b)
  | 0x11 => some (.subs i rd a b)
  | 0x18 => some (.mul i rd a b)
  | 0x19 => some (.mulh i rd a b)
  | 0x1A => some (.mulhu i rd a b)
  | 0x1C => some (.div i rd a b)
  | 0x1D => some (.divu i rd a b)
  | 0x1E => some (.rem i rd a b)
  | 0x1F => some (.remu i rd a b)
  | 0x12 => some (.clz i rd a)
  | _ => none

/-- The instruction of the SYS group (R421). -/
def sysDecode (i : Fin 11) (a : Fin 32) (arg op : Nat) : Option Instr :=
  match op with
  | 0 => some (.syscall i (fld5 arg))
  | 1 => some (.brk i (fld5 arg))
  | 2 => some (.eret i)
  | 3 => some (if arg = 0 then .fence i else .fenceP i)
  | 4 => some (.ifence i)
  | 5 => some (.clrx i)
  | 6 => some (.sev i a)
  | 7 => some (if arg = 0 then .tlbi i a else .tlbiAll i)
  | 8 =>
    match arg with
    | 0 => some (.cacheInvalIline i a)
    | 1 => some (.cacheCleanDline i a)
    | 2 => some (.cacheInvalDline i a)
    | 3 => some (.cacheCleanInvalDline i a)
    | 8 => some (.cacheInvalIcache i)
    | 9 => some (.cacheCleanDcache i)
    | 11 => some (.cacheCleanInvalDcache i)
    | _ => none
  | _ => none

/-- The instruction of the VOP group (R424). -/
def vopDecode (i : Fin 11) (f1 f2 f3 ln op : Nat) : Option Instr :=
  let d := fldV f1
  let a := fldV f2
  let b := fldV f3
  match op with
  | 0x00 => some (.vadd i d a b)
  | 0x01 => some (.vsub i d a b)
  | 0x02 => some (.vadds i d a b)
  | 0x03 => some (.vsubs i d a b)
  | 0x04 => some (.vmulq i d a b)
  | 0x05 => some (.vmacq i d a b)
  | 0x06 => some (.vand i d a b)
  | 0x07 => some (.vor i d a b)
  | 0x08 => some (.vxor i d a b)
  | 0x09 => some (.vmin i d a b)
  | 0x0A => some (.vmax i d a b)
  | 0x0B => some (.vabs i d a)
  | 0x0C => some (.vsra i d a (fld5 f3))
  | 0x0D => some (.vsll i d a (fld5 f3))
  | 0x0E => some (.vsrar i d a (fld5 f3))
  | 0x10 => some (.vbcast i d (fld5 f2))
  | 0x11 => some (.vext i (fld5 f1) a (fldL ln))
  | 0x12 => some (.vins i d (fld5 f2) (fldL ln))
  | 0x13 => some (.vsum i (fld5 f1) a)
  | 0x14 => some (.vdot i (fld5 f1) a b)
  | 0x15 => some (.vmov i d a)
  | 0x16 => some (.vcmpgt i (fld5 f1) a b)
  | _ => none

/-- The instruction that a word spells on core `i` (R415-R419, R421, R424); what its memory does to a loaded word is none of
its bits. -/
def molxDecode (i : Fin 11) (w : Nat) : Option Instr :=
  let f1 := bitsOf w 25 21
  let f2 := bitsOf w 20 16
  let f3 := bitsOf w 15 11
  let rd := fld5 f1
  let a := fld5 f2
  let imm : Half := BitVec.ofNat 16 w
  let csr : BitVec 12 := BitVec.ofNat 12 w
  if !molxLegal w then none
  else
    match bitsOf w 31 26 with
    | 0x00 => opDecode i rd a (fld5 f3) (bitsOf w 10 0)
    | 0x01 => some (.addi i rd a imm)
    | 0x02 => some (.clti i rd a imm)
    | 0x03 => some (.cltiu i rd a imm)
    | 0x04 => some (.andi i rd a imm)
    | 0x05 => some (.ori i rd a imm)
    | 0x06 => some (.xori i rd a imm)
    | 0x07 => some (.lhi i rd imm)
    | 0x08 =>
      match bitsOf w 6 5 with
      | 0 => some (.slli i rd a (fld5 w))
      | 1 => some (.srli i rd a (fld5 w))
      | 2 => some (.srai i rd a (fld5 w))
      | _ => some (.rori i rd a (fld5 w))
    | 0x10 => some (.lb i rd a imm .ok)
    | 0x11 => some (.lh i rd a imm .ok)
    | 0x12 => some (.lw i rd a imm .ok)
    | 0x13 => some (.lbu i rd a imm .ok)
    | 0x14 => some (.lhu i rd a imm .ok)
    | 0x18 => some (.sb i rd a imm)
    | 0x19 => some (.sh i rd a imm)
    | 0x1A => some (.sw i rd a imm)
    | 0x1C => some (.ldx i rd a imm .ok)
    | 0x1D => some (.stx i rd (fld5 f3) a)
    | 0x20 => some (.beq i rd a imm)
    | 0x21 => some (.bne i rd a imm)
    | 0x22 => some (.blt i rd a imm)
    | 0x23 => some (.bge i rd a imm)
    | 0x24 => some (.bltu i rd a imm)
    | 0x25 => some (.bgeu i rd a imm)
    | 0x28 => some (.call i (BitVec.ofNat 26 w))
    | 0x29 => some (.callr i rd a imm)
    | 0x30 => sysDecode i a (bitsOf w 10 6) (bitsOf w 5 0)
    | 0x31 => some (.csrw i rd a csr)
    | 0x32 => some (.csrs i rd a csr)
    | 0x33 => some (.csrc i rd a csr)
    | 0x35 => some (.wfev i rd ⟨w % 64, by omega⟩ (bitB w 15))
    | 0x36 => some (.wfe i rd a (fld5 f3) (bitB w 0))
    | 0x38 => vopDecode i f1 f2 f3 (bitsOf w 10 7) (bitsOf w 6 0)
    | 0x39 => some (.vld i (fldV f1) a imm .ok)
    | 0x3A => some (.vst i (fldV f1) a imm)
    | 0x3B => some (.cld i rd a imm)
    | 0x3C => some (.cst i rd a imm)
    | 0x3D => some (.vcld i (fldV f1) a imm)
    | 0x3E => some (.vcst i (fldV f1) a imm)
    | _ => none

/-- An instruction whose loaded word, if it loads one from the local window, is sound. -/
def soundLoad (c : Instr) : Instr :=
  match c with
  | .lb i rd a imm _ => .lb i rd a imm .ok
  | .lbu i rd a imm _ => .lbu i rd a imm .ok
  | .lh i rd a imm _ => .lh i rd a imm .ok
  | .lhu i rd a imm _ => .lhu i rd a imm .ok
  | .lw i rd a imm _ => .lw i rd a imm .ok
  | .ldx i rd a imm _ => .ldx i rd a imm .ok
  | .vld i vd a imm _ => .vld i vd a imm .ok
  | c => c

end Sys2Proof.Machine
end

