-- ==== Sys2Proof/Machine/CoreSystem.lean ====
section
/-! DEFINITION. Meanings of the commands of the cores' system side: interrupts, switches, DMA, failures, checkpoints,
takeover, SQC commands (13_molx_system.md). -/

namespace Sys2Proof.Machine

/-- ILLEGAL_INSTRUCTION (12_molx_isa.md R416, R418): the word at the PC is one that no table lists. -/
def execIllegalInstruction (i : Fin 11) (w : Word) (s : State) : Host.Outcome State Fault Refusal :=
  done (s.iff (!molxLegal w.toNat) fun s => s.instr i fun s c => s.raiseOpen i c exILLEGAL)

/-! ### Contexts (R448, R449) -/

/-- The event whose interrupt is due to a context (R448). -/
def State.intDue (s : State) (i : Fin 11) (c : Fin 4) : Option Nat :=
  let x := s.ctx i c
  if x.ie && !x.exl then s.lowestEvent i c x.imask else none

/-- INTERRUPT_ENTRY (R448): at an instruction boundary of context `c`. -/
def execInterruptEntry (i : Fin 11) (c : Fin 4) (s : State) : Host.Outcome State Fault Refusal :=
  done (let x := s.ctx i c
    if s.coreLive i && bitB s.core[i].ctxRun c.val && !x.halted && x.load.isNone then
      match s.intDue i c with
      | some k => s.setCtx i c fun x => x.enter exINTERRUPT 0 k 0 x.pc
      | none => s
    else s)

/-- A context is runnable (R449). -/
def State.runnable (s : State) (i : Fin 11) (c : Fin 4) : Bool :=
  let x := s.ctx i c
  bitB s.core[i].ctxRun c.val && !x.halted &&
    (match x.wait with | none => true | some w => (s.lowestEvent i c w.mask).isSome || (s.intDue i c).isSome)

/-- The runnable context with the highest CTX_PRIO, the lower number first (R449). -/
def State.bestCtx (s : State) (i : Fin 11) : Option (Fin 4) :=
  (List.finRange 4).foldl (fun (b : Option (Fin 4)) (c : Fin 4) =>
    if s.runnable i c then
      match b with
      | none => some c
      | some a => if (s.ctx i a).prio < (s.ctx i c).prio then some c else some a
    else b) none

/-- CONTEXT_SWITCH (R428, R449): a context that is switched out by pre-emption loses its monitor; one that waits is not
pre-empted. -/
def execContextSwitch (i : Fin 11) (s : State) : Host.Outcome State Fault Refusal :=
  done (s.iff (s.coreLive i) fun s =>
    match s.bestCtx i with
    | none => s
    | some c =>
      let o := ctx4 s.core[i].cur
      if c = o then s
      else
        (s.modCtx i o fun x => if x.wait.isSome then x else { x with mon := none }).modCore i fun k => { k with cur := c.val })

/-- DMA_DESCRIPTOR_DONE (R455-R458): channel `ch` handles its descriptor. -/
def execDmaDescriptorDone (i : Fin 11) (ch : Fin 4) (s : State) : Host.Outcome State Fault Refusal :=
  done (s.iff (s.coreOn i && !s.core[i].failed && s.coreClocked i.val && s.familyRuns && s.core[i].dma[ch].active) fun s =>
    s.dmaRun i ch)

/-! ### Failures (R443, R463, R471) -/

/-- WDOG_EXPIRY (R445, R463). -/
def execWdogExpiry (i : Fin 11) (s : State) : Host.Outcome State Fault Refusal :=
  done (s.iff (s.coreOn i && s.core[i].up && s.core[i].wdog != 0) fun s => s.coreFail i fcWDOG)

/-- CORE_FAIL (R463): a cause of the table, LOCKSTEP of the Lantern only. -/
def execCoreFail (i : Fin 11) (cause : Nat) (s : State) : Host.Outcome State Fault Refusal :=
  done (s.iff (s.coreOn i && decide (1 ≤ cause) && (decide (cause ≤ 5) || (cause == fcLOCKSTEP && i == lantern))) fun s =>
    s.coreFail i cause)

/-- LOCKSTEP_MISMATCH (R471). -/
def execLockstepMismatch (s : State) : Host.Outcome State Fault Refusal :=
  done (s.iff (s.coreUp lantern) fun s => s.coreFail lantern fcLOCKSTEP)

/-- MEM_PATROL (R443): the patrol reads word `w` of IMEM (below 0x8000) or TCM; `e` is what the memory did to it. -/
def execMemPatrol (i : Fin 11) (w : Nat) (e : Ecc) (s : State) : Host.Outcome State Fault Refusal :=
  done (s.iff (s.coreOn i && decide (w < 0x10000)) fun s =>
    let imem := decide (w < 0x8000)
    if s.core[i].flaws.contains w || e.lost then
      let s1 := if s.core[i].flaws.contains w then s else s.modCore i fun k => { k with flaws := k.flaws ++ [w] }
      let s2 := s1.rise (ueSrc i) [s1.coreWord i]
      if imem then s2.coreFail i fcIMEM_UE else s2
    else if e = .ok then s
    else s.coreCe i imem)

/-! ### Takeover, checkpoints, SQC commands (R461-R468) -/

/-- The posted writes of an identity have taken effect or been dropped. -/
def State.drainMid (s : State) (mid : Nat) : State :=
  s.hif.queue.foldl (fun (s : State) (q : Nat × List Held) => s.drain q.1 (fun h => h.mid == mid) 8) s

/-- The port whose takeover runs next: the lowest that is due (R469). -/
def State.nextDue (s : State) : Option Nat := (List.range 8).find? fun n => s.sqc.due.contains n

/-- A takeover that its loader stopped stays PENDING until IMG_BASE of its slot is written (R467). -/
def State.takeoverStuck (s : State) (n : Nat) : State :=
  ({ s with sqc := { s.sqc with due := s.sqc.due.filter (· ≠ n), stuck := s.sqc.stuck ++ [n] } }).wr F.SQC_STATUS.PENDING
    (setBit (s.rd F.SQC_STATUS.PENDING) n)

/-- TURRET_TAKEOVER (R464-R466). -/
def execTurretTakeover (s : State) : Host.Outcome State Fault Refusal :=
  done (match s.nextDue, s.turPick with
    | some n, some t =>
      let r := (s.drainMid (8 + n)).takeOver t n rsTAKEOVER
      if r.1 then r.2 else r.2.takeoverStuck n
    | _, _ => s)

/-- CKPT_PERIOD_EXPIRY (R461, R478). -/
def execCkptPeriodExpiry (i : Fin 11) (s : State) : Host.Outcome State Fault Refusal :=
  done (s.iff (s.rd (F.SLOT_CKPT.CKPT_PERIOD (s.coreSlot i)) != 0) fun s => s.ckptStart i)

/-- CKPT_DONE (R460, R461): `held` is the hold in 10 ns units. Outstanding loads end first. -/
def execCkptDone (i : Fin 11) (held : Nat) (s : State) : Host.Outcome State Fault Refusal :=
  done (s.iff (s.coreOn i && s.core[i].hold && s.core[i].ctx.all fun (x : Ctx) => x.load.isNone) fun s =>
    s.ckptWrite i held)

/-- TAKE (R468); `held` is the hold of its checkpoint in 10 ns units. -/
def execTake (n : Fin 8) (held : Nat) (s : State) : Host.Outcome State Fault Refusal :=
  done (if s.sqcFree 1 n.val then s.sqcTake n held else s.sqcRefuse)

/-- RELEASE (R468). -/
def execRelease (n : Fin 8) (held : Nat) (s : State) : Host.Outcome State Fault Refusal :=
  done (if s.sqcFree 2 n.val then s.sqcRelease n held else s.sqcRefuse)

/-- RELOAD (R468). -/
def execReload (k : Fin 11) (held : Nat) (s : State) : Host.Outcome State Fault Refusal :=
  done (if s.sqcFree 3 k.val then s.sqcReload k.val held else s.sqcRefuse)

/-! ### CORE_CTRL (R444, R479) -/

/-- CORE_RUN (R444): RUN rises. -/
def execCoreRun (i : Fin 11) (s : State) : Host.Outcome State Fault Refusal :=
  done (s.iff (s.coreOn i && !s.on (F.CORE_CTRL.RUN i.val)) fun s => s.coreStart i)

/-- CORE_HALT (R479): RUN falls. -/
def execCoreHalt (i : Fin 11) (s : State) : Host.Outcome State Fault Refusal :=
  done (s.iff (s.coreOn i && s.on (F.CORE_CTRL.RUN i.val)) fun s => s.coreHalt i)

/-- CORE_RESET (R479). -/
def execCoreReset (i : Fin 11) (s : State) : Host.Outcome State Fault Refusal :=
  done (s.iff (s.coreOn i) fun s => s.coreReset i)

end Sys2Proof.Machine
end

