-- ==== Sys2Proof/Machine/Csr.lean ====
section
/-! DEFINITION. The CSRs and the meanings of CSRW, CSRS, CSRC, and of the waits (12_molx_isa.md R429, R433-R436,
13_molx_system.md R444, R445, R455). -/

namespace Sys2Proof.Machine

/-! ### CSRs (R429, R445) -/

/-- CKPT (R445): BUSY and GEN; GO reads 0. -/
def State.ckptCsr (s : State) (i : Fin 11) : Nat :=
  2 * b2n s.core[i].hold + 2 ^ 16 * s.rd (F.SLOT_CKPT_STAT.GEN (s.coreSlot i))

/-- A DMA channel's CSRs (R445, R455), from number 0x140 on. -/
def Core.dmaCsr (k : Core) (n : Nat) : Nat :=
  let d := k.dma[ctx4 n]
  if n < 0x144 then d.startWord else if n < 0x148 then d.stat else d.desc

/-- The value of a CSR; none where no table assigns the number. -/
def State.csrRead (s : State) (i : Fin 11) (c : Fin 4) (n : Nat) : Option Nat :=
  let x := s.ctx i c
  let k := s.core[i]
  match n with
  | 0x000 => some x.vstat
  | 0x001 => some x.waitLimit
  | 0x002 => some c.val
  | 0x003 => some (s.coreMid i)
  | 0x004 => some (b2n (s.coefPort i).isSome + 2 * b2n (i == lantern))
  | 0x010 => some (s.tb % 2 ^ 32)
  | 0x011 => some x.tbHi
  | 0x012 => some x.tcmpLo
  | 0x013 => some (x.tcmp / 2 ^ 32)
  | 0x100 => some x.evec
  | 0x101 => some x.estat
  | 0x102 => some x.epc
  | 0x103 => some x.ecause
  | 0x104 => some x.eval
  | 0x105 => some x.escratch
  | 0x106 => some (x.imask % 2 ^ 32)
  | 0x107 => some (x.imask / 2 ^ 32)
  | 0x110 => some x.ptbr
  | 0x111 => some x.mmuCtl
  | 0x118 => some x.prio
  | 0x120 => some k.ctxRun
  | 0x121 => some k.ctxEntry
  | 0x122 => some k.ctxWord
  | 0x130 => some k.wdog
  | 0x131 => some (s.ckptCsr i)
  | n => if 0x140 ≤ n ∧ n < 0x14C then some (k.dmaCsr n) else none

/-- The CSR is read-only. -/
def csrRO (n : Nat) : Bool :=
  n == 2 || n == 3 || n == 4 || n == 0x10 || n == 0x11 || n == 0x103 || n == 0x104 || n == 0x122 ||
    (decide (0x148 ≤ n) && decide (n < 0x14C))

/-- Context `c`, which has not run since the core started, begins when its CTX_RUN bit is set (R444). -/
def Core.begin (k : Core) (c : Fin 4) : Core :=
  if k.ctx[c].ran then k
  else k.modCtx c fun x => { x with
    pc := k.ctxEntry, task := false, ran := true, mmuEn := false,
    g := Vector.replicate 32 0, v := Vector.replicate 8 (Vector.replicate 16 0) }

/-- CTX_RUN is written (R444, R445, R449). -/
def State.ctxRunWrite (s : State) (i : Fin 11) (v : Nat) : State :=
  s.setCore i fun k =>
    let k1 := (List.finRange 4).foldl
      (fun (k : Core) (c : Fin 4) => if bitB v c.val && !bitB k.ctxRun c.val then k.begin c else k) k
    { k1 with ctxRun := v % 16 }

/-- DMA_START(c) is written by context `own` (R455). -/
def State.dmaStart (s : State) (i : Fin 11) (ch own : Fin 4) (v : Nat) : State :=
  let x := s.ctx i own
  s.modCore i fun k =>
    let d := k.dma[ch]
    let d1 : Dma :=
      if d.active then { d with rej := true }
      else { d with
        desc := v - v % 32, active := true, owner := own.val, ptbr := x.ptbr, mmuEn := x.mmuEn, asid := x.asid,
        task := x.task, startWord := v, resume := bitB v 0, ofs := 0 }
    { k with dma := k.dma.set ch d1 }

/-- DMA_STAT(c) is written: the bits that it would clear are cleared, and ACTIVE = 0 stops the channel (R455). -/
def State.dmaStatWrite (s : State) (i : Fin 11) (ch : Fin 4) (v : Nat) : State :=
  let s1 := s.modCore i fun k =>
    let d := k.dma[ch]
    { k with dma := k.dma.set ch { d with cpl := d.cpl && bitB v 31, rej := d.rej && bitB v 29 } }
  if bitB v 30 then s1 else s1.dmaAbort i ch

/-- A CSR is written (R429, R445). -/
def State.csrWrite (s : State) (i : Fin 11) (c : Fin 4) (n v : Nat) : State :=
  let on (f : Ctx → Ctx) : State := s.modCtx i c f
  match n with
  | 0x000 => on fun x => { x with vsat := bitB v 0, ssat := bitB v 1, dz := bitB v 2 }
  | 0x001 => on fun x => { x with waitLimit := v % 2 ^ 16 }
  | 0x012 => on fun x => { x with tcmpLo := v }
  | 0x013 => on fun x => { x with tcmp := v * 2 ^ 32 + x.tcmpLo }
  | 0x100 => on fun x => { x with evec := v - v % 4 }
  | 0x101 => on fun x => { x with ie := bitB v 0, pie := bitB v 1, plv := bitB v 2, exl := bitB v 3, tkx := bitB v 4 }
  | 0x102 => on fun x => { x with epc := v }
  | 0x105 => on fun x => { x with escratch := v }
  | 0x106 => on fun x => { x with imask := x.imask / 2 ^ 32 * 2 ^ 32 + v }
  | 0x107 => on fun x => { x with imask := v * 2 ^ 32 + x.imask % 2 ^ 32 }
  | 0x110 => on fun x => { x with ptbr := v - v % 64 }
  | 0x111 => on fun x => { x with mmuEn := bitB v 31, asid := v % 256 }
  | 0x118 => on fun x => { x with prio := v % 8 }
  | 0x120 => s.ctxRunWrite i v
  | 0x121 => s.modCore i fun k => { k with ctxEntry := v }
  | 0x130 => s.modCore i fun k => { k with wdog := v % 2 ^ 16, wdogTb := s.tb }
  | 0x131 => if bitB v 0 then s.ckptStart i else s
  | n =>
    if 0x140 ≤ n ∧ n < 0x144 then s.dmaStart i (ctx4 n) c v
    else if 0x144 ≤ n ∧ n < 0x148 then s.dmaStatWrite i (ctx4 n) v
    else s

/-- A CSR instruction: the old value into gd, then the new one where it writes (R429, R438). A read of TB_LO latches
TB_HI. -/
def State.csrOp (s : State) (i : Fin 11) (rd rs1 : Fin 32) (n : Nat) (wr : Bool) (f : Word → Word → Word) : State :=
  s.instr i fun s c =>
    match s.csrRead i c n with
    | none => s.raiseOpen i c exILLEGAL
    | some old =>
      let x := s.ctx i c
      if wr && csrRO n then s.raiseOpen i c exILLEGAL
      else if decide (0x100 ≤ n) && x.task then s.raiseOpen i c exPRIV
      else
        let s1 := s.modCtx i c fun x =>
          { (x.setG rd (BitVec.ofNat 32 old)).next with tbHi := if n = 0x10 then s.tb / 2 ^ 32 else x.tbHi }
        if wr then s1.csrWrite i c n (f (BitVec.ofNat 32 old) (x.rg rs1)).toNat else s1

/-- CSRW (R429). -/
def execCsrw (i : Fin 11) (rd rs1 : Fin 32) (csr : BitVec 12) (s : State) : Host.Outcome State Fault Refusal :=
  done (s.csrOp i rd rs1 csr.toNat true fun _ g => g)

/-- CSRS (R429). -/
def execCsrs (i : Fin 11) (rd rs1 : Fin 32) (csr : BitVec 12) (s : State) : Host.Outcome State Fault Refusal :=
  done (s.csrOp i rd rs1 csr.toNat (rs1 != 0) fun old g => old ||| g)

/-- CSRC (R429). -/
def execCsrc (i : Fin 11) (rd rs1 : Fin 32) (csr : BitVec 12) (s : State) : Host.Outcome State Fault Refusal :=
  done (s.csrOp i rd rs1 csr.toNat (rs1 != 0) fun old g => old &&& ~~~g)

/-! ### Waits (R434-R436) -/

/-- A wait retires with a number; event 50 clears the context's flag (R434, R436). -/
def State.waitRetire (s : State) (i : Fin 11) (c : Fin 4) (rd k : Nat) : State :=
  s.setCtx i c fun x =>
    ({ x with wait := none, flag := x.flag && k != 50 }.setG ⟨rd % 32, by omega⟩ (BitVec.ofNat 32 k)).next

/-- A wait on a mask: it retires at once with the lowest pending event, or with 64 on an empty mask, or it waits (R434). -/
def State.waitFor (s : State) (i : Fin 11) (c : Fin 4) (rd : Fin 32) (mask : Nat) : State :=
  if mask = 0 then s.waitRetire i c rd.val 64
  else
    match s.lowestEvent i c mask with
    | some k => s.waitRetire i c rd.val k
    | none => s.setCtx i c fun x => { x with wait := some ⟨mask, rd.val, s.tb⟩ }

/-- A wait, with its drain (R426, R434). -/
def State.waitOp (s : State) (i : Fin 11) (rd : Fin 32) (drain : Bool) (mask : Ctx → Nat) : State :=
  s.instr i fun s c =>
    let s1 := if drain then s.drainCtx (s.coreMid i) c.val else s
    if s1.ctx i c = s.ctx i c then s1.waitFor i c rd (mask (s.ctx i c)) else s1

/-- WFE (R434): the mask is {gs2, gs1}. -/
def execWfe (i : Fin 11) (rd rs1 rs2 : Fin 32) (drain : Bool) (s : State) : Host.Outcome State Fault Refusal :=
  done (s.waitOp i rd drain fun x => (x.rg rs1).toNat + 2 ^ 32 * (x.rg rs2).toNat)

/-- WFEV (R434). -/
def execWfev (i : Fin 11) (rd : Fin 32) (ev : Fin 64) (drain : Bool) (s : State) : Host.Outcome State Fault Refusal :=
  done (s.waitOp i rd drain fun _ => 2 ^ ev.val)

/-- Context `c` samples its events: it runs, and its CTX_RUN bit is 1. -/
def State.samples (s : State) (i : Fin 11) (c : Fin 4) : Option Wait :=
  if s.coreLive i && bitB s.core[i].ctxRun c.val && !(s.ctx i c).halted then (s.ctx i c).wait else none

/-- WAIT_WAKE (R434): an event of the mask is pending. -/
def execWaitWake (i : Fin 11) (c : Fin 4) (s : State) : Host.Outcome State Fault Refusal :=
  done (match s.samples i c with
    | some w => (match s.lowestEvent i c w.mask with | some k => s.waitRetire i c w.rd k | none => s)
    | none => s)

/-- WAIT_TIMEOUT (R434): WAIT_LIMIT µs of TB have passed; an event that is pending is returned. -/
def execWaitTimeout (i : Fin 11) (c : Fin 4) (s : State) : Host.Outcome State Fault Refusal :=
  done (match (s.samples i c).filter fun _ => (s.ctx i c).waitLimit != 0 with
    | some w => s.waitRetire i c w.rd ((s.lowestEvent i c w.mask).getD 64)
    | none => s)

end Sys2Proof.Machine
end

