-- ==== Sys2Proof/Machine/Cupola.lean ====
section
/-! DEFINITION. Meanings of the commands of the Cupola and of bandwidth regulation (14_cupola.md R486-R506, 17_power.md
R617). -/

namespace Sys2Proof.Machine

/-- CH_TRAIN_GO (R486). -/
def execChTrainGo (c : Fin 4) (s : State) : Host.Outcome State Fault Refusal :=
  done (s.iff (s.domOn (120 + c.val)) fun s => s.trainGo c)

/-- CH_TRAIN_DONE (R486): the channel moves to step 0x8, fails a step, or is trained. A CH_CFG that step CFG refuses
fails at code 0x1 whatever else is told. -/
def execChTrainDone (c : Fin 4) (e : TrainEnd) (s : State) : Host.Outcome State Fault Refusal :=
  done (s.iff (s.domOn (120 + c.val) && s.cup.ch[c].training) fun s =>
    if s.cup.ch[c].cfgBad then s.trainFail c 1 0
    else
      match e with
      | .toInit => s.wr (F.CH_STATUS.CH_STATE c) chINIT
      | .failed code lanes => s.trainFail c (max 2 (min 8 code)) lanes
      | .trained => s.trainPass c)

/-- DRAM_REFRESH (R487): at tREFI `k` REF commands are issued, of this one and those postponed; no more than eight stay
postponed. -/
def execDramRefresh (c : Fin 4) (k : Nat) (s : State) : Host.Outcome State Fault Refusal :=
  done (s.iff (s.chState c == chSERVICE && s.domOn (120 + c.val)) fun s => s.modCh c fun h =>
    let n := min (h.refDebt + 1) (max k (h.refDebt + 1 - 8))
    { h with refDebt := h.refDebt + 1 - n, refs := h.refs + n })

/-- ZQCS (R487). -/
def execZqcs (c : Fin 4) (s : State) : Host.Outcome State Fault Refusal :=
  done (s.iff (s.chState c == chSERVICE && s.domOn (120 + c.val)) fun s =>
    s.modCh c fun h => { h with zqcs := h.zqcs + 1 })

/-- RECENTRE (R487, R493): read centring is checked and corrected; a failed one is a channel failure. -/
def execRecentre (c : Fin 4) (ok : Bool) (s : State) : Host.Outcome State Fault Refusal :=
  done (s.iff (s.chState c == chSERVICE && s.domOn (120 + c.val) && s.rd (F.CH_CFG.RETRAIN_S c) != 0) fun s =>
    if ok then s else s.chFail c 3)

/-- CA_PARITY_ERROR (R487): `same` says that the retried command is the one retried last. -/
def execCaParityError (c : Fin 4) (same : Bool) (s : State) : Host.Outcome State Fault Refusal :=
  done (s.iff (s.chState c == chSERVICE && s.domOn (120 + c.val)) fun s =>
    let n := (if same then s.cup.ch[c].retries else 0) + 1
    let s1 := (s.count (F.CH_ECC.CAP_RETRY c)).modCh c fun h => { h with retries := if n < 16 then n else 0 }
    if n < 16 then s1 else s1.chFail c 2)

/-- MEMORY_REQUEST (R32, R33, R491): `len` bytes from physical address `a`, for identity `mid` under client `cl`. -/
def execMemoryRequest (mid cl a len : Nat) (wr : Bool) (data : List Nat) (s : State) : Host.Outcome State Fault Refusal :=
  done (s.memRequest mid cl a len wr data)

/-- MEMORY_REQUEST_DONE (R489, R491, R493): `errs` is what the DRAM does to codewords 0 to 3 of the unit. -/
def execMemoryRequestDone (c : Fin 4) (errs : List Ecc) (s : State) : Host.Outcome State Fault Refusal :=
  done (s.unitDone c errs)

/-- BWR_GRANT (R502, R503, R506). -/
def execBwrGrant (c : Fin 4) (s : State) : Host.Outcome State Fault Refusal :=
  done (s.iff (s.domOn 124 && s.chUp c) fun s => s.bwrGrant c)

/-- BWR_WINDOW (R502). -/
def execBwrWindow (s : State) : Host.Outcome State Fault Refusal :=
  done (s.iff (s.domOn 124) State.windowEnd)

/-- BWR_CLIENT_WRITE (R505). -/
def execBwrClientWrite (i : Fin 32) (v : Nat) (s : State) : Host.Outcome State Fault Refusal :=
  done (s.iff (s.domOn 124) fun s => s.clientWrite i v)

/-- BWR_CTRL_WRITE (R505). -/
def execBwrCtrlWrite (v : Nat) (s : State) : Host.Outcome State Fault Refusal :=
  done (s.iff (s.domOn 124) fun s => s.bwrCtrlWrite v)

/-- SCRUB_READ (R492): the patrol reads the codeword at offset `a` of DDR4. -/
def execScrubRead (a : Nat) (e : Ecc) (s : State) : Host.Outcome State Fault Refusal :=
  done (s.iff (s.domOn 124 && s.on F.SCRUB_CTRL.SCRUB_EN && decide (a < s.cup.capacity) && s.chUp (s.cup.chOf a)) fun s =>
    s.scrub a e)

/-- CHANNEL_FAILURE (R493): by a checker (1), the CA retry limit (2), a failed re-centring (3) or power (6). -/
def execChannelFailure (c : Fin 4) (cause : Nat) (s : State) : Host.Outcome State Fault Refusal :=
  done (s.iff (cause == 1 || cause == 2 || cause == 3 || cause == 6) fun s => s.chFail c cause)

/-- RETIRE_GO (R495). -/
def execRetireGo (c : Fin 4) (s : State) : Host.Outcome State Fault Refusal :=
  done (s.iff (s.domOn 124) fun s => (s.wr F.CUP_CTRL.RETIRE_CH c).retire c 5)

/-- SPL_ENABLE (R497): SPL_EN is written 1 with SPL_PAGES. -/
def execSplEnable (pages : Nat) (s : State) : Host.Outcome State Fault Refusal :=
  done (s.iff (s.domOn 124) fun s => s.splWrite true pages)

/-- SPL_TABLE_READY (R497). -/
def execSplTableReady (s : State) : Host.Outcome State Fault Refusal :=
  done (s.iff (s.domOn 124 && s.cup.spt.building) fun s =>
    ((({ s with cup := { s.cup with spt := { s.cup.spt with building := false, ovr := [] } } }).wrB
      F.SPL_STATUS.SPL_RDY true).syncPool).icongAll)

/-- SPL_DISABLE (R497): SPL_EN is written 0, SPL_PAGES as it stands. -/
def execSplDisable (s : State) : Host.Outcome State Fault Refusal :=
  done (s.iff (s.domOn 124) fun s => s.splWrite false (s.rd F.SPL_CFG.SPL_PAGES))

/-- SPT_OWNER_SCAN (R500): entry `k` has read uncorrectable. -/
def execSptOwnerScan (k : Nat) (s : State) : Host.Outcome State Fault Refusal :=
  done (s.iff (s.domOn 124 && s.on F.SPL_CFG.SPL_EN && decide (k < s.cup.spt.pages)) fun s => s.sptLost k)

/-- DRAM_POWER_DOWN (R617): in QUIET the channel has had no request for 1 µs. -/
def execDramPowerDown (c : Fin 4) (s : State) : Host.Outcome State Fault Refusal :=
  done (s.iff (s.rd F.PWC_MODE.MODE == 1 && s.chUp c && (s.waitingAt c).isEmpty) fun s =>
    s.modCh c fun h => { h with powerDown := true })

end Sys2Proof.Machine
end

