-- ==== Sys2Proof/Machine/Diagnostics.lean ====
section
/-! DEFINITION. Meanings of the commands of cable diagnostics and low-power idle (10_diagnostics_lpi.md). -/

namespace Sys2Proof.Machine

/-! ### Diagnostic runs (R343-R350) -/

/-- DIAG_CTRL as one write leaves it, with DIAG_GO = 1 and a kind (R343, R364). -/
def State.diagWrite (s : State) (n : Fin 8) (kind : Nat) (pairs : Nat) (cap : Bool) (avg len : Nat) : State :=
  s.iff (s.pcsOn n) fun s =>
    (((((s.wr (F.DIAG_CTRL.DIAG_KIND n) kind).wr (F.DIAG_CTRL.DIAG_PAIRS n) pairs).wrB (F.DIAG_CTRL.CAP_EN n) cap).wr
      (F.DIAG_CTRL.TDR_AVG n) avg).wr (F.DIAG_CTRL.TDR_LEN n) len).diagGo n

/-- DIAG_TDR (R343, R345). -/
def execDiagTdr (n : Fin 8) (pairs : Nat) (cap : Bool) (avg len : Nat) (s : State) : Host.Outcome State Fault Refusal :=
  done (s.diagWrite n 0 pairs cap avg len)

/-- DIAG_SNAPSHOT (R343). -/
def execDiagSnapshot (n : Fin 8) (pairs : Nat) (cap : Bool) (s : State) : Host.Outcome State Fault Refusal :=
  done (s.diagWrite n 1 pairs cap (s.rd (F.DIAG_CTRL.TDR_AVG n)) (s.rd (F.DIAG_CTRL.TDR_LEN n)))

/-- DIAG_LOSS (R343, R348). -/
def execDiagLoss (n : Fin 8) (pairs : Nat) (s : State) : Host.Outcome State Fault Refusal :=
  done (s.diagWrite n 2 pairs (s.on (F.DIAG_CTRL.CAP_EN n)) (s.rd (F.DIAG_CTRL.TDR_AVG n)) (s.rd (F.DIAG_CTRL.TDR_LEN n)))

/-- DIAG_WEAR (R343, R349). -/
def execDiagWear (n : Fin 8) (pairs : Nat) (s : State) : Host.Outcome State Fault Refusal :=
  done (s.diagWrite n 3 pairs (s.on (F.DIAG_CTRL.CAP_EN n)) (s.rd (F.DIAG_CTRL.TDR_AVG n)) (s.rd (F.DIAG_CTRL.TDR_LEN n)))

/-- A periodic scan may run: UP in Spire mode (R350). -/
def State.scanOk (s : State) (n : Fin 8) : Bool := s.link n == stUP && s.spire n

/-- DIAG_RUN_END (R344): results, capture, result code, DIAG_DONE; a scan that fell due meanwhile runs now (R350). -/
def execDiagRunEnd (n : Fin 8) (m : DiagMeas) (s : State) : Host.Outcome State Fault Refusal :=
  done (s.iff (s.pcsOn n && s.on (F.DIAG_STATUS.DIAG_BUSY n)) fun s =>
    let r := s.diagFinish n m
    let due := s.port[n].diag.scanDue
    let wake := decide (r.1 = drACTIVE) && s.link n == stDORMANT
    let s1 := if wake then (r.2.wakeToSense n).diagEnd n r.1 else r.2.diagEnd n r.1
    s1.iff (due && s1.scanOk n) fun s => s.echoScan n (s.lineRate n))

/-- WEAR_SCAN (R350). -/
def execWearScan (n : Fin 8) (s : State) : Host.Outcome State Fault Refusal :=
  done (s.iff (s.pcsOn n && s.rd (F.DIAG_CFG.WEAR_PERIOD n) != 0 && s.scanOk n) fun s =>
    if s.on (F.DIAG_STATUS.DIAG_BUSY n) then s.modPort n fun p => { p with diag := { p.diag with scanDue := true } }
    else s.echoScan n (s.lineRate n))

/-- LM_SET (R350). -/
def execLmSet (n : Fin 8) (x : Fin 4) (i : Fin 8) (s : State) : Host.Outcome State Fault Refusal :=
  done (s.iff (s.pcsOn n) fun s => s.lmSet n x i)

/-! ### Low-power idle (R355-R363) -/

/-- The conditions of R356 that are the state's; those of ENTRY_T's duration are the command's. -/
def State.lpiMayEnter (s : State) (n : Fin 8) : Bool :=
  let o := ownPort n
  let h := s.side[o]
  s.link n == stUP && s.on (F.LPI_STATUS.LPI_RES n) && s.on (F.LPI_STATUS.HOST_LPI n) && s.txActive n &&
    (!s.spire n ||
      (!s.spilling o && (h.ingress.all Blk.isFill) && s.outstanding n == 0 && s.port[n].rtx.replay.isNone && !s.gapOf n &&
        s.rd (F.LAD_STATUS.TX_STATE n) == txIDLE && s.rd (F.LAD_STATUS.RX_STATE n) == rxIDLE &&
        ([0, 1, 2, 3, 4].all fun x => !s.on (F.SLICE_CTRL.TRIM_PEND n x)) && !s.on (F.XB_STATUS.XB_BUSY n) &&
        !s.twinned n &&
        (match s.port[n].lpi.wokeTb with
         | some t => decide (t + 1000 * s.rd (F.LPI_CTRL.LPI_HOLDOFF n) ≤ s.tb)
         | none => true)))

/-- LPI_TX_ENTRY (R356, R357, R376): the sleep signal, and the quiet period after it. -/
def execLpiTxEntry (n : Fin 8) (s : State) : Host.Outcome State Fault Refusal :=
  done (s.iff (s.pcsOn n && s.lpiMayEnter n) fun s =>
    let s1 := ((s.wr (F.LPI_STATUS.TX_LPI n) lpiQUIET).count (F.LPI_COUNT.TX_ENTRIES n)).wrB (F.DIAG_EVENT.TX_LPI_ENTER n) true
    (s1.lpiSends n .silent (if s.spire n then some .sleep else none)).modPort n fun p =>
      { p with lpi := { p.lpi with wakeDue := false } })

/-- LPI_REFRESH (R357): the wake signal; 16 frames follow in Spire, the clause's own refresh in a standard mode. -/
def execLpiRefresh (n : Fin 8) (s : State) : Host.Outcome State Fault Refusal :=
  done (s.iff (s.pcsOn n && s.rd (F.LPI_STATUS.TX_LPI n) == lpiQUIET && !s.port[n].lpi.wakeDue) fun s =>
    let s1 := s.lpiQuietEnd n
    if s.spire n then
      ((s1.wr (F.LPI_STATUS.TX_LPI n) lpiREFRESH).lpiSends n .frames (some .wake)).modPort n fun p => { p with
        lpi := { p.lpi with refreshLeft := 16 }, fr := { p.fr with txRungIdx := 0 } }
    else s1.modPort n fun p => { p with lpi := { p.lpi with txStart := s.tb } })

/-- LPI_WAKE (R359): a quiet period ends at once; a refresh goes on as frames. -/
def execLpiWake (n : Fin 8) (s : State) : Host.Outcome State Fault Refusal :=
  done (s.iff (s.pcsOn n && s.port[n].lpi.wakeDue) fun s =>
    let t := s.rd (F.LPI_STATUS.TX_LPI n)
    if t = lpiQUIET then
      ((s.lpiQuietEnd n).lpiAwake n).modPort n fun p => { p with
        fr := { p.fr with txRungIdx := 0 }
        lpi := { p.lpi with sent := if s.spire n then some .wake else none } }
    else s.iff (t == lpiREFRESH) fun s => s.lpiAwake n)

/-- LPI_RX_SLEEP (R360, R362): QUIET, counted unless it closes a refresh; impulse flags read 0; the freeze holds; the lane
sends LPI toward the host. -/
def execLpiRxSleep (n : Fin 8) (s : State) : Host.Outcome State Fault Refusal :=
  let r := s.rd (F.LPI_STATUS.RX_LPI n)
  done (s.iff (s.pcsOn n && s.linkUp n && s.on (F.LPI_STATUS.LPI_RES n) && r != lpiQUIET) fun s =>
    let s1 := s.wr (F.LPI_STATUS.RX_LPI n) lpiQUIET
    let s2 := if r = lpiREFRESH then s1
      else (s1.count (F.LPI_COUNT.RX_ENTRIES n)).wrB (F.DIAG_EVENT.RX_LPI_ENTER n) true
    let s3 := ([0, 1, 2, 3, 4].foldl (fun (s : State) x => s.impClr n x) s2).freeze n (fun _ => true) frzLPI true
    s3.modLane n fun l => { l with lpiTx := true })

/-- The receive slices run again: the LPI freeze cause ends (R357, R360). -/
def State.lpiRxRun (s : State) (n : Fin 8) (st : Nat) : State :=
  ((s.wr (F.LPI_STATUS.RX_LPI n) st).freeze n (fun _ => true) frzLPI false).modPort n fun p =>
    { p with fr := { p.fr with rxStart := p.fr.rxIdx } }

/-- LPI_REFRESH_EXPECTED (R360). -/
def execLpiRefreshExpected (n : Fin 8) (s : State) : Host.Outcome State Fault Refusal :=
  done (s.iff (s.pcsOn n && s.linkUp n && s.rd (F.LPI_STATUS.RX_LPI n) == lpiQUIET) fun s => s.lpiRxRun n lpiREFRESH)

/-- LPI_RX_WAKE (R359, R360, R362). -/
def execLpiRxWake (n : Fin 8) (s : State) : Host.Outcome State Fault Refusal :=
  done (s.iff (s.pcsOn n && s.linkUp n && s.rd (F.LPI_STATUS.RX_LPI n) != lpiACTIVE) fun s =>
    (((s.lpiRxRun n lpiACTIVE).modLane n fun l => { l with lpiTx := false, lpiEi := false }).syncLane n).lpiTrigger n)

end Sys2Proof.Machine
end

