-- ==== Sys2Proof/Machine/Faults.lean ====
section
/-! DEFINITION. Meanings of the commands of faults, resets, injection and the journal (19_faults_availability.md). -/

namespace Sys2Proof.Machine

/-- FAULT_REPORT (R663): the wire of source `i` rises to error, with the words that its record is to carry. -/
def execFaultReport (i : Nat) (data : List Nat) (s : State) : Host.Outcome State Fault Refusal :=
  done (s.iff s.familyRuns fun s => s.faultReport i data)

/-- WIRE_FAULT (R662): the wire of source `i` shows 0b00, or 0b11. -/
def execWireFault (i : Nat) (ones : Bool) (s : State) : Host.Outcome State Fault Refusal :=
  done (s.iff s.familyRuns fun s => s.wireFault i (3 * b2n ones))

/-- FAULT_SOURCE_CLEAR (R662, R663). -/
def execFaultSourceClear (i : Nat) (s : State) : Host.Outcome State Fault Refusal :=
  done (s.iff s.familyRuns fun s => s.wireIdle i)

/-- REPAIR_SPARE (R666): the copy of the repair of Pn ends. -/
def execRepairSpare (n : Fin 8) (s : State) : Host.Outcome State Fault Refusal := done (s.repairSpare n)

/-- BLOCK_RESET (R659, R683): BLK_RST_GO with BLK_SEL. -/
def execBlockReset (b : Fin 64) (s : State) : Host.Outcome State Fault Refusal :=
  done (s.iff s.aonWrites fun s => (s.wr F.FLT_CTRL.BLK_SEL b).blockReset b)

/-- CHIP_RESET (R659): CHIP_RST_GO. -/
def execChipReset (s : State) : Host.Outcome State Fault Refusal := done (s.iff s.aonWrites fun s => s.chipReset 2 0)

/-- FLT_INJ_ARM (R669): FLT_INJ is written with INJ_GO = 1. -/
def execFltInjArm (mode id unit bit : Nat) (s : State) : Host.Outcome State Fault Refusal :=
  done (s.iff s.aonWrites fun s =>
    ((((s.wr F.FLT_INJ.INJ_MODE mode).wr F.FLT_INJ.INJ_ID id).wr F.FLT_INJ.INJ_UNIT unit).wr F.FLT_INJ.INJ_BIT bit).injArm)

/-- INJECTION_ACT (R669): `seen` is the source of the checker that saw a forced word. -/
def execInjectionAct (seen : Option Nat) (data : List Nat) (s : State) : Host.Outcome State Fault Refusal :=
  done (s.iff s.familyRuns fun s => s.injAct seen data)

/-- EVJ_SWGO (R673). -/
def execEvjSwgo (k : Fin 16) (s : State) : Host.Outcome State Fault Refusal := done (s.iff s.aonWrites fun s => s.swRecord k)

/-- EVJ_MIRROR_WRITE (R675). -/
def execEvjMirrorWrite (s : State) : Host.Outcome State Fault Refusal :=
  done (s.iff (s.familyRuns && s.on F.EVJ_CTRL.MIRROR_EN) State.mirrorWrite)

end Sys2Proof.Machine
end

