-- ==== Sys2Proof/Machine/Framer.lean ====
section
/-! DEFINITION. Meanings of the commands of the framer and the decoder halves (05_spire_framing_ldpc.md R136-R163,
07_retransmission_spill.md R209-R218). -/

namespace Sys2Proof.Machine

/-- Blocks of one LDPC frame of a standard mode (log entry 12). -/
abbrev stdFrameBlocks : Nat := 50

/-- A frame start of an LDPC-coded standard mode: the PCS takes blocks from the ingress FIFO (R157; log entry 12). -/
def State.txStd (s : State) (n : Fin 8) : State :=
  let o := ownPort n
  let h := s.side[o]
  let r := pullBlocks h.coming stdFrameBlocks h.lineIn h.ingress
  (s.modSide o fun h => { h with ingress := r.2.2, lineIn := r.2.1, outFrame := r.2.1 }).spillCheck o

/-- TX_FRAME_START (R209, R264): `ue` says that a window slot due for sending holds an uncorrectable error. -/
def execTxFrameStart (n : Fin 8) (ue : Bool) (s : State) : Host.Outcome State Fault Refusal :=
  done (
    if s.txRuns n then s.txFrameStart n ue
    else s.iff (s.rxRuns n && !s.spire n && !s.twinned n) fun s => s.txStd n)

/-- FRAME_DECODE (R153, R155): half `h` ends frame `k` in received order, on the new path of dual tracking or not; `c` is
what the decoding took as fixed at its beginning and what befell it. -/
def execFrameDecode (n : Fin 8) (h : Fin 2) (k : Nat) (newPath : Bool) (c : DecCtx) (w : RxWord) (s : State) :
    Host.Outcome State Fault Refusal :=
  done (s.iff (s.rxRuns n && s.rd (F.LPI_STATUS.RX_LPI n) != lpiQUIET && (!s.spire n || decide (s.port[n].fr.rxIdx ≤ k)) &&
      s.halfTakes n h k newPath) fun s => s.frameDecode n h k newPath c.flagged c w)

/-- FRAME_HANDOFF (R214): `bad` are the merge slots that prove uncorrectable if this frame releases them (R268). -/
def execFrameHandoff (n : Fin 8) (bad : List Nat) (s : State) : Host.Outcome State Fault Refusal :=
  done (s.iff (s.rxRuns n && s.spire n) fun s => s.frameHandoff n bad)

/-- DECODER_HALF_FAIL (R162, R163): `f` is the frame that the half held. -/
def execDecoderHalfFail (n : Fin 8) (h : Fin 2) (f : HeldFrame) (s : State) : Host.Outcome State Fault Refusal :=
  done (s.iff (s.domOn (14 * n.val + 7 + h.val) && s.pcsOn n) fun s => s.halfFail n h f.k f.newPath f.flagged)

/-- HALF_SEL_CHANGE (R162, R163): a half that is deselected completes the frame it holds. -/
def execHalfSelChange (n : Fin 8) (s : State) : Host.Outcome State Fault Refusal :=
  done (s.iff (s.pcsOn n) fun s =>
    let t := (s.modPort n fun p => { p with fr := { p.fr with halfSel := s.rd (F.FRM_CTRL.HALF_SEL n) } }).syncHalves n
    t.modPort n fun p => { p with fr := { p.fr with
      drain := [0, 1].filter fun h => p.fr.drain.contains h && !t.halfUp n h || (s.halfUp n h && !t.halfUp n h && t.halfOk n h) } })

end Sys2Proof.Machine
end

