-- ==== Sys2Proof/Machine/Jtag.lean ====
section
/-! DEFINITION. Meanings of the JTAG instructions that take the balls from their functions (21_pins_electrical.md R741). -/

namespace Sys2Proof.Machine

/-- A port stops with its balls: from TRAIN, UP or HOLD with a LAST_DOWN reason that the spec does not give. -/
def State.tapPort (s : State) (n : Fin 8) : State :=
  if s.link n = stDISABLED then s
  else let d := s.drawFree 4; (d.2.disable n d.1).xbDrop n

/-- A channel stops: out of service or training, its DRAM no longer refreshed. -/
def State.tapChan (s : State) (c : Fin 4) : State :=
  if s.chState c = chSERVICE ∨ s.cup.ch[c].training then
    let s1 := if s.chState c = chSERVICE then (s.setService c false).dropDram c else s
    ((s1.modCh c fun _ => {}).wr (F.CH_STATUS.CH_STATE c) chUNTRAINED).roundEnd
  else s

/-- Loading an instruction stops every port, lane and channel. -/
def State.tapLoad (s : State) (t : TapInstr) : State :=
  let s1 := (List.finRange 8).foldl State.tapPort s
  let s2 := (List.finRange 8).foldl (fun (s : State) (n : Fin 8) =>
    ((s.lbAbort n).dropEgress (s.ownerOf n) true).laneOut n none) s1
  { (List.finRange 4).foldl State.tapChan s2 with tap := some t }

/-- JTAG_EXTEST (R741). -/
def execJtagExtest (s : State) : Host.Outcome State Fault Refusal := done (s.tapLoad .extest)

/-- EXTEST_PULSE (R741). -/
def execExtestPulse (s : State) : Host.Outcome State Fault Refusal := done (s.tapLoad .extestPulse)

/-- EXTEST_TRAIN (R741). -/
def execExtestTrain (s : State) : Host.Outcome State Fault Refusal := done (s.tapLoad .extestTrain)

/-- CLAMP (R741). -/
def execClamp (s : State) : Host.Outcome State Fault Refusal := done (s.tapLoad .clamp)

/-- HIGHZ (R741). -/
def execHighz (s : State) : Host.Outcome State Fault Refusal := done (s.tapLoad .highz)

/-- TAP_RESET (R741): the balls return to their functions, and an enabled port to SENSE (R52). -/
def execTapReset (s : State) : Host.Outcome State Fault Refusal :=
  done (s.iff s.tap.isSome fun s =>
    (List.finRange 8).foldl (fun (s : State) n => if s.pcsOn n then s.reenable n else s) { s with tap := none })

end Sys2Proof.Machine
end

