-- ==== Sys2Proof/Machine/Keep.lean ====
section
/-! DEFINITION. Meanings of the commands of the Keep and of start-up (20_keep_startup.md). -/

namespace Sys2Proof.Machine

/-! ### Commands (R703-R717) -/

/-- The KEP page admits an identity: 0x00, 0x01, 0x10, and 0x13 while debug access is open (R715 "Registers"). -/
def State.keepAdmits (s : State) (who : Nat) : Bool := who == 0 || who == 1 || who == 0x10 || (who == 0x13 && s.kep.dbg)

/-- KEP_CMD is written with GO = 1 after the argument words, through the page or, by 0x13, through KEP_DR (R711). -/
def State.keepAsk (s : State) (code who : Nat) (args : List Nat) : State :=
  s.iff (s.keepOn && (who == 0x13 || (s.aonWrites && s.keepAdmits who))) fun s =>
    ((List.range (min 32 args.length)).foldl (fun (s : State) w => s.wr (F.KEP_ARG.WORD w) (args.getD w 0)) s).keepGo code who

/-- PROVISION (R703): the root hash in KEP_ARG(0-7). -/
def execProvision (who : Nat) (args : List Nat) (s : State) : Host.Outcome State Fault Refusal := done (s.keepAsk 1 who args)

/-- BOOT_HOST (R706). -/
def execBootHost (who : Nat) (s : State) : Host.Outcome State Fault Refusal := done (s.keepAsk 2 who [])

/-- VERIFY (R707): the address in KEP_ARG(0, 1), the kind in KEP_ARG(2). -/
def execVerify (who : Nat) (args : List Nat) (s : State) : Host.Outcome State Fault Refusal := done (s.keepAsk 3 who args)

/-- SVN_ADVANCE (R707): the value in KEP_ARG(0). -/
def execSvnAdvance (who v : Nat) (s : State) : Host.Outcome State Fault Refusal := done (s.keepAsk 4 who [v])

/-- FC_RESERVE (R704). -/
def execFcReserve (who : Nat) (s : State) : Host.Outcome State Fault Refusal := done (s.keepAsk 5 who [])

/-- KEY_LOAD (R714): the key in KEP_ARG(0-3), the slot in KEP_ARG(4). -/
def execKeyLoad (who : Nat) (args : List Nat) (s : State) : Host.Outcome State Fault Refusal := done (s.keepAsk 6 who args)

/-- DEV_KEY_GEN (R714). -/
def execDevKeyGen (who : Nat) (s : State) : Host.Outcome State Fault Refusal := done (s.keepAsk 7 who [])

/-- DBG_NONCE (R711). -/
def execDbgNonce (who : Nat) (s : State) : Host.Outcome State Fault Refusal := done (s.keepAsk 8 who [])

/-- DBG_NONCE_EXPIRY (R711). -/
def execDbgNonceExpiry (s : State) : Host.Outcome State Fault Refusal := done (s.modKep fun k => { k with nonce := none })

/-- DBG_OPEN (R711): ROOT_PUB in KEP_ARG(0-15), the signature in KEP_ARG(16-31). -/
def execDbgOpen (who : Nat) (args : List Nat) (s : State) : Host.Outcome State Fault Refusal := done (s.keepAsk 9 who args)

/-- DBG_CLOSE (R713). -/
def execDbgClose (who : Nat) (s : State) : Host.Outcome State Fault Refusal := done (s.keepAsk 10 who [])

/-- KEEP_COMMAND_DONE (R703, R717): `ok` says that the fuses or the MTP read back as written. -/
def execKeepCommandDone (ok : Bool) (s : State) : Host.Outcome State Fault Refusal :=
  done (match (if s.keepOn then s.kep.cmd else none) with
    | some (code, _) =>
      let s1 := s.keepWork code ok
      if code = 1 ∧ s1.rd F.KEP_CMD.RESULT = krDONE then s1.chipReset 3 0 else s1
    | none => s)

/-! ### Boot lock and start-up (R706, R708, R709) -/

/-- BOOT_LOCK (R709): LOCK = 1 written to KEP_LOCK by 0x01 or 0x10. -/
def execBootLock (who : Nat) (s : State) : Host.Outcome State Fault Refusal :=
  done (s.iff (s.keepOn && s.aonWrites && (who == 1 || who == 0x10)) State.bootLock)

/-- BOOT_LOCK_TIMEOUT (R709): 2 s after step 4 with no lock set. -/
def execBootLockTimeout (s : State) : Host.Outcome State Fault Refusal :=
  done (s.iff (s.keepOn && s.kep.runTb.isSome) State.bootLock)

/-- BOOT_IMAGE_SEARCH (R706, R708 step 3). -/
def execBootImageSearch (s : State) : Host.Outcome State Fault Refusal :=
  done (s.iff (s.keepOn && s.familyRuns && s.kep.step == 3) State.imageSearch)

end Sys2Proof.Machine
end

