-- ==== Sys2Proof/Machine/Lanes.lean ====
section
/-! DEFINITION. Meanings of the commands of the host lanes (11_host_lanes.md). -/

namespace Sys2Proof.Machine

/-! ### Toward the host (R382, R384) -/

/-- A test keeps the next egress block from the host (R389, R390). -/
def State.egressDiscard (s : State) (n : Fin 8) (o : Fin 12) : State :=
  match s.side[o].egress with
  | [] => s
  | b :: bs => (s.modSide o fun h => { h with egress := bs, egFrame := h.egFrame && !b.endsFrame bs.head? true }).count
      (F.HL_DISCARD.HL_DISCARD n)

/-- One block time of lane `n` under a test: egress blocks are discarded (R389, R390) while the generator sends or the host's
own signal returns, or return to the line (far end). -/
def State.laneTest (s : State) (n : Fin 8) (o : Fin 12) : State :=
  if s.on (F.HL_PRBS_CTRL.GEN_EN n) then (s.egressDiscard n o).prbsSend n
  else if s.rd (F.HL_STATUS.LB_CUR n) != 3 then s.egressDiscard n o
  else
    let r := s.egressNext n o
    let s1 := match r.1 with | some b => r.2.ingressBlk n o b | none => r.2
    s1.laneOut n (downBlk (s.rd (F.HL_CTRL.DOWN_TX n)) (s.rd (F.HL_STATUS.PROTO_CUR n) == 3))

/-- A test runs on lane `n`. -/
def State.laneUnderTest (s : State) (n : Fin 8) : Bool :=
  s.on (F.HL_PRBS_CTRL.GEN_EN n) || s.rd (F.HL_STATUS.LB_CUR n) != 0

/-- An RS-FEC codeword of the host has been decoded (R391, R405, R406). -/
def State.fecWord (s : State) (n : Fin 8) (c : Option Bool) : State :=
  match c with
  | none => s
  | some ok => s.iff (s.on (F.HL_STATUS.FEC_ACT n)) fun s =>
    s.count (if ok then F.HL_FEC_CORR.FEC_CORR n else F.HL_FEC_UNCORR.FEC_UNCORR n)

/-- EGRESS_BLOCK_TX (R382, R384, R386, R387, R389, R390): one block time of a lane. -/
def execEgressBlockTx (e : BlockTime) (s : State) : Host.Outcome State Fault Refusal :=
  let n := e.n
  done (s.iff (s.hlOn n) fun s =>
    let s := s.fecWord n e.fec
    let o := s.ownerOf n
    if s.laneIdle n || s.lane[n].protoBad then (s.laneOut n none).iff (s.on (F.HL_PRBS_CTRL.GEN_EN n)) fun s => s.prbsSend n
    else (if s.laneUnderTest n then s.laneTest n o else s.laneSend n o).egressDrained o e.bad)

/-- PAUSE_REFRESH (R384). -/
def execPauseRefresh (n : Fin 8) (s : State) : Host.Outcome State Fault Refusal :=
  let o := s.ownerOf n
  done (s.iff (s.hlOn n && !s.laneIdle n && s.on (F.SPILL_STATUS.ICONG (spillPort o))) fun s =>
    s.askPause o (s.rd (F.HL_PAUSE.PAUSE_QUANTA n)))

/-- LPI_EI_ENTRY (R387). -/
def execLpiEiEntry (n : Fin 8) (s : State) : Host.Outcome State Fault Refusal :=
  let p := s.rd (F.HL_STATUS.PROTO_CUR n)
  done (s.iff (s.hlOn n && s.on (F.HL_CTRL.LPI_EI n) && s.lane[n].lpiTx && (p == 1 || p == 2) && !s.laneUnderTest n) fun s =>
    (s.modLane n fun l => { l with lpiEi := true }).syncLane n)

/-! ### Loopbacks (R389) -/

/-- LB_MODE is written on a lane that is ON. -/
def State.lbWrite (s : State) (n : Fin 8) (mode : Nat) : State :=
  s.iff (s.hlOn n) fun s => (s.wr (F.HL_CTRL.LB_MODE n) mode).lbGo n

/-- LB_NEAR_SERIAL (R389). -/
def execLbNearSerial (n : Fin 8) (s : State) : Host.Outcome State Fault Refusal := done (s.lbWrite n 1)

/-- LB_NEAR_PARALLEL (R389). -/
def execLbNearParallel (n : Fin 8) (s : State) : Host.Outcome State Fault Refusal := done (s.lbWrite n 2)

/-- LB_FAR_END (R389). -/
def execLbFarEnd (n : Fin 8) (s : State) : Host.Outcome State Fault Refusal := done (s.lbWrite n 3)

/-- LB_OFF (R389). -/
def execLbOff (n : Fin 8) (s : State) : Host.Outcome State Fault Refusal := done (s.lbWrite n 0)

/-! ### Loss detection, block lock, eye (R388, R391, R392) -/

/-- HOST_LPI masks LOS and LOL (R388). -/
def State.laneMasked (s : State) (n : Fin 8) : Bool := s.on (F.LPI_STATUS.HOST_LPI n)

/-- A rise of LOS or LOL (R391, R257). -/
def State.lossRise (s : State) (n : Fin 8) (st cnt ev : Fld) (src : Nat) : State :=
  s.iff (s.hlOn n && !s.on st && !s.laneMasked n) fun s =>
    let s1 := (((s.wrB st true).count cnt).wrB ev true).setEye n 0
    (s1.rise (laneSrc n src) [s1.laneWord n]).laneFailover n

/-- LOS_RISE (R391). -/
def execLosRise (n : Fin 8) (s : State) : Host.Outcome State Fault Refusal :=
  done (s.lossRise n (F.HL_STATUS.LOS n) (F.HL_CNT_ERR.LOS_CNT n) (F.HL_EVENT.LOS n) 0)

/-- LOS_CLEAR (R391). -/
def execLosClear (n : Fin 8) (s : State) : Host.Outcome State Fault Refusal :=
  done (s.iff (s.hlOn n && s.on (F.HL_STATUS.LOS n)) fun s => (s.wrB (F.HL_STATUS.LOS n) false).signalOk n)

/-- LOL_RISE (R391). -/
def execLolRise (n : Fin 8) (s : State) : Host.Outcome State Fault Refusal :=
  done (s.lossRise n (F.HL_STATUS.LOL n) (F.HL_CNT_ERR.LOL_CNT n) (F.HL_EVENT.LOL n) 1)

/-- LOL_CLEAR (R391). -/
def execLolClear (n : Fin 8) (s : State) : Host.Outcome State Fault Refusal :=
  done (s.iff (s.hlOn n && s.on (F.HL_STATUS.LOL n)) fun s => (s.wrB (F.HL_STATUS.LOL n) false).signalOk n)

/-- BLOCK_LOCK_GAIN (R391): block lock with FEC_ALIGN where RS-FEC is in use, or sync status. -/
def execBlockLockGain (n : Fin 8) (s : State) : Host.Outcome State Fault Refusal :=
  done (s.iff (s.hlOn n && s.rd (F.HL_STATUS.PROTO_CUR n) != 0 && !s.on (F.HL_STATUS.BLOCK_LOCK n)) fun s =>
    ((s.wrB (F.HL_STATUS.BLOCK_LOCK n) true).wrB (F.HL_STATUS.FEC_ALIGN n) (s.on (F.HL_STATUS.FEC_ACT n))).signalOk n)

/-- BLOCK_LOCK_LOSS (R391). -/
def execBlockLockLoss (n : Fin 8) (s : State) : Host.Outcome State Fault Refusal :=
  done (s.iff (s.hlOn n && s.on (F.HL_STATUS.BLOCK_LOCK n)) fun s =>
    (s.wrB (F.HL_STATUS.BLOCK_LOCK n) false).wrB (F.HL_STATUS.FEC_ALIGN n) false)

/-- HI_BER_CHANGE (R391, R409). -/
def execHiBerChange (n : Fin 8) (up : Bool) (s : State) : Host.Outcome State Fault Refusal :=
  let p := s.rd (F.HL_STATUS.PROTO_CUR n)
  done (s.iff (s.hlOn n && (p == 1 || p == 2)) fun s =>
    (s.wrB (F.HL_STATUS.HI_BER n) up).iff (up && !s.on (F.HL_STATUS.HI_BER n)) fun s => s.wrB (F.HL_EVENT.HI_BER n) true)

/-- EYE_UPDATE (R392, R640): `w` is the number of contiguous positions without a mismatch. -/
def execEyeUpdate (n : Fin 8) (w : Nat) (s : State) : Host.Outcome State Fault Refusal :=
  done (s.iff (s.hlOn n && !s.on (F.HL_STATUS.LOS n) && !s.on (F.HL_STATUS.LOL n) && !s.laneMasked n) fun s =>
    s.setEye n (min 64 w))

/-! ### PRBS (R390) -/

/-- PRBS_LOCK_GAIN (R390). -/
def execPrbsLockGain (n : Fin 8) (s : State) : Host.Outcome State Fault Refusal :=
  done (s.iff (s.hlOn n && s.on (F.HL_PRBS_CTRL.CHK_EN n)) fun s => s.wrB (F.HL_STATUS.PRBS_LOCK n) true)

/-- PRBS_LOCK_LOST (R390): `bits`, in units of 2^16, and `errs` are what the checker counted while it was locked. -/
def execPrbsLockLost (n : Fin 8) (bits errs : Nat) (s : State) : Host.Outcome State Fault Refusal :=
  done (s.iff (s.hlOn n && s.on (F.HL_PRBS_CTRL.CHK_EN n) && s.on (F.HL_STATUS.PRBS_LOCK n)) fun s =>
    (((s.wrB (F.HL_STATUS.PRBS_LOCK n) false).wrB (F.HL_EVENT.PRBS_LOCK_LOST n) true).countSat (F.HL_PRBS_ERR.PRBS_ERR n)
      errs).countSat (F.HL_PRBS_BITS.PRBS_BITS n) bits)

end Sys2Proof.Machine
end

