-- ==== Sys2Proof/Machine/LoadStore.lean ====
section
/-! DEFINITION. Meanings of the MOLX loads, stores and exclusive accesses (12_molx_isa.md R414, R422, R425, R427, R428). `i`
is the core that issues; `e` is what IMEM or TCM does to the word that a load reads there (13_molx_system.md R443). -/

namespace Sys2Proof.Machine

/-- A load of one g register. -/
def State.gLoad (s : State) (i : Fin 11) (k : LoadKind) (rd rs1 : Fin 32) (imm : Half) (e : Ecc) : State :=
  s.instr i fun s c => s.loadAt i c false k rd.val ((s.ctx i c).addr rs1 imm) e

/-- A store of the low bytes of a g register. -/
def State.gStore (s : State) (i : Fin 11) (len : Nat) (rs2 rs1 : Fin 32) (imm : Half) : State :=
  s.instr i fun s c => s.storeAt i c ((s.ctx i c).addr rs1 imm) false (bytesLE len ((s.ctx i c).rg rs2).toNat)

/-- LB (R422). -/
def execLb (i : Fin 11) (rd rs1 : Fin 32) (imm : Half) (e : Ecc) (s : State) : Host.Outcome State Fault Refusal :=
  done (s.gLoad i .lb rd rs1 imm e)

/-- LBU (R422). -/
def execLbu (i : Fin 11) (rd rs1 : Fin 32) (imm : Half) (e : Ecc) (s : State) : Host.Outcome State Fault Refusal :=
  done (s.gLoad i .lbu rd rs1 imm e)

/-- LH (R422). -/
def execLh (i : Fin 11) (rd rs1 : Fin 32) (imm : Half) (e : Ecc) (s : State) : Host.Outcome State Fault Refusal :=
  done (s.gLoad i .lh rd rs1 imm e)

/-- LHU (R422). -/
def execLhu (i : Fin 11) (rd rs1 : Fin 32) (imm : Half) (e : Ecc) (s : State) : Host.Outcome State Fault Refusal :=
  done (s.gLoad i .lhu rd rs1 imm e)

/-- LW (R422). -/
def execLw (i : Fin 11) (rd rs1 : Fin 32) (imm : Half) (e : Ecc) (s : State) : Host.Outcome State Fault Refusal :=
  done (s.gLoad i .lw rd rs1 imm e)

/-- SB (R422). -/
def execSb (i : Fin 11) (rs2 rs1 : Fin 32) (imm : Half) (s : State) : Host.Outcome State Fault Refusal :=
  done (s.gStore i 1 rs2 rs1 imm)

/-- SH (R422). -/
def execSh (i : Fin 11) (rs2 rs1 : Fin 32) (imm : Half) (s : State) : Host.Outcome State Fault Refusal :=
  done (s.gStore i 2 rs2 rs1 imm)

/-- SW (R422). -/
def execSw (i : Fin 11) (rs2 rs1 : Fin 32) (imm : Half) (s : State) : Host.Outcome State Fault Refusal :=
  done (s.gStore i 4 rs2 rs1 imm)

/-- LOAD_COMPLETE (R414, R422): the load that context `c` waits for. A checkpoint's hold waits for it (R461). -/
def execLoadComplete (i : Fin 11) (c : Fin 4) (errs : List Ecc) (s : State) : Host.Outcome State Fault Refusal :=
  done (s.iff (s.coreOn i && s.core[i].up && !s.core[i].failed && s.familyRuns) fun s => s.loadEnd i c errs)

/-- LDX (R427). -/
def execLdx (i : Fin 11) (rd rs1 : Fin 32) (imm : Half) (e : Ecc) (s : State) : Host.Outcome State Fault Refusal :=
  done (s.gLoad i .ldx rd rs1 imm e)

/-- STX (R427). -/
def execStx (i : Fin 11) (rd rs2 rs1 : Fin 32) (s : State) : Host.Outcome State Fault Refusal :=
  done (s.instr i fun s c => s.stxAt i c rd ((s.ctx i c).rg rs1).toNat ((s.ctx i c).rg rs2))

/-- MONITOR_EXPIRY (R428): 10 µs of TB have passed since the LDX. -/
def execMonitorExpiry (i : Fin 11) (c : Fin 4) (s : State) : Host.Outcome State Fault Refusal :=
  done (s.modCtx i c fun x => { x with mon := none })

/-- VLD (R425). -/
def execVld (i : Fin 11) (vd : Fin 8) (rs1 : Fin 32) (imm : Half) (e : Ecc) (s : State) :
    Host.Outcome State Fault Refusal :=
  done (s.instr i fun s c => s.loadAt i c true .lw vd.val ((s.ctx i c).addr rs1 imm) e)

/-- VST (R425). -/
def execVst (i : Fin 11) (vs : Fin 8) (rs1 : Fin 32) (imm : Half) (s : State) : Host.Outcome State Fault Refusal :=
  done (s.instr i fun s c => s.storeAt i c ((s.ctx i c).addr rs1 imm) true (vecBytes ((s.ctx i c).rv vs)))

end Sys2Proof.Machine
end

