-- ==== Sys2Proof/Machine/Power.lean ====
section
/-! DEFINITION. Meanings of the commands of the power controller (17_power.md). -/

namespace Sys2Proof.Machine

/-! ### Requests (R610-R613, R617) -/

/-- PWC_REQ is written with GO = 1 by identity `who`, where PD_AON takes writes (R610). -/
def State.pwcAsk (s : State) (mode : Bool) (target index tag who : Nat) : State :=
  s.iff s.aonWrites fun s => s.pwcWrite { mode := mode, target := target, index := index, tag := tag % 256, who := who }

/-- PD_REQUEST_ON (R610). -/
def execPdRequestOn (i tag who : Nat) (s : State) : Host.Outcome State Fault Refusal := done (s.pwcAsk false domON (i % 256) tag who)

/-- PD_REQUEST_RETAIN (R610). -/
def execPdRequestRetain (i tag who : Nat) (s : State) : Host.Outcome State Fault Refusal :=
  done (s.pwcAsk false domRETAIN (i % 256) tag who)

/-- PD_REQUEST_OFF (R610). -/
def execPdRequestOff (i tag who : Nat) (s : State) : Host.Outcome State Fault Refusal :=
  done (s.pwcAsk false domOFF (i % 256) tag who)

/-- MODE_RUN (R617). -/
def execModeRun (tag who : Nat) (s : State) : Host.Outcome State Fault Refusal :=
  done (s.pwcAsk true 0 (s.rd F.PWC_REQ.INDEX) tag who)

/-- MODE_QUIET (R617). -/
def execModeQuiet (tag who : Nat) (s : State) : Host.Outcome State Fault Refusal :=
  done (s.pwcAsk true 1 (s.rd F.PWC_REQ.INDEX) tag who)

/-- MODE_DEPOT (R617). -/
def execModeDepot (tag who : Nat) (s : State) : Host.Outcome State Fault Refusal :=
  done (s.pwcAsk true 2 (s.rd F.PWC_REQ.INDEX) tag who)

/-- PWC_REQUEST_START (R610, R611): the queued request starts. -/
def execPwcRequestStart (s : State) : Host.Outcome State Fault Refusal := done (s.iff s.pwcRuns State.pwcNext)

/-- PWC_COMMIT (R612): the decision phase of the lowering request in flight ends. -/
def execPwcCommit (s : State) : Host.Outcome State Fault Refusal :=
  done (match (if s.familyRuns then s.pwc.inflight else none) with
    | some r => if r.deciding then s.pwcCommit r.req else s
    | none => s)

/-! ### Steps (R608, R613) -/

/-- The device is out of reset. -/
def State.released (s : State) : Bool := !s.pwc.porst && !s.pwc.aonLow

/-- PD_STEP_READY (R608, R613). -/
def execPdStepReady (i : Nat) (s : State) : Host.Outcome State Fault Refusal := done (s.iff s.released fun s => s.stepReady i)

/-- PD_READY_TIMEOUT (R613). -/
def execPdReadyTimeout (i : Nat) (s : State) : Host.Outcome State Fault Refusal := done (s.iff s.released fun s => s.readyTimeout i)

/-! ### Wakes (R614, R615, R617) -/

/-- WAKE_N_ASSERT (R614, R615). -/
def execWakeNAssert (s : State) : Host.Outcome State Fault Refusal :=
  done (s.iff (s.released && s.on F.PWC_DEPOT.WAKE_N_EN && !s.on F.FLT_STATUS.SAFE) State.wakeN)

/-- DEPOT_TIMER_EXPIRY (R614, R617). -/
def execDepotTimerExpiry (s : State) : Host.Outcome State Fault Refusal :=
  done (s.iff (s.released && s.rd F.PWC_DEPOT.DEP_WAKE_S != 0 && s.rd F.PWC_MODE.MODE == 2 && s.pwc.waking.isNone) fun s =>
    s.wakeMeets.depotWake 2)

/-! ### AVS (R621) -/

/-- AVS_UPDATE (R621). -/
def execAvsUpdate (s : State) : Host.Outcome State Fault Refusal := done (s.iff s.familyRuns State.avsUpdate)

/-! ### Resets and supplies (R620) -/

/-- PORST_ASSERT (R620). -/
def execPorstAssert (s : State) : Host.Outcome State Fault Refusal :=
  done { s.powerCycle with pwc := { porst := true, aonLow := s.pwc.aonLow } }

/-- PORST_RELEASE (R31, R620): `dly` is what the XTAL_DLY balls carry. -/
def execPorstRelease (dly : Fin 8) (s : State) : Host.Outcome State Fault Refusal :=
  done (s.iff s.pwc.porst fun s =>
    let s1 : State := { s with pwc := { s.pwc with porst := false } }
    if s1.pwc.aonLow then s1 else s1.release dly)

/-- VDD_AON_LOW (R620). -/
def execVddAonLow (s : State) : Host.Outcome State Fault Refusal :=
  done { s.powerCycle with pwc := { porst := s.pwc.porst, aonLow := true } }

/-- VDD_AON_RESTORE (R620). -/
def execVddAonRestore (dly : Fin 8) (s : State) : Host.Outcome State Fault Refusal :=
  done (s.iff s.pwc.aonLow fun s =>
    let s1 : State := { s with pwc := { s.pwc with aonLow := false } }
    if s1.pwc.porst then s1 else s1.release dly)

/-- SUPPLY_LOSS (R463, R493, R620): supply `sup` of 0 VDD_CORE, 1 VDD_AFE, 2 VDD_LD, 3 VDD_SER, 4 VDDQ, 5 VDD_IO, 6 VDD_BF. -/
def execSupplyLoss (sup : Fin 7) (s : State) : Host.Outcome State Fault Refusal := done (s.iff s.released fun s => s.supplyLoss sup)

end Sys2Proof.Machine
end

