-- ==== Sys2Proof/Machine/Flags.lean ====
section
/-! DEFINITION. The arithmetic of MOLX and the sticky flags it sets: saturation, division, lanes (12_molx_isa.md R420,
R424). -/

namespace Sys2Proof.Machine

/-- What an operation gives: its value, and whether it clamped (SSAT or VSAT) or divided by zero (DZ). -/
structure Alu where
  val : Word
  sat : Bool := false
  dz : Bool := false
  deriving DecidableEq, Repr

/-- A value clamped to 32 bits, with SSAT (R420). -/
def sat32 (z : Int) : Alu := ⟨BitVec.ofInt 32 (saturate 32 z), decide (saturate 32 z ≠ z), false⟩

/-- 1 or 0. -/
def flagWord (b : Bool) : Word := if b then 1 else 0

/-- The number of leading zero bits (R420). -/
def clzWord (a : Word) : Word := BitVec.ofNat 32 (if a = 0 then 32 else 31 - Nat.log2 a.toNat)

/-- DIV (R420). -/
def aluDiv (a b : Word) : Alu :=
  if b = 0 then ⟨if 0 ≤ a.toInt then 0x7FFFFFFF else 0x80000000, false, true⟩
  else if a = 0x80000000 ∧ b = 0xFFFFFFFF then ⟨0x7FFFFFFF, true, false⟩
  else ⟨BitVec.ofInt 32 (a.toInt.tdiv b.toInt), false, false⟩

/-- DIVU (R420). -/
def aluDivu (a b : Word) : Alu :=
  if b = 0 then ⟨if a = 0 then 0 else 0xFFFFFFFF, false, true⟩ else ⟨BitVec.ofNat 32 (a.toNat / b.toNat), false, false⟩

/-- REM (R420). -/
def aluRem (a b : Word) : Alu :=
  if b = 0 then ⟨0, false, true⟩
  else if a = 0x80000000 ∧ b = 0xFFFFFFFF then ⟨0, false, false⟩
  else ⟨BitVec.ofInt 32 (a.toInt - b.toInt * a.toInt.tdiv b.toInt), false, false⟩

/-- REMU (R420). -/
def aluRemu (a b : Word) : Alu :=
  if b = 0 then ⟨0, false, true⟩ else ⟨BitVec.ofNat 32 (a.toNat % b.toNat), false, false⟩

/-- Bits [63:32] of the signed and of the unsigned product (R420). -/
def mulHigh (a b : Word) : Word := BitVec.ofInt 32 (a.toInt * b.toInt / 2 ^ 32)
def mulHighU (a b : Word) : Word := BitVec.ofNat 32 (a.toNat * b.toNat / 2 ^ 32)

/-- A lane clamped to 16 bits, and whether it clamped (R424). -/
def sat16 (z : Int) : Half × Bool := (BitVec.ofInt 16 (saturate 16 z), decide (saturate 16 z ≠ z))

/-- The rounded Q15 product floor((a × b + 2^14) / 2^15) (R424). -/
def mulQ15 (a b : Half) : Int := (a.toInt * b.toInt + 2 ^ 14) / 2 ^ 15

/-- VSRAR of one lane (R424). -/
def sraRound (a : Half) (k : Nat) : Half :=
  if k = 0 then a else BitVec.ofInt 16 ((a.toInt + 2 ^ (k - 1)) / 2 ^ k)

end Sys2Proof.Machine
end

