-- ==== Sys2Proof/Machine/Scalar.lean ====
section
/-! DEFINITION. Meanings of the scalar MOLX instructions (12_molx_isa.md R417, R420). `i` is the core that issues. -/

namespace Sys2Proof.Machine

/-- An instruction that writes one g register and sets SSAT and DZ where its operation says so; no instruction clears them
(R420). -/
def State.aluOp (s : State) (i : Fin 11) (rd : Fin 32) (f : Ctx → Alu) : State :=
  s.regOp i fun x =>
    let r := f x
    { x.setG rd r.val with ssat := x.ssat || r.sat, dz := x.dz || r.dz }

/-- ADD (R420): gd := gs1 + gs2. -/
def execAdd (i : Fin 11) (rd rs1 rs2 : Fin 32) (s : State) : Host.Outcome State Fault Refusal :=
  done (s.gOp i rd fun x => x.rg rs1 + x.rg rs2)

/-- SUB (R420): gd := gs1 − gs2. -/
def execSub (i : Fin 11) (rd rs1 rs2 : Fin 32) (s : State) : Host.Outcome State Fault Refusal :=
  done (s.gOp i rd fun x => x.rg rs1 - x.rg rs2)

/-- AND (R420): gd := gs1 and gs2. -/
def execAnd (i : Fin 11) (rd rs1 rs2 : Fin 32) (s : State) : Host.Outcome State Fault Refusal :=
  done (s.gOp i rd fun x => x.rg rs1 &&& x.rg rs2)

/-- OR (R420): gd := gs1 or gs2. -/
def execOr (i : Fin 11) (rd rs1 rs2 : Fin 32) (s : State) : Host.Outcome State Fault Refusal :=
  done (s.gOp i rd fun x => x.rg rs1 ||| x.rg rs2)

/-- XOR (R420): gd := gs1 xor gs2. -/
def execXor (i : Fin 11) (rd rs1 rs2 : Fin 32) (s : State) : Host.Outcome State Fault Refusal :=
  done (s.gOp i rd fun x => x.rg rs1 ^^^ x.rg rs2)

/-- ANDN (R420): gd := gs1 and not gs2. -/
def execAndn (i : Fin 11) (rd rs1 rs2 : Fin 32) (s : State) : Host.Outcome State Fault Refusal :=
  done (s.gOp i rd fun x => x.rg rs1 &&& ~~~(x.rg rs2))

/-- SLL (R420): gd := gs1 shifted left by gs2[4:0]. -/
def execSll (i : Fin 11) (rd rs1 rs2 : Fin 32) (s : State) : Host.Outcome State Fault Refusal :=
  done (s.gOp i rd fun x => x.rg rs1 <<< ((x.rg rs2).toNat % 32))

/-- SRL (R420): gd := gs1 shifted right by gs2[4:0]. -/
def execSrl (i : Fin 11) (rd rs1 rs2 : Fin 32) (s : State) : Host.Outcome State Fault Refusal :=
  done (s.gOp i rd fun x => x.rg rs1 >>> ((x.rg rs2).toNat % 32))

/-- SRA (R420): gd := gs1 shifted arithmetically right by gs2[4:0]. -/
def execSra (i : Fin 11) (rd rs1 rs2 : Fin 32) (s : State) : Host.Outcome State Fault Refusal :=
  done (s.gOp i rd fun x => (x.rg rs1).sshiftRight ((x.rg rs2).toNat % 32))

/-- ROR (R420): gd := gs1 rotated right by gs2[4:0]. -/
def execRor (i : Fin 11) (rd rs1 rs2 : Fin 32) (s : State) : Host.Outcome State Fault Refusal :=
  done (s.gOp i rd fun x => (x.rg rs1).rotateRight ((x.rg rs2).toNat % 32))

/-- CLT (R420): gd := 1 if s(gs1) < s(gs2). -/
def execClt (i : Fin 11) (rd rs1 rs2 : Fin 32) (s : State) : Host.Outcome State Fault Refusal :=
  done (s.gOp i rd fun x => flagWord ((x.rg rs1).slt (x.rg rs2)))

/-- CLTU (R420): gd := 1 if u(gs1) < u(gs2). -/
def execCltu (i : Fin 11) (rd rs1 rs2 : Fin 32) (s : State) : Host.Outcome State Fault Refusal :=
  done (s.gOp i rd fun x => flagWord ((x.rg rs1).ult (x.rg rs2)))

/-- MIN (R420): the signed lesser. -/
def execMin (i : Fin 11) (rd rs1 rs2 : Fin 32) (s : State) : Host.Outcome State Fault Refusal :=
  done (s.gOp i rd fun x => if (x.rg rs1).slt (x.rg rs2) then x.rg rs1 else x.rg rs2)

/-- MAX (R420): the signed greater. -/
def execMax (i : Fin 11) (rd rs1 rs2 : Fin 32) (s : State) : Host.Outcome State Fault Refusal :=
  done (s.gOp i rd fun x => if (x.rg rs1).slt (x.rg rs2) then x.rg rs2 else x.rg rs1)

/-- MINU (R420): the unsigned lesser. -/
def execMinu (i : Fin 11) (rd rs1 rs2 : Fin 32) (s : State) : Host.Outcome State Fault Refusal :=
  done (s.gOp i rd fun x => if (x.rg rs1).ult (x.rg rs2) then x.rg rs1 else x.rg rs2)

/-- MAXU (R420): the unsigned greater. -/
def execMaxu (i : Fin 11) (rd rs1 rs2 : Fin 32) (s : State) : Host.Outcome State Fault Refusal :=
  done (s.gOp i rd fun x => if (x.rg rs1).ult (x.rg rs2) then x.rg rs2 else x.rg rs1)

/-- ADDS (R420): gd := sat32(s(gs1) + s(gs2)), SSAT if clamped. -/
def execAdds (i : Fin 11) (rd rs1 rs2 : Fin 32) (s : State) : Host.Outcome State Fault Refusal :=
  done (s.aluOp i rd fun x => sat32 ((x.rg rs1).toInt + (x.rg rs2).toInt))

/-- SUBS (R420): gd := sat32(s(gs1) − s(gs2)), SSAT if clamped. -/
def execSubs (i : Fin 11) (rd rs1 rs2 : Fin 32) (s : State) : Host.Outcome State Fault Refusal :=
  done (s.aluOp i rd fun x => sat32 ((x.rg rs1).toInt - (x.rg rs2).toInt))

/-- CLZ (R420): the number of leading zero bits of gs1. -/
def execClz (i : Fin 11) (rd rs1 : Fin 32) (s : State) : Host.Outcome State Fault Refusal :=
  done (s.gOp i rd fun x => clzWord (x.rg rs1))

/-- MUL (R420): gd := (gs1 × gs2)[31:0]. -/
def execMul (i : Fin 11) (rd rs1 rs2 : Fin 32) (s : State) : Host.Outcome State Fault Refusal :=
  done (s.gOp i rd fun x => x.rg rs1 * x.rg rs2)

/-- MULH (R420): gd := (s(gs1) × s(gs2))[63:32]. -/
def execMulh (i : Fin 11) (rd rs1 rs2 : Fin 32) (s : State) : Host.Outcome State Fault Refusal :=
  done (s.gOp i rd fun x => mulHigh (x.rg rs1) (x.rg rs2))

/-- MULHU (R420): gd := (u(gs1) × u(gs2))[63:32]. -/
def execMulhu (i : Fin 11) (rd rs1 rs2 : Fin 32) (s : State) : Host.Outcome State Fault Refusal :=
  done (s.gOp i rd fun x => mulHighU (x.rg rs1) (x.rg rs2))

/-- DIV (R420): the signed quotient, DZ or SSAT. -/
def execDiv (i : Fin 11) (rd rs1 rs2 : Fin 32) (s : State) : Host.Outcome State Fault Refusal :=
  done (s.aluOp i rd fun x => aluDiv (x.rg rs1) (x.rg rs2))

/-- DIVU (R420): the unsigned quotient, DZ. -/
def execDivu (i : Fin 11) (rd rs1 rs2 : Fin 32) (s : State) : Host.Outcome State Fault Refusal :=
  done (s.aluOp i rd fun x => aluDivu (x.rg rs1) (x.rg rs2))

/-- REM (R420): the signed remainder, DZ. -/
def execRem (i : Fin 11) (rd rs1 rs2 : Fin 32) (s : State) : Host.Outcome State Fault Refusal :=
  done (s.aluOp i rd fun x => aluRem (x.rg rs1) (x.rg rs2))

/-- REMU (R420): the unsigned remainder, DZ. -/
def execRemu (i : Fin 11) (rd rs1 rs2 : Fin 32) (s : State) : Host.Outcome State Fault Refusal :=
  done (s.aluOp i rd fun x => aluRemu (x.rg rs1) (x.rg rs2))

/-- ADDI (R417, R420): gd := gs1 + imm. -/
def execAddi (i : Fin 11) (rd rs1 : Fin 32) (imm : Half) (s : State) : Host.Outcome State Fault Refusal :=
  done (s.gOp i rd fun x => x.rg rs1 + sextI imm)

/-- CLTI (R417, R420): gd := 1 if s(gs1) < s(imm). -/
def execClti (i : Fin 11) (rd rs1 : Fin 32) (imm : Half) (s : State) : Host.Outcome State Fault Refusal :=
  done (s.gOp i rd fun x => flagWord ((x.rg rs1).slt (sextI imm)))

/-- CLTIU (R417, R420): gd := 1 if u(gs1) < u(imm), imm sign-extended. -/
def execCltiu (i : Fin 11) (rd rs1 : Fin 32) (imm : Half) (s : State) : Host.Outcome State Fault Refusal :=
  done (s.gOp i rd fun x => flagWord ((x.rg rs1).ult (sextI imm)))

/-- ANDI (R417, R420): gd := gs1 and imm. -/
def execAndi (i : Fin 11) (rd rs1 : Fin 32) (imm : Half) (s : State) : Host.Outcome State Fault Refusal :=
  done (s.gOp i rd fun x => x.rg rs1 &&& zextI imm)

/-- ORI (R417, R420): gd := gs1 or imm. -/
def execOri (i : Fin 11) (rd rs1 : Fin 32) (imm : Half) (s : State) : Host.Outcome State Fault Refusal :=
  done (s.gOp i rd fun x => x.rg rs1 ||| zextI imm)

/-- XORI (R417, R420): gd := gs1 xor imm. -/
def execXori (i : Fin 11) (rd rs1 : Fin 32) (imm : Half) (s : State) : Host.Outcome State Fault Refusal :=
  done (s.gOp i rd fun x => x.rg rs1 ^^^ zextI imm)

/-- LHI (R417, R420): gd := imm << 16. -/
def execLhi (i : Fin 11) (rd : Fin 32) (imm : Half) (s : State) : Host.Outcome State Fault Refusal :=
  done (s.gOp i rd fun _ => zextI imm <<< 16)

/-- SLLI (R417, R420): gd := gs1 shifted left by imm[4:0]. -/
def execSlli (i : Fin 11) (rd rs1 : Fin 32) (k : Fin 32) (s : State) : Host.Outcome State Fault Refusal :=
  done (s.gOp i rd fun x => x.rg rs1 <<< k.val)

/-- SRLI (R417, R420): gd := gs1 shifted right by imm[4:0]. -/
def execSrli (i : Fin 11) (rd rs1 : Fin 32) (k : Fin 32) (s : State) : Host.Outcome State Fault Refusal :=
  done (s.gOp i rd fun x => x.rg rs1 >>> k.val)

/-- SRAI (R417, R420): gd := gs1 shifted arithmetically right by imm[4:0]. -/
def execSrai (i : Fin 11) (rd rs1 : Fin 32) (k : Fin 32) (s : State) : Host.Outcome State Fault Refusal :=
  done (s.gOp i rd fun x => (x.rg rs1).sshiftRight k.val)

/-- RORI (R417, R420): gd := gs1 rotated right by imm[4:0]. -/
def execRori (i : Fin 11) (rd rs1 : Fin 32) (k : Fin 32) (s : State) : Host.Outcome State Fault Refusal :=
  done (s.gOp i rd fun x => (x.rg rs1).rotateRight k.val)

end Sys2Proof.Machine
end

