-- ==== Sys2Proof/Machine/VectorOps.lean ====
section
/-! DEFINITION. Meanings of the MOLX vector instructions (12_molx_isa.md R424). `i` is the core that issues. -/

namespace Sys2Proof.Machine

/-- An operation on each pair of lanes. -/
def State.laneOp (s : State) (i : Fin 11) (vd vs1 vs2 : Fin 8) (f : Half → Half → Half) : State :=
  s.regOp i fun x => x.setV vd (Vector.ofFn fun l => f (x.rv vs1)[l] (x.rv vs2)[l])

/-- An operation whose lanes clamp: VSAT sets where any does. -/
def State.laneSat (s : State) (i : Fin 11) (vd : Fin 8) (f : Ctx → Fin 16 → Half × Bool) : State :=
  s.regOp i fun x =>
    let clamped := (List.finRange 16).any fun (l : Fin 16) => (f x l).2
    { x.setV vd (Vector.ofFn fun l => (f x l).1) with vsat := x.vsat || clamped }

/-- A shift of every lane by gs2[3:0]. -/
def State.laneShift (s : State) (i : Fin 11) (vd vs1 : Fin 8) (rs2 : Fin 32) (f : Half → Nat → Half) : State :=
  s.regOp i fun x => x.setV vd (Vector.ofFn fun l => f (x.rv vs1)[l] ((x.rg rs2).toNat % 16))

/-- A sum over the lanes, and a bit for each lane. -/
def laneSum (f : Fin 16 → Int) : Int := (List.finRange 16).foldl (fun (a : Int) (l : Fin 16) => a + f l) 0
def laneBits (f : Fin 16 → Bool) : Nat :=
  (List.finRange 16).foldl (fun (a : Nat) (l : Fin 16) => a + b2n (f l) * 2 ^ l.val) 0

/-- VADD (R424): vd[i] := (vs1[i] + vs2[i]) mod 2^16. -/
def execVadd (i : Fin 11) (vd vs1 vs2 : Fin 8) (s : State) : Host.Outcome State Fault Refusal :=
  done (s.laneOp i vd vs1 vs2 fun a b => a + b)

/-- VSUB (R424): vd[i] := (vs1[i] − vs2[i]) mod 2^16. -/
def execVsub (i : Fin 11) (vd vs1 vs2 : Fin 8) (s : State) : Host.Outcome State Fault Refusal :=
  done (s.laneOp i vd vs1 vs2 fun a b => a - b)

/-- VADDS (R424): vd[i] := sat16(vs1[i] + vs2[i]), VSAT. -/
def execVadds (i : Fin 11) (vd vs1 vs2 : Fin 8) (s : State) : Host.Outcome State Fault Refusal :=
  done (s.laneSat i vd fun x l => sat16 ((x.rv vs1)[l].toInt + (x.rv vs2)[l].toInt))

/-- VSUBS (R424): vd[i] := sat16(vs1[i] − vs2[i]), VSAT. -/
def execVsubs (i : Fin 11) (vd vs1 vs2 : Fin 8) (s : State) : Host.Outcome State Fault Refusal :=
  done (s.laneSat i vd fun x l => sat16 ((x.rv vs1)[l].toInt - (x.rv vs2)[l].toInt))

/-- VMULQ (R424): the rounded Q15 product, saturated, VSAT. -/
def execVmulq (i : Fin 11) (vd vs1 vs2 : Fin 8) (s : State) : Host.Outcome State Fault Refusal :=
  done (s.laneSat i vd fun x l => sat16 (mulQ15 (x.rv vs1)[l] (x.rv vs2)[l]))

/-- VMACQ (R424): vd[i] plus the rounded Q15 product, saturated, VSAT. -/
def execVmacq (i : Fin 11) (vd vs1 vs2 : Fin 8) (s : State) : Host.Outcome State Fault Refusal :=
  done (s.laneSat i vd fun x l => sat16 ((x.rv vd)[l].toInt + mulQ15 (x.rv vs1)[l] (x.rv vs2)[l]))

/-- VAND (R424): bitwise and. -/
def execVand (i : Fin 11) (vd vs1 vs2 : Fin 8) (s : State) : Host.Outcome State Fault Refusal :=
  done (s.laneOp i vd vs1 vs2 fun a b => a &&& b)

/-- VOR (R424): bitwise or. -/
def execVor (i : Fin 11) (vd vs1 vs2 : Fin 8) (s : State) : Host.Outcome State Fault Refusal :=
  done (s.laneOp i vd vs1 vs2 fun a b => a ||| b)

/-- VXOR (R424): bitwise xor. -/
def execVxor (i : Fin 11) (vd vs1 vs2 : Fin 8) (s : State) : Host.Outcome State Fault Refusal :=
  done (s.laneOp i vd vs1 vs2 fun a b => a ^^^ b)

/-- VMIN (R424): the lesser. -/
def execVmin (i : Fin 11) (vd vs1 vs2 : Fin 8) (s : State) : Host.Outcome State Fault Refusal :=
  done (s.laneOp i vd vs1 vs2 fun a b => if a.slt b then a else b)

/-- VMAX (R424): the greater. -/
def execVmax (i : Fin 11) (vd vs1 vs2 : Fin 8) (s : State) : Host.Outcome State Fault Refusal :=
  done (s.laneOp i vd vs1 vs2 fun a b => if a.slt b then b else a)

/-- VABS (R424): vd[i] := sat16(abs(vs1[i])), VSAT. -/
def execVabs (i : Fin 11) (vd vs1 : Fin 8) (s : State) : Host.Outcome State Fault Refusal :=
  done (s.laneSat i vd fun x l => sat16 (x.rv vs1)[l].toInt.natAbs)

/-- VSRA (R424): vd[i] := floor(vs1[i] / 2^k), k = gs2[3:0]. -/
def execVsra (i : Fin 11) (vd vs1 : Fin 8) (rs2 : Fin 32) (s : State) : Host.Outcome State Fault Refusal :=
  done (s.laneShift i vd vs1 rs2 fun a k => a.sshiftRight k)

/-- VSLL (R424): vd[i] := (vs1[i] << k) mod 2^16, k = gs2[3:0]. -/
def execVsll (i : Fin 11) (vd vs1 : Fin 8) (rs2 : Fin 32) (s : State) : Host.Outcome State Fault Refusal :=
  done (s.laneShift i vd vs1 rs2 fun a k => a <<< k)

/-- VSRAR (R424): vd[i] := floor((vs1[i] + 2^(k − 1)) / 2^k), k = gs2[3:0]. -/
def execVsrar (i : Fin 11) (vd vs1 : Fin 8) (rs2 : Fin 32) (s : State) : Host.Outcome State Fault Refusal :=
  done (s.laneShift i vd vs1 rs2 fun a k => sraRound a k)

/-- VBCAST (R424): vd[i] := gs1[15:0]. -/
def execVbcast (i : Fin 11) (vd : Fin 8) (rs1 : Fin 32) (s : State) : Host.Outcome State Fault Refusal :=
  done (s.regOp i fun x => x.setV vd (Vector.replicate 16 ((x.rg rs1).setWidth 16)))

/-- VEXT (R424): gd := sext(vs1[L], 16). -/
def execVext (i : Fin 11) (rd : Fin 32) (vs1 : Fin 8) (l : Fin 16) (s : State) : Host.Outcome State Fault Refusal :=
  done (s.gOp i rd fun x => (x.rv vs1)[l].signExtend 32)

/-- VINS (R424): vd[L] := gs1[15:0]. -/
def execVins (i : Fin 11) (vd : Fin 8) (rs1 : Fin 32) (l : Fin 16) (s : State) : Host.Outcome State Fault Refusal :=
  done (s.regOp i fun x => x.setV vd ((x.rv vd).set l ((x.rg rs1).setWidth 16)))

/-- VSUM (R424): gd := Σ vs1[i], exact. -/
def execVsum (i : Fin 11) (rd : Fin 32) (vs1 : Fin 8) (s : State) : Host.Outcome State Fault Refusal :=
  done (s.gOp i rd fun x => BitVec.ofInt 32 (laneSum fun l => (x.rv vs1)[l].toInt))

/-- VDOT (R424): gd := sat32(Σ vs1[i] × vs2[i]), VSAT. -/
def execVdot (i : Fin 11) (rd : Fin 32) (vs1 vs2 : Fin 8) (s : State) : Host.Outcome State Fault Refusal :=
  done (s.regOp i fun x =>
    let r := sat32 (laneSum fun l => (x.rv vs1)[l].toInt * (x.rv vs2)[l].toInt)
    { x.setG rd r.val with vsat := x.vsat || r.sat })

/-- VMOV (R424): vd := vs1. -/
def execVmov (i : Fin 11) (vd vs1 : Fin 8) (s : State) : Host.Outcome State Fault Refusal :=
  done (s.regOp i fun x => x.setV vd (x.rv vs1))

/-- VCMPGT (R424): gd[i] := 1 if vs1[i] > vs2[i]; gd[31:16] := 0. -/
def execVcmpgt (i : Fin 11) (rd : Fin 32) (vs1 vs2 : Fin 8) (s : State) : Host.Outcome State Fault Refusal :=
  done (s.gOp i rd fun x => BitVec.ofNat 32 (laneBits fun l => (x.rv vs2)[l].slt (x.rv vs1)[l]))

end Sys2Proof.Machine
end

