-- ==== Sys2Proof/Machine/Dispatch.lean ====
section
/-! DEFINITION. exec: one arm per command, each one call of its meaning or a refusal by name. -/

namespace Sys2Proof.Machine

def exec (i : Instr) (s : State) : Host.Outcome State Fault Refusal :=
  match i with
  | .registerWrite mid ofs len data => Sys2Proof.Machine.execRegisterWrite mid ofs len data s
  | .postedWriteDelivery page => Sys2Proof.Machine.execPostedWriteDelivery page s
  | .postedWriteDiscard page bound => Sys2Proof.Machine.execPostedWriteDiscard page bound s
  | .rclRead mid ofs len => Sys2Proof.Machine.execRclRead mid ofs len s
  | .counterLowRead mid ofs len => Sys2Proof.Machine.execCounterLowRead mid ofs len s
  | .registerReadTimeout mid ofs len => Sys2Proof.Machine.execRegisterReadTimeout mid ofs len s
  | .portEnable n => Sys2Proof.Machine.execPortEnable n s
  | .portDisable n => Sys2Proof.Machine.execPortDisable n s
  | .anRestart n => Sys2Proof.Machine.execAnRestart n s
  | .expectEnforceWrite n node prt => Sys2Proof.Machine.execExpectEnforceWrite n node prt s
  | .energyQualified n => Sys2Proof.Machine.execEnergyQualified n s
  | .flpBurstReceived n => Sys2Proof.Machine.execFlpBurstReceived n s
  | .parallelDetect n => Sys2Proof.Machine.execParallelDetect n s
  | .force100Train n => Sys2Proof.Machine.execForce100Train n s
  | .anWaitExpiry n nlp => Sys2Proof.Machine.execAnWaitExpiry n nlp s
  | .anPageReceived n pg last mdix => Sys2Proof.Machine.execAnPageReceived n pg last mdix s
  | .trainPhaseEnd n m => Sys2Proof.Machine.execTrainPhaseEnd n m s
  | .trainPhaseRecognised n m => Sys2Proof.Machine.execTrainPhaseRecognised n m s
  | .infoBlockReceived n content crc => Sys2Proof.Machine.execInfoBlockReceived n content crc s
  | .partnerSilentExpiry n => Sys2Proof.Machine.execPartnerSilentExpiry n s
  | .trainWaitExpiry n => Sys2Proof.Machine.execTrainWaitExpiry n s
  | .frameSyncTimeout n => Sys2Proof.Machine.execFrameSyncTimeout n s
  | .trainSilenceEnd n => Sys2Proof.Machine.execTrainSilenceEnd n s
  | .stdTrainComplete n e => Sys2Proof.Machine.execStdTrainComplete n e s
  | .stdLinkFail n => Sys2Proof.Machine.execStdLinkFail n s
  | .breakSilenceEnd n => Sys2Proof.Machine.execBreakSilenceEnd n s
  | .dormBurstExpiry n => Sys2Proof.Machine.execDormBurstExpiry n s
  | .linkDownTimerExpiry n => Sys2Proof.Machine.execLinkDownTimerExpiry n s
  | .fastDeparture n => Sys2Proof.Machine.execFastDeparture n s
  | .pchkGo n pair => Sys2Proof.Machine.execPchkGo n pair s
  | .pchkPeriodExpiry n => Sys2Proof.Machine.execPchkPeriodExpiry n s
  | .pchkDone n active m => Sys2Proof.Machine.execPchkDone n active m s
  | .trimApply n x => Sys2Proof.Machine.execTrimApply n x s
  | .trimCopy n x => Sys2Proof.Machine.execTrimCopy n x s
  | .xbShadow n p => Sys2Proof.Machine.execXbShadow n p s
  | .xbSwap n p => Sys2Proof.Machine.execXbSwap n p s
  | .xbHandback n p => Sys2Proof.Machine.execXbHandback n p s
  | .xbSpare n p => Sys2Proof.Machine.execXbSpare n p s
  | .xbIdle n p => Sys2Proof.Machine.execXbIdle n p s
  | .xbSwitchPoint n => Sys2Proof.Machine.execXbSwitchPoint n s
  | .impulseFlagRise n x past last => Sys2Proof.Machine.execImpulseFlagRise n x past last s
  | .impulseFlagClear n x => Sys2Proof.Machine.execImpulseFlagClear n x s
  | .impEnClear n x => Sys2Proof.Machine.execImpEnClear n x s
  | .impbValidSet n x => Sys2Proof.Machine.execImpbValidSet n x s
  | .adaptCommit n w k half2 early win => Sys2Proof.Machine.execAdaptCommit n w k half2 early win s
  | .guardEnd n p => Sys2Proof.Machine.execGuardEnd n p s
  | .freezeHangExpiry n hold => Sys2Proof.Machine.execFreezeHangExpiry n hold s
  | .pgaGainWrite n x gain => Sys2Proof.Machine.execPgaGainWrite n x gain s
  | .snrBlockDone n x m => Sys2Proof.Machine.execSnrBlockDone n x m s
  | .txFrameStart n ue => Sys2Proof.Machine.execTxFrameStart n ue s
  | .frameDecode n h k newPath c w => Sys2Proof.Machine.execFrameDecode n h k newPath c w s
  | .frameHandoff n bad => Sys2Proof.Machine.execFrameHandoff n bad s
  | .decoderHalfFail n h f => Sys2Proof.Machine.execDecoderHalfFail n h f s
  | .halfSelChange n => Sys2Proof.Machine.execHalfSelChange n s
  | .ladderTick n => Sys2Proof.Machine.execLadderTick n s
  | .lreqGo n rung load => Sys2Proof.Machine.execLreqGo n rung load s
  | .shiftAbort n => Sys2Proof.Machine.execShiftAbort n s
  | .shiftBoundary n => Sys2Proof.Machine.execShiftBoundary n s
  | .dualTrackStart n => Sys2Proof.Machine.execDualTrackStart n s
  | .rxRequestHoldoffEnd n => Sys2Proof.Machine.execRxRequestHoldoffEnd n s
  | .txReqIgnoreEnd n => Sys2Proof.Machine.execTxReqIgnoreEnd n s
  | .ackTimerExpiry n => Sys2Proof.Machine.execAckTimerExpiry n s
  | .ingressBlock n sync pay fill nextStart => Sys2Proof.Machine.execIngressBlock n sync pay fill nextStart s
  | .spillPageAlloc o => Sys2Proof.Machine.execSpillPageAlloc o s
  | .spillWriteDone o => Sys2Proof.Machine.execSpillWriteDone o s
  | .spillReadDone o ue => Sys2Proof.Machine.execSpillReadDone o ue s
  | .spillRsvWrite n rsv mx => Sys2Proof.Machine.execSpillRsvWrite n rsv mx s
  | .spillPagesRelease o => Sys2Proof.Machine.execSpillPagesRelease o s
  | .twinCfgApply k => Sys2Proof.Machine.execTwinCfgApply k s
  | .mergeStall k => Sys2Proof.Machine.execMergeStall k s
  | .bfEnable b => Sys2Proof.Machine.execBfEnable b s
  | .bfDisable b => Sys2Proof.Machine.execBfDisable b s
  | .bfTxDisable b => Sys2Proof.Machine.execBfTxDisable b s
  | .idleEdge b energy => Sys2Proof.Machine.execIdleEdge b energy s
  | .accessSlot b tb => Sys2Proof.Machine.execAccessSlot b tb s
  | .roundGap b => Sys2Proof.Machine.execRoundGap b s
  | .packetTxDone b => Sys2Proof.Machine.execPacketTxDone b s
  | .txRingPoll b => Sys2Proof.Machine.execTxRingPoll b s
  | .txKick b => Sys2Proof.Machine.execTxKick b s
  | .beaconPeriod b => Sys2Proof.Machine.execBeaconPeriod b s
  | .bcnNow b => Sys2Proof.Machine.execBcnNow b s
  | .preambleDetect b => Sys2Proof.Machine.execPreambleDetect b s
  | .sfdDetect b tb since fofs m => Sys2Proof.Machine.execSfdDetect b tb since fofs m s
  | .sfdTimeout b => Sys2Proof.Machine.execSfdTimeout b s
  | .capture b db => Sys2Proof.Machine.execCapture b db s
  | .headerDecode b w => Sys2Proof.Machine.execHeaderDecode b w s
  | .codewordDecode b w => Sys2Proof.Machine.execCodewordDecode b w s
  | .rngGo b v => Sys2Proof.Machine.execRngGo b v s
  | .rangeRspSend b tB tb => Sys2Proof.Machine.execRangeRspSend b tB tb s
  | .rangeTimeout b => Sys2Proof.Machine.execRangeTimeout b s
  | .bfKeySlotLoad b => Sys2Proof.Machine.execBfKeySlotLoad b s
  | .diagTdr n pairs cap avg len => Sys2Proof.Machine.execDiagTdr n pairs cap avg len s
  | .diagSnapshot n pairs cap => Sys2Proof.Machine.execDiagSnapshot n pairs cap s
  | .diagLoss n pairs => Sys2Proof.Machine.execDiagLoss n pairs s
  | .diagWear n pairs => Sys2Proof.Machine.execDiagWear n pairs s
  | .diagRunEnd n m => Sys2Proof.Machine.execDiagRunEnd n m s
  | .wearScan n => Sys2Proof.Machine.execWearScan n s
  | .lmSet n x ci => Sys2Proof.Machine.execLmSet n x ci s
  | .lpiTxEntry n => Sys2Proof.Machine.execLpiTxEntry n s
  | .lpiRefresh n => Sys2Proof.Machine.execLpiRefresh n s
  | .lpiWake n => Sys2Proof.Machine.execLpiWake n s
  | .lpiRxSleep n => Sys2Proof.Machine.execLpiRxSleep n s
  | .lpiRxWake n => Sys2Proof.Machine.execLpiRxWake n s
  | .egressBlockTx e => Sys2Proof.Machine.execEgressBlockTx e s
  | .pauseRefresh n => Sys2Proof.Machine.execPauseRefresh n s
  | .lbNearSerial n => Sys2Proof.Machine.execLbNearSerial n s
  | .lbNearParallel n => Sys2Proof.Machine.execLbNearParallel n s
  | .lbFarEnd n => Sys2Proof.Machine.execLbFarEnd n s
  | .lbOff n => Sys2Proof.Machine.execLbOff n s
  | .losRise n => Sys2Proof.Machine.execLosRise n s
  | .losClear n => Sys2Proof.Machine.execLosClear n s
  | .lolRise n => Sys2Proof.Machine.execLolRise n s
  | .lolClear n => Sys2Proof.Machine.execLolClear n s
  | .eyeUpdate n w => Sys2Proof.Machine.execEyeUpdate n w s
  | .add ci rd rs1 rs2 => Sys2Proof.Machine.execAdd ci rd rs1 rs2 s
  | .sub ci rd rs1 rs2 => Sys2Proof.Machine.execSub ci rd rs1 rs2 s
  | .and ci rd rs1 rs2 => Sys2Proof.Machine.execAnd ci rd rs1 rs2 s
  | .or ci rd rs1 rs2 => Sys2Proof.Machine.execOr ci rd rs1 rs2 s
  | .xor ci rd rs1 rs2 => Sys2Proof.Machine.execXor ci rd rs1 rs2 s
  | .andn ci rd rs1 rs2 => Sys2Proof.Machine.execAndn ci rd rs1 rs2 s
  | .sll ci rd rs1 rs2 => Sys2Proof.Machine.execSll ci rd rs1 rs2 s
  | .srl ci rd rs1 rs2 => Sys2Proof.Machine.execSrl ci rd rs1 rs2 s
  | .sra ci rd rs1 rs2 => Sys2Proof.Machine.execSra ci rd rs1 rs2 s
  | .ror ci rd rs1 rs2 => Sys2Proof.Machine.execRor ci rd rs1 rs2 s
  | .clt ci rd rs1 rs2 => Sys2Proof.Machine.execClt ci rd rs1 rs2 s
  | .cltu ci rd rs1 rs2 => Sys2Proof.Machine.execCltu ci rd rs1 rs2 s
  | .min ci rd rs1 rs2 => Sys2Proof.Machine.execMin ci rd rs1 rs2 s
  | .max ci rd rs1 rs2 => Sys2Proof.Machine.execMax ci rd rs1 rs2 s
  | .minu ci rd rs1 rs2 => Sys2Proof.Machine.execMinu ci rd rs1 rs2 s
  | .maxu ci rd rs1 rs2 => Sys2Proof.Machine.execMaxu ci rd rs1 rs2 s
  | .adds ci rd rs1 rs2 => Sys2Proof.Machine.execAdds ci rd rs1 rs2 s
  | .subs ci rd rs1 rs2 => Sys2Proof.Machine.execSubs ci rd rs1 rs2 s
  | .clz ci rd rs1 => Sys2Proof.Machine.execClz ci rd rs1 s
  | .mul ci rd rs1 rs2 => Sys2Proof.Machine.execMul ci rd rs1 rs2 s
  | .mulh ci rd rs1 rs2 => Sys2Proof.Machine.execMulh ci rd rs1 rs2 s
  | .mulhu ci rd rs1 rs2 => Sys2Proof.Machine.execMulhu ci rd rs1 rs2 s
  | .div ci rd rs1 rs2 => Sys2Proof.Machine.execDiv ci rd rs1 rs2 s
  | .divu ci rd rs1 rs2 => Sys2Proof.Machine.execDivu ci rd rs1 rs2 s
  | .rem ci rd rs1 rs2 => Sys2Proof.Machine.execRem ci rd rs1 rs2 s
  | .remu ci rd rs1 rs2 => Sys2Proof.Machine.execRemu ci rd rs1 rs2 s
  | .addi ci rd rs1 imm => Sys2Proof.Machine.execAddi ci rd rs1 imm s
  | .clti ci rd rs1 imm => Sys2Proof.Machine.execClti ci rd rs1 imm s
  | .cltiu ci rd rs1 imm => Sys2Proof.Machine.execCltiu ci rd rs1 imm s
  | .andi ci rd rs1 imm => Sys2Proof.Machine.execAndi ci rd rs1 imm s
  | .ori ci rd rs1 imm => Sys2Proof.Machine.execOri ci rd rs1 imm s
  | .xori ci rd rs1 imm => Sys2Proof.Machine.execXori ci rd rs1 imm s
  | .lhi ci rd imm => Sys2Proof.Machine.execLhi ci rd imm s
  | .slli ci rd rs1 k => Sys2Proof.Machine.execSlli ci rd rs1 k s
  | .srli ci rd rs1 k => Sys2Proof.Machine.execSrli ci rd rs1 k s
  | .srai ci rd rs1 k => Sys2Proof.Machine.execSrai ci rd rs1 k s
  | .rori ci rd rs1 k => Sys2Proof.Machine.execRori ci rd rs1 k s
  | .lb ci rd rs1 imm e => Sys2Proof.Machine.execLb ci rd rs1 imm e s
  | .lbu ci rd rs1 imm e => Sys2Proof.Machine.execLbu ci rd rs1 imm e s
  | .lh ci rd rs1 imm e => Sys2Proof.Machine.execLh ci rd rs1 imm e s
  | .lhu ci rd rs1 imm e => Sys2Proof.Machine.execLhu ci rd rs1 imm e s
  | .lw ci rd rs1 imm e => Sys2Proof.Machine.execLw ci rd rs1 imm e s
  | .sb ci rs2 rs1 imm => Sys2Proof.Machine.execSb ci rs2 rs1 imm s
  | .sh ci rs2 rs1 imm => Sys2Proof.Machine.execSh ci rs2 rs1 imm s
  | .sw ci rs2 rs1 imm => Sys2Proof.Machine.execSw ci rs2 rs1 imm s
  | .loadComplete ci c errs => Sys2Proof.Machine.execLoadComplete ci c errs s
  | .ldx ci rd rs1 imm e => Sys2Proof.Machine.execLdx ci rd rs1 imm e s
  | .stx ci rd rs2 rs1 => Sys2Proof.Machine.execStx ci rd rs2 rs1 s
  | .monitorExpiry ci c => Sys2Proof.Machine.execMonitorExpiry ci c s
  | .beq ci rs1 rs2 off => Sys2Proof.Machine.execBeq ci rs1 rs2 off s
  | .bne ci rs1 rs2 off => Sys2Proof.Machine.execBne ci rs1 rs2 off s
  | .blt ci rs1 rs2 off => Sys2Proof.Machine.execBlt ci rs1 rs2 off s
  | .bge ci rs1 rs2 off => Sys2Proof.Machine.execBge ci rs1 rs2 off s
  | .bltu ci rs1 rs2 off => Sys2Proof.Machine.execBltu ci rs1 rs2 off s
  | .bgeu ci rs1 rs2 off => Sys2Proof.Machine.execBgeu ci rs1 rs2 off s
  | .call ci off => Sys2Proof.Machine.execCall ci off s
  | .callr ci rd rs1 imm => Sys2Proof.Machine.execCallr ci rd rs1 imm s
  | .syscall ci arg => Sys2Proof.Machine.execSyscall ci arg s
  | .brk ci arg => Sys2Proof.Machine.execBrk ci arg s
  | .eret ci => Sys2Proof.Machine.execEret ci s
  | .fence ci => Sys2Proof.Machine.execFence ci s
  | .fenceP ci => Sys2Proof.Machine.execFenceP ci s
  | .ifence ci => Sys2Proof.Machine.execIfence ci s
  | .clrx ci => Sys2Proof.Machine.execClrx ci s
  | .sev ci rs1 => Sys2Proof.Machine.execSev ci rs1 s
  | .tlbi ci rs1 => Sys2Proof.Machine.execTlbi ci rs1 s
  | .tlbiAll ci => Sys2Proof.Machine.execTlbiAll ci s
  | .cacheInvalIline ci rs1 => Sys2Proof.Machine.execCacheInvalIline ci rs1 s
  | .cacheCleanDline ci rs1 => Sys2Proof.Machine.execCacheCleanDline ci rs1 s
  | .cacheInvalDline ci rs1 => Sys2Proof.Machine.execCacheInvalDline ci rs1 s
  | .cacheCleanInvalDline ci rs1 => Sys2Proof.Machine.execCacheCleanInvalDline ci rs1 s
  | .cacheInvalIcache ci => Sys2Proof.Machine.execCacheInvalIcache ci s
  | .cacheCleanDcache ci => Sys2Proof.Machine.execCacheCleanDcache ci s
  | .cacheCleanInvalDcache ci => Sys2Proof.Machine.execCacheCleanInvalDcache ci s
  | .csrw ci rd rs1 csr => Sys2Proof.Machine.execCsrw ci rd rs1 csr s
  | .csrs ci rd rs1 csr => Sys2Proof.Machine.execCsrs ci rd rs1 csr s
  | .csrc ci rd rs1 csr => Sys2Proof.Machine.execCsrc ci rd rs1 csr s
  | .wfe ci rd rs1 rs2 drain => Sys2Proof.Machine.execWfe ci rd rs1 rs2 drain s
  | .wfev ci rd ev drain => Sys2Proof.Machine.execWfev ci rd ev drain s
  | .waitWake ci c => Sys2Proof.Machine.execWaitWake ci c s
  | .waitTimeout ci c => Sys2Proof.Machine.execWaitTimeout ci c s
  | .vld ci vd rs1 imm e => Sys2Proof.Machine.execVld ci vd rs1 imm e s
  | .vst ci vs rs1 imm => Sys2Proof.Machine.execVst ci vs rs1 imm s
  | .cld ci rd rs1 imm => Sys2Proof.Machine.execCld ci rd rs1 imm s
  | .cst ci rs2 rs1 imm => Sys2Proof.Machine.execCst ci rs2 rs1 imm s
  | .vcld ci vd rs1 imm => Sys2Proof.Machine.execVcld ci vd rs1 imm s
  | .vcst ci vs rs1 imm => Sys2Proof.Machine.execVcst ci vs rs1 imm s
  | .vadd ci vd vs1 vs2 => Sys2Proof.Machine.execVadd ci vd vs1 vs2 s
  | .vsub ci vd vs1 vs2 => Sys2Proof.Machine.execVsub ci vd vs1 vs2 s
  | .vadds ci vd vs1 vs2 => Sys2Proof.Machine.execVadds ci vd vs1 vs2 s
  | .vsubs ci vd vs1 vs2 => Sys2Proof.Machine.execVsubs ci vd vs1 vs2 s
  | .vmulq ci vd vs1 vs2 => Sys2Proof.Machine.execVmulq ci vd vs1 vs2 s
  | .vmacq ci vd vs1 vs2 => Sys2Proof.Machine.execVmacq ci vd vs1 vs2 s
  | .vand ci vd vs1 vs2 => Sys2Proof.Machine.execVand ci vd vs1 vs2 s
  | .vor ci vd vs1 vs2 => Sys2Proof.Machine.execVor ci vd vs1 vs2 s
  | .vxor ci vd vs1 vs2 => Sys2Proof.Machine.execVxor ci vd vs1 vs2 s
  | .vmin ci vd vs1 vs2 => Sys2Proof.Machine.execVmin ci vd vs1 vs2 s
  | .vmax ci vd vs1 vs2 => Sys2Proof.Machine.execVmax ci vd vs1 vs2 s
  | .vabs ci vd vs1 => Sys2Proof.Machine.execVabs ci vd vs1 s
  | .vsra ci vd vs1 rs2 => Sys2Proof.Machine.execVsra ci vd vs1 rs2 s
  | .vsll ci vd vs1 rs2 => Sys2Proof.Machine.execVsll ci vd vs1 rs2 s
  | .vsrar ci vd vs1 rs2 => Sys2Proof.Machine.execVsrar ci vd vs1 rs2 s
  | .vbcast ci vd rs1 => Sys2Proof.Machine.execVbcast ci vd rs1 s
  | .vext ci rd vs1 l => Sys2Proof.Machine.execVext ci rd vs1 l s
  | .vins ci vd rs1 l => Sys2Proof.Machine.execVins ci vd rs1 l s
  | .vsum ci rd vs1 => Sys2Proof.Machine.execVsum ci rd vs1 s
  | .vdot ci rd vs1 vs2 => Sys2Proof.Machine.execVdot ci rd vs1 vs2 s
  | .vmov ci vd vs1 => Sys2Proof.Machine.execVmov ci vd vs1 s
  | .vcmpgt ci rd vs1 vs2 => Sys2Proof.Machine.execVcmpgt ci rd vs1 vs2 s
  | .interruptEntry ci c => Sys2Proof.Machine.execInterruptEntry ci c s
  | .contextSwitch ci => Sys2Proof.Machine.execContextSwitch ci s
  | .dmaDescriptorDone ci ch => Sys2Proof.Machine.execDmaDescriptorDone ci ch s
  | .wdogExpiry ci => Sys2Proof.Machine.execWdogExpiry ci s
  | .coreFail ci cause => Sys2Proof.Machine.execCoreFail ci cause s
  | .lockstepMismatch => Sys2Proof.Machine.execLockstepMismatch s
  | .memPatrol ci w e => Sys2Proof.Machine.execMemPatrol ci w e s
  | .turretTakeover => Sys2Proof.Machine.execTurretTakeover s
  | .ckptPeriodExpiry ci => Sys2Proof.Machine.execCkptPeriodExpiry ci s
  | .ckptDone ci held => Sys2Proof.Machine.execCkptDone ci held s
  | .take n held => Sys2Proof.Machine.execTake n held s
  | .release n held => Sys2Proof.Machine.execRelease n held s
  | .reload k held => Sys2Proof.Machine.execReload k held s
  | .coreRun ci => Sys2Proof.Machine.execCoreRun ci s
  | .coreHalt ci => Sys2Proof.Machine.execCoreHalt ci s
  | .coreReset ci => Sys2Proof.Machine.execCoreReset ci s
  | .chTrainGo c => Sys2Proof.Machine.execChTrainGo c s
  | .chTrainDone c e => Sys2Proof.Machine.execChTrainDone c e s
  | .dramRefresh c k => Sys2Proof.Machine.execDramRefresh c k s
  | .zqcs c => Sys2Proof.Machine.execZqcs c s
  | .recentre c ok => Sys2Proof.Machine.execRecentre c ok s
  | .caParityError c same => Sys2Proof.Machine.execCaParityError c same s
  | .memoryRequest mid cl a len wr data => Sys2Proof.Machine.execMemoryRequest mid cl a len wr data s
  | .memoryRequestDone c errs => Sys2Proof.Machine.execMemoryRequestDone c errs s
  | .bwrGrant c => Sys2Proof.Machine.execBwrGrant c s
  | .bwrWindow => Sys2Proof.Machine.execBwrWindow s
  | .bwrClientWrite ci v => Sys2Proof.Machine.execBwrClientWrite ci v s
  | .bwrCtrlWrite v => Sys2Proof.Machine.execBwrCtrlWrite v s
  | .scrubRead a e => Sys2Proof.Machine.execScrubRead a e s
  | .channelFailure c cause => Sys2Proof.Machine.execChannelFailure c cause s
  | .retireGo c => Sys2Proof.Machine.execRetireGo c s
  | .splEnable pages => Sys2Proof.Machine.execSplEnable pages s
  | .splTableReady => Sys2Proof.Machine.execSplTableReady s
  | .splDisable => Sys2Proof.Machine.execSplDisable s
  | .sptOwnerScan k => Sys2Proof.Machine.execSptOwnerScan k s
  | .pcieMemRequest f q => Sys2Proof.Machine.execPcieMemRequest f q s
  | .pcieFlr f => Sys2Proof.Machine.execPcieFlr f s
  | .pcieHotReset down => Sys2Proof.Machine.execPcieHotReset down s
  | .msixSend f v => Sys2Proof.Machine.execMsixSend f v s
  | .mdioFrame prt mmd op => Sys2Proof.Machine.execMdioFrame prt mmd op s
  | .mdioWinDone => Sys2Proof.Machine.execMdioWinDone s
  | .mbSend mid c len1 db dbEn => Sys2Proof.Machine.execMbSend mid c len1 db dbEn s
  | .mbReceiveLast mid c => Sys2Proof.Machine.execMbReceiveLast mid c s
  | .mbRreset mid c => Sys2Proof.Machine.execMbRreset mid c s
  | .mbxBindWrite mid c v => Sys2Proof.Machine.execMbxBindWrite mid c v s
  | .xtalStartCheck a b => Sys2Proof.Machine.execXtalStartCheck a b s
  | .xtalLost x => Sys2Proof.Machine.execXtalLost x s
  | .xtalRecover x => Sys2Proof.Machine.execXtalRecover x s
  | .refSwitch sel => Sys2Proof.Machine.execRefSwitch sel s
  | .holdoverExpiry => Sys2Proof.Machine.execHoldoverExpiry s
  | .pllLockLoss p => Sys2Proof.Machine.execPllLockLoss p s
  | .pllLock p => Sys2Proof.Machine.execPllLock p s
  | .familySwitch src ramp rampUs => Sys2Proof.Machine.execFamilySwitch src ramp rampUs s
  | .familySwitchDone => Sys2Proof.Machine.execFamilySwitchDone s
  | .switchForced => Sys2Proof.Machine.execSwitchForced s
  | .rampStep => Sys2Proof.Machine.execRampStep s
  | .gateOn g force tmo => Sys2Proof.Machine.execGateOn g force tmo s
  | .gateOff g force tmo => Sys2Proof.Machine.execGateOff g force tmo s
  | .gateHandshakeAck => Sys2Proof.Machine.execGateHandshakeAck s
  | .gateTimeout => Sys2Proof.Machine.execGateTimeout s
  | .fcGo sel n => Sys2Proof.Machine.execFcGo sel n s
  | .fcWindowEnd cnt => Sys2Proof.Machine.execFcWindowEnd cnt s
  | .pdRequestOn ci tag who => Sys2Proof.Machine.execPdRequestOn ci tag who s
  | .pdRequestRetain ci tag who => Sys2Proof.Machine.execPdRequestRetain ci tag who s
  | .pdRequestOff ci tag who => Sys2Proof.Machine.execPdRequestOff ci tag who s
  | .modeRun tag who => Sys2Proof.Machine.execModeRun tag who s
  | .modeQuiet tag who => Sys2Proof.Machine.execModeQuiet tag who s
  | .modeDepot tag who => Sys2Proof.Machine.execModeDepot tag who s
  | .pwcRequestStart => Sys2Proof.Machine.execPwcRequestStart s
  | .pwcCommit => Sys2Proof.Machine.execPwcCommit s
  | .pdStepReady ci => Sys2Proof.Machine.execPdStepReady ci s
  | .pdReadyTimeout ci => Sys2Proof.Machine.execPdReadyTimeout ci s
  | .wakeNAssert => Sys2Proof.Machine.execWakeNAssert s
  | .depotTimerExpiry => Sys2Proof.Machine.execDepotTimerExpiry s
  | .avsUpdate => Sys2Proof.Machine.execAvsUpdate s
  | .porstAssert => Sys2Proof.Machine.execPorstAssert s
  | .porstRelease dly => Sys2Proof.Machine.execPorstRelease dly s
  | .vddAonLow => Sys2Proof.Machine.execVddAonLow s
  | .calGo port pair => Sys2Proof.Machine.execCalGo port pair s
  | .calConverged => Sys2Proof.Machine.execCalConverged s
  | .calConvTimeout => Sys2Proof.Machine.execCalConvTimeout s
  | .calMeasureDone m => Sys2Proof.Machine.execCalMeasureDone m s
  | .calCheck => Sys2Proof.Machine.execCalCheck s
  | .calSave => Sys2Proof.Machine.execCalSave s
  | .calSaveDone ok => Sys2Proof.Machine.execCalSaveDone ok s
  | .calRecordLoad => Sys2Proof.Machine.execCalRecordLoad s
  | .vrefCheck v r => Sys2Proof.Machine.execVrefCheck v r s
  | .tempConversion ci t => Sys2Proof.Machine.execTempConversion ci t s
  | .voltConversion ci mv => Sys2Proof.Machine.execVoltConversion ci mv s
  | .procConversion j edges => Sys2Proof.Machine.execProcConversion j edges s
  | .overtempTrip ci => Sys2Proof.Machine.execOvertempTrip ci s
  | .faultReport ci data => Sys2Proof.Machine.execFaultReport ci data s
  | .wireFault ci ones => Sys2Proof.Machine.execWireFault ci ones s
  | .repairSpare n => Sys2Proof.Machine.execRepairSpare n s
  | .blockReset b => Sys2Proof.Machine.execBlockReset b s
  | .chipReset => Sys2Proof.Machine.execChipReset s
  | .fltInjArm mode id unit bit => Sys2Proof.Machine.execFltInjArm mode id unit bit s
  | .injectionAct seen data => Sys2Proof.Machine.execInjectionAct seen data s
  | .evjSwgo k => Sys2Proof.Machine.execEvjSwgo k s
  | .evjMirrorWrite => Sys2Proof.Machine.execEvjMirrorWrite s
  | .provision who args => Sys2Proof.Machine.execProvision who args s
  | .bootHost who => Sys2Proof.Machine.execBootHost who s
  | .verify who args => Sys2Proof.Machine.execVerify who args s
  | .svnAdvance who v => Sys2Proof.Machine.execSvnAdvance who v s
  | .fcReserve who => Sys2Proof.Machine.execFcReserve who s
  | .keyLoad who args => Sys2Proof.Machine.execKeyLoad who args s
  | .devKeyGen who => Sys2Proof.Machine.execDevKeyGen who s
  | .dbgNonce who => Sys2Proof.Machine.execDbgNonce who s
  | .dbgNonceExpiry => Sys2Proof.Machine.execDbgNonceExpiry s
  | .dbgOpen who args => Sys2Proof.Machine.execDbgOpen who args s
  | .dbgClose who => Sys2Proof.Machine.execDbgClose who s
  | .bootLock who => Sys2Proof.Machine.execBootLock who s
  | .bootLockTimeout => Sys2Proof.Machine.execBootLockTimeout s
  | .bootImageSearch => Sys2Proof.Machine.execBootImageSearch s
  | .jtagExtest => Sys2Proof.Machine.execJtagExtest s
  | .extestPulse => Sys2Proof.Machine.execExtestPulse s
  | .extestTrain => Sys2Proof.Machine.execExtestTrain s
  | .clamp => Sys2Proof.Machine.execClamp s
  | .highz => Sys2Proof.Machine.execHighz s
  | .tapReset => Sys2Proof.Machine.execTapReset s
  | .senseFlpBurst n => Sys2Proof.Machine.execSenseFlpBurst n s
  | .inpExceeded n => Sys2Proof.Machine.execInpExceeded n s
  | .lpiRefreshExpected n => Sys2Proof.Machine.execLpiRefreshExpected n s
  | .lpiEiEntry n => Sys2Proof.Machine.execLpiEiEntry n s
  | .blockLockGain n => Sys2Proof.Machine.execBlockLockGain n s
  | .blockLockLoss n => Sys2Proof.Machine.execBlockLockLoss n s
  | .hiBerChange n up => Sys2Proof.Machine.execHiBerChange n up s
  | .prbsLockGain n => Sys2Proof.Machine.execPrbsLockGain n s
  | .prbsLockLost n bits errs => Sys2Proof.Machine.execPrbsLockLost n bits errs s
  | .illegalInstruction ci w => Sys2Proof.Machine.execIllegalInstruction ci w s
  | .dramPowerDown c => Sys2Proof.Machine.execDramPowerDown c s
  | .vddAonRestore dly => Sys2Proof.Machine.execVddAonRestore dly s
  | .supplyLoss sup => Sys2Proof.Machine.execSupplyLoss sup s
  | .calPeriodExpiry n x => Sys2Proof.Machine.execCalPeriodExpiry n x s
  | .faultSourceClear ci => Sys2Proof.Machine.execFaultSourceClear ci s
  | .keepCommandDone ok => Sys2Proof.Machine.execKeepCommandDone ok s
  | .pcieLinkUp => Sys2Proof.Machine.execPcieLinkUp s

end Sys2Proof.Machine
end

