-- ==== Sys2Proof/Safety.lean ====
section
/-! DEFINITION. What counts as a safe step of the block, and the terms in which the statements speak: how a command ends, what
a quiet state is, which registers an effect touches, when a core issues. -/

namespace Sys2Proof.Machine

/-- A step that goes on: neither a fault nor a refusal. -/
def Goes (s : State) : Prop := ∃ t, step s = .next t

/-- Command `c` completes on `s`, and its own effect is `u`: the next state is `u` after what every command ends with, the
reactions and interrupt levels that follow (State.settle). -/
def Ends (c : Instr) (s u : State) : Prop := exec c s = .next u.settle

/-- Nothing waits to follow a command but the interrupt levels: no domain has just come ON by itself, no retirement, fault
reaction, injection, gate, calibration or NMI waits, and the Keep's start-up is past the clocks. -/
def Quiet (s : State) : Prop :=
  s.pwc.cameOn = [] ∧ s.cup.retireDue = [] ∧ s.flt.react = [] ∧ s.flt.inj = none ∧ s.ckc.gate = none ∧ s.cal.run = none ∧
    s.cal.leave = [] ∧ s.flt.nmi = false ∧ 3 ≤ s.kep.step

/-- `u` is `s` but for register fields, and of those only the fields `ks` can differ. -/
def OnlyRegs (s u : State) (ks : List Fld) : Prop :=
  u = { s with regs := u.regs } ∧ ∀ f : Fld, f.key ∉ ks.map Fld.key → u.rd f = s.rd f

/-- Context `c` of core `i` issues now, and `u` is the state after it has fetched its instruction without an exception; the
fetch leaves the context itself alone (12_molx_isa.md R437, 13_molx_system.md R442). -/
def Fetched (s u : State) (i : Fin 11) (c : Fin 4) : Prop :=
  s.issuing i = some c ∧ s.fetch i c = (none, u) ∧ u.ctx i c = s.ctx i c

/-- The address of the next instruction in order. -/
def Ctx.pc4 (x : Ctx) : Nat := (x.pc + 4) % 2 ^ 32

/-- `s` with context `c` of core `i` become `x`, and nothing else changed. -/
def ctxPut (s : State) (i : Fin 11) (c : Fin 4) (x : Ctx) : State :=
  { s with core := s.core.set i { s.core[i] with ctx := s.core[i].ctx.set c x } }

/-- `s` after an instruction whose whole effect is gd, which g0 discards, and the PC. -/
def gdPut (s : State) (i : Fin 11) (c : Fin 4) (rd : Fin 32) (v : Word) : State :=
  let x := s.ctx i c
  ctxPut s i c { x with g := if rd = 0 then x.g else x.g.set rd v, pc := x.pc4 }

/-- `s` after an instruction whose whole effect is vd and the PC. -/
def vdPut (s : State) (i : Fin 11) (c : Fin 4) (vd : Fin 8) (v : Vec) : State :=
  let x := s.ctx i c
  ctxPut s i c { x with v := x.v.set vd v, pc := x.pc4 }

/-- A context after exception entry (13_molx_system.md R446). -/
def Ctx.entered (x : Ctx) (code sub event eval : Nat) : Ctx :=
  { x with
    epc := x.pc, pie := x.ie, plv := x.task, ie := false, exl := true, task := false,
    ecause := code + 2 ^ 8 * sub + 2 ^ 12 * event, eval := eval, mon := none, wait := none, load := none, pc := x.evec }

/-- `s` with context `c` of core `i` become `x`, and the core's status register following. -/
def ctxShow (s : State) (i : Fin 11) (c : Fin 4) (x : Ctx) : State := (ctxPut s i c x).syncCore i

/-- The link of port `n` has gone down to a state with a reason (02_port_modes_negotiation.md R52, R53, R64, R66): LAST_DOWN
holds the reason, LINK_DOWN is set, MODE and LDT_RES read 0, and SENSE begins with the break silence. -/
def WentDown (t : State) (n : Fin 8) (st reason : Nat) : Prop :=
  t.link n = st ∧ t.rd (F.LINK_STATUS.LAST_DOWN n) = reason ∧ t.on (F.LINK_EVENT.LINK_DOWN n) = true ∧
    t.rd (F.LINK_STATUS.MODE n) = 0 ∧ t.rd (F.LINK_STATUS.LDT_RES n) = 0 ∧
    t.port[n].neg.breakSilence = decide (st = stSENSE)

/-- The image of slot `k` is in core `i`'s IMEM, and the state is then `v` (13_molx_system.md R464, R467): the core holds it
already, or the loader reads its bytes without error. -/
def ImageIn (s : State) (i : Fin 11) (k : Nat) (v : State) : Prop :=
  (s.core[i].img = some (s.imgId k) ∧ v = s) ∨
  (s.core[i].img ≠ some (s.imgId k) ∧ ∃ bs u,
    s.memRead 4 (loaderClient k) (4096 * s.rd (F.SLOT_IMG_BASE.IMG_BASE k)) 0x20000 = (bs, .ok, u) ∧
    v = { u with core := u.core.set i { u.core[i] with
      imem := Mem.ofBytes 0 bs, img := some (s.imgId k), flaws := u.core[i].flaws.filter fun w => decide (0x8000 ≤ w) } })

/-- Core `i` starts without a checkpoint, and the state is then `v` (13_molx_system.md R465). -/
def Fresh (s : State) (i : Fin 11) (v : State) : Prop :=
  v = (s.modCore i fun k => { k with tcm := [] }).freshStart i

/-- Core `i` resumes from the bytes `bs` of a checkpoint, and the state is then `v` (13_molx_system.md R464, R465). -/
def Resumed (s : State) (i : Fin 11) (sub : Nat) (bs : List Byte) (v : State) : Prop :=
  ∃ tb, v = (s.setCore i fun k => { k.restore bs sub with wdogTb := tb }).wrB (F.CORE_CTRL.RUN i.val) true

/-- The loader gives core `i` the image and the checkpoint of slot `k`, no read of its ending in an error, and the state is then
`v` (13_molx_system.md R464, R465, R467): a checkpoint whose CRC-32 fails counts as none. -/
def Loads (s : State) (i : Fin 11) (k sub : Nat) (v : State) : Prop :=
  ∃ u, ImageIn s i k u ∧
    ((u.ckptLatest k = none ∧ Fresh u i v) ∨
      ∃ b bs w, u.ckptLatest k = some b ∧
        u.memRead 4 (loaderClient k) (u.ckptAddr k b) (4096 + u.ckptTcm k) = (bs, .ok, w) ∧
        let sound := natLE ((bs.drop 0xFFC).take 4) = byteCrc (bs.take 0xFFC ++ bs.drop 4096)
        ((sound ∧ v = (w.setCore i fun k => { k.restore bs sub with wdogTb := s.tb }).wrB (F.CORE_CTRL.RUN i.val) true) ∨
          (¬ sound ∧ Fresh w i v)))

/-- The interrupt levels stand as the sources give them: HIF_INT_SRC, INT_N, the levels that MSI-X and the Lantern's doorbell
follow (15_host_access_mailboxes.md R547, R555, R556, R567). -/
def LevelsFollow (s : State) : Prop :=
  s.rd F.HIF_INT_SRC.SRC = s.intLevels ∧
  s.on F.HIF_INT_SRC.DB_PF0 = (s.dbLevels 4 != 0) ∧
  s.on F.HIF_INT_SRC.DB_PF1 = (s.dbLevels 5 != 0) ∧
  s.on F.HIF_INT_SRC.DB_MDIO = (s.dbLevels 6 != 0) ∧
  s.on F.HIF_INT_SRC.ERR = s.on F.HIF_ERR_INFO.VALID ∧
  s.hif.intN = ((s.word [F.HIF_INT_SRC.SRC, F.HIF_INT_SRC.DB_PF0, F.HIF_INT_SRC.DB_PF1, F.HIF_INT_SRC.DB_MDIO,
    F.HIF_INT_SRC.ERR] &&& s.rd F.HIF_INTN_MASK.INTN_EN) != 0) ∧
  s.hif.rung = ringLevels s.intLevels ∧
  ∀ f : Fin 2, s.hif.fn[f].level = s.pfLevels s.intLevels f

end Sys2Proof.Machine
end

