-- ==== Sys2Proof/WellFormed.lean ====
section
/-! DEFINITION. Well-formed commands: operands that are plain numbers lie in the ranges that the fields they stand for
have. -/

namespace Sys2Proof

open Sys2Proof.Machine

/-- An identity, an offset with its view, a width of R532 or R533. -/
def accessOk (mid ofs len : Nat) : Bool :=
  decide (mid < 64) && decide (ofs < 2 ^ 28) && (len == 1 || len == 2 || len == 4 || len == 8)

/-- The base offset of a page. -/
def pageOk (page : Nat) : Bool := decide (page < 2 ^ 26) && page % 4096 == 0

/-- Pairs of a diagnostic run, a mask of four bits. -/
def pairsOk (pairs : Nat) : Bool := decide (pairs < 16)

/-- A power domain, and the identity and tag of a request (17_power.md R612). -/
def domReqOk (i tag who : Nat) : Bool := decide (i < 256) && decide (tag < 256) && decide (who < 64)

/-- A Keep command: the caller's identity and the words of KEP_ARG (20_keep_startup.md R703). -/
def keepOk (who : Nat) (args : List Nat) : Bool :=
  decide (who < 64) && decide (args.length ≤ 32) && args.all fun a => decide (a < 2 ^ 32)

/-- The command's operands are in range. -/
def Instr.wf (c : Instr) : Bool :=
  match c with
  | .registerWrite mid ofs len data => accessOk mid ofs len && decide (data < 2 ^ (8 * len))
  | .postedWriteDelivery page => pageOk page
  | .postedWriteDiscard page _ => pageOk page
  | .rclRead mid ofs len => accessOk mid ofs len
  | .counterLowRead mid ofs len => accessOk mid ofs len
  | .registerReadTimeout mid ofs len => accessOk mid ofs len
  | .expectEnforceWrite _ node prt => decide (node < 64) && decide (prt < 8)
  | .pgaGainWrite _ _ gain => decide (gain < 64)
  | .lreqGo _ rung load => decide (rung < 32) && decide (load < 64)
  | .spillRsvWrite _ rsv mx => decide (rsv < 2 ^ 16) && decide (mx < 2 ^ 16)
  | .ingressBlock _ sync pay _ _ => decide (sync < 4) && decide (pay < 2 ^ 64)
  | .diagTdr _ pairs _ avg len => pairsOk pairs && decide (avg < 16) && decide (len < 16)
  | .diagSnapshot _ pairs _ => pairsOk pairs
  | .diagLoss _ pairs => pairsOk pairs
  | .diagWear _ pairs => pairsOk pairs
  | .rngGo _ v => decide (v < 2 ^ 32)
  | .loadComplete _ _ errs => decide (errs.length ≤ 2)
  | .coreFail i cause => decide (1 ≤ cause) && (decide (cause ≤ 5) || (cause == 6 && i == 10))
  | .memPatrol _ w _ => decide (w < 0x10000)
  | .csrw _ _ _ csr => csrAssigned csr.toNat
  | .csrs _ _ _ csr => csrAssigned csr.toNat
  | .csrc _ _ _ csr => csrAssigned csr.toNat
  | .illegalInstruction _ w => !molxLegal w.toNat
  | .memoryRequest mid cl a len _ data =>
    decide (mid < 64) && decide (cl < 32) && decide (a + len ≤ 2 ^ 40) && data.all fun b => decide (b < 256)
  | .memoryRequestDone _ errs => decide (errs.length ≤ 4)
  | .bwrClientWrite _ v => decide (v < 2 ^ 32)
  | .bwrCtrlWrite v => decide (v < 2 ^ 32)
  | .channelFailure _ cause => cause == 1 || cause == 2 || cause == 3 || cause == 6
  | .splEnable pages => decide (pages < 2 ^ 18)
  | .mdioFrame prt mmd _ => decide (prt < 32) && decide (mmd < 32)
  | .mbSend mid _ _ _ _ => decide (mid < 64)
  | .mbReceiveLast mid _ => decide (mid < 64)
  | .mbRreset mid _ => decide (mid < 64)
  | .mbxBindWrite mid _ v => decide (mid < 64) && decide (v < 2 ^ 32)
  | .gateOn g _ tmo => decide (g < 32) && decide (tmo < 256)
  | .gateOff g _ tmo => decide (g < 32) && decide (tmo < 256)
  | .fcGo sel n => decide (sel < 64) && decide (n < 2 ^ 16)
  | .pdRequestOn i tag who => domReqOk i tag who
  | .pdRequestRetain i tag who => domReqOk i tag who
  | .pdRequestOff i tag who => domReqOk i tag who
  | .modeRun tag who => domReqOk 0 tag who
  | .modeQuiet tag who => domReqOk 0 tag who
  | .modeDepot tag who => domReqOk 0 tag who
  | .pdStepReady i => decide (i < 142)
  | .pdReadyTimeout i => decide (i < 142)
  | .calGo _ pair => decide (pair < 8)
  | .faultReport i _ => decide (i < 1024)
  | .wireFault i _ => decide (i < 1024)
  | .faultSourceClear i => decide (i < 1024)
  | .provision who args => keepOk who args
  | .bootHost who => keepOk who []
  | .verify who args => keepOk who args
  | .svnAdvance who v => keepOk who [v]
  | .fcReserve who => keepOk who []
  | .keyLoad who args => keepOk who args
  | .devKeyGen who => keepOk who []
  | .dbgNonce who => keepOk who []
  | .dbgOpen who args => keepOk who args
  | .dbgClose who => keepOk who []
  | .bootLock who => keepOk who []
  | .fltInjArm mode id unit bit =>
    decide (mode < 4) && decide (id < 1024) && decide (unit < 2048) && decide (bit < 64)
  | _ => true

end Sys2Proof
end

