-- ==== Sys2Proof/Certificates/Slice0/Obligations.lean ====
section
/-! DEFINITION. The statements about the block that the provers take on. -/

open Sys2Proof Sys2Proof.Machine

/-! ### The block as a whole -/

/-- A step with command `c` at the front of the queue is exec of `c` with the queue's rest. -/
def Obligations.StepRunsFrontCommand : Prop :=
  ∀ (c : Instr) (s : State), step { s with pending := c :: s.pending } = exec c s

/-! ### MOLX: fetch, registers, scalar instructions -/

/-- A core whose current context can complete an instruction fetches it from IMEM without effect on the state; a flawed word
of IMEM, a TCM address, and level T without the MMU outside the local window end in ECC, IPF PERM and IPF NOMMU
(12_molx_isa.md R437, 13_molx_system.md R442, R443, R452, R453). -/
def Obligations.FetchFromLocalWindow : Prop :=
  ∀ (s : State) (i : Fin 11) (c : Fin 4), s.issuing i = some c →
    let pc := (s.ctx i c).pc
    (pc < 0x20000 → s.core[i].localBad pc 4 = false → Fetched s s i c) ∧
    (pc < 0x20000 → s.core[i].localBad pc 4 = true → s.fetch i c = (some (0x0E, 0), s)) ∧
    (0x20000 ≤ pc → pc < 0x40000 → s.fetch i c = (some (0x02, 3), s)) ∧
    (0x40000 ≤ pc → (s.ctx i c).mmuEn = false → (s.ctx i c).task = true → s.fetch i c = (some (0x02, 6), s))

/-- R420, the instructions of the OP group without flags: gd, which g0 discards, and the PC are all that changes. -/
def Obligations.ScalarResults : Prop :=
  ∀ (s u : State) (i : Fin 11) (c : Fin 4) (rd rs1 rs2 : Fin 32), Fetched s u i c →
    let a := (u.ctx i c).rg rs1
    let b := (u.ctx i c).rg rs2
    let k := b.toNat % 32
    Ends (.add i rd rs1 rs2) s (gdPut u i c rd (BitVec.ofNat 32 (a.toNat + b.toNat))) ∧
    Ends (.sub i rd rs1 rs2) s (gdPut u i c rd (BitVec.ofInt 32 (a.toInt - b.toInt))) ∧
    Ends (.and i rd rs1 rs2) s (gdPut u i c rd (a &&& b)) ∧
    Ends (.or i rd rs1 rs2) s (gdPut u i c rd (a ||| b)) ∧
    Ends (.xor i rd rs1 rs2) s (gdPut u i c rd (a ^^^ b)) ∧
    Ends (.andn i rd rs1 rs2) s (gdPut u i c rd (a &&& ~~~b)) ∧
    Ends (.sll i rd rs1 rs2) s (gdPut u i c rd (BitVec.ofNat 32 (a.toNat * 2 ^ k))) ∧
    Ends (.srl i rd rs1 rs2) s (gdPut u i c rd (BitVec.ofNat 32 (a.toNat / 2 ^ k))) ∧
    Ends (.sra i rd rs1 rs2) s (gdPut u i c rd (BitVec.ofInt 32 (a.toInt / 2 ^ k))) ∧
    Ends (.ror i rd rs1 rs2) s
      (gdPut u i c rd (BitVec.ofNat 32 (a.toNat / 2 ^ k + a.toNat % 2 ^ k * 2 ^ (32 - k)))) ∧
    Ends (.clt i rd rs1 rs2) s (gdPut u i c rd (if a.toInt < b.toInt then 1 else 0)) ∧
    Ends (.cltu i rd rs1 rs2) s (gdPut u i c rd (if a.toNat < b.toNat then 1 else 0)) ∧
    Ends (.min i rd rs1 rs2) s (gdPut u i c rd (BitVec.ofInt 32 (min a.toInt b.toInt))) ∧
    Ends (.max i rd rs1 rs2) s (gdPut u i c rd (BitVec.ofInt 32 (max a.toInt b.toInt))) ∧
    Ends (.minu i rd rs1 rs2) s (gdPut u i c rd (BitVec.ofNat 32 (min a.toNat b.toNat))) ∧
    Ends (.maxu i rd rs1 rs2) s (gdPut u i c rd (BitVec.ofNat 32 (max a.toNat b.toNat))) ∧
    Ends (.mul i rd rs1 rs2) s (gdPut u i c rd (BitVec.ofNat 32 (a.toNat * b.toNat))) ∧
    Ends (.mulh i rd rs1 rs2) s (gdPut u i c rd (BitVec.ofInt 32 (a.toInt * b.toInt / 2 ^ 32))) ∧
    Ends (.mulhu i rd rs1 rs2) s (gdPut u i c rd (BitVec.ofNat 32 (a.toNat * b.toNat / 2 ^ 32))) ∧
    ∃ n : Nat, Ends (.clz i rd rs1) s (gdPut u i c rd (BitVec.ofNat 32 n)) ∧ n ≤ 32 ∧
      (∀ j < n, a.getMsbD j = false) ∧ (n < 32 → a.getMsbD n = true)

/-- R420, the instructions that set SSAT or DZ: gd, the flags, which no instruction clears, and the PC are all that
changes. -/
def Obligations.SaturationAndDivision : Prop :=
  ∀ (s u : State) (i : Fin 11) (c : Fin 4) (rd rs1 rs2 : Fin 32), Fetched s u i c →
    let x := u.ctx i c
    let a := x.rg rs1
    let b := x.rg rs2
    let put (v : Word) (sat dz : Bool) : State :=
      ctxPut u i c { x with
        g := if rd = 0 then x.g else x.g.set rd v, ssat := x.ssat || sat, dz := x.dz || dz, pc := x.pc4 }
    let clamp (z : Int) : Int := max (-2 ^ 31) (min (2 ^ 31 - 1) z)
    let edge := decide (a.toInt = -2 ^ 31 ∧ b.toInt = -1)
    let zero := decide (b.toNat = 0)
    let quot : Int :=
      if b.toNat = 0 then (if 0 ≤ a.toInt then 2 ^ 31 - 1 else -2 ^ 31)
      else if edge then 2 ^ 31 - 1
      else a.toInt.tdiv b.toInt
    Ends (.adds i rd rs1 rs2) s
      (put (BitVec.ofInt 32 (clamp (a.toInt + b.toInt))) (decide (clamp (a.toInt + b.toInt) ≠ a.toInt + b.toInt)) false) ∧
    Ends (.subs i rd rs1 rs2) s
      (put (BitVec.ofInt 32 (clamp (a.toInt - b.toInt))) (decide (clamp (a.toInt - b.toInt) ≠ a.toInt - b.toInt)) false) ∧
    Ends (.div i rd rs1 rs2) s (put (BitVec.ofInt 32 quot) edge zero) ∧
    Ends (.divu i rd rs1 rs2) s
      (put (if b.toNat = 0 then (if a.toNat = 0 then 0 else 0xFFFFFFFF) else BitVec.ofNat 32 (a.toNat / b.toNat)) false
        zero) ∧
    Ends (.rem i rd rs1 rs2) s (put (if zero || edge then 0 else BitVec.ofInt 32 (a.toInt.tmod b.toInt)) false zero) ∧
    Ends (.remu i rd rs1 rs2) s
      (put (if b.toNat = 0 then 0 else BitVec.ofNat 32 (a.toNat % b.toNat)) false zero)

/-- R417 and R420, the immediate forms. -/
def Obligations.ImmediateResults : Prop :=
  ∀ (s u : State) (i : Fin 11) (c : Fin 4) (rd rs1 k : Fin 32) (imm : Half), Fetched s u i c →
    let a := (u.ctx i c).rg rs1
    let z := BitVec.ofNat 32 imm.toNat
    let sx := BitVec.ofInt 32 imm.toInt
    Ends (.addi i rd rs1 imm) s (gdPut u i c rd (BitVec.ofInt 32 (a.toInt + imm.toInt))) ∧
    Ends (.clti i rd rs1 imm) s (gdPut u i c rd (if a.toInt < imm.toInt then 1 else 0)) ∧
    Ends (.cltiu i rd rs1 imm) s (gdPut u i c rd (if a.toNat < sx.toNat then 1 else 0)) ∧
    Ends (.andi i rd rs1 imm) s (gdPut u i c rd (a &&& z)) ∧
    Ends (.ori i rd rs1 imm) s (gdPut u i c rd (a ||| z)) ∧
    Ends (.xori i rd rs1 imm) s (gdPut u i c rd (a ^^^ z)) ∧
    Ends (.lhi i rd imm) s (gdPut u i c rd (BitVec.ofNat 32 (imm.toNat * 2 ^ 16))) ∧
    Ends (.slli i rd rs1 k) s (gdPut u i c rd (BitVec.ofNat 32 (a.toNat * 2 ^ k.val))) ∧
    Ends (.srli i rd rs1 k) s (gdPut u i c rd (BitVec.ofNat 32 (a.toNat / 2 ^ k.val))) ∧
    Ends (.srai i rd rs1 k) s (gdPut u i c rd (BitVec.ofInt 32 (a.toInt / 2 ^ k.val))) ∧
    Ends (.rori i rd rs1 k) s
      (gdPut u i c rd (BitVec.ofNat 32 (a.toNat / 2 ^ k.val + a.toNat % 2 ^ k.val * 2 ^ (32 - k.val))))

/-- Branches and CALL (12_molx_isa.md R423): PC is the address of the instruction itself; CALL writes g31 and nothing else
but the PC. -/
def Obligations.BranchesAndCalls : Prop :=
  ∀ (s u : State) (i : Fin 11) (c : Fin 4) (rd rs1 rs2 : Fin 32) (off imm : Half) (far : BitVec 26), Fetched s u i c →
    let x := u.ctx i c
    let a := x.rg rs1
    let b := x.rg rs2
    let go (taken : Prop) [Decidable taken] : State :=
      ctxPut u i c { x with pc := if taken then (BitVec.ofInt 32 (x.pc + 4 * off.toInt)).toNat else x.pc4 }
    let t := BitVec.ofInt 32 (a.toInt + imm.toInt)
    Ends (.beq i rs1 rs2 off) s (go (a = b)) ∧
    Ends (.bne i rs1 rs2 off) s (go (a ≠ b)) ∧
    Ends (.blt i rs1 rs2 off) s (go (a.toInt < b.toInt)) ∧
    Ends (.bge i rs1 rs2 off) s (go (b.toInt ≤ a.toInt)) ∧
    Ends (.bltu i rs1 rs2 off) s (go (a.toNat < b.toNat)) ∧
    Ends (.bgeu i rs1 rs2 off) s (go (b.toNat ≤ a.toNat)) ∧
    Ends (.call i far) s
      (ctxPut u i c { x with
        g := x.g.set 31 (BitVec.ofNat 32 (x.pc + 4)), pc := (BitVec.ofInt 32 (x.pc + 4 * far.toInt)).toNat }) ∧
    (t.toNat % 4 = 0 →
      Ends (.callr i rd rs1 imm) s
        (ctxPut u i c { x with
          g := if rd = 0 then x.g else x.g.set rd (BitVec.ofNat 32 (x.pc + 4)), pc := t.toNat })) ∧
    (t.toNat % 4 ≠ 0 → x.exl = false →
      Ends (.callr i rd rs1 imm) s (ctxShow u i c (x.entered 0x01 0 0 t.toNat)))

/-- Exceptions and the return from one: SYSCALL and BREAK enter with ARG in EVAL and do not advance EPC; ERET restores level
and IE and clears the monitor; a misaligned EPC raises IALIGN (13_molx_system.md R446, R447). -/
def Obligations.ExceptionEntryAndReturn : Prop :=
  ∀ (s u : State) (i : Fin 11) (c : Fin 4) (arg : Fin 32), Fetched s u i c →
    let x := u.ctx i c
    (x.exl = false → Ends (.syscall i arg) s (ctxShow u i c (x.entered 0x0C 0 0 arg.val))) ∧
    (x.exl = false → Ends (.brk i arg) s (ctxShow u i c (x.entered 0x0D 0 0 arg.val))) ∧
    (x.exl = true → Ends (.syscall i arg) s (u.coreFail i 3) ∧ Ends (.brk i arg) s (u.coreFail i 3)) ∧
    (x.epc % 4 = 0 → x.task = false →
      Ends (.eret i) s (ctxPut u i c { x with pc := x.epc, task := x.plv, ie := x.pie, exl := false, mon := none })) ∧
    (x.epc % 4 ≠ 0 → x.exl = false → Ends (.eret i) s (ctxShow u i c (x.entered 0x01 0 0 x.epc)))

/-! ### MOLX: barriers, the TLB and the caches, CSRs, waits -/

/-- FENCE, IFENCE, CLRX, FENCE.P and SEV (12_molx_isa.md R421, R426, R436). FENCE.P leaves no posted write of its context
held; where a write that takes effect does not reset the core, the context goes on. -/
def Obligations.BarriersAndEventFlag : Prop :=
  ∀ (s u : State) (i : Fin 11) (c : Fin 4) (rs1 : Fin 32), Fetched s u i c →
    let x := u.ctx i c
    let on := ctxPut u i c { x with pc := x.pc4 }
    let v := u.drainCtx (u.coreMid i) c.val
    let t := ctx4 (x.rg rs1).toNat
    let w := ctxPut u i t { u.ctx i t with flag := true }
    Ends (.fence i) s on ∧
    Ends (.ifence i) s on ∧
    Ends (.clrx i) s (ctxPut u i c { x with mon := none, pc := x.pc4 }) ∧
    (v.ctx i c = x → Ends (.fenceP i) s (ctxPut v i c { x with pc := x.pc4 })) ∧
    ((∀ q ∈ u.hif.queue, ∀ h ∈ q.2, ¬(h.mid = u.coreMid i ∧ h.tag = c.val)) → Ends (.fenceP i) s on) ∧
    t.val = (x.rg rs1).toNat % 4 ∧
    Ends (.sev i rs1) s (ctxPut w i c { w.ctx i c with pc := (w.ctx i c).pc4 })

/-- The operations of level S raise PRIV in level T, with an EVAL that the spec leaves open (12_molx_isa.md R421, R429,
log entry 1). -/
def Obligations.LevelTaskRaisesPriv : Prop :=
  ∀ (s u : State) (i : Fin 11) (c : Fin 4) (rs1 rd : Fin 32) (csr : BitVec 12), Fetched s u i c →
    let x := u.ctx i c
    x.task = true → x.exl = false →
    ∃ v < 2 ^ 32,
      let t := ctxShow { u with freeCtr := u.freeCtr + 1 } i c (x.entered 0x05 0 0 v)
      (x.epc % 4 = 0 → Ends (.eret i) s t) ∧
      Ends (.tlbi i rs1) s t ∧
      Ends (.tlbiAll i) s t ∧
      Ends (.cacheInvalDline i rs1) s t ∧
      Ends (.cacheInvalIcache i) s t ∧
      Ends (.cacheCleanDcache i) s t ∧
      Ends (.cacheCleanInvalDcache i) s t ∧
      (0x100 ≤ csr.toNat → (u.csrRead i c csr.toNat).isSome → Ends (.csrs i rd 0 csr) s t ∧ Ends (.csrc i rd 0 csr) s t) ∧
      (0x100 ≤ csr.toNat → (u.csrRead i c csr.toNat).isSome → csrRO csr.toNat = false →
        Ends (.csrw i rd rs1 csr) s t)

/-- TLBI in level S: entries of the page whose ASID is the context's or that are global, or all of them
(13_molx_system.md R454). -/
def Obligations.TlbInvalidation : Prop :=
  ∀ (s u : State) (i : Fin 11) (c : Fin 4) (rs1 : Fin 32), Fetched s u i c →
    let x := u.ctx i c
    let page := (x.rg rs1).toNat / 4096
    let with' (l : List TlbEntry) : State :=
      { u with core := u.core.set i { u.core[i] with
        tlb := l, ctx := u.core[i].ctx.set c { x with pc := x.pc4 } } }
    x.task = false →
    Ends (.tlbi i rs1) s
      (with' (u.core[i].tlb.filter fun (e : TlbEntry) => !(decide (e.vpn = page) && (decide (e.asid = x.asid) || e.glob)))) ∧
    Ends (.tlbiAll i) s (with' [])

/-- The cache operations (12_molx_isa.md R421). `pa` is where the line's address translates to; a dirty line whose write-back
succeeds is clean afterwards. The whole-cache operations and the D-line invalidation need level S. -/
def Obligations.CacheOperations : Prop :=
  ∀ (s u w : State) (i : Fin 11) (c : Fin 4) (rs1 : Fin 32) (pa : Nat) (ca : Bool), Fetched s u i c →
    u.translate i (u.ctx i c).space .load ((u.ctx i c).rg rs1).toNat = (.phys pa ca, w) →
    let l := pa / 32
    let next (v : State) : State := ctxPut v i c { v.ctx i c with pc := (v.ctx i c).pc4 }
    let dset (v : State) (d : Sparse Line) : State := { v with core := v.core.set i { v.core[i] with dcache := d } }
    Ends (.cacheInvalIline i rs1) s
      (next { w with core := w.core.set i { w.core[i] with icache := w.core[i].icache.filter (· ≠ l) } }) ∧
    ((∀ d, spFind w.core[i].dcache l = some d → d.dirty = false) → Ends (.cacheCleanDline i rs1) s (next w)) ∧
    ((∀ d, spFind w.core[i].dcache l = some d → d.dirty = false) →
      Ends (.cacheCleanInvalDline i rs1) s (next (dset w (spDel w.core[i].dcache l)))) ∧
    (∀ d v, spFind w.core[i].dcache l = some d → d.dirty = true →
      w.memWrite (w.coreMid i) (w.coreClient i) (32 * l) d.data = (.ok, v) →
      Ends (.cacheCleanDline i rs1) s (next (dset v (spPut v.core[i].dcache l { d with dirty := false })))) ∧
    ((u.ctx i c).task = false → Ends (.cacheInvalDline i rs1) s (next (dset w (spDel w.core[i].dcache l)))) ∧
    ((u.ctx i c).task = false →
      Ends (.cacheInvalIcache i) s (next { u with core := u.core.set i { u.core[i] with icache := [] } })) ∧
    ((u.ctx i c).task = false → (∀ e ∈ u.core[i].dcache, e.2.dirty = false) →
      Ends (.cacheCleanDcache i) s (next u) ∧ Ends (.cacheCleanInvalDcache i) s (next (dset u [])))

/-- The CSR instructions (12_molx_isa.md R429, 13_molx_system.md R445): gd takes the old value; CSRW writes gs1, CSRS sets
and CSRC clears its bits, and with rs1 = g0 these two write nothing. Every CSR that can be written, with the bits that it
keeps. CSRs that are read only, and numbers that name none (12_molx_isa.md R416): CSRS and CSRC with rs1 = g0 read; a read of TB_LO
latches TB_HI; every other use of a read-only CSR, or of a number that names none, raises ILLEGAL. -/
def Obligations.CsrReadAndWrite : Prop :=
  ∀ (s u : State) (i : Fin 11) (c : Fin 4) (rd rs1 : Fin 32), Fetched s u i c →
    let x := u.ctx i c
    let k := u.core[i]
    let g := x.rg rs1
    let acc (n : BitVec 12) (old : Nat) (put : Ctx → Nat → Ctx) : Prop :=
      let o := BitVec.ofNat 32 old
      let y : Ctx := { x with g := if rd = 0 then x.g else x.g.set rd o, pc := x.pc4 }
      Ends (.csrw i rd rs1 n) s (ctxPut u i c (put y g.toNat)) ∧
      Ends (.csrs i rd rs1 n) s (ctxPut u i c (if rs1 = 0 then y else put y (o ||| g).toNat)) ∧
      Ends (.csrc i rd rs1 n) s (ctxPut u i c (if rs1 = 0 then y else put y (o &&& ~~~g).toNat))
    let ro (n : BitVec 12) (v hi : Nat) : Prop :=
      let t := ctxPut u i c { x with
        g := if rd = 0 then x.g else x.g.set rd (BitVec.ofNat 32 v), tbHi := hi, pc := x.pc4 }
      Ends (.csrs i rd 0 n) s t ∧ Ends (.csrc i rd 0 n) s t
    let port : Nat := if i.val < 8 then 1 else if (k.serving).isSome then 1 else 0
    acc 0x000 (b2n x.vsat + 2 * b2n x.ssat + 4 * b2n x.dz)
      (fun y v => { y with vsat := bitB v 0, ssat := bitB v 1, dz := bitB v 2 }) ∧
    acc 0x001 x.waitLimit (fun y v => { y with waitLimit := v % 2 ^ 16 }) ∧
    acc 0x012 x.tcmpLo (fun y v => { y with tcmpLo := v }) ∧
    acc 0x013 (x.tcmp / 2 ^ 32) (fun y v => { y with tcmp := v * 2 ^ 32 + y.tcmpLo }) ∧
    (x.task = false →
      acc 0x100 x.evec (fun y v => { y with evec := v - v % 4 }) ∧
      acc 0x101 (b2n x.ie + 2 * b2n x.pie + 4 * b2n x.plv + 8 * b2n x.exl + 16 * b2n x.tkx)
        (fun y v => { y with ie := bitB v 0, pie := bitB v 1, plv := bitB v 2, exl := bitB v 3, tkx := bitB v 4 }) ∧
      acc 0x102 x.epc (fun y v => { y with epc := v }) ∧
      acc 0x105 x.escratch (fun y v => { y with escratch := v }) ∧
      acc 0x106 (x.imask % 2 ^ 32) (fun y v => { y with imask := y.imask / 2 ^ 32 * 2 ^ 32 + v }) ∧
      acc 0x107 (x.imask / 2 ^ 32) (fun y v => { y with imask := v * 2 ^ 32 + y.imask % 2 ^ 32 }) ∧
      acc 0x110 x.ptbr (fun y v => { y with ptbr := v - v % 64 }) ∧
      acc 0x111 (b2n x.mmuEn * 2 ^ 31 + x.asid) (fun y v => { y with mmuEn := bitB v 31, asid := v % 256 }) ∧
      acc 0x118 x.prio (fun y v => { y with prio := v % 8 }) ∧
      (let y : Ctx := { x with g := if rd = 0 then x.g else x.g.set rd (BitVec.ofNat 32 k.ctxEntry), pc := x.pc4 }
       Ends (.csrw i rd rs1 0x121) s
          { u with core := u.core.set i { k with ctxEntry := g.toNat, ctx := k.ctx.set c y } }) ∧
      (let y : Ctx := { x with g := if rd = 0 then x.g else x.g.set rd (BitVec.ofNat 32 k.wdog), pc := x.pc4 }
       Ends (.csrw i rd rs1 0x130) s
          { u with core := u.core.set i { k with
            wdog := g.toNat % 2 ^ 16, wdogTb := u.tb, ctx := k.ctx.set c y } })) ∧
    ro 0x002 c.val x.tbHi ∧
    ro 0x003 (u.coreMid i) x.tbHi ∧
    ro 0x004 (port + (if i.val = 10 then 2 else 0)) x.tbHi ∧
    ro 0x010 (u.tb % 2 ^ 32) (u.tb / 2 ^ 32) ∧
    ro 0x011 x.tbHi x.tbHi ∧
    (x.task = false → ro 0x103 x.ecause x.tbHi ∧ ro 0x104 x.eval x.tbHi ∧ ro 0x122 k.ctxWord x.tbHi) ∧
    (x.exl = false → rs1 ≠ 0 →
      ∃ v < 2 ^ 32, ∀ n ∈ [(0x002 : BitVec 12), 0x003, 0x004, 0x010, 0x011, 0x103, 0x104, 0x122, 0x148, 0x149, 0x14A, 0x14B],
        let t := ctxShow { u with freeCtr := u.freeCtr + 1 } i c (x.entered 0x04 0 0 v)
        Ends (.csrw i rd rs1 n) s t ∧ Ends (.csrs i rd rs1 n) s t ∧ Ends (.csrc i rd rs1 n) s t) ∧
    (x.exl = false →
      ∃ v < 2 ^ 32, ∀ n ∈ [(0x005 : BitVec 12), 0x00F, 0x014, 0x0FF, 0x108, 0x10F, 0x112, 0x119, 0x123, 0x132, 0x14C, 0xFFF],
        let t := ctxShow { u with freeCtr := u.freeCtr + 1 } i c (x.entered 0x04 0 0 v)
        Ends (.csrw i rd rs1 n) s t ∧ Ends (.csrs i rd rs1 n) s t ∧ Ends (.csrc i rd rs1 n) s t)

/-- The waits (12_molx_isa.md R434, R436): the lowest pending event of the mask retires the wait, 64 where the mask is empty
or WAIT_LIMIT runs out, and event 50 clears the flag; else the context waits. -/
def Obligations.WaitsRetireOrWait : Prop :=
  ∀ (s u : State) (i : Fin 11) (c : Fin 4) (rd rs1 rs2 : Fin 32) (ev : Fin 64),
    let retired (v : State) (r : Fin 32) (k : Nat) : State :=
      let x := v.ctx i c
      ctxShow v i c { x with
        wait := none, flag := x.flag && k != 50, g := if r = 0 then x.g else x.g.set r (BitVec.ofNat 32 k), pc := x.pc4 }
    let first (v : State) (m k : Nat) : Prop :=
      k < 51 ∧ bitB m k = true ∧ v.eventPend i c k = true ∧ ∀ j < k, ¬(bitB m j = true ∧ v.eventPend i c j = true)
    let never (v : State) (m : Nat) : Prop := ∀ j < 51, ¬(bitB m j = true ∧ v.eventPend i c j = true)
    (Fetched s u i c →
      let x := u.ctx i c
      let m := (x.rg rs1).toNat + 2 ^ 32 * (x.rg rs2).toNat
      (m = 0 → Ends (.wfe i rd rs1 rs2 false) s (retired u rd 64)) ∧
      (∀ k, first u m k → Ends (.wfe i rd rs1 rs2 false) s (retired u rd k)) ∧
      (m ≠ 0 → never u m →
        Ends (.wfe i rd rs1 rs2 false) s (ctxShow u i c { x with wait := some ⟨m, rd.val, u.tb⟩ })) ∧
      (first u (2 ^ ev.val) ev.val → Ends (.wfev i rd ev false) s (retired u rd ev.val)) ∧
      (u.eventPend i c ev.val = false →
        Ends (.wfev i rd ev false) s (ctxShow u i c { x with wait := some ⟨2 ^ ev.val, rd.val, u.tb⟩ })) ∧
      (∀ v, v = u.drainCtx (u.coreMid i) c.val → v.ctx i c = x → ∀ k, first v m k →
        Ends (.wfe i rd rs1 rs2 true) s (retired v rd k))) ∧
    (∀ w, s.samples i c = some w →
      (∀ k, first s w.mask k → Ends (.waitWake i c) s (retired s ⟨w.rd % 32, Nat.mod_lt _ (by decide)⟩ k)) ∧
      (∀ k, (s.ctx i c).waitLimit ≠ 0 → first s w.mask k →
        Ends (.waitTimeout i c) s (retired s ⟨w.rd % 32, Nat.mod_lt _ (by decide)⟩ k)) ∧
      ((s.ctx i c).waitLimit ≠ 0 → never s w.mask →
        Ends (.waitTimeout i c) s (retired s ⟨w.rd % 32, Nat.mod_lt _ (by decide)⟩ 64))) ∧
    (s.eventPend i c 50 = (s.ctx i c).flag) ∧
    (s.eventPend i c 48 = (decide ((s.ctx i c).tcmp ≠ 0) && decide ((s.ctx i c).tcmp ≤ s.tb))) ∧
    (∀ ch : Fin 4, s.eventPend i c (42 + ch.val) = s.core[i].dma[ch].cpl)

/-! ### MOLX: loads, stores, exclusive access -/

/-- Loads from the local window (12_molx_isa.md R412, R422, R425; 13_molx_system.md R442, R443), from TCM at both levels
and from IMEM in level S: the datum, widened, reaches gd, or the lanes vd; a corrected word is counted and reported first; an
uncorrectable word raises ECC; a misaligned address raises ALIGN before anything else. -/
def Obligations.LoadsFromLocalWindow : Prop :=
  ∀ (s u : State) (i : Fin 11) (c : Fin 4) (rd rs1 : Fin 32) (vd : Fin 8) (imm : Half), Fetched s u i c →
    let x := u.ctx i c
    let k := u.core[i]
    let a := ((x.rg rs1).toNat + (BitVec.ofInt 32 imm.toInt).toNat) % 2 ^ 32
    let m (j : Nat) : Nat := (if a < 0x20000 then k.imem.read (a + j) else k.tcm.read (a - 0x20000 + j)).toNat
    let half := m 0 + 2 ^ 8 * m 1
    let word := m 0 + 2 ^ 8 * m 1 + 2 ^ 16 * m 2 + 2 ^ 24 * m 3
    let imem := decide (a < 0x20000)
    let here (len : Nat) : Prop :=
      a % len = 0 ∧ (0x20000 ≤ a ∨ x.task = false) ∧ a < 0x40000
    (here 1 → k.localBad a 1 = false →
      Ends (.lb i rd rs1 imm .ok) s (gdPut u i c rd (BitVec.ofInt 32 (signedOf 8 (m 0)))) ∧
      Ends (.lbu i rd rs1 imm .ok) s (gdPut u i c rd (BitVec.ofNat 32 (m 0)))) ∧
    (here 2 → k.localBad a 2 = false →
      Ends (.lh i rd rs1 imm .ok) s (gdPut u i c rd (BitVec.ofInt 32 (signedOf 16 half))) ∧
      Ends (.lhu i rd rs1 imm .ok) s (gdPut u i c rd (BitVec.ofNat 32 half))) ∧
    (here 4 → k.localBad a 4 = false →
      Ends (.lw i rd rs1 imm .ok) s (gdPut u i c rd (BitVec.ofNat 32 word)) ∧
      (∀ d, Ends (.lw i rd rs1 imm (.ce d)) s (gdPut (u.coreCe i imem) i c rd (BitVec.ofNat 32 word)))) ∧
    (here 4 → k.localBad a 4 = true → x.exl = false →
      Ends (.lw i rd rs1 imm .ok) s (ctxShow u i c (x.entered 0x0E 0 0 a))) ∧
    (a % 32 = 0 → 0x20000 ≤ a → a < 0x40000 → k.localBad a 32 = false →
      Ends (.vld i vd rs1 imm .ok) s
        (vdPut u i c vd (Vector.ofFn fun l => BitVec.ofNat 16 (m (2 * l.val) + 2 ^ 8 * m (2 * l.val + 1))))) ∧
    (x.exl = false → ∀ e,
      (a % 2 ≠ 0 → Ends (.lh i rd rs1 imm e) s (ctxShow u i c (x.entered 0x06 0 0 a)) ∧
        Ends (.lhu i rd rs1 imm e) s (ctxShow u i c (x.entered 0x06 0 0 a))) ∧
      (a % 4 ≠ 0 → Ends (.lw i rd rs1 imm e) s (ctxShow u i c (x.entered 0x06 0 0 a)) ∧
        Ends (.ldx i rd rs1 imm e) s (ctxShow u i c (x.entered 0x06 0 0 a))) ∧
      (a % 32 ≠ 0 → Ends (.vld i vd rs1 imm e) s (ctxShow u i c (x.entered 0x06 0 0 a))) ∧
      (a < 0x20000 → x.task = true → Ends (.lb i rd rs1 imm e) s (ctxShow u i c (x.entered 0x07 3 0 a)) ∧
        Ends (.lbu i rd rs1 imm e) s (ctxShow u i c (x.entered 0x07 3 0 a))))

/-- Loads outside the local window (12_molx_isa.md R414, R422, R425): a hit of the D-cache gives its bytes at once; else the
context notes the load and waits, and LOAD_COMPLETE puts the datum, as memory or the filled line gives it, into the register
of its own context; LDX then sets the monitor. -/
def Obligations.LoadsThatWait : Prop :=
  ∀ (s u w : State) (i : Fin 11) (c : Fin 4) (rd rs1 : Fin 32) (vd : Fin 8) (imm : Half) (e : Ecc) (pa : Nat) (ca : Bool),
    let datum (v : State) (p : PendLoad) (key : Nat) (bs : List Byte) : State :=
      let y := v.ctx i c
      let r : Fin 32 := ⟨p.rd % 32, Nat.mod_lt _ (by decide)⟩
      ctxPut v i c { y with
        load := none, pc := y.pc4, g := if r = 0 then y.g else y.g.set r (p.kind.widen bs),
        mon := if p.kind = .ldx then some (key / 32, v.tb) else y.mon }
    (Fetched s u i c →
      let x := u.ctx i c
      let a := ((x.rg rs1).toNat + (BitVec.ofInt 32 imm.toInt).toNat) % 2 ^ 32
      u.translate i x.space .load a = (.phys pa ca, w) → w.ctx i c = x →
      let waits (vec : Bool) (k : LoadKind) (r : Nat) : State :=
        ctxPut w i c { x with load := some ⟨vec, k, r, a, pa, ca⟩ }
      ((ca = true → spFind w.core[i].dcache (pa / 32) = none) →
        Ends (.lb i rd rs1 imm e) s (waits false .lb rd.val) ∧
        Ends (.lbu i rd rs1 imm e) s (waits false .lbu rd.val) ∧
        (a % 2 = 0 →
          Ends (.lh i rd rs1 imm e) s (waits false .lh rd.val) ∧ Ends (.lhu i rd rs1 imm e) s (waits false .lhu rd.val)) ∧
        (a % 4 = 0 → Ends (.lw i rd rs1 imm e) s (waits false .lw rd.val)) ∧
        (a % 32 = 0 → w.inMem pa = true → Ends (.vld i vd rs1 imm e) s (waits true .lw vd.val)) ∧
        (a % 4 = 0 → w.inMem pa = true → ca = false → Ends (.ldx i rd rs1 imm e) s (waits false .ldx rd.val))) ∧
      (∀ l : Line, ca = true → a % 4 = 0 → spFind w.core[i].dcache (pa / 32) = some l →
        Ends (.lw i rd rs1 imm e) s (gdPut w i c rd (BitVec.ofNat 32 (natLE ((l.data.drop (pa % 32)).take 4)))))) ∧
    (∀ (t v : State) (p : PendLoad) (errs : List Ecc),
      t.coreOn i = true → t.core[i].up = true → t.core[i].failed = false → t.familyRuns = true →
      (t.ctx i c).load = some p → p.vec = false →
      (∀ bs, p.cached = false → 0x10000000 ≤ p.pa →
        t.memRead (t.coreMid i) (t.coreClient i) p.pa p.kind.len (envAt p.pa errs) = (bs, .ok, v) →
        Ends (.loadComplete i c errs) t (datum v p p.pa bs)) ∧
      (∀ l, p.cached = true → spFind t.core[i].dcache (p.pa / 32) = some l →
        Ends (.loadComplete i c errs) t (datum t p p.pa ((l.data.drop (p.pa % 32)).take p.kind.len))) ∧
      (∀ l, p.cached = true → spFind t.core[i].dcache (p.pa / 32) = none → t.dcFill i (p.pa / 32) errs = (true, v) →
        spFind v.core[i].dcache (p.pa / 32) = some l →
        Ends (.loadComplete i c errs) t (datum v p p.pa ((l.data.drop (p.pa % 32)).take p.kind.len))))

/-- Stores into TCM, and into IMEM in level S (12_molx_isa.md R412, R422, R425, R428; 13_molx_system.md R442): the bytes of
the width at gs1 + imm, and no other byte; a word written whole is sound again; the other contexts' monitors on the granule
are cleared, every other monitor stands; a misaligned address raises ALIGN. -/
def Obligations.StoresIntoLocalWindow : Prop :=
  ∀ (s u : State) (i : Fin 11) (c : Fin 4) (rs2 rs1 : Fin 32) (vs : Fin 8) (imm : Half), Fetched s u i c →
    let x := u.ctx i c
    let a := ((x.rg rs1).toNat + (BitVec.ofInt 32 imm.toInt).toNat) % 2 ^ 32
    let v := (x.rg rs2).toNat
    let granule := (2 ^ 40 + 0x40000 * i.val + a) / 32
    let after (len : Nat) (byte : Nat → Nat) (t : State) : Prop :=
      t = { u with core := t.core } ∧
      t.ctx i c = { x with pc := x.pc4 } ∧
      (∀ (j : Fin 11) (d : Fin 4), (j ≠ i ∨ d ≠ c) → t.ctx j d =
        if (u.ctx j d).mon.map Prod.fst = some granule then { u.ctx j d with mon := none } else u.ctx j d) ∧
      (∀ j, j ≠ i → t.core[j] = { u.core[j] with ctx := t.core[j].ctx }) ∧
      t.core[i] = { u.core[i] with
        ctx := t.core[i].ctx, imem := t.core[i].imem, tcm := t.core[i].tcm,
        flaws := u.core[i].flaws.filter fun w => !decide (a ≤ 4 * w ∧ 4 * w + 4 ≤ a + len) } ∧
      (∀ b, t.core[i].imem.read b =
        if a < 0x20000 ∧ a ≤ b ∧ b < a + len then BitVec.ofNat 8 (byte (b - a)) else u.core[i].imem.read b) ∧
      ∀ b, t.core[i].tcm.read b =
        if 0x20000 ≤ a ∧ a ≤ b + 0x20000 ∧ b + 0x20000 < a + len then BitVec.ofNat 8 (byte (b + 0x20000 - a))
        else u.core[i].tcm.read b
    let here (len : Nat) : Prop :=
      a % len = 0 ∧ (0x20000 ≤ a ∨ x.task = false) ∧ a < 0x40000
    (here 1 → ∃ t, Ends (.sb i rs2 rs1 imm) s t ∧ after 1 (fun _ => v) t) ∧
    (here 2 → ∃ t, Ends (.sh i rs2 rs1 imm) s t ∧ after 2 (fun j => v / 2 ^ (8 * j)) t) ∧
    (here 4 → ∃ t, Ends (.sw i rs2 rs1 imm) s t ∧ after 4 (fun j => v / 2 ^ (8 * j)) t) ∧
    (a % 32 = 0 → 0x20000 ≤ a → a < 0x40000 →
      ∃ t, Ends (.vst i vs rs1 imm) s t ∧
        after 32 (fun j => ((x.v[vs]).toList.getD (j / 2) 0).toNat / 2 ^ (8 * (j % 2))) t) ∧
    (x.exl = false →
      (a % 2 ≠ 0 → Ends (.sh i rs2 rs1 imm) s (ctxShow u i c (x.entered 0x06 0 0 a))) ∧
      (a % 4 ≠ 0 → Ends (.sw i rs2 rs1 imm) s (ctxShow u i c (x.entered 0x06 0 0 a))) ∧
      (a % 32 ≠ 0 → Ends (.vst i vs rs1 imm) s (ctxShow u i c (x.entered 0x06 0 0 a))) ∧
      (a < 0x20000 → x.task = true → Ends (.sb i rs2 rs1 imm) s (ctxShow u i c (x.entered 0x08 3 0 a))))

/-- Exclusive access in TCM (12_molx_isa.md R427, R428): LDX sets the monitor on its granule with TB; STX stores and gives 0
only under a monitor on the granule, set less than 10 µs of TB ago, else gives 1 and stores nothing; it clears the monitor
either way. A target that R427 excludes raises EXCL, and the expiry clears the monitor. -/
def Obligations.ExclusiveAccess : Prop :=
  ∀ (s u : State) (i : Fin 11) (c : Fin 4) (rd rs2 rs1 : Fin 32) (imm : Half), Fetched s u i c →
    let x := u.ctx i c
    let a := ((x.rg rs1).toNat + (BitVec.ofInt 32 imm.toInt).toNat) % 2 ^ 32
    let b := (x.rg rs1).toNat
    let key (va : Nat) : Nat := (2 ^ 40 + 0x40000 * i.val + va) / 32
    let m (j : Nat) : Nat := (u.core[i].tcm.read (a - 0x20000 + j)).toNat
    let put (y : Ctx) (r : Fin 32) (v : Word) : Vector Word 32 := if r = 0 then y.g else y.g.set r v
    (a % 4 = 0 → 0x20000 ≤ a → a < 0x40000 → u.core[i].localBad a 4 = false →
      Ends (.ldx i rd rs1 imm .ok) s
        (ctxPut u i c { x with
          g := put x rd (BitVec.ofNat 32 (m 0 + 2 ^ 8 * m 1 + 2 ^ 16 * m 2 + 2 ^ 24 * m 3)), pc := x.pc4,
          mon := some (key a, u.tb) })) ∧
    (b % 4 = 0 → 0x20000 ≤ b → b < 0x40000 → (∀ g t, x.mon = some (g, t) → g ≠ key b ∨ t + 10000 ≤ u.tb) →
      Ends (.stx i rd rs2 rs1) s (ctxPut u i c { x with g := put x rd 1, pc := x.pc4, mon := none })) ∧
    (b % 4 = 0 → 0x20000 ≤ b → b < 0x40000 → ∀ t, x.mon = some (key b, t) → u.tb < t + 10000 →
      ∃ v, Ends (.stx i rd rs2 rs1) s v ∧ v = { u with core := v.core } ∧
        v.ctx i c = { x with g := put x rd 0, pc := x.pc4, mon := none } ∧ v.core[i].imem = u.core[i].imem ∧
        ∀ o, v.core[i].tcm.read o =
          if b ≤ o + 0x20000 ∧ o + 0x20000 < b + 4 then BitVec.ofNat 8 ((x.rg rs2).toNat / 2 ^ (8 * (o + 0x20000 - b)))
          else u.core[i].tcm.read o) ∧
    (x.exl = false → b % 4 ≠ 0 → Ends (.stx i rd rs2 rs1) s (ctxShow u i c (x.entered 0x06 0 0 b))) ∧
    (x.exl = false → x.task = false → b % 4 = 0 → b < 0x20000 →
      Ends (.stx i rd rs2 rs1) s (ctxShow u i c (x.entered 0x0A 0 0 b))) ∧
    Ends (.monitorExpiry i c) s (ctxPut s i c { s.ctx i c with mon := none })

/-- Stores outside the local window (12_molx_isa.md R422, R425, R428): the bytes of the width go to memory, to the line of the
D-cache, which is filled first where it is not held, or, from a g register, to a register; a bus error raises BUS, and then
the context does not go on. -/
def Obligations.StoresThroughTheFabric : Prop :=
  ∀ (s u w : State) (i : Fin 11) (c : Fin 4) (rs2 rs1 : Fin 32) (vs : Fin 8) (imm : Half) (pa : Nat) (ca : Bool), Fetched s u i c →
    let x := u.ctx i c
    let a := ((x.rg rs1).toNat + (BitVec.ofInt 32 imm.toInt).toNat) % 2 ^ 32
    let v := (x.rg rs2).toNat
    u.translate i x.space .store a = (.phys pa ca, w) →
    let next (t : State) : State := ctxPut t i c { t.ctx i c with mon := (w.ctx i c).mon, pc := (t.ctx i c).pc4 }
    let bus (y : Instr) (t : State) : Prop := (t.ctx i c).exl = false → Ends y s (ctxShow t i c ((t.ctx i c).entered 0x09 0 0 a))
    let put (t : State) (l : Line) (bs : List Byte) : State :=
      let m := t.monClear pa bs.length
      next { m with core := m.core.set i { m.core[i] with
        dcache := spPut m.core[i].dcache (pa / 32) ⟨l.data.take (pa % 32) ++ bs ++ l.data.drop (pa % 32 + bs.length), true⟩ } }
    (w.ctx i c).mon = x.mon → w.coreMid i = u.coreMid i → w.coreClient i = u.coreClient i →
    ∀ y bs vec, (y, bs, vec) ∈ [(Instr.sb i rs2 rs1 imm, bytesLE 1 v, false), (.sh i rs2 rs1 imm, bytesLE 2 v, false),
        (.sw i rs2 rs1 imm, bytesLE 4 v, false), (.vst i vs rs1 imm, vecBytes x.v[vs], true)] → a % bs.length = 0 →
      ((vec = true → w.inMem pa = true) →
        (ca = false → 0x10000000 ≤ pa →
          let r := w.memWrite (w.coreMid i) (w.coreClient i) pa bs
          (r.1 = .ok → Ends y s (next r.2)) ∧ (r.1 ≠ .ok → bus y r.2)) ∧
        (∀ l : Line, ca = true → spFind w.core[i].dcache (pa / 32) = some l → Ends y s (put w l bs)) ∧
        (ca = true → spFind w.core[i].dcache (pa / 32) = none →
          (∀ z l, w.dcFill i (pa / 32) [] = (true, z) → spFind z.core[i].dcache (pa / 32) = some l → Ends y s (put z l bs)) ∧
          ∀ z, w.dcFill i (pa / 32) [] = (false, z) → bus y z)) ∧
      (vec = true → w.inMem pa = false → bus y w) ∧
      (vec = false → ca = false → pa < 0x10000000 →
        let r := w.accessWrite (w.coreMid i) c.val pa bs.length (natLE bs)
        (r.1 = false → r.2.ctx i c = w.ctx i c → Ends y s (next r.2)) ∧ (r.1 = true → bus y r.2))

/-! ### MOLX: vectors and coefficients -/

/-- The vector instructions (12_molx_isa.md R424): every lane of vd, or gd, VSAT where a lane clamps, and the PC are all that
changes. -/
def Obligations.VectorResults : Prop :=
  ∀ (s u : State) (i : Fin 11) (c : Fin 4) (vd vs1 vs2 : Fin 8) (rd rs : Fin 32) (l : Fin 16), Fetched s u i c →
    let x := u.ctx i c
    let a (j : Fin 16) : Int := (x.v[vs1])[j].toInt
    let b (j : Fin 16) : Int := (x.v[vs2])[j].toInt
    let d (j : Fin 16) : Int := (x.v[vd])[j].toInt
    let g := x.rg rs
    let k := g.toNat % 16
    let lanes (f : Fin 16 → Int) : State := vdPut u i c vd (Vector.ofFn fun j => BitVec.ofInt 16 (f j))
    let clamp (n : Nat) (z : Int) : Int := max (-2 ^ (n - 1)) (min (2 ^ (n - 1) - 1) z)
    let clamped (f : Fin 16 → Int) : State :=
      ctxPut u i c { x with
        v := x.v.set vd (Vector.ofFn fun j => BitVec.ofInt 16 (clamp 16 (f j))),
        vsat := x.vsat || decide (∃ j, clamp 16 (f j) ≠ f j), pc := x.pc4 }
    let q15 (j : Fin 16) : Int := (a j * b j + 2 ^ 14) / 2 ^ 15
    let dot : Int := ((List.finRange 16).map fun j => a j * b j).sum
    Ends (.vadd i vd vs1 vs2) s (lanes fun j => a j + b j) ∧
    Ends (.vsub i vd vs1 vs2) s (lanes fun j => a j - b j) ∧
    Ends (.vadds i vd vs1 vs2) s (clamped fun j => a j + b j) ∧
    Ends (.vsubs i vd vs1 vs2) s (clamped fun j => a j - b j) ∧
    Ends (.vmulq i vd vs1 vs2) s (clamped q15) ∧
    Ends (.vmacq i vd vs1 vs2) s (clamped fun j => d j + q15 j) ∧
    Ends (.vand i vd vs1 vs2) s (vdPut u i c vd (Vector.ofFn fun j => (x.v[vs1])[j] &&& (x.v[vs2])[j])) ∧
    Ends (.vor i vd vs1 vs2) s (vdPut u i c vd (Vector.ofFn fun j => (x.v[vs1])[j] ||| (x.v[vs2])[j])) ∧
    Ends (.vxor i vd vs1 vs2) s (vdPut u i c vd (Vector.ofFn fun j => (x.v[vs1])[j] ^^^ (x.v[vs2])[j])) ∧
    Ends (.vmin i vd vs1 vs2) s (lanes fun j => min (a j) (b j)) ∧
    Ends (.vmax i vd vs1 vs2) s (lanes fun j => max (a j) (b j)) ∧
    Ends (.vabs i vd vs1) s (clamped fun j => ((a j).natAbs : Int)) ∧
    Ends (.vsra i vd vs1 rs) s (lanes fun j => a j / 2 ^ k) ∧
    Ends (.vsll i vd vs1 rs) s (lanes fun j => a j * 2 ^ k) ∧
    Ends (.vsrar i vd vs1 rs) s (lanes fun j => if k = 0 then a j else (a j + 2 ^ (k - 1)) / 2 ^ k) ∧
    Ends (.vbcast i vd rs) s (vdPut u i c vd (Vector.ofFn fun _ => BitVec.ofNat 16 g.toNat)) ∧
    Ends (.vext i rd vs1 l) s (gdPut u i c rd (BitVec.ofInt 32 (a l))) ∧
    Ends (.vins i vd rs l) s
      (vdPut u i c vd (Vector.ofFn fun j => if j = l then BitVec.ofNat 16 g.toNat else (x.v[vd])[j])) ∧
    Ends (.vsum i rd vs1) s (gdPut u i c rd (BitVec.ofInt 32 ((List.finRange 16).map a).sum)) ∧
    Ends (.vdot i rd vs1 vs2) s
      (ctxPut u i c { x with
        g := if rd = 0 then x.g else x.g.set rd (BitVec.ofInt 32 (clamp 32 dot)),
        vsat := x.vsat || decide (clamp 32 dot ≠ dot), pc := x.pc4 }) ∧
    Ends (.vmov i vd vs1) s (vdPut u i c vd x.v[vs1]) ∧
    ∃ w : Nat, Ends (.vcmpgt i rd vs1 vs2) s (gdPut u i c rd (BitVec.ofNat 32 w)) ∧ w < 2 ^ 16 ∧
      ∀ j : Fin 16, bitB w j.val = decide (b j < a j)

/-- Coefficient access (12_molx_isa.md R413, R430; 04_equalisation_cancellation.md R128): a word is its 24 bits above eight
zeros; a store keeps bits [31:8] and changes no other word; VCLD and VCST move bits [31:16] of sixteen words. Here
`n` is the port whose unit the core has, and every check of R431 passes. A core without the unit raises ILLEGAL, with an
EVAL that the spec leaves open (log entry 1). -/
def Obligations.CoefficientAccess : Prop :=
  ∀ (s u : State) (i : Fin 11) (c : Fin 4) (rd rs2 rs1 : Fin 32) (vd vs : Fin 8) (imm : Half) (n : Fin 8), Fetched s u i c →
    let x := u.ctx i c
    let a := ((x.rg rs1).toNat + (BitVec.ofInt 32 imm.toInt).toNat) % 2 ^ 32
    let co := u.port[n].eq.coef
    (u.coefPort i = some n →
      (u.coefCheck n false a 1 = none → ∀ v, spFind co (a / 4) = some v →
        Ends (.cld i rd rs1 imm) s (gdPut u i c rd (BitVec.ofNat 32 (v * 2 ^ 8)))) ∧
      (u.coefCheck n false a 1 = none → spFind co (a / 4) = none → u.port[n].trn.coefKnown = true →
        Ends (.cld i rd rs1 imm) s (gdPut u i c rd 0)) ∧
      (u.coefCheck n true a 1 = none →
        ∃ co', Ends (.cst i rs2 rs1 imm) s
            (let t := { u with port := u.port.set n { u.port[n] with eq := { u.port[n].eq with coef := co' } } }
             ctxPut t i c { x with pc := x.pc4 }) ∧
          (spFind co' (a / 4)).getD 0 = (x.rg rs2).toNat / 2 ^ 8 ∧ ∀ w, w ≠ a / 4 → spFind co' w = spFind co w) ∧
      (u.coefCheck n false a 16 = none → u.port[n].trn.coefKnown = true →
        Ends (.vcld i vd rs1 imm) s
          (vdPut u i c vd (Vector.ofFn fun l => BitVec.ofNat 16 ((spFind co (a / 4 + l.val)).getD 0 / 2 ^ 8)))) ∧
      (u.coefCheck n true a 16 = none →
        ∃ co', Ends (.vcst i vs rs1 imm) s
            (let t := { u with port := u.port.set n { u.port[n] with eq := { u.port[n].eq with coef := co' } } }
             ctxPut t i c { x with pc := x.pc4 }) ∧
          (∀ l : Fin 16, (spFind co' (a / 4 + l.val)).getD 0 = (x.v[vs])[l].toNat * 2 ^ 8) ∧
          ∀ w, (w < a / 4 ∨ a / 4 + 16 ≤ w) → spFind co' w = spFind co w)) ∧
    (u.coefPort i = none → x.exl = false →
      ∃ v < 2 ^ 32,
        let t := ctxShow { u with freeCtr := u.freeCtr + 1 } i c (x.entered 0x04 0 0 v)
        Ends (.cld i rd rs1 imm) s t ∧ Ends (.cst i rs2 rs1 imm) s t ∧ Ends (.vcld i vd rs1 imm) s t ∧
          Ends (.vcst i vs rs1 imm) s t)

/-- The checks of a coefficient instruction (12_molx_isa.md R431) on a core whose unit serves port `n`: the first check that
fails for some word raises COEF with its sub-code and the offset of the first word that fails it, and no word is read or
written. -/
def Obligations.CoefficientChecks : Prop :=
  ∀ (s u : State) (i : Fin 11) (c : Fin 4) (rd rs2 rs1 : Fin 32) (vd vs : Fin 8) (imm : Half) (n : Fin 8), Fetched s u i c →
    let x := u.ctx i c
    let a := ((x.rg rs1).toNat + (BitVec.ofInt 32 imm.toInt).toNat) % 2 ^ 32
    let coef (sub w : Nat) : State := ctxShow u i c (x.entered 0x0B sub 0 w)
    let word (j : Nat) := (a + 4 * j) % 2 ^ 32
    let pair (w lo hi : Nat) := w < 0x18000 ∧ lo ≤ w % 0x6000 ∧ w % 0x6000 ≤ hi
    let range (w : Nat) := 0x1B100 ≤ w ∨ pair w 0x5500 0x55FF ∨ pair w 0x5700 0x57FF ∨ pair w 0x5900 0x59FF ∨
      pair w 0x5BC0 0x5BFF ∨ pair w 0x5CC0 0x5FFF
    let thp (w : Nat) := pair w 0x5C00 0x5CBF
    let dark (w : Nat) := u.domOn (14 * n.val + (if coefIsCanc w then 5 else 6)) = false
    let first (P : Nat → Prop) (k j : Nat) := j < k ∧ P (word j) ∧ ∀ l < j, ¬P (word l)
    u.coefPort i = some n → x.exl = false →
    ∀ y k st, (y, k, st) ∈ [(Instr.cld i rd rs1 imm, 1, false), (.cst i rs2 rs1 imm, 1, true), (.vcld i vd rs1 imm, 16, false),
        (.vcst i vs rs1 imm, 16, true)] →
      (a % 4 ≠ 0 → Ends y s (coef 1 a)) ∧
      (a % 4 = 0 → ∀ j, first range k j → Ends y s (coef 2 (word j))) ∧
      (a % 4 = 0 → (∀ l < k, ¬range (word l)) →
        (st = true → ∀ j, first thp k j → Ends y s (coef 3 (word j))) ∧
        ((st = true → ∀ l < k, ¬thp (word l)) → ∀ j, first dark k j → Ends y s (coef 4 (word j))))

/-! ### MOLX: contexts, DMA, failures, checkpoints, takeover -/

/-- Interrupt entry, the switch of contexts, and words that no table lists (12_molx_isa.md R416; 13_molx_system.md R446,
R448, R449, R428): an interrupt enters with the lowest pending unmasked event in ECAUSE; the runnable context with the highest
CTX_PRIO issues, the lower number first; a context switched out while it can go on loses its monitor. -/
def Obligations.InterruptsAndSwitches : Prop :=
  ∀ (s u : State) (i : Fin 11) (c : Fin 4) (w : Word),
    let x := s.ctx i c
    let k := s.core[i]
    let first (m n : Nat) (d : Fin 4) : Prop :=
      n < 51 ∧ bitB m n = true ∧ s.eventPend i d n = true ∧ ∀ j < n, ¬(bitB m j = true ∧ s.eventPend i d j = true)
    let due (d : Fin 4) : Prop := (s.ctx i d).ie = true ∧ (s.ctx i d).exl = false ∧ ∃ n, first (s.ctx i d).imask n d
    let ready (d : Fin 4) : Prop :=
      bitB k.ctxRun d.val = true ∧ (s.ctx i d).halted = false ∧
        ∀ v, (s.ctx i d).wait = some v → (∃ n, first v.mask n d) ∨ due d
    let best : Prop :=
      ready c ∧ ∀ d, ready d → d ≠ c → (s.ctx i d).prio < x.prio ∨ ((s.ctx i d).prio = x.prio ∧ c < d)
    (Fetched s u i c → molxLegal w.toNat = false → (u.ctx i c).exl = false →
      ∃ v < 2 ^ 32, Ends (.illegalInstruction i w) s
        (ctxShow { u with freeCtr := u.freeCtr + 1 } i c ((u.ctx i c).entered 0x04 0 0 v))) ∧
    (s.coreLive i = true → bitB k.ctxRun c.val = true → x.halted = false → x.load = none → x.ie = true → x.exl = false →
      ∀ n, first x.imask n c → Ends (.interruptEntry i c) s (ctxShow s i c (x.entered 0x10 0 n 0))) ∧
    (s.coreLive i = true → best → k.cur = c.val → Ends (.contextSwitch i) s s) ∧
    (s.coreLive i = true → best → ∀ o : Fin 4, k.cur = o.val → o ≠ c →
      Ends (.contextSwitch i) s { s with core := s.core.set i { k with
        cur := c.val,
        ctx := k.ctx.set o (if (k.ctx[o]).wait.isSome then k.ctx[o] else { k.ctx[o] with mon := none }) } })

/-- Starting, halting and resetting a core, and starting a context through CTX_RUN (13_molx_system.md R444, R445, R479,
R428). -/
def Obligations.CoreStartHaltReset : Prop :=
  ∀ (s u : State) (i : Fin 11) (c : Fin 4) (rd rs1 : Fin 32),
    let k := s.core[i]
    let status := [F.CORE_CTRL.RUN i.val, F.CORE_STATUS.STATE i.val, F.CORE_STATUS.CTX_STATE i.val, F.SQC_STATUS.T0_STATE,
      F.SQC_STATUS.T0_PORT, F.SQC_STATUS.T1_STATE, F.SQC_STATUS.T1_PORT, F.SQC_STATUS.SERVED]
    (s.coreOn i = true → s.on (F.CORE_CTRL.RUN i.val) = false →
      ∃ t, Ends (.coreRun i) s t ∧ OnlyRegs { s with core := t.core } t status ∧ t.on (F.CORE_CTRL.RUN i.val) = true ∧
        (∀ j, j ≠ i → t.core[j] = s.core[j]) ∧
        ∃ ctxs, t.core[i] = { k with
            up := true, cur := 0, ctxRun := 1, icache := [], dcache := [], tlb := [], ctx := ctxs, wdogTb := s.tb } ∧
          t.ctx i 0 = { s.ctx i 0 with
            pc := 4 * s.rd (F.RESET_PC.RESET_PC i.val), task := false, ran := true, halted := false, wait := none,
            load := none, mon := none, ie := false, exl := false, mmuEn := false } ∧
          ∀ d : Fin 4, d ≠ 0 → t.ctx i d = { s.ctx i d with
            ran := false, halted := false, wait := none, load := none, mon := none }) ∧
    (s.coreOn i = true → s.on (F.CORE_CTRL.RUN i.val) = true →
      ∃ t, Ends (.coreHalt i) s t ∧ OnlyRegs { s with core := s.core.set i { k with up := false } } t status ∧
        t.on (F.CORE_CTRL.RUN i.val) = false) ∧
    (s.coreOn i = true →
      ∃ t, Ends (.coreReset i) s t ∧ t.on (F.CORE_CTRL.RUN i.val) = false ∧
        t.core = s.core.set i
          { imem := k.imem, tcm := k.tcm, flaws := k.flaws, img := k.img, serving := k.serving,
            failed := k.failed && decide (i.val = 8 ∨ i.val = 9) } ∧
        (i.val ≠ 8 → i.val ≠ 9 → t.rd (F.CORE_STATUS.FAIL_CAUSE i.val) = 0)) ∧
    (Fetched s u i c → (u.ctx i c).task = false →
      let x := u.ctx i c
      let v := (x.rg rs1).toNat
      ∃ t, Ends (.csrw i rd rs1 0x120) s t ∧ OnlyRegs { u with core := t.core } t status ∧
        t.core[i].ctxRun = v % 16 ∧ (∀ j, j ≠ i → t.core[j] = u.core[j]) ∧
        ∀ d : Fin 4, d ≠ c →
          (bitB v d.val = true → bitB u.core[i].ctxRun d.val = false → (u.ctx i d).ran = false →
            t.ctx i d = { u.ctx i d with
              pc := u.core[i].ctxEntry, task := false, ran := true, mmuEn := false, g := Vector.replicate 32 0,
              v := Vector.replicate 8 (Vector.replicate 16 0) }) ∧
          (bitB v d.val = false ∨ bitB u.core[i].ctxRun d.val = true ∨ (u.ctx i d).ran = true → t.ctx i d = u.ctx i d))

/-- DMA channels (13_molx_system.md R445, R455, R456): DMA_START starts an idle channel at the descriptor, with the owner's
translation, and sets REJ on a busy one; DMA_STAT clears CPL and REJ where a 0 is written; a descriptor in TCM that fills TCM
completes with RESULT DONE, its bytes written and no others but its own words 4 to 7. -/
def Obligations.DmaChannels : Prop :=
  ∀ (s u : State) (i : Fin 11) (c ch : Fin 4) (rd rs1 : Fin 32),
    let dput (v : State) (d : Dma) : State := { v with core := v.core.set i { v.core[i] with dma := v.core[i].dma.set ch d } }
    (Fetched s u i c → (u.ctx i c).task = false →
      let x := u.ctx i c
      let v := (x.rg rs1).toNat
      let old := u.core[i].dma[ch]
      let go (o : Nat) : State := gdPut u i c rd (BitVec.ofNat 32 o)
      (old.active = false →
        Ends (.csrw i rd rs1 (BitVec.ofNat 12 (0x140 + ch.val))) s (dput (go old.startWord) { old with
          desc := v - v % 32, active := true, owner := c.val, ptbr := x.ptbr, mmuEn := x.mmuEn, asid := x.asid, task := false,
          startWord := v, resume := bitB v 0, ofs := 0 })) ∧
      (old.active = true →
        Ends (.csrw i rd rs1 (BitVec.ofNat 12 (0x140 + ch.val))) s (dput (go old.startWord) { old with rej := true })) ∧
      (bitB v 30 = true ∨ old.active = false →
        Ends (.csrw i rd rs1 (BitVec.ofNat 12 (0x144 + ch.val))) s (dput (go old.stat) { old with
          cpl := old.cpl && bitB v 31, rej := old.rej && bitB v 29 })) ∧
      (Ends (.csrs i rd 0 (BitVec.ofNat 12 (0x148 + ch.val))) s (go old.desc))) ∧
    (let k := s.core[i]
     let d := k.dma[ch]
     let o := d.desc - 0x20000
     let word (n : Nat) : Nat := natLE ((List.range 4).map fun j => k.tcm.read (o + 4 * n + j))
     let len := word 0 % 2 ^ 17
     let dst := word 2
     s.coreOn i = true → k.failed = false → s.coreClocked i.val = true → s.familyRuns = true → d.active = true →
     d.resume = false → 0x20000 ≤ d.desc → d.desc % 32 = 0 → d.desc + 32 ≤ 0x40000 → k.localBad d.desc 32 = false →
     word 0 / 2 ^ 17 = 2 ^ 28 / 2 ^ 17 → 1 ≤ len → dst % 64 + len ≤ 64 → 0x20000 ≤ dst → dst + len ≤ 0x40000 →
     (dst + len ≤ d.desc + 16 ∨ d.desc + 32 ≤ dst) →
     ∃ t, Ends (.dmaDescriptorDone i ch) s t ∧ t = { s with core := t.core } ∧
       t.core[i].dma = k.dma.set ch { d with active := false, cpl := true, ofs := len, result := 1, side := 0 } ∧
       t.core[i].imem = k.imem ∧
       (∀ b, b < o + 16 ∨ o + 32 ≤ b → t.core[i].tcm.read b =
         if dst ≤ b + 0x20000 ∧ b + 0x20000 < dst + len then BitVec.ofNat 8 (word 1 / 2 ^ (8 * ((b + 0x20000 - dst) % 4)))
         else k.tcm.read b) ∧
       t.core[i].tcm.readN (o + 16) 16 = bytesLE 4 (2 ^ 28) ++ bytesLE 4 len ++ bytesLE 4 0 ++ bytesLE 4 s.tb)

/-- Failures of a core (13_molx_system.md R443, R463, R464, R466, R471): its contexts halt, FAIL_CAUSE holds the cause, the
event CORE_FAIL sets; a port sequencer that ran makes its takeover due where TKO_AUTO lets it. A core that has failed does not
fail again. -/
def Obligations.CoreFailures : Prop :=
  ∀ (s : State) (i : Fin 11) (w : Nat) (e : Ecc),
    let k := s.core[i]
    (s.coreOn i = true → k.up = true → k.wdog ≠ 0 → Ends (.wdogExpiry i) s (s.coreFail i 4)) ∧
    (s.coreOn i = true → ∀ cause, 1 ≤ cause → cause ≤ 5 → Ends (.coreFail i cause) s (s.coreFail i cause)) ∧
    (s.coreOn 10 = true → Ends (.coreFail 10 6) s (s.coreFail 10 6)) ∧
    (s.coreUp 10 = true → Ends .lockstepMismatch s (s.coreFail 10 6)) ∧
    (s.coreOn i = true → w < 0x10000 → k.flaws.contains w = false →
      let bad := { s with core := s.core.set i { k with flaws := k.flaws ++ [w] } }
      let ue := bad.rise (ueSrc i) [s.coreWord i]
      Ends (.memPatrol i w .ok) s s ∧
      (∀ d, Ends (.memPatrol i w (.ce d)) s (s.coreCe i (decide (w < 0x8000)))) ∧
      Ends (.memPatrol i w .ue) s (if w < 0x8000 then ue.coreFail i 2 else ue)) ∧
    (k.failed = true → ∀ cause, s.coreFail i cause = s) ∧
    (s.coreOn i = true → k.failed = false → (∀ ch : Fin 4, (k.dma[ch]).active = false) → ∀ cause < 16,
      let t := s.coreFail i cause
      t.core = s.core.set i { k with
        failed := true, up := false, hold := false, serving := none, loading := false,
        ctx := k.ctx.map fun x => { x with halted := true, wait := none, load := none, mon := none } } ∧
      t.rd (F.CORE_STATUS.FAIL_CAUSE i.val) = cause ∧ t.rd (F.CORE_STATUS.STATE i.val) = 5 ∧ t.on F.SQC_EVENT.CORE_FAIL = true ∧
      (i.val < 8 → k.up = true → (s.server i.val).isSome = false → bitB (s.rd F.SQC_CTRL.TKO_AUTO) i.val = true →
        i.val ∈ t.sqc.due))

/-- Checkpoints (13_molx_system.md R460, R461, R478): the period starts one, which holds a running core. At its end the dirty
lines have been cleaned, and the TCM and the header with its CRC-32 go to the buffer that is not the latest valid one: with no
error that buffer is valid, GEN has gone up by 1, the core runs on and HOLD_LAST notes the hold; with an error the buffer stays
invalid and CKPT_FAIL sets. -/
def Obligations.Checkpoints : Prop :=
  ∀ (s : State) (i : Fin 11) (held : Nat),
    let k := s.core[i]
    let slot := s.coreSlot i
    let gen := (s.rd (F.SLOT_CKPT_STAT.GEN slot) + 1) % 2 ^ 16
    let b := decide (s.ckptLatest slot = some false)
    let v := (s.dcCleanAll i).wrB (validFld slot b) false
    let head := v.ckptHead i gen
    let tcm := k.tcm.readN 0 (s.ckptTcm slot)
    let w1 := v.memWrite 4 (loaderClient slot) (s.ckptAddr slot b + 4096) tcm
    let w2 := w1.2.memWrite 4 (loaderClient slot) (s.ckptAddr slot b) (head ++ bytesLE 4 (byteCrc (head ++ tcm)))
    let released (t : State) (ks : List Fld) : Prop :=
      OnlyRegs { w2.2 with core := w2.2.core.set i { w2.2.core[i] with hold := false }, sqc := t.sqc } t
        (ks ++ [F.SLOT_CKPT_STAT.CK_BUSY slot, F.SLOT_CKPT_STAT.HOLD_LAST slot]) ∧
      t.on (F.SLOT_CKPT_STAT.CK_BUSY slot) = false ∧ t.rd (F.SLOT_CKPT_STAT.HOLD_LAST slot) = min 8191 held
    (s.coreUp i = true → s.rd (F.SLOT_CKPT.CKPT_PERIOD slot) ≠ 0 →
      Ends (.ckptPeriodExpiry i) s
        ({ s with core := s.core.set i { k with hold := true } }.wrB (F.SLOT_CKPT_STAT.CK_BUSY slot) true)) ∧
    (s.coreUp i = false ∨ s.rd (F.SLOT_CKPT.CKPT_PERIOD slot) = 0 → Ends (.ckptPeriodExpiry i) s s) ∧
    (s.coreOn i = true → k.hold = true → (∀ c : Fin 4, (s.ctx i c).load = none) →
      (w1.1 = .ok → w2.1 = .ok → ∃ t, Ends (.ckptDone i held) s t ∧
        released t [validFld slot b, F.SLOT_CKPT_STAT.GEN slot] ∧
        t.rd (F.SLOT_CKPT_STAT.GEN slot) = gen ∧ t.on (validFld slot b) = true ∧
        t.sqc = { w2.2.sqc with
          genA := if b then w2.2.sqc.genA else w2.2.sqc.genA.set (slot11 slot) gen,
          genB := if b then w2.2.sqc.genB.set (slot11 slot) gen else w2.2.sqc.genB }) ∧
      (w1.1 ≠ .ok ∨ w2.1 ≠ .ok → ∃ t : State, Ends (.ckptDone i held) s (t.rise 0x2A3
          [t.word [F.SLOT_CKPT_STAT.GEN slot, F.SLOT_CKPT_STAT.VALID_B slot, F.SLOT_CKPT_STAT.VALID_A slot,
            F.SLOT_CKPT_STAT.CK_BUSY slot, F.SLOT_CKPT_STAT.HOLD_LAST slot]]) ∧
        released t [F.SQC_EVENT.CKPT_FAIL] ∧ t.on F.SQC_EVENT.CKPT_FAIL = true ∧ t.sqc = w2.2.sqc)) ∧
    head.length = 0xFFC ∧ natLE (head.take 4) = 0x5043584B ∧ natLE ((head.drop 4).take 2) = gen ∧
    ∀ c : Fin 4, natLE ((head.drop (0x80 + 0x200 * c.val)).take 4) = (v.ctx i c).pc % 2 ^ 32

/-- Takeover and the SQC's commands (13_molx_system.md R464, R465, R467, R468, R469, R475): the lowest port that is due goes to
the lowest Turret in STANDBY, and TAKE hands a port over by plan; RELEASE gives it back; RELOAD gives a core a new image. Each
needs the loader's reads to end without error (`Loads`, `ImageIn`), and then ends DONE; else it ends REFUSED, and a takeover
stays PENDING. What the loader leaves in the core: the contexts of a sound checkpoint that ran resume, and without one context
0 starts at RESET_PC. -/
def Obligations.TakeoverAndSqcCommands : Prop :=
  ∀ (s : State) (n : Fin 8) (m : Nat) (tur : Fin 2) (held : Nat) (slot : Fin 11),
    let i : Fin 11 := ⟨n.val, by omega⟩
    let ti : Fin 11 := ⟨8 + tur.val, by omega⟩
    let status := [F.CORE_STATUS.STATE ti.val, F.CORE_STATUS.CTX_STATE ti.val, F.SQC_STATUS.T0_STATE, F.SQC_STATUS.T0_PORT,
      F.SQC_STATUS.T1_STATE, F.SQC_STATUS.T1_PORT, F.SQC_STATUS.SERVED, F.SQC_STATUS.PENDING, F.SQC_EVENT.TAKEOVER]
    let command := [F.SQC_CMD.RESULT, F.SQC_EVENT.CMD_DONE]
    let ended (t : State) (r : Nat) : Prop :=
      t.sqc.run = none ∧ t.rd F.SQC_CMD.RESULT = r ∧ t.on F.SQC_EVENT.CMD_DONE = true
    let refused := ({ s with sqc := { s.sqc with run := none } }.wr F.SQC_CMD.RESULT 3).wrB F.SQC_EVENT.CMD_DONE true
    let loading (u : State) : State := u.setCore ti fun k => { k with
      up := false, icache := [], dcache := [], tlb := [], loading := true, ctx := k.ctx.map fun x => { x with mon := none } }
    let serves (v t : State) (p : Nat) : Prop :=
      t.core = v.core.set ti { v.core[ti] with serving := some p, loading := false } ∧ t.on F.SQC_EVENT.TAKEOVER = true ∧
        p ∉ t.sqc.due ∧ p ∉ t.sqc.stuck ∧ bitB (t.rd F.SQC_STATUS.PENDING) p = false
    (m < 8 → m ∈ s.sqc.due → (∀ j < m, j ∉ s.sqc.due) → s.turPick = some tur →
      let d := loading (s.drainMid (8 + m))
      (∀ v, Loads d ti m 1 v → ∃ t, Ends .turretTakeover s t ∧ serves v t m ∧
        OnlyRegs { v with core := t.core, sqc := t.sqc } t status) ∧
      ((∀ v, ¬ Loads d ti m 1 v) → ∃ t, Ends .turretTakeover s t ∧ m ∉ t.sqc.due ∧ m ∈ t.sqc.stuck ∧
        bitB (t.rd F.SQC_STATUS.PENDING) m = true)) ∧
    (s.sqcFree 1 n.val = true → s.coreUp i = true → s.server n.val = none → s.turPick = some tur →
      let d := loading (((s.ckptWrite i held).dmaAbortAll i).coreHalt i)
      (∀ v, Loads d ti n.val 2 v → ∃ t, Ends (.take n held) s t ∧ ended t 2 ∧ serves v t n.val ∧
        OnlyRegs { v with core := t.core, sqc := t.sqc } t (status ++ command)) ∧
      ((∀ v, ¬ Loads d ti n.val 2 v) → ∃ t, Ends (.take n held) s t ∧ ended t 3)) ∧
    (s.sqcFree 1 n.val = true → (s.coreUp i = false ∨ (s.server n.val).isSome = true ∨ s.turPick = none) →
      Ends (.take n held) s refused) ∧
    (s.sqcFree 2 n.val = true → ∀ sv, s.server n.val = some sv → s.coreOn i = true → s.core[i].up = false →
      s.core[i].failed = false →
      let d := (((((s.ckptWrite sv held).dmaAbortAll sv).coreHalt sv).setCore sv fun k => { k with serving := none })).masterReset
        (8 + n.val)
      (∀ v, Loads d i n.val 3 v → ∃ t, Ends (.release n held) s t ∧ ended t 2 ∧ t.on F.SQC_EVENT.RELEASED = true ∧
        OnlyRegs { v with sqc := t.sqc } t (F.SQC_EVENT.RELEASED :: command)) ∧
      ((∀ v, ¬ Loads d i n.val 3 v) → ∃ t, Ends (.release n held) s t ∧ ended t 3)) ∧
    (s.sqcFree 2 n.val = true → (s.server n.val = none ∨ s.coreOn i = false ∨ s.core[i].up = true ∨ s.core[i].failed = true) →
      Ends (.release n held) s refused) ∧
    (s.sqcFree 3 slot.val = true → (∀ j, s.slotCore slot.val = some j → s.coreOn j = false ∨ s.core[j].failed = true) →
      Ends (.reload slot held) s refused) ∧
    (s.sqcFree 3 slot.val = true → ∀ j, s.slotCore slot.val = some j → s.coreOn j = true → s.core[j].failed = false →
      let d := ((s.ckptWrite j held).dmaAbortAll j).setCore j fun k => { k with up := false }
      let came (v : State) : Prop := ∃ t, Ends (.reload slot held) s t ∧ ended t 2 ∧ t.on F.SQC_EVENT.RELOADED = true ∧
        OnlyRegs { v with sqc := t.sqc } t (F.SQC_EVENT.RELOADED :: command)
      (s.core[j].up = true → (∀ v, Loads d j slot.val 4 v → came v) ∧
        ((∀ v, ¬ Loads d j slot.val 4 v) → ∃ t, Ends (.reload slot held) s t ∧ ended t 3)) ∧
      (s.core[j].up = false → (∀ v, ImageIn s j slot.val v → came v) ∧
        ((∀ v, ¬ ImageIn s j slot.val v) → ∃ t, Ends (.reload slot held) s t ∧ ended t 3))) ∧
    (∀ p ∈ [(Instr.take n held, 1, n.val), (.release n held, 2, n.val), (.reload slot held, 3, slot.val)],
      s.sqcFree p.2.1 p.2.2 = false → Ends p.1 s ((s.wr F.SQC_CMD.RESULT 3).wrB F.SQC_EVENT.CMD_DONE true)) ∧
    ∀ (d v : State) (j : Fin 11) (p sub : Nat),
      (Fresh d j v → v.core[j].up = true ∧ v.core[j].tcm = [] ∧ v.core[j].imem = d.core[j].imem ∧ v.core[j].ctxRun = 1 ∧
        v.on (F.CORE_CTRL.RUN j.val) = true ∧ (v.ctx j 0).pc = 4 * d.rd (F.RESET_PC.RESET_PC j.val) ∧ (v.ctx j 0).task = false ∧
        (v.ctx j 0).ecause = 0xF11) ∧
      ∀ bs, Resumed d j sub bs v →
        let word (o : Nat) : Nat := natLE ((bs.drop o).take 4)
        v.core[j].up = true ∧ v.on (F.CORE_CTRL.RUN j.val) = true ∧ v.core[j].imem = d.core[j].imem ∧
        (∀ o, v.core[j].tcm.read o = bs.getD (4096 + o) 0) ∧ v.core[j].ctxRun = word 0x18 % 16 ∧
        ∀ c : Fin 4, let w (o : Nat) : Nat := word (0x80 + 0x200 * c.val + 4 * o)
          bitB (word 0x18) c.val = true → bitB (w 1) 2 = false →
            (v.ctx j c).epc = w 0 ∧ (v.ctx j c).pc = w 104 ∧ (v.ctx j c).exl = true ∧ (v.ctx j c).ie = false ∧
            (v.ctx j c).task = false ∧ (v.ctx j c).ecause = 0x11 + 2 ^ 8 * sub ∧ (v.ctx j c).eval = word 4 % 2 ^ 16 ∧
            (v.ctx j c).tkx = (bitB (w 105) 4 || bitB (w 105) 3) ∧
            ∀ r : Fin 32, r ≠ 0 → (v.ctx j c).g[r] = BitVec.ofNat 32 (w (1 + r.val))

/-! ### Ports: enabling, sensing, negotiation, training -/

/-- Enabling, disabling and restarting a port, and an identity that is enforced while the link is up, in any mode
(02_port_modes_negotiation.md R49, R52). That EXPECT_MISMATCH sets with it, and that an identity is recorded from the first Spire
resolution on, are the model's choices (log entry 75). -/
def Obligations.PortEnableAndRestart : Prop :=
  ∀ (s : State) (n : Fin 8), s.pcsOn n = true →
    (s.link n = stDISABLED → ∃ t, Ends (.portEnable n) s t ∧ t.on (F.NEG_CTRL.PORT_EN n) = true ∧ t.link n = stSENSE) ∧
    (∃ t, Ends (.portDisable n) s t ∧ t.on (F.NEG_CTRL.PORT_EN n) = false ∧ t.link n = stDISABLED ∧
      (s.active n = true → t.rd (F.LINK_STATUS.LAST_DOWN n) = rHOST_DISABLE ∧ t.on (F.LINK_EVENT.LINK_DOWN n) = true)) ∧
    (s.active n = true → ∃ t, Ends (.anRestart n) s t ∧ WentDown t n stSENSE rHOST_RESTART) ∧
    (s.link n = stAN → ∃ t, Ends (.anRestart n) s t ∧ t.link n = stSENSE ∧ t.port[n].neg.breakSilence = true ∧
      t.rd (F.LINK_STATUS.LAST_DOWN n) = s.rd (F.LINK_STATUS.LAST_DOWN n)) ∧
    (s.link n < stAN → Ends (.anRestart n) s s) ∧
    (∀ node < 64, ∀ prt < 8,
      let u := ((s.wr (F.SPIRE_EXPECT.EXPECT_MODE n) 2).wr (F.SPIRE_EXPECT.EXP_NODE n) node).wr (F.SPIRE_EXPECT.EXP_PORT n) prt
      let same := s.rd (F.PARTNER_INFO.P_NODE n) = node ∧ s.rd (F.PARTNER_INFO.P_PORT n) = prt
      let up := s.linkUp n = true ∧ s.port[n].neg.recorded = true
      (¬ up ∨ same → Ends (.expectEnforceWrite n node prt) s u) ∧
      (up → ¬ same → ∃ t, Ends (.expectEnforceWrite n node prt) s t ∧ WentDown t n stSENSE rPARTNER_MISMATCH ∧
        t.on (F.LINK_EVENT.EXPECT_MISMATCH n) = true))

/-- Sensing and dormancy (02_port_modes_negotiation.md R51-R53, R55, R58, R68). -/
def Obligations.SensingAndDormancy : Prop :=
  ∀ (s : State) (n : Fin 8), s.pcsOn n = true →
    let sense := s.link n = stSENSE ∧ s.port[n].neg.breakSilence = false
    let sent := s.modPort n fun p => { p with neg := { p.neg with flpSent := p.neg.flpSent + 1 } }
    (s.link n ≠ stDORMANT → Ends (.energyQualified n) s (s.count (F.ED_STATUS.ED_QUAL n))) ∧
    (s.link n = stDORMANT → ∃ t, Ends (.energyQualified n) s t ∧ t.link n = stSENSE ∧ t.port[n].neg.arrived = false) ∧
    (sense → ∃ t, Ends (.flpBurstReceived n) s t ∧ t.link n = stAN ∧ t.on (F.LINK_EVENT.PARTNER_ARRIVE n) = true ∧
      t.port[n].neg.arrived = true ∧ t.port[n].neg.advModes = s.advModes n ∧
      ∃ w < 2 ^ 16, t.port[n].neg.sending = some (.base w) ∧ w % 2 ^ 5 = 1 ∧ bitB w 12 = true ∧
        bitB w 8 = (s.advModes n).contains 1) ∧
    (sense → s.on (F.NEG_CTRL.PARDET_EN n) = true → ∃ t, Ends (.parallelDetect n) s t ∧ t.link n = stTRAIN ∧
      t.rd (F.LINK_STATUS.MODE n) = 1 ∧ t.on (F.LINK_STATUS.PD_FD n) = true ∧ t.on (F.LINK_EVENT.PARTNER_ARRIVE n) = true) ∧
    (sense → s.on (F.NEG_CTRL.FORCE_100 n) = true → ∃ t, Ends (.force100Train n) s t ∧ t.link n = stTRAIN ∧
      t.rd (F.LINK_STATUS.MODE n) = 1) ∧
    (sense → ∀ nlp, ∃ t, Ends (.anWaitExpiry n nlp) s t ∧
      t.link n = (if s.on (F.NEG_CTRL.DORM_EN n) then stDORMANT else stSENSE) ∧
      t.rd (F.LINK_STATUS.LAST_DOWN n) = (if nlp then rNLP_ONLY else s.rd (F.LINK_STATUS.LAST_DOWN n)) ∧
      t.rd (F.LINK_COUNT.FALSE_WAKE n) = (if !nlp && s.port[n].neg.woke && !s.port[n].neg.arrived then
        (s.rd (F.LINK_COUNT.FALSE_WAKE n) + 1) % 2 ^ 16 else s.rd (F.LINK_COUNT.FALSE_WAKE n))) ∧
    (s.link n = stAN → ∀ nlp, ∃ t, Ends (.anWaitExpiry n nlp) s t ∧ t.link n = stSENSE ∧
      t.rd (F.LINK_STATUS.LAST_DOWN n) = rAN_TIMEOUT) ∧
    (sense → Ends (.senseFlpBurst n) s sent) ∧
    (s.link n = stDORMANT → s.on (F.DIAG_STATUS.DIAG_BUSY n) = false → Ends (.dormBurstExpiry n) s sent) ∧
    (s.link n = stSENSE → Ends (.breakSilenceEnd n) s
      (s.modPort n fun p => { p with neg := { p.neg with breakSilence := false } }))

/-- The page exchange and its resolution (02_port_modes_negotiation.md R42-R48): a page is taken in and answered by the next page
of this end, S1 and S2 last and null pages after them (bit positions of Clause 28: log entry 73); a tie draws a seed and sends S1
and S2 once more; where the exchange ends, the highest common mode is trained, Spire first where both ends admit it; no common
mode, or a Spire failure without a fallback, returns to SENSE with its reason (the choice of the reason: log entry 74). -/
def Obligations.PageExchange : Prop :=
  ∀ (s : State) (n : Fin 8) (pg : AnPage) (last mdix : Bool), s.pcsOn n = true → s.link n = stAN →
    let g := s.port[n].neg.page pg
    let u := (s.wrB (F.LINK_STATUS.MDIX n) mdix).modPort n fun p => { p with neg := g }
    let spire := g.advModes.contains 7 && (g.spireCapable || g.verBad)
    let std := commonStd g.advModes g.partnerModes
    let tie := g.advModes.contains 7 && g.spireCapable &&
      (match pg, g.s2 with | .ext false _ _, some (d, v) => tied g (readS2 d v) | _, _ => false)
    let answer (sent : SentPage) (rest : List OwnKind) : State := u.modPort n fun p =>
      { p with neg := { g with sending := some sent, toSend := rest, toggle := !g.toggle } }
    let low (rest : List OwnKind) := 2 ^ 11 * b2n g.toggle + 2 ^ 15 * b2n (!rest.isEmpty)
    (tie = false → last = false →
      (g.toSend = [] → Ends (.anPageReceived n pg last mdix) s (answer (.null (1 + low [] + 2 ^ 13)) [])) ∧
      (∀ rest, g.toSend = .clauses :: rest →
        Ends (.anPageReceived n pg last mdix) s (answer (.clauses g.advModes g.advEee) rest)) ∧
      (∀ rest, g.toSend = .s1 :: rest →
        Ends (.anPageReceived n pg last mdix) s (answer (.ext (5 + low rest + 2 ^ 13) 0x1138A4C6) rest)) ∧
      (∀ rest, g.toSend = .s2 :: rest →
        Ends (.anPageReceived n pg last mdix) s (answer (.ext
          (2 ^ 8 * g.srates + 2 ^ 3 * g.topRung + 4 * b2n g.twinCap + 2 * b2n g.msForce + b2n g.msValue + low rest)
          (2 ^ 26 * s.rd (F.BF_NODE.NODE 0) + 2 ^ 23 * n.val + 2 ^ 13 * g.seed + 2 ^ 8 * g.inpMs + g.ldtMs)) rest))) ∧
    (tie = true → g.ties < 6 → ∃ t, Ends (.anPageReceived n pg last mdix) s t ∧ t.link n = stAN ∧
      t.port[n].neg.ties = g.ties + 1 ∧ t.port[n].neg.s1 = none ∧ t.port[n].neg.s2 = none ∧
      ∃ k rest sent, g.toSend ++ [.s1, .s2] = k :: rest ∧ t.port[n].neg.sending = some sent ∧ t.port[n].neg.toSend = rest) ∧
    (tie = false → last = true → spire = false →
      ∃ t, Ends (.anPageReceived n pg last mdix) s t ∧
        (std ≠ 0 → t.link n = stTRAIN ∧ t.rd (F.LINK_STATUS.MODE n) = std) ∧
        (std = 0 → t.link n = stSENSE ∧ t.rd (F.LINK_STATUS.LAST_DOWN n) = rNO_COMMON_MODE)) ∧
    (tie = false → last = true → spire = true → g.s2 = none →
      ∃ t, Ends (.anPageReceived n pg last mdix) s t ∧
        (g.spireOnly = true ∨ std = 0 → t.link n = stSENSE ∧ t.rd (F.LINK_STATUS.LAST_DOWN n) = rSPIRE_VER) ∧
        (g.spireOnly = false → std ≠ 0 → t.link n = stTRAIN ∧ t.rd (F.LINK_STATUS.MODE n) = std)) ∧
    (tie = false ∧ last = true ∨ tie = true ∧ 6 ≤ g.ties → spire = true → ∀ d v w e, g.s2 = some (d, v) → g.s1 = some (w, e) →
      let p := readS2 d v
      let ldt := min g.ldtMs (ldtMsOf p.ldt)
      let inp := max g.inpMs (inpMsOf p.inp)
      ∃ t, Ends (.anPageReceived n pg last mdix) s t ∧
        t.rd (F.PARTNER_INFO.P_NODE n) = p.node % 64 ∧ t.rd (F.PARTNER_INFO.RES_SRATES n) = (g.srates &&& p.srates) % 8 ∧
        t.port[n].neg.recorded = true ∧
        (g.expectMode ≠ 0 → mismatch g p = true → t.on (F.LINK_EVENT.EXPECT_MISMATCH n) = true) ∧
        (g.expectMode = 2 → mismatch g p = true → t.link n = stSENSE ∧ t.rd (F.LINK_STATUS.LAST_DOWN n) = rPARTNER_MISMATCH) ∧
        (spireFail g (bitsOf e 31 28) p = none →
          t.link n = stTRAIN ∧ t.rd (F.LINK_STATUS.MODE n) = 7 ∧ t.rd (F.LINK_STATUS.LDT_RES n) = max ldt (inp + 4) % 256 ∧
          t.on (F.LINK_STATUS.LDT_RAISED n) = decide (ldt < inp + 4) ∧
          t.on (F.LINK_STATUS.MS_MASTER n) = (roleOf g p).getD false) ∧
        (∀ r, spireFail g (bitsOf e 31 28) p = some r →
          (r = rPARTNER_MISMATCH ∨ g.spireOnly = true ∨ std = 0 →
            t.link n = stSENSE ∧ t.rd (F.LINK_STATUS.LAST_DOWN n) = r) ∧
          (r ≠ rPARTNER_MISMATCH → g.spireOnly = false → std ≠ 0 →
            t.link n = stTRAIN ∧ t.rd (F.LINK_STATUS.MODE n) = std ∧
            t.rd (F.LINK_STATUS.LAST_DOWN n) = s.rd (F.LINK_STATUS.LAST_DOWN n))))

/-- Training (02_port_modes_negotiation.md R46, R52, 04_equalisation_cancellation.md R115-R122): each phase hands over to the
next, a failed check ends the attempt with its code of R120, an attempt that fails leads to the next lower common rate after the
silence or to SENSE with TRAIN_TIMEOUT, and a standard mode comes up, with the precoder that its clause's exchange gives
(03_line_signal_path.md R78, 10_diagnostics_lpi.md R355), or times out as a whole. -/
def Obligations.Training : Prop :=
  ∀ (s : State) (n : Fin 8) (m : PhaseMeas), s.pcsOn n = true → s.link n = stTRAIN →
    let attempt := s.spire n = true ∧ s.port[n].trn.silence = false
    let ends (t : State) :=
      (s.master n = true → Ends (.trainPhaseEnd n m) s t) ∧ (s.master n = false → Ends (.trainPhaseRecognised n m) s t)
    let failed (t : State) (code : Nat) :=
      t.rd (F.TRN_STATUS.TRN_FAIL n) = code ∧
      (∀ k, (∀ j < s.port[n].trn.tier, bitB (s.rd (F.PARTNER_INFO.RES_SRATES n)) j = true → j ≤ k) → k < s.port[n].trn.tier →
        bitB (s.rd (F.PARTNER_INFO.RES_SRATES n)) k = true →
        t.link n = stTRAIN ∧ t.port[n].trn.silence = true ∧ t.port[n].trn.tier = k) ∧
      ((∀ j < s.port[n].trn.tier, bitB (s.rd (F.PARTNER_INFO.RES_SRATES n)) j = false) →
        WentDown t n stSENSE rTRAIN_TIMEOUT)
    (attempt → ∀ ph nx, (ph, nx) ∈ [(phQUIET, phECHO_M), (phDUPLEX2, phDUPLEX4)] → s.phase n = ph →
      ∃ t, ends t ∧ t.link n = stTRAIN ∧ t.phase n = nx) ∧
    (attempt → s.phase n = phECHO_M → ∃ t, ends t ∧
      (if s.master n = true ∧ -384 < m.residual then failed t 2 else t.phase n = phECHO_S)) ∧
    (attempt → s.phase n = phECHO_S → ∃ t, ends t ∧
      (if s.master n = false ∧ -384 < m.residual then failed t 2 else t.phase n = phDUPLEX2)) ∧
    (attempt → s.phase n = phDUPLEX4 → ∃ t, ends t ∧
      (if s.supported n m.snr = true then t.phase n = phINFO else failed t 3)) ∧
    (attempt → s.phase n = phINFO → ∃ t, ends t ∧
      (if s.port[n].trn.info.isSome = true then t.phase n = phPRECODE else failed t 4)) ∧
    (attempt → s.phase n = phPRECODE → ∃ t, ends t ∧
      let lost := ∃ x < 4, m.snr.getD x 0 + 24 < s.port[n].trn.snrD4.getD x 0
      (lost → failed t 5) ∧
      (¬ lost → t.phase n = phFRAME_SYNC ∧ t.rd (F.RTX_RTT.CABLE_DLY n) = min 4095 m.cableDly)) ∧
    (attempt → s.phase n = phINFO → s.port[n].trn.info = none → ∀ content crc : List Nat,
      let votes := content ++ crc
      (infoCrcGood (majorityBits votes) = true → Ends (.infoBlockReceived n content crc) s
        (s.modPort n fun p => { p with trn := { p.trn with info := some (infoOf (majorityBits votes)) } })) ∧
      (infoCrcGood (majorityBits votes) = false → Ends (.infoBlockReceived n content crc) s s) ∧
      ∀ k < 3136, votes.getD k 0 ≠ 128 → (majorityBits votes)[k]? = some (decide (128 < votes.getD k 0))) ∧
    (attempt → (∃ t, Ends (.partnerSilentExpiry n) s t ∧ failed t 1) ∧ (∃ t, Ends (.trainWaitExpiry n) s t ∧ failed t 7) ∧
      (s.phase n = phFRAME_SYNC → ∃ t, Ends (.frameSyncTimeout n) s t ∧ failed t 6)) ∧
    (s.port[n].trn.silence = true → ∃ t, Ends (.trainSilenceEnd n) s t ∧ t.phase n = phQUIET ∧
      t.port[n].trn.silence = false ∧ t.link n = stTRAIN) ∧
    (s.spire n = false → (∃ t, Ends (.trainWaitExpiry n) s t ∧ WentDown t n stSENSE rTRAIN_TIMEOUT) ∧
      ∀ coef own, ∃ t, Ends (.stdTrainComplete n ⟨coef, own⟩) s t ∧ t.link n = stUP ∧ t.on (F.LINK_EVENT.LINK_UP n) = true ∧
        t.rd (F.LINK_COUNT.UP_CNT n) = (s.rd (F.LINK_COUNT.UP_CNT n) + 1) % 2 ^ 16 ∧
        t.on (F.LPI_STATUS.LPI_RES n) =
          (s.on (F.LPI_CTRL.LPI_EN n) && s.port[n].neg.advEee && s.port[n].neg.partnerEee) ∧
        ∀ x < 4, t.rd (F.EQ_STATUS.DFE_LEN n x) = 16 ∧
          t.rd (F.EQ_STATUS.THP_LEN n x) = if s.rd (F.LINK_STATUS.MODE n) < 3 then 0 else min 48 (coef.length / 4))

/-- Losing the link in UP and in HOLD, and presence checks (02_port_modes_negotiation.md R52, R55-R58,
07_retransmission_spill.md R231, 10_diagnostics_lpi.md R748). That a refused check sets PCHK_DONE is the model's choice (log
entry 76), and that SENSE shows during the break silence (log entry 72). -/
def Obligations.LinkLossAndPresence : Prop :=
  ∀ (s : State) (n : Fin 8), s.pcsOn n = true →
    let started (t : State) := t.on (F.PCHK.PCHK_BUSY n) = true ∧ t.rd (F.PCHK.PCHK_RESULT n) = 0 ∧ t.rd (F.PCHK.PCHK_DIST n) = 0
    (s.link n = stUP → s.spire n = false → ∃ t, Ends (.stdLinkFail n) s t ∧ WentDown t n stSENSE rSTD_LINK_FAIL) ∧
    (s.link n = stHOLD → ∃ t, Ends (.linkDownTimerExpiry n) s t ∧ WentDown t n stSENSE rSPIRE_LDT) ∧
    (s.link n = stHOLD → s.on (F.SENSE_CTRL.FAST_DEPART n) = true → ∃ t, Ends (.fastDeparture n) s t ∧
      WentDown t n stSENSE rPARTNER_GONE ∧
      (s.port[n].neg.leaveDue = true → t.on (F.LINK_EVENT.PARTNER_LEAVE n) = true)) ∧
    (s.link n = stHOLD → s.domOn (14 * n.val + 10) = true →
      Ends (.inpExceeded n) s (s.wrB (F.RTX_EVENT.INP_EXCEEDED n) true)) ∧
    (∀ pair : Fin 4, s.checking n = false →
      (s.link n = stDISABLED ∧ s.domOn (14 * n.val + s.pairSlice n pair.val) = true ∨ s.link n = stDORMANT) →
      ∃ t, Ends (.pchkGo n pair) s t ∧ started t ∧ t.rd (F.PCHK.PCHK_PAIR n) = pair.val) ∧
    (∀ pair : Fin 4, (s.checking n = true ∨ stDORMANT < s.link n ∨
      s.link n = stDISABLED ∧ s.domOn (14 * n.val + s.pairSlice n pair.val) = false) →
      ∃ t, Ends (.pchkGo n pair) s t ∧ t.rd (F.PCHK.PCHK_RESULT n) = 5 ∧ t.on (F.LINK_EVENT.PCHK_DONE n) = true ∧
        t.rd (F.PCHK.PCHK_DIST n) = s.rd (F.PCHK.PCHK_DIST n) ∧ t.on (F.PCHK.PCHK_BUSY n) = s.on (F.PCHK.PCHK_BUSY n)) ∧
    (s.link n = stDORMANT → s.rd (F.SENSE_CTRL.PCHK_PERIOD n) ≠ 0 → s.checking n = false →
      ∃ t, Ends (.pchkPeriodExpiry n) s t ∧ started t) ∧
    (s.on (F.PCHK.PCHK_BUSY n) = true → ∀ active sums peaks,
      let r := (s.pchkFind n active sums peaks).1
      (active = true → r = (4, 0)) ∧ (active = false → peaks = [] → r = (1, 0)) ∧
      ∃ t, Ends (.pchkDone n active ⟨sums, peaks⟩) s t ∧ t.on (F.PCHK.PCHK_BUSY n) = false ∧ t.rd (F.PCHK.PCHK_RESULT n) = r.1 ∧
        t.rd (F.PCHK.PCHK_DIST n) = r.2 ∧ t.on (F.LINK_EVENT.PCHK_DONE n) = true ∧
        (s.link n = stDORMANT → t.link n = if r.1 = 1 ∨ r.1 = 4 then stSENSE else stDORMANT))
/-! ### Slices, crossbar, impulse detectors, adaptation -/

/-- Trims and the crossbar (03_line_signal_path.md R75, R85, R87, R89-R91): a copy gives the active set the shadow set's values; a
request is done at once, waits for its switch point, or is refused without effect. A copy and a switch point fall on a boundary of
R75, in the transmit direction (the direction is the model's reading, log entry 89), and in no quiet period of low-power idle
(10_diagnostics_lpi.md R363). -/
def Obligations.TrimsAndCrossbar : Prop :=
  ∀ (s : State) (n : Fin 8) (x : Fin 5) (p : Fin 4),
    let st := s.rd (F.XB_STATUS.XB_STATE n)
    let cur := s.rd (F.XB_STATUS.XB_CUR_PAIR n)
    let swaps := s.rd (F.XB_STATUS.XB_SWAPS n)
    let mode := s.rd (F.LINK_STATUS.MODE n)
    let free := s.handover n = false ∧ s.on (F.XB_STATUS.XB_BUSY n) = false
    let took (t : State) (st' p' swaps' : Nat) :=
      t.rd (F.XB_STATUS.XB_STATE n) = st' ∧ t.rd (F.XB_STATUS.XB_CUR_PAIR n) = p' ∧ t.rd (F.XB_STATUS.XB_RESULT n) = 1 ∧
        t.on (F.XB_STATUS.XB_BUSY n) = false ∧ t.port[n].sl.xbPend = none ∧ t.rd (F.XB_STATUS.XB_SWAPS n) = swaps'
    let waits (t : State) (w : XbPend) :=
      t.rd (F.XB_STATUS.XB_STATE n) = st ∧ t.rd (F.XB_STATUS.XB_CUR_PAIR n) = cur ∧ t.on (F.XB_STATUS.XB_BUSY n) = true ∧
        t.port[n].sl.xbPend = some w
    let refused (t : State) :=
      t.rd (F.XB_STATUS.XB_STATE n) = st ∧ t.rd (F.XB_STATUS.XB_CUR_PAIR n) = cur ∧ t.rd (F.XB_STATUS.XB_RESULT n) = 2 ∧
        t.on (F.XB_STATUS.XB_BUSY n) = s.on (F.XB_STATUS.XB_BUSY n)
    let atOnce := s.link n ≠ stUP ∧ s.link n ≠ stHOLD
    let atPoint := s.link n = stHOLD ∨ (s.link n = stUP ∧ mode ≠ 1 ∧ mode ≠ 2)
    let aligned := s.rd (F.LPI_STATUS.TX_LPI n) ≠ lpiQUIET ∧ (s.spire n = true → s.link n = stUP →
      s.port[n].fr.txRungIdx % alignFrames (rungBits (s.rd (F.LAD_STATUS.TX_RUNG n))) = 0)
    (s.sliceOn n x = true → ∃ t, Ends (.trimApply n x) s t ∧ t.on (F.SLICE_CTRL.TRIM_PEND n x) = true) ∧
    (¬ aligned → Ends (.trimCopy n x) s s ∧ Ends (.xbSwitchPoint n) s s) ∧
    (s.sliceOn n x = true → s.on (F.SLICE_CTRL.TRIM_PEND n x) = true → s.link n ≠ stHOLD → aligned →
      ∃ t, Ends (.trimCopy n x) s t ∧ t.on (F.SLICE_CTRL.TRIM_PEND n x) = false ∧
        ∀ f ∈ trimFields n x, t.rd f.hidden = s.rd f % 2 ^ f.width ∧ t.rd f = s.rd f) ∧
    (s.xbOn n = true →
      (free → st = xbIDLE ∨ (st = xbSHADOW ∧ cur ≠ p) → ∃ t, Ends (.xbShadow n p) s t ∧ took t xbSHADOW p swaps) ∧
      (free → st = xbSHADOW ∨ (st = xbSPARE ∧ s.link n ≤ stSENSE) → ∃ t, Ends (.xbIdle n p) s t ∧ took t xbIDLE 0 swaps) ∧
      (st = xbIDLE ∨ st = xbSHADOW ∨ (st = xbSWAP ∧ cur = p) →
        ∃ t, Ends (.xbSpare n p) s t ∧ took t xbSPARE p ((swaps + 1) % 2 ^ 16)) ∧
      (free → st = xbSHADOW → cur = p →
        ∃ t, Ends (.xbSwap n p) s t ∧ (atOnce → took t xbSWAP p ((swaps + 1) % 2 ^ 16)) ∧ (atPoint → waits t (.swap p)) ∧
          (s.link n = stUP → mode = 1 ∨ mode = 2 → refused t)) ∧
      (free → st = xbSWAP → cur = p →
        ∃ t, Ends (.xbHandback n p) s t ∧ (atOnce → took t xbSHADOW p swaps) ∧ (atPoint → waits t (.handback p)) ∧
          (s.link n = stUP → mode = 1 ∨ mode = 2 → refused t)) ∧
      (s.on (F.XB_STATUS.XB_BUSY n) = true → ∃ t, Ends (.xbSwap n p) s t ∧ refused t) ∧
      (s.link n ≠ stHOLD → aligned → s.shiftHere n = false →
        (s.port[n].sl.xbPend = some (.swap p) →
          ∃ t, Ends (.xbSwitchPoint n) s t ∧ took t xbSWAP p ((swaps + 1) % 2 ^ 16)) ∧
        (s.port[n].sl.xbPend = some (.handback p) →
          ∃ t, Ends (.xbSwitchPoint n) s t ∧ took t xbSHADOW p swaps)))

/-- Impulse detectors, coefficient updates and freezes (03_line_signal_path.md R92, R93, R100, R101,
04_equalisation_cancellation.md R104, R111-R113, R117, R123, R126): a flag rises by either criterion and counts, and the
long-term mean tracks while it is down (how it tracks the spec leaves open, log entry 87); an update follows the law of the
training schedule, or the register's outside it, and a frozen filter's coefficients stand; a freeze cause goes from the filters it
names; a block of 2^16 symbols that count gives SLC_SNR. -/
def Obligations.ImpulsesAndAdaptation : Prop :=
  ∀ (s : State) (n : Fin 8) (x : Fin 5),
    let flag := F.IMP_STATUS.IMP_FLAG n x
    let cause (f : Nat × Nat) := F.ADAPT.FRZ_CAUSE n f.1 f.2
    let freed (t : State) (p : Nat × Nat → Bool) (bit : Nat) := ∀ f ∈ filters,
      t.rd (cause f) % 2 ^ 8 = (if p f && s.domOn (filterDom n f) && bitB (s.rd (cause f)) bit then s.rd (cause f) - 2 ^ bit
        else s.rd (cause f)) % 2 ^ 8
    (s.sliceOn n x = true → s.rd (F.LPI_STATUS.RX_LPI n) ≠ lpiQUIET → s.on flag = false → ∀ past newest : List Nat,
      let ms := (past ++ newest).map (min 2048)
      let last := ms.drop (ms.length - 16)
      let mean (sums : List Nat) : Nat := sums.foldl
        (fun m v => Config.meanStep (10 + min 10 (s.rd (F.IMP_CTRL.IMP_TAU n x))) m (v * 2 ^ 20)) (s.impMean n x)
      let rises := s.on (F.IMP_CTRL.IMP_EN n x) = true ∧
        (s.critA n x last = true ∨ s.critB n x last (mean (sums16 ms).dropLast) = true)
      (rises → ∃ t, Ends (.impulseFlagRise n x past newest) s t ∧ t.on flag = true ∧
        t.rd (F.IMP_EVENTS.IMP_EVENTS n x) = (s.rd (F.IMP_EVENTS.IMP_EVENTS n x) + 1) % 2 ^ 32) ∧
      (¬ rises → Ends (.impulseFlagRise n x past newest) s (s.modPort n fun p =>
        { p with sl := { p.sl with impMean := spPut p.sl.impMean x (mean (sums16 ms)) } }))) ∧
    (s.sliceOn n x = true → s.on flag = true →
      let us := usUp (s.tb - s.port[n].sl.impStart.getD x 0)
      let longest := s.rd (F.IMP_STATUS.IMP_LONGEST n x)
      (∃ t, Ends (.impulseFlagClear n x) s t ∧ t.on flag = false ∧
        t.rd (F.IMP_STATUS.IMP_LONGEST n x) = if longest < us then min us 65535 else longest) ∧
      (∃ t, Ends (.impEnClear n x) s t ∧ t.on flag = false ∧ t.on (F.IMP_CTRL.IMP_EN n x) = false)) ∧
    (s.sliceOn n x = true → Ends (.impbValidSet n x) s (s.wrB (F.IMP_STATUS.IMPB_VALID n x) true)) ∧
    (∀ w k half2 early win c, coefPlace w = some c → s.active n = true → s.domOn (filterDom n (c.x, 0)) = true →
      s.domOn (filterDom n (c.x, 3)) = true →
      let f := s.rxFilters n c.x
      let wn := s.rxWindow n c.x win
      let sy := rxChain f wn
      let l := s.lawFor n c.x c.f half2 early
      let er := coefInput f wn sy c (w / 4 % 2)
      let reg := s.word [F.ADAPT.ADAPT_EN n c.x c.f, F.ADAPT.FREEZE n c.x c.f, F.ADAPT.LAW n c.x c.f, F.ADAPT.MU n c.x c.f,
        F.ADAPT.LEAK n c.x c.f, F.ADAPT.DECIM n c.x c.f]
      let on := s.frozen n c.x c.f = false ∧ filterOff (s.rd (F.LINK_STATUS.MODE n)) c = false ∧
        (c.f = 4 → c.j ≤ s.rd (F.EQ_STATUS.DFE_LEN n c.x)) ∧ (k + 2 ^ l.dec * c.j - c.j) % 2 ^ l.dec = 0
      (s.phase n < 2 → early = false → l = ⟨bitsOf reg 29 28, bitsOf reg 27 23, bitsOf reg 22 19, bitsOf reg 18 16⟩) ∧
      (2 ≤ s.phase n → s.phase n ≠ phFRAME_SYNC → s.port[n].trn.muOvr = false → l = ⟨0, trnMu (s.phase n) half2 c.f, 0, 0⟩) ∧
      (¬ on → Ends (.adaptCommit n w k half2 early win) s (s.modPort n fun p =>
        { p with eq := { p.eq with chain := spPut p.eq.chain c.x sy } })) ∧
      (on → Ends (.adaptCommit n w k half2 early win) s (s.modPort n fun p =>
        { p with eq := { p.eq with
          chain := spPut p.eq.chain c.x sy
          coef := putCoef p.eq.coef (w / 4) (unsignedOf 24 (adaptStep l.law l.mu l.leak (accFrac c.f) er.1 er.2
            (signedOf 24 ((spFind p.eq.coef (w / 4)).getD 0)))) } }))) ∧
    (∃ t, Ends (.guardEnd n x) s t ∧ freed t (fun f => decide (2 ≤ f.2 ∧ f.1 = x.val)) 3) ∧
    (s.port[n].eq.hangHold = true → ∃ t, Ends (.freezeHangExpiry n true) s t ∧ freed t (fun _ => true) frzHOLD ∧
      t.port[n].eq.hangHold = false) ∧
    (s.port[n].eq.hangImp = true → ∃ t, Ends (.freezeHangExpiry n false) s t ∧ freed t (fun _ => true) frzIMPULSE ∧
      t.port[n].eq.hangImp = false) ∧
    (s.sliceOn n x = true → ∀ gain, ∃ t, Ends (.pgaGainWrite n x gain) s t ∧
      t.rd (F.SLICE_CTRL.PGA_GAIN n x) = gain % 64 ∧
      (s.link n = stTRAIN ∨ s.link n = stUP → ∀ f ∈ filters, 2 ≤ f.2 → s.carriedPair n x = some f.1 →
        s.domOn (filterDom n f) = true → bitB (t.rd (cause f)) 3 = true)) ∧
    (s.domOn (14 * n.val + 6) = true → (x.val = 4 → s.rd (F.XB_STATUS.XB_STATE n) = xbSHADOW) → ∀ errs ps,
      let used := errs.filter fun (r : ErrRun) => !r.flagged
      let sq := (used.map fun r => r.count * (r.eps * r.eps).toNat).sum
      let v := slcSnr (if s.spire n then .inl (s.slicerOrder n (s.chainPair n x)) else .inr ps) sq
      ((used.map (·.count)).sum ≠ 2 ^ 16 → Ends (.snrBlockDone n x ⟨errs, ps⟩) s s) ∧
      ((used.map (·.count)).sum = 2 ^ 16 → Ends (.snrBlockDone n x ⟨errs, ps⟩) s ((s.wr (F.EQ_STATUS.SLC_SNR n x) v).modPort n
        fun p => { p with eq := { p.eq with
          snrValid := p.eq.snrValid.set x true, errSq := spPut p.eq.errSq x sq } })))

/-! ### Framer and retransmission -/

/-- What a frame start sends outside twin operation, low-power idle aside (05_spire_framing_ldpc.md R137-R140, R143, R150,
03_line_signal_path.md R71, R76, R77, 07_retransmission_spill.md R206, R209, R228): the first frames of UP and a stream with
nothing to send give fillers, a replay sends the slot at its pointer, and a new frame goes into the window under the next
sequence number; the frame, scrambled and encoded, reaches the mapper and the precoders, whose histories go on. -/
def Obligations.FramesSent : Prop :=
  ∀ (s : State) (n : Fin 8) (ue : Bool), s.pcsOn n = true → s.spire n = true → s.twinned n = false → s.txActive n = true →
    let f := s.port[n].fr
    let r := s.port[n].rtx
    let rung := s.rd (F.LAD_STATUS.TX_RUNG n)
    let thp := [0, 1, 2, 3].map fun x => coefsAt s.port[n].eq.coef (thpOff x 1) (s.rd (F.EQ_STATUS.THP_LEN n x))
    let scr := if f.txIdx = 0 then scrOnes else scrAdvance 3456 f.txScr
    let sends (t : State) (typ seq ack : Nat) (blks : List Blk) :=
      t.port[n].fr.txIdx = f.txIdx + 1 ∧ t.port[n].fr.txRungIdx = f.txRungIdx + 1 ∧
      ∃ g, t.port[n].fr.txFrame = some g ∧ g.typ = typ ∧ g.seq = seq ∧ g.ack = ack ∧ g.blks = blks ∧
        g.lock = s.on (F.FRM_STATUS.LOCK_RX n) ∧
        t.port[n].fr.tx = f.tx.send (tierRate (rungTier rung)) (rungBits rung) (s.rd (F.LAD_STATUS.TX_LOAD n)) thp
          ((List.range 4096).map (g.codeword scr)) ∧
        t.port[n].fr.txScr = scr ∧
        (s.linkUp n = false → g.nak = false ∧ g.lcmd = lcNONE ∧ g.larg = 0) ∧
        (s.linkUp n = true → g.nak = (r.gap && s.on (F.RTX_CTRL.NAK_EN n) && s.link n != stHOLD))
    let settled := s.linkUp n = true ∧ 16 ≤ f.upFrames
    (s.phase n = phFRAME_SYNC → s.linkUp n = false →
      ∃ t, Ends (.txFrameStart n ue) s t ∧ sends t typFILLER 0 0 idle52) ∧
    (s.linkUp n = true → f.upFrames < 16 →
      ∃ t, Ends (.txFrameStart n ue) s t ∧ sends t typFILLER r.next r.expect idle52 ∧ t.port[n].rtx = r ∧
        t.port[n].fr.upFrames = f.upFrames + 1) ∧
    (settled → r.replay = none → r.winSize ≤ s.outstanding n →
      ∃ t, Ends (.txFrameStart n ue) s t ∧ sends t typFILLER r.next r.expect idle52 ∧ t.port[n].rtx = r) ∧
    (settled → ∀ a, r.replay = some a →
      ∃ t, Ends (.txFrameStart n ue) s t ∧
        sends t typDATA a r.expect (if ue then List.replicate 52 errorBlk else s.slot n a) ∧
        t.port[n].rtx = { r with replay := if 0 ≤ seqDist (seqNext a) r.next then none else some (seqNext a) } ∧
        t.rd (F.RTX_FRAMES.RTX_FRAMES n) = (s.rd (F.RTX_FRAMES.RTX_FRAMES n) + 1) % 2 ^ 32 ∧
        (ue = true → t.on (F.RTX_EVENT.WIN_UE n) = true)) ∧
    (settled → r.replay = none → s.outstanding n < r.winSize → s.spilling (ownPort n) = false →
      ∃ t, Ends (.txFrameStart n ue) s t ∧
        (∀ bs, (s.takeFrame (ownPort n) (s.rd (F.FRM_CTRL.CUT_TH n))).1 = some bs →
          sends t typDATA r.next r.expect bs ∧ t.port[n].rtx = { r with win := spPut r.win r.next bs, next := seqNext r.next }) ∧
        ((s.takeFrame (ownPort n) (s.rd (F.FRM_CTRL.CUT_TH n))).1 = none →
          sends t typFILLER r.next r.expect idle52 ∧ t.port[n].rtx = r))

/-- Decoded frames of a Spire link outside dual tracking, and the decoder halves (05_spire_framing_ldpc.md R151-R153, R155, R156,
R162, R163, R165, R173-R175): frames alternate between the halves in service; a result takes its place in received order and its
counters advance; a failed half hands its work to the other. -/
def Obligations.FramesDecoded : Prop :=
  ∀ (s : State) (n : Fin 8) (h : Fin 2), s.pcsOn n = true →
    let fail (k : Nat) := if k = 0 then F.FRM_STATUS.HALF0_FAIL n else F.FRM_STATUS.HALF1_FAIL n
    let up (k : Nat) := if k = 0 then F.FRM_STATUS.HALF0_UP n else F.FRM_STATUS.HALF1_UP n
    let ok (k : Nat) := s.domOn (14 * n.val + 7 + k) && !s.on (fail k)
    let sel := s.rd (F.FRM_CTRL.HALF_SEL n)
    (s.domOn (14 * n.val + 7 + h.val) = true → ∀ np fl, ∃ t, Ends (.decoderHalfFail n h ⟨none, np, fl⟩) s t ∧
      t.on (fail h.val) = true ∧ t.on (up h.val) = false ∧ t.on (up (1 - h.val)) = ok (1 - h.val)) ∧
    (∃ t, Ends (.halfSelChange n) s t ∧ t.port[n].fr.halfSel = sel ∧
      t.on (up 0) = (ok 0 && (sel != 2 || !ok 1)) ∧ t.on (up 1) = (ok 1 && (sel != 1 || !ok 0))) ∧
    (∀ k newPath (c : DecCtx), s.spire n = true → s.linkUp n = true ∨ s.phase n = phFRAME_SYNC →
      s.rd (F.LPI_STATUS.RX_LPI n) ≠ lpiQUIET → s.rd (F.LAD_STATUS.RX_STATE n) ≠ rxDUAL → s.port[n].fr.rxIdx ≤ k →
      let f := s.port[n].fr
      let cmd (w : RxWord) := Instr.frameDecode n h k newPath c w
      let takes := h.val ∈ f.drain ∨ (s.halvesUp n = 2 ∧ ∀ p, f.par = some p → (h.val + k) % 2 = p) ∨
        (s.halvesUp n ≠ 2 ∧ (s.halvesUp n = 0 ∨ s.halfUp n h = true))
      let ctl := s.frmUsed n c.early
      let lim := s.limitAt n h k newPath c.ran (bitsOf ctl 4 0)
      let put (t : State) (r : RxResult) := (spFind t.port[n].fr.done k).map (·.result) = some r
      let done (t : State) (iters : Nat) :=
        t.rd (F.DEC_FRAMES.H_FRAMES n h) = (s.rd (F.DEC_FRAMES.H_FRAMES n h) + 1) % 2 ^ 32 ∧
        t.rd (F.DEC_ITER_SUM.H_ITER_SUM n h) = (s.rd (F.DEC_ITER_SUM.H_ITER_SUM n h) + iters) % 2 ^ 32
      (¬ takes → ∀ w, Ends (cmd w) s s) ∧
      (c.ran = none → h.val ∉ f.drain → lim = min (iterMaxOf (bitsOf ctl 4 0))
        (s.rxFramePs n / (if s.halvesUp n = 2 then 8000 else 16000))) ∧
      (takes → ok h.val = true →
        (∀ w,
          let r := decodeWord (max 8 (bitsOf ctl 19 16)) lim (bitB ctl 7) (scrAdvance (3456 * (k - f.rxIdx)) f.rxScr)
            (s.llrs n newPath (bitB ctl 20) w) w
          ∃ t, Ends (cmd w) s t ∧ done t r.2.2 ∧ put t (match r.1 with | some g => .good g | none => .failed)) ∧
        ∀ it,
        (∀ g, ∃ t, Ends (cmd (.decided g it)) s t ∧ put t (.good g) ∧ done t (min it lim) ∧
          t.rd (F.FRM_GOOD_LO.GOOD_LO n) = (s.rd (F.FRM_GOOD_LO.GOOD_LO n) + 2 ^ 32 * s.rd (F.FRM_GOOD_HI.GOOD_HI n).hidden + 1) % 2 ^ 32) ∧
        (∃ t, Ends (cmd (.crcBad it)) s t ∧ put t .failed ∧ done t (min it lim) ∧
          t.rd (F.FRM_CRC_FAIL.CRC_FAIL n) = (s.rd (F.FRM_CRC_FAIL.CRC_FAIL n) + 1) % 2 ^ 32 ∧
          t.rd (F.DEC_STAT.H_FAIL n h) = (s.rd (F.DEC_STAT.H_FAIL n h) + 1) % 2 ^ 16) ∧
        (∃ t, Ends (cmd (.lost it)) s t ∧ put t .failed ∧ done t (min it lim) ∧
          t.rd (F.FRM_DEC_FAIL.DEC_FAIL n) = (s.rd (F.FRM_DEC_FAIL.DEC_FAIL n) + 1) % 2 ^ 32 ∧
          t.rd (F.DEC_STAT.H_FAIL n h) = (s.rd (F.DEC_STAT.H_FAIL n h) + 1) % 2 ^ 16)) ∧
      (takes → ok h.val = false → ∀ w, ∃ t, Ends (cmd w) s t ∧ put t .failed ∧
        t.rd (F.FRM_DEC_FAIL.DEC_FAIL n) = (s.rd (F.FRM_DEC_FAIL.DEC_FAIL n) + 1) % 2 ^ 32 ∧
        t.rd (F.DEC_FRAMES.H_FRAMES n h) = s.rd (F.DEC_FRAMES.H_FRAMES n h)))

/-- Frames handed off in received order outside twin operation (05_spire_framing_ldpc.md R159, 07_retransmission_spill.md R214,
R216): frame lock in FRAME_SYNC; in UP the frame that is expected is delivered once, and anything missing sets the gap. -/
def Obligations.FramesHandedOff : Prop :=
  ∀ (s : State) (n : Fin 8) (bad : List Nat), s.pcsOn n = true → s.spire n = true → s.twinned n = false →
    let f := s.port[n].fr
    let r := s.port[n].rtx
    let e := s.side[ownPort n].egress
    let runs := s.linkUp n = true ∨ s.phase n = phFRAME_SYNC
    (runs → spFind f.done f.rxIdx = none → Ends (.frameHandoff n bad) s s) ∧
    (s.linkUp n = false → s.phase n = phFRAME_SYNC → ∀ d, spFind f.done f.rxIdx = some d →
      (d.result = .failed → ∃ t, Ends (.frameHandoff n bad) s t ∧ t.port[n].fr.lockCount = 0 ∧
        t.port[n].fr.rxIdx = f.rxIdx + 1) ∧
      (∀ g, d.result = .good g →
        (g.lock = false → ∃ t, Ends (.frameHandoff n bad) s t ∧ t.port[n].fr.lockCount = min 8 (f.lockCount + 1) ∧
          t.port[n].fr.rxIdx = f.rxIdx + 1 ∧ t.link n = s.link n ∧ t.on (F.FRM_STATUS.LOCK_PARTNER n) = false ∧
          t.on (F.FRM_STATUS.LOCK_RX n) = (s.on (F.FRM_STATUS.LOCK_RX n) || decide (7 ≤ f.lockCount)) ∧
          (g.typ = 3 ∨ g.typ = typSKIP →
            t.rd (F.FIELD_ERR.TYPE_BAD n) = (s.rd (F.FIELD_ERR.TYPE_BAD n) + 1) % 2 ^ 16)) ∧
        (g.lock = true → 7 ≤ f.lockCount → ∃ t, Ends (.frameHandoff n bad) s t ∧ t.link n = stUP ∧
          t.on (F.LINK_EVENT.LINK_UP n) = true ∧ t.port[n].rtx.expect = 0 ∧ t.port[n].rtx.next = 0))) ∧
    (s.link n = stUP → ∀ d, spFind f.done f.rxIdx = some d →
      (d.result = .failed → d.counted = false → s.rd (F.LAD_STATUS.RX_STATE n) ≠ rxDUAL ∨ s.port[n].lad.same = true →
        ∃ t, Ends (.frameHandoff n bad) s t ∧ t.port[n].rtx.gap = true ∧ t.port[n].rtx.expect = r.expect ∧
          (r.fails + 1 < s.blkFails n → t.port[n].rtx.fails = r.fails + 1 ∧ t.link n = stUP) ∧
          (s.blkFails n ≤ r.fails + 1 → t.link n = stHOLD ∧ t.on (F.LINK_EVENT.HOLD_ENTER n) = true)) ∧
      (∀ g, d.result = .good g → ∃ t, Ends (.frameHandoff n bad) s t ∧ t.link n = stUP ∧ t.port[n].rtx.fails = 0 ∧
        t.port[n].fr.rxIdx = f.rxIdx + 1 ∧
        (let dist := seqDist g.seq r.expect
        let room := s.domOn (112 + n.val) = true ∧ e.length + 52 ≤ 8192
        let same := t.port[n].rtx.expect = r.expect ∧ t.side[ownPort n].egress = e
        (g.typ = typDATA → dist = 0 → room → t.port[n].rtx.expect = seqNext r.expect ∧ t.port[n].rtx.gap = false ∧
          t.side[ownPort n].egress = e ++ g.blks) ∧
        (g.typ = typDATA → dist = 0 → s.domOn (112 + n.val) = true → 8192 < e.length + 52 →
          same ∧ t.rd (F.HL_CNT_EG.EG_BACKOFF n) = (s.rd (F.HL_CNT_EG.EG_BACKOFF n) + 1) % 2 ^ 16) ∧
        (g.typ = typDATA → dist < 0 → same ∧ t.port[n].rtx.gap = r.gap ∧
          t.rd (F.RTX_DUP.RX_DUP n) = (s.rd (F.RTX_DUP.RX_DUP n) + 1) % 2 ^ 32) ∧
        (g.typ = typDATA → 0 < dist → same ∧ t.port[n].rtx.gap = true ∧ (dist ≤ 512 →
          t.rd (F.RTX_RX_CNT.RX_AHEAD n) = (s.rd (F.RTX_RX_CNT.RX_AHEAD n) + 1) % 2 ^ 16)) ∧
        (g.typ = typFILLER → same ∧ t.port[n].rtx.gap = (if dist = 0 then false else if 0 < dist then true else r.gap)))))

/-! ### The rate ladder -/

/-- Ladder requests, shifts and their ends (06_rate_ladder.md R178-R183, R195, R200-R205, 04_equalisation_cancellation.md R123),
and the acknowledgement timer, which starts a replay unless a NAK has just started one (07_retransmission_spill.md R211, R212). -/
def Obligations.LadderRequestsAndShifts : Prop :=
  ∀ (s : State) (n : Fin 8), s.pcsOn n = true →
    let tx := s.rd (F.LAD_STATUS.TX_STATE n)
    let rx := s.rd (F.LAD_STATUS.RX_STATE n)
    let l := s.port[n].lad
    (∀ r < 32, ∀ ld < 64,
      let okay := s.linkUp n = true ∧ s.spire n = true ∧ rx = rxIDLE ∧ l.rxHoldoff = false ∧ s.rd (F.LAD_CTRL.LAD_MODE n) ≠ 3 ∧
        r ≤ s.rd (F.PARTNER_INFO.RES_TOP_RUNG n) ∧ r ≤ 26 ∧ rungTier r = rungTier (s.rd (F.LAD_STATUS.RX_RUNG n)) ∧ ld ≤ 47
      (okay → ∃ t, Ends (.lreqGo n r ld) s t ∧ t.rd (F.LAD_REQ.LREQ_RESULT n) = 1 ∧
        t.rd (F.LAD_STATUS.RX_STATE n) = rxREQUESTING ∧ t.port[n].lad.reqRung = r ∧ t.port[n].lad.reqLoad = actLoad r ld) ∧
      (¬ okay → ∃ t, Ends (.lreqGo n r ld) s t ∧ t.rd (F.LAD_REQ.LREQ_RESULT n) = 2 ∧
        t.rd (F.LAD_STATUS.RX_STATE n) = rx ∧ t.port[n].lad = l)) ∧
    (tx = txCOUNTDOWN → ∃ t, Ends (.shiftAbort n) s t ∧ t.rd (F.LAD_STATUS.TX_STATE n) = txIDLE ∧
      t.rd (F.LAD_ABORT.TX_ABORT n) = (s.rd (F.LAD_ABORT.TX_ABORT n) + 1) % 2 ^ 12 ∧
      t.on (F.LAD_EVENT.TX_ABORTED n) = true ∧ t.rd (F.LAD_STATUS.TX_RUNG n) = s.rd (F.LAD_STATUS.TX_RUNG n) ∧
      t.port[n].lad = { l with gotRung := none, gotLoad := none, txIgnore := true }) ∧
    (tx = txCOMMITTED → s.port[n].fr.txRungIdx = l.txBound → ∀ r < 27, ∀ ld < 48, l.gotRung = some r → l.gotLoad = some ld →
      ∃ t, Ends (.shiftBoundary n) s t ∧ t.rd (F.LAD_STATUS.TX_STATE n) = txIDLE ∧ t.rd (F.LAD_STATUS.TX_RUNG n) = r ∧
        t.rd (F.LAD_STATUS.TX_LOAD n) = actLoad r ld ∧ t.on (F.LAD_EVENT.TX_SHIFT n) = true ∧
        t.port[n].fr.txRungIdx = 0 ∧ t.port[n].lad = { l with gotRung := none, gotLoad := none, txIgnore := false } ∧
        t.rd (F.RTX_RTT.RT_BOUND n) =
          min 65535 (rtBound r (s.rd (F.LAD_STATUS.RX_RUNG n)) (s.rd (F.RTX_RTT.CABLE_DLY n)))) ∧
    (rx = rxARMED → ∃ t, Ends (.dualTrackStart n) s t ∧ t.rd (F.LAD_STATUS.RX_STATE n) = rxDUAL ∧
      t.port[n].lad.same = (l.reqRung == s.rd (F.LAD_STATUS.RX_RUNG n) && l.reqLoad == s.rd (F.LAD_STATUS.RX_LOAD n)) ∧
      t.port[n].lad.oldHeld = [] ∧ t.port[n].lad.newHeld = [] ∧ t.port[n].eq = s.port[n].eq ∧
      ∀ f ∈ filters, 2 ≤ f.2 → s.domOn (filterDom n f) = true → bitB (t.rd (F.ADAPT.FRZ_CAUSE n f.1 f.2)) 3 = true) ∧
    (∃ t, Ends (.rxRequestHoldoffEnd n) s t ∧ t.port[n].lad.rxHoldoff = false ∧
      (l.fallback = true → rx = rxIDLE → s.rd (F.LAD_CTRL.LAD_MODE n) < 2 →
        t.rd (F.LAD_STATUS.RX_STATE n) = rxREQUESTING ∧ t.port[n].lad.reqRung = l.prevRung ∧
        t.on (F.LAD_EVENT.FALLBACK n) = true ∧ t.port[n].lad.fallback = false) ∧
      (l.fallback = false → t.rd (F.LAD_STATUS.RX_STATE n) = rx)) ∧
    Ends (.txReqIgnoreEnd n) s (s.modPort n fun p => { p with lad := { p.lad with txIgnore := false } }) ∧
    (∀ a, s.port[n].rtx.lastReplay = some (a, s.tb) → s.port[n].rtx.replay ≠ none → Ends (.ackTimerExpiry n) s s) ∧
    (s.domOn (14 * n.val + 10) = true → s.on (F.RTX_STATUS.ACK_TMR n) = true → s.twinned n = false →
      (∀ a, s.port[n].rtx.lastReplay = some (a, s.tb) → s.port[n].rtx.replay = none) →
      ∃ t, Ends (.ackTimerExpiry n) s t ∧
        t.port[n].rtx.replay =
          (if 0 ≤ seqDist s.port[n].rtx.oldest s.port[n].rtx.next then none else some s.port[n].rtx.oldest) ∧
        t.port[n].rtx.lastReplay = some (s.port[n].rtx.oldest, s.tb) ∧
        t.rd (F.RTX_GOBACK.GB_TIMEOUT n) = (s.rd (F.RTX_GOBACK.GB_TIMEOUT n) + 1) % 2 ^ 16)

/-- A tick of the default policy (06_rate_ladder.md R186, R189, R190, R194, R201): nothing in HOLD and in the first ticks after
it; else what it wants becomes a request, a proposal with its event, a proposal, or nothing, by LAD_MODE. Without a margin, too
many iterations or failures ask for one bit less. -/
def Obligations.LadderTicks : Prop :=
  ∀ (s : State) (n : Fin 8), s.pcsOn n = true → s.linkUp n = true → s.spire n = true →
    let i := s.tickIn n
    let v := s.tickView n i
    let l := s.port[n].lad
    let runs := s.link n ≠ stHOLD ∧ l.skipTicks = 0
    let wants (w : Want) := s.wantDown n i v = some w ∨
      (s.wantDown n i v = none ∧ v.bySnr = false ∧ v.byIter = false ∧ v.byFail = false ∧ s.wantUp n i v = some w)
    let fresh (t : State) := t.port[n].lad.cleanFails = 0 ∧ t.port[n].lad.lastFrames = s.decFrames n ∧
      t.port[n].lad.lastIter = s.decIters n
    let proposes (t : State) (w : Want) := t.on (F.LAD_PROPOSE.P_VALID n) = true ∧
      t.rd (F.LAD_PROPOSE.P_RUNG n) = w.rung % 32 ∧ t.rd (F.LAD_PROPOSE.P_LOAD n) = w.load % 64 ∧
      ∀ m, w.margin = some m → t.rd (F.LAD_PROPOSE.P_MARGIN n) = marginField m % 1024
    let quiet (t : State) := t.rd (F.LAD_STATUS.RX_STATE n) = s.rd (F.LAD_STATUS.RX_STATE n)
    (s.link n = stHOLD → Ends (.ladderTick n) s (s.tickTaken n)) ∧
    (s.link n ≠ stHOLD → 0 < l.skipTicks → Ends (.ladderTick n) s
      ((s.modPort n fun p => { p with lad := { p.lad with skipTicks := p.lad.skipTicks - 1 } }).tickTaken n)) ∧
    (runs → ∃ t, Ends (.ladderTick n) s t ∧ fresh t ∧
      (∀ m, v.margin = some m → t.rd (F.LAD_PROPOSE.CUR_MARGIN n) = marginField m % 1024) ∧
      (s.ladIdle n = false → quiet t) ∧
      (s.ladIdle n = true → ∀ w, wants w →
        (s.rd (F.LAD_CTRL.LAD_MODE n) = 0 → t.rd (F.LAD_STATUS.RX_STATE n) = rxREQUESTING ∧
          t.port[n].lad.reqRung = w.rung ∧ t.port[n].lad.reqLoad = actLoad w.rung w.load) ∧
        (s.rd (F.LAD_CTRL.LAD_MODE n) = 1 → quiet t ∧ proposes t w ∧ t.on (F.LAD_EVENT.PROPOSAL n) = true) ∧
        (s.rd (F.LAD_CTRL.LAD_MODE n) = 2 → quiet t ∧ proposes t w) ∧
        (s.rd (F.LAD_CTRL.LAD_MODE n) = 3 → quiet t)) ∧
      (s.ladIdle n = true → (∀ w, ¬ wants w) → quiet t)) ∧
    (i.ref = none → v.byIter = true ∨ v.byFail = true →
      (v.b = 8 → s.wantDown n i v = none) ∧
      (8 < v.b → s.wantDown n i v = some
        { rung := 9 * v.tier + (v.b - 9), load := actLoad (9 * v.tier + (v.b - 9)) v.load, margin := none })) ∧
    (i.ref = none → v.bySnr = false ∧ s.wantUp n i v = none) ∧
    (v.byFail = true ↔ s.failDn n ≤ l.cleanFails)
/-! ### Ingress, spill, twin paths -/

/-- Blocks from the host (07_retransmission_spill.md R226, R232, 11_host_lanes.md R381, R389, R391): none reaches the port while
the lane is lost in low-power idle, under a loopback or the PRBS checker; a near-end loopback sends them back; a lost lane gives
one Local Fault in 64 block times; a bad block counts; a data block extends the frame that is open, is dropped
with it or truncates it; a start block needs room for a frame, and the counters count in Spire mode; Idle blocks are deleted from a full rate-matching FIFO and
inserted into an empty one; nothing is taken while the link is down. -/
def Obligations.IngressBlocks : Prop :=
  ∀ (s : State) (n : Fin 8) (sync pay fill : Nat) (nextStart : Bool), s.hlOn n = true → s.laneIdle n = false →
    let o := s.ownerOf n
    let q := spillPort o
    let h := s.side[o]
    let c := Instr.ingressBlock n sync pay fill nextStart
    let deaf := s.on (F.HL_PRBS_CTRL.CHK_EN n) = true ∨ s.rd (F.HL_STATUS.LB_CUR n) ≠ 0
    let open' := s.laneLost n = false ∧ ¬ deaf
    let room := h.ingress.length + 1 < 8192
    let counts (t : State) (f : Fld) :=
      (s.spillRegs o = true → s.ownerSpire o = true ∨ 8 ≤ o.val → t.rd f = (s.rd f + 1) % 2 ^ f.width) ∧
      (s.ownerSpire o = false → o.val < 8 → t.rd f = s.rd f)
    let near := s.rd (F.HL_STATUS.LB_CUR n) = 1 ∨ s.rd (F.HL_STATUS.LB_CUR n) = 2
    let blk := (transcodeIn sync pay).1
    (deaf → ¬ near → s.laneLost n = true ∨ s.on (F.HL_PRBS_CTRL.CHK_EN n) = true → Ends c s s) ∧
    (deaf → ∃ t, Ends c s t ∧ t.side[o].ingress = h.ingress ∧
      (near → s.on (F.HL_PRBS_CTRL.GEN_EN n) = false → s.eiCause n = 0 →
        t.lane[n].out = some (if s.rd (F.HL_STATUS.LB_CUR n) = 2 ∧ s.laneLost n = true then localFaultBlk else blk))) ∧
    (s.laneLost n = true → s.on (F.LPI_STATUS.HOST_LPI n) = true → ¬ near → Ends c s s) ∧
    (s.laneLost n = true → s.on (F.LPI_STATUS.HOST_LPI n) = false → ¬ deaf →
      (s.lane[n].lostTimes % 64 ≠ 0 → ∃ t, Ends c s t ∧ t.side = s.side ∧ t.lane[n].lostTimes = s.lane[n].lostTimes + 1) ∧
      (s.lane[n].lostTimes % 64 = 0 → s.ownerUp o = true → h.inFrame = false → room → ∃ t, Ends c s t ∧
        t.side[o].ingress = h.ingress ++ [localFaultBlk])) ∧
    (open' → badBlock sync pay = true → ∃ u : State, Ends c s (u.rateMatch n blk fill nextStart) ∧
      u.rd (F.HL_CNT_ERR.ERR_BLK n) = (s.rd (F.HL_CNT_ERR.ERR_BLK n) + 1) % 2 ^ 16) ∧
    (open' → s.ownerUp o = true → sync = 1 → h.inFrame = true →
      (h.dropping = true → ∃ t, Ends c s t ∧ t.side[o].ingress = h.ingress ∧ t.side[o].dropping = true) ∧
      (h.dropping = false → room → ∃ t, Ends c s t ∧ t.side[o].ingress = h.ingress ++ [⟨false, pay⟩] ∧
        t.side[o].inFrame = true) ∧
      (h.dropping = false → ¬ room → ∃ t, Ends c s t ∧ t.side[o].ingress = h.ingress ++ [errorBlk] ∧
        t.side[o].dropping = true ∧ counts t (F.ING_LOSS.TRUNC q))) ∧
    (open' → s.ownerUp o = true → sync = 2 → pay % 256 ∈ [0x78, 0x33, 0x66] → h.inFrame = false →
      (h.ingress.length + 1208 ≤ 8192 → ∃ t, Ends c s t ∧ t.side[o].ingress = h.ingress ++ [⟨true, pay⟩] ∧
        t.side[o].inFrame = true ∧ t.side[o].dropping = false) ∧
      (8192 < h.ingress.length + 1208 → ∃ t, Ends c s t ∧ t.side[o].ingress = h.ingress ∧ t.side[o].inFrame = true ∧
        t.side[o].dropping = true ∧ counts t (F.ING_DROP.DROP_FRAMES q))) ∧
    (open' → sync = 2 → pay = 0x1E →
      (48 ≤ fill → nextStart = false → ∃ t, Ends c s t ∧ t.side[o].ingress = h.ingress ∧
        t.rd (F.HL_CNT_RM.IDLE_DEL n) = (s.rd (F.HL_CNT_RM.IDLE_DEL n) + 1) % 2 ^ 16) ∧
      (fill ≤ 16 → s.ownerUp o = true → h.inFrame = false → h.ingress.length + 2 < 8192 → ∃ t, Ends c s t ∧
        t.side[o].ingress = h.ingress ++ [idleBlk, idleBlk] ∧
        t.rd (F.HL_CNT_RM.IDLE_INS n) = (s.rd (F.HL_CNT_RM.IDLE_INS n) + 1) % 2 ^ 16)) ∧
    (open' → s.ownerUp o = false → sync = 1 → h.inFrame = true → ∃ t, Ends c s t ∧ t.side[o].ingress = h.ingress ∧
      (s.spillRegs o = true →
        t.rd (F.DOWN_DISCARD.DOWN_DISCARD q) = (s.rd (F.DOWN_DISCARD.DOWN_DISCARD q) + 1) % 2 ^ 32))

/-- Spill pages and twin paths (07_retransmission_spill.md R219-R224, R227, R232, 08_twin_paths.md R259, R270, 14_cupola.md
R499): a page comes from the head of a channel's list or the pool is full; blocks go out in groups of eight and come back
page by page; a reserve that the pool cannot hold is refused; a twin configuration takes effect; the merge stalls where a
member is ahead of it. -/
def Obligations.SpillAndTwin : Prop :=
  ∀ (s : State) (o : Fin 12) (n : Fin 8) (k : Fin 4),
    let h := s.side[o]
    let q := spillPort o
    let r := pullBlocks h.coming (8 - h.wbuf.length) h.outFrame h.ingress
    (s.spillRuns = true → s.needPage o = true ∨ s.atEntry o = true →
      (∀ c, 0 < s.available o → s.allocCh o = some c → ∃ t, Ends (.spillPageAlloc o) s t ∧
        t.side[o].pages = h.pages ++ [{ page := (s.cup.spt.free.getD c []).headD 0 }] ∧ t.side[o].lastCh = some c ∧
        t.cup.spt.free = s.cup.spt.free.set c ((s.cup.spt.free.getD c []).drop 1) ∧ t.spilling o = true ∧
        t.on (F.SPILL_STATUS.SPILL_FULL q) = false) ∧
      (s.canAlloc o = false → ∃ t, Ends (.spillPageAlloc o) s t ∧ t.side[o].pages = h.pages ∧
        t.on (F.SPILL_STATUS.SPILL_FULL q) = true)) ∧
    (s.spillRuns = true → s.spilling o = true →
      (h.open? = none → ∃ t, Ends (.spillWriteDone o) s t ∧ t.side[o].wbuf = h.wbuf ++ r.1 ∧
        t.side[o].ingress = r.2.2 ∧ t.side[o].pages = h.pages) ∧
      (∀ p, h.open? = some p → (h.wbuf ++ r.1).length = 8 → p.groups < 62 → h.mayClose = false →
        ∃ t, Ends (.spillWriteDone o) s t ∧ t.side[o].wbuf = [] ∧ t.side[o].ingress = r.2.2 ∧
          t.side[o].pages = h.pages.dropLast ++
            [{ p with groups := p.groups + 1, blocks := p.blocks + 8, held := p.held ++ (h.wbuf ++ r.1) }])) ∧
    (s.spillRuns = true → h.rbuf.length + 8 ≤ 2048 → ∀ ue,
      (nextRead 0 h.pages = none → h.open? = none → Ends (.spillReadDone o ue) s s) ∧
      (∀ i p, nextRead 0 h.pages = some (i, p) → ∃ t, Ends (.spillReadDone o ue) s t ∧
        (t.side[o].pages[i]?).map SpillPage.readG = some (p.readG + 1) ∧
        (s.chUp (s.cup.chOf (s.cup.pageAddr p.page + 65 * p.readG)) = false →
          t.side[o].rbuf = h.rbuf ++ List.replicate 8 errorBlk))) ∧
    (s.domOn 124 = true → ∃ t, Ends (.spillPagesRelease o) s t ∧ t.side[o].toRelease = [] ∧ t.side[o].pages = h.pages) ∧
    (s.domOn (14 * n.val + 10) = true → ∀ rsv < 2 ^ 16, ∀ mx < 2 ^ 16,
      let w := s.ownerOf n
      let refused := s.spillRsv w < rsv ∧ s.rsvPool < s.rsvSum - s.spillRsv w + rsv
      ∃ t, Ends (.spillRsvWrite n rsv mx) s t ∧ t.rd (F.SPILL_PAGES.SPILL_MAX (spillPort w)) = mx ∧
        (refused → t.spillRsv w = s.spillRsv w ∧ t.on (F.SPILL_STATUS.RSV_REFUSED (spillPort w)) = true) ∧
        (¬ refused → t.spillRsv w = rsv ∧ t.on (F.SPILL_STATUS.RSV_REFUSED (spillPort w)) = false)) ∧
    (s.domOn 124 = true → s.on (F.TW_STATUS.CFG_PEND k) = true → s.active (portOf k 0) = false → s.active (portOf k 1) = false →
      ∃ t, Ends (.twinCfgApply k) s t ∧ t.twActive k = s.on (F.TW_CTRL.TW_EN k) ∧ t.on (F.TW_STATUS.CFG_PEND k) = false ∧
        t.rd (F.TW_STATUS.PAIR_STATE k) = pDOWN ∧ t.twin[k].primary = s.rd (F.TW_CTRL.PRIMARY k)) ∧
    (s.domOn 124 = true → s.twActive k = true →
      let ahead (m : Nat) := s.rd (memberFld k m) = mIN ∧ s.link (portOf k m) = stUP ∧ 0 < seqDist (s.twin[k].mem m).pe (s.em k)
      (¬ ahead 0 → ¬ ahead 1 → Ends (.mergeStall k) s s) ∧
      (∀ m < 2, ahead m → ∃ t, Ends (.mergeStall k) s t ∧ (t.twin[k].mem m).gap = true ∧
        (t.twin[k].mem m).gapStall = true ∧ t.on (F.TW_EVENT.STALL k) = true ∧
        t.rd (F.TW_CNT.STALLS k) = (s.rd (F.TW_CNT.STALLS k) + 1) % 2 ^ 16))
/-! ### The Belfry -/

/-- Enabling, access and sending (09_belfry.md R286-R290, R301, R302, R305, R311, R315, R316, R318, R323): the idle edge and the
gap of the access rounds, the packet that takes an access slot and its symbols on the line, what its end counts, the TX ring,
beacons, and what disabling stops. While XTAL_B has stopped nothing moves (how a transceiver stands still then is the model's
choice, log entry 98). A transceiver keeps every other event without effect (log entry 2). -/
def Obligations.BelfrySending : Prop :=
  ∀ (s : State) (b : Fin 2), s.bfOn b = true →
    let f := s.bf[b]
    let en := s.on (F.BF_CTRL.BF_EN b) = true
    let d0 := s.bfRead (f.txBase + 32 * s.rd (F.TXR_CFG.TX_HEAD b)) 12
    let w (i : Nat) := natOfLE ((d0.1.drop (4 * i)).take 4)
    let run := en ∧ s.rd F.CKC_OSC_STATUS.XB_STATE = 1
    let onLine (t : State) (p : BfTx) := t.on (F.BF_STATUS.TX_ACTIVE b) = true ∧ t.on (F.BF_STATUS.CH_BUSY b) = true ∧
      t.on (F.BF_STATUS.SERVED b) = true ∧ t.bf[b].edge = none ∧ t.bf[b].tx = some p ∧ t.bf[b].line = bfLine p.hdr p.area
    (en → Ends (.bfEnable b) s s) ∧
    (¬ en → ∃ t, Ends (.bfEnable b) s t ∧ t.on (F.BF_CTRL.BF_EN b) = true ∧ t.on (F.BF_STATUS.SERVED b) = true ∧
      t.rd (F.RXR_CFG.RX_HEAD b) = 0 ∧ t.bf[b].edge = some s.tb ∧ t.bf[b].energy = false ∧
      t.bf[b].node = s.rd (F.BF_NODE.NODE 0)) ∧
    (¬ en → Ends (.bfDisable b) s s) ∧
    (en → ∃ t, Ends (.bfDisable b) s t ∧ t.on (F.BF_CTRL.BF_EN b) = false ∧ t.on (F.BF_STATUS.CH_BUSY b) = false ∧
      t.rd (F.BF_STATUS.RX_STATE b) = 0 ∧ t.bf[b].edge = none ∧ t.bf[b].rx = none ∧ t.bf[b].rng = none ∧
      ((∀ d, f.ring = some d → d.started = false ∨ d.dual = false) → t.bf[b].ring = none) ∧
      (∀ d, f.ring = some d → d.started = true → d.dual = true → ∃ own, t.bf[b].ring = some { d with own := own })) ∧
    (s.rd F.CKC_OSC_STATUS.XB_STATE ≠ 1 → ∀ tb, ∀ c ∈ [Instr.accessSlot b tb, .roundGap b, .idleEdge b false, .idleEdge b true,
      .packetTxDone b, .txKick b, .txRingPoll b, .beaconPeriod b, .bcnNow b, .rangeTimeout b], Ends c s s) ∧
    (∃ t, Ends (.bfTxDisable b) s t ∧ t.on (F.BF_CTRL.TX_EN b) = false ∧ t.bf[b].tx = none ∧ t.bf[b].dual = none ∧
      (f.tx.isSome = true → t.on (F.BF_STATUS.TX_ACTIVE b) = false ∧ t.on (F.BF_STATUS.CH_BUSY b) = false)) ∧
    (run → f.tx = none → ∀ e, ∃ t, Ends (.idleEdge b e) s t ∧ t.on (F.BF_STATUS.CH_BUSY b) = false ∧
      t.bf[b].edge = some s.tb ∧ t.bf[b].energy = e) ∧
    (run → f.edge.isSome = true → s.bfBusy b = false → ∃ t, Ends (.roundGap b) s t ∧
      t.on (F.BF_STATUS.SERVED b) = false ∧ t.bf[b].edge = some s.tb ∧ t.bf[b].energy = false) ∧
    (run → s.on (F.BF_CTRL.TX_EN b) = true → s.on (F.BF_STATUS.SERVED b) = false → f.edge.isSome = true → f.energy = false →
      f.tx = none → s.bfBusy b = true → ∀ tb,
      Ends (.accessSlot b tb) s (s.modBf b fun x => { x with edge := none })) ∧
    (run → s.on (F.BF_CTRL.TX_EN b) = true → s.on (F.BF_STATUS.SERVED b) = false → f.edge.isSome = true → f.energy = false →
      s.bfBusy b = false → f.tx = none → ∀ tb,
      (f.rsp.isSome = true → ∃ t, Ends (.accessSlot b tb) s t ∧ t.bf[b].edge = none ∧ t.bf[b].tx = none) ∧
      (f.rsp = none → ∀ p, f.dual = some p → ∃ t, Ends (.accessSlot b tb) s t ∧
        onLine t { p with sfdTb := tb } ∧ t.bf[b].dual = none) ∧
      (f.rsp = none → f.dual = none → ∀ l, f.third = true :: l → s.bcnBad b = true →
        ∃ t, Ends (.accessSlot b tb) s t ∧ t.on (F.BF_EVENT.BCN_BAD b) = true ∧ t.bf[b] = { f with third := l }) ∧
      (f.rsp = none → f.dual = none → ∀ l, f.third = true :: l → s.bcnBad b = false → s.bfCanAuth b (s.bcnHdr b) = true →
        ∃ t p, Ends (.accessSlot b tb) s t ∧ onLine t p ∧ p.src = .beacon ∧
          p.hdr = { s.bcnHdr b with pseq := s.bfPseq } ∧ p.sfdTb = tb ∧ t.bf[b].third = l ∧
          t.bfPseq = (s.bfPseq + 1) % 4096) ∧
      (f.rsp = none → f.dual = none → ∀ l g, f.third = false :: l → f.rng = some g →
        ∃ t p, Ends (.accessSlot b tb) s t ∧ onLine t p ∧ p.src = .rangeReq ∧
          p.hdr = { g.form with pseq := s.bfPseq } ∧ p.area = [] ∧
          t.bf[b].rng = some { g with sent := true, pseq := s.bfPseq }) ∧
      (f.rsp = none → f.dual = none → f.third = [] → ∀ d, f.ring = some d → d.own = true → d.started = false →
        d.dual = false → s.bfCanAuth b (d.hdr f.node) = true →
        ∃ t p, Ends (.accessSlot b tb) s t ∧ onLine t p ∧ p.src = .ring ∧
          p.hdr = { d.hdr f.node with pseq := s.bfPseq } ∧ t.bf[b].ring = some { d with started := true, pseq := s.bfPseq, fc := p.fc })) ∧
    (run → (f.tx = none → Ends (.packetTxDone b) s s) ∧
      (∀ p, f.tx = some p → ∃ t, Ends (.packetTxDone b) s t ∧ t.on (F.BF_STATUS.TX_ACTIVE b) = false ∧
        t.on (F.BF_STATUS.CH_BUSY b) = false ∧ t.rd (F.BF_STATUS.RX_STATE b) = 0 ∧ t.bf[b].tx = none ∧
        t.rd (F.BF_CNT_TX.TX_PKTS b) = (s.rd (F.BF_CNT_TX.TX_PKTS b) + 1) % 2 ^ 16 ∧
        (p.src = .rsp → t.rd (F.BF_CNT_TX.RNG_RESP b) = (s.rd (F.BF_CNT_TX.RNG_RESP b) + 1) % 2 ^ 8))) ∧
    (run → ∀ c ∈ [Instr.txKick b, Instr.txRingPoll b],
      (f.ring.isSome = true ∨ s.on (F.BF_STATUS.RING_ERR_TX b) = true → Ends c s s) ∧
      (f.ring = none → s.on (F.BF_STATUS.RING_ERR_TX b) = false →
        (d0.2.1 = true → ∃ t, Ends c s t ∧ t.on (F.BF_STATUS.RING_ERR_TX b) = true ∧ t.on (F.BF_EVENT.RING_ERR b) = true) ∧
        (d0.2.1 = false → bitB (w 0) 31 = false → Ends c s d0.2.2) ∧
        (d0.2.1 = false → bitB (w 0) 31 = true → ∀ d : BfDesc,
          d = { w0 := w 0, w1 := w 1, w2 := w 2, dual := bitB (w 0) 30, addr := f.txBase + 32 * s.rd (F.TXR_CFG.TX_HEAD b) } →
          (d.hdr f.node).badDesc = false → (d.hdr f.node).auth = false →
          let q := d0.2.2.bfRead (d.w1 + 2 ^ 32 * (d.w2 % 256)) (d.hdr f.node).len
          q.2.1 = false → ∃ t, Ends c s t ∧ t.bf[b].ring = some { d with body := q.1 }))) ∧
    (run → s.on (F.BF_BCN.BCN_EN b) = true → ∀ c ∈ [Instr.beaconPeriod b, Instr.bcnNow b],
      let h := s.bcnHdr b
      let bad := bodyMax h.ncw < h.len ∨ modeOk h.ncw h.sf h.qpsk = false
      (bad → ∃ t, Ends c s t ∧ t.on (F.BF_EVENT.BCN_BAD b) = true ∧ t.bf[b] = f) ∧
      (¬ bad → ∃ t, Ends c s t ∧ true ∈ t.bf[b].third))

/-- Receiving, ranging and keys (09_belfry.md R292, R297, R298, R300, R301, R304, R307-R310, R317, R318, R322, R332,
20_keep_startup.md R702), while XTAL_B runs. A reception takes BF_RXCFG and the equaliser afresh; a word is decided by the
equaliser and the decoder, or comes decided. -/
def Obligations.BelfryReceiving : Prop :=
  ∀ (s : State) (b : Fin 2), s.bfOn b = true →
    let f := s.bf[b]
    let en := s.on (F.BF_CTRL.BF_EN b) = true
    let run := en ∧ s.rd F.CKC_OSC_STATUS.XB_STATE = 1
    let st := s.rd (F.BF_STATUS.RX_STATE b)
    let ended (t : State) := t.rd (F.BF_STATUS.RX_STATE b) = 0 ∧ t.bf[b].rx = none
    (run → f.tx = none → f.rx = none → ∃ t, Ends (.preambleDetect b) s t ∧
      t.rd (F.BF_CNT_RX.RX_DET b) = (s.rd (F.BF_CNT_RX.RX_DET b) + 1) % 2 ^ 16 ∧ t.rd (F.BF_STATUS.RX_STATE b) = 1 ∧
      t.on (F.BF_STATUS.CH_BUSY b) = true ∧ t.bf[b].rx = some { cfg := s.rxCfg b } ∧ t.bf[b].edge = none) ∧
    (run → st = 1 → ∀ tb since fofs snr ys, ∃ t, Ends (.sfdDetect b tb since fofs ⟨snr, ys⟩) s t ∧ t.rd (F.BF_STATUS.RX_STATE b) = 2 ∧
      t.rd (F.BF_STATUS.FOFS_LAST b) = unsignedOf 16 fofs % 2 ^ 16 ∧
      ∀ r, f.rx = some r → t.bf[b].rx = some { r.train ys with tb := tb, since := since, fofs := fofs, snr := snr }) ∧
    (run → st = 1 → ∃ t, Ends (.sfdTimeout b) s t ∧ ended t ∧ t.on (F.BF_STATUS.CH_BUSY b) = false) ∧
    (run → s.on (F.BF_ACCESS.CAPT_EN b) = true → ∀ db ≥ s.rd (F.BF_ACCESS.CAPT_DB b),
      (f.rx = none → Ends (.capture b db) s s) ∧
      (∀ r, f.rx = some r → r.hdr = none → ∃ t, Ends (.capture b db) s t ∧ t.rd (F.BF_STATUS.RX_STATE b) = 1 ∧
        t.rd (F.BF_CNT_ERR.CAPT_AWAY b) = (s.rd (F.BF_CNT_ERR.CAPT_AWAY b) + 1) % 2 ^ 8 ∧
        t.rd (F.BF_CNT_RX.RX_DET b) = (s.rd (F.BF_CNT_RX.RX_DET b) + 1) % 2 ^ 16 ∧ t.bf[b].rx = some { cfg := s.rxCfg b })) ∧
    (run → st = 2 → ∀ r, f.rx = some r →
      (∀ w, (r.decode w).1 = none → ∃ t, Ends (.headerDecode b w) s t ∧ ended t ∧
        t.rd (F.BF_CNT_ERR.HDR_FAIL b) = (s.rd (F.BF_CNT_ERR.HDR_FAIL b) + 1) % 2 ^ 8) ∧
      (∀ v k, hdrBad (v % 2 ^ 64) = true ∨ 8 ≤ (hdrOf v).ptype → ∃ t, Ends (.headerDecode b (.decided v k)) s t ∧ ended t ∧
        t.rd (F.BF_CNT_ERR.HDR_FAIL b) = (s.rd (F.BF_CNT_ERR.HDR_FAIL b) + 1) % 2 ^ 8) ∧
      (∀ v k, hdrBad (v % 2 ^ 64) = false → (hdrOf v).ptype < 8 →
        let h := hdrOf v
        let mine := h.bcast = true ∨ h.dst = f.node
        (¬ mine → s.on (F.BF_CTRL.RX_PROMISC b) = false → ∃ t, Ends (.headerDecode b (.decided v k)) s t ∧ ended t ∧
          t.rd (F.BF_CNT_ERR.HDR_FAIL b) = s.rd (F.BF_CNT_ERR.HDR_FAIL b)) ∧
        (mine ∨ s.on (F.BF_CTRL.RX_PROMISC b) = true → h.ptype ≠ 2 → h.ptype ≠ 3 →
          ∃ t, Ends (.headerDecode b (.decided v k)) s t ∧ t.rd (F.BF_STATUS.RX_STATE b) = 3 ∧
            t.bf[b].rx = some { r with hdr := some h }) ∧
        (h.bcast = false → h.dst = f.node → h.ptype = 2 → s.on (F.BF_CTRL.RNG_RESP_EN b) = true → s.bfCanAuth b h = true →
          ∃ t, Ends (.headerDecode b (.decided v k)) s t ∧ ended t ∧
            t.bf[b].rsp = some { req := h, snr := r.snr, fofs := r.fofs }))) ∧
    (run → st = 3 → ∀ r h, f.rx = some r → r.hdr = some h →
      (r.words.length < h.ncw → ∀ w, ∃ t, Ends (.codewordDecode b w) s t ∧
        let d := r.decode w
        t.bf[b].rx = some { d.2.2 with words := r.words ++ [d.1], iters := max r.iters d.2.1 }) ∧
      (∀ v k, r.decode (.decided v k) = (some v, k, r) ∧ r.decode (.lost k) = (none, k, r)) ∧
      (h.ncw ≤ r.words.length → h.ptype ≠ 3 → s.on (F.BF_CTRL.RX_ERR_DELIV b) = false →
        (∀ w, (r.decode w).1 = none → ∃ t, Ends (.codewordDecode b w) s t ∧ ended t ∧
          t.rd (F.BF_CNT_ERR.LDPC_FAIL b) = (s.rd (F.BF_CNT_ERR.LDPC_FAIL b) + 1) % 2 ^ 8) ∧
        ((∀ w ∈ r.words, w.isSome = true) → h.auth = false → s.on (F.BF_CTRL.RX_UNAUTH b) = false → ∀ v k,
          ∃ t, Ends (.codewordDecode b (.decided v k)) s t ∧ ended t ∧ t.on (F.BF_EVENT.SEC_FAIL b) = true ∧
            t.rd (F.BF_CNT_SEC.TAG_BAD b) = (s.rd (F.BF_CNT_SEC.TAG_BAD b) + 1) % 2 ^ 8)) ∧
      (h.ncw ≤ r.words.length → h.ptype = 3 → f.rng = none → ∀ w, ∃ t, Ends (.codewordDecode b w) s t ∧ ended t)) ∧
    (∀ v, (f.rng.isSome = true ∨ ¬ en → ∃ t, Ends (.rngGo b v) s t ∧ t.rd (F.RNG_CTRL.RNG_STATUS b) = 5 ∧ t.bf[b] = f) ∧
      (f.rng = none → en → ∃ t g, Ends (.rngGo b v) s t ∧ t.rd (F.RNG_CTRL.RNG_STATUS b) = 1 ∧ t.bf[b].rng = some g ∧
        g.dst = bitsOf v 30 25 ∧ g.form.auth = bitB v 24 ∧ g.form.keyId = bitsOf v 23 21 ∧ g.form.qpsk = bitB v 20 ∧
        g.form.sf = bitsOf v 19 18 ∧ g.form.ptype = 2 ∧ g.sent = false ∧ t.bf[b].third = f.third ++ [false])) ∧
    (s.on (F.BF_CTRL.TX_EN b) = true → run → f.tx = none → ∀ tB tb,
      (f.rsp = none → Ends (.rangeRspSend b tB tb) s s) ∧
      (∀ q, f.rsp = some q → s.bfCanAuth b q.req = true → ∃ t p, Ends (.rangeRspSend b tB tb) s t ∧ t.bf[b].tx = some p ∧
        p.src = .rsp ∧ p.hdr.ptype = 3 ∧ p.hdr.dst = q.req.src ∧ p.hdr.src = f.node ∧ p.hdr.len = 10 ∧ p.sfdTb = tb ∧
        t.on (F.BF_STATUS.TX_ACTIVE b) = true ∧ t.bf[b].rsp = none)) ∧
    (s.rd F.CKC_OSC_STATUS.XB_STATE = 1 → ∀ g, f.rng = some g → g.sent = true → g.heard = false → ∃ t, Ends (.rangeTimeout b) s t ∧
      t.rd (F.RNG_CTRL.RNG_STATUS b) = 3 ∧ t.on (F.BF_EVENT.RNG_DONE b) = true ∧ t.bf[b].rng = none) ∧
    (f.rng = none → Ends (.rangeTimeout b) s s) ∧
    (∃ t, Ends (.bfKeySlotLoad b) s t ∧ t.bf[b].keys = s.kepStore.keys ∧ ∀ i < 8,
      bitB (t.rd (F.BF_STATUS.KEY_VALID b)) i = (s.kepStore.keys.getD i none).isSome)

/-! ### Diagnostics, low-power idle, host lanes -/

/-- Cable diagnostics and low-power idle (10_diagnostics_lpi.md R343-R345, R349, R350, R356-R362, R364-R366, R376, R377): a run
starts where the link allows its kind and is refused otherwise or while one is in progress, its end clears DIAG_BUSY and sets
DIAG_DONE; a wear scan falls due behind a run; LM_SET clears a landmark's base and alarm; low-power idle is entered, refreshed
and left, in the transmit and in the receive direction. -/
def Obligations.DiagnosticsAndLpi : Prop :=
  ∀ (s : State) (n : Fin 8), s.pcsOn n = true →
    let busy := s.on (F.DIAG_STATUS.DIAG_BUSY n) = true
    let started (t : State) (k : DiagKind) (pairs : Nat) := t.on (F.DIAG_STATUS.DIAG_BUSY n) = true ∧
      t.rd (F.DIAG_STATUS.DIAG_RESULT n) = 0 ∧ t.port[n].diag.run = some k ∧ t.port[n].diag.pairs = pairs ∧ t.port[n].diag.tb0 = s.tb
    let refused (c : Instr) := ∃ t, Ends c s t ∧ t.rd (F.DIAG_STATUS.DIAG_RESULT n) = 2 ∧ t.port = s.port ∧
      t.rd (F.DIAG_STATUS.DIAG_BUSY n) = s.rd (F.DIAG_STATUS.DIAG_BUSY n)
    let lpi := s.port[n].lpi
    (∀ pairs < 16, ∀ cap avg len,
      (s.checking n = true → ∀ c ∈ [Instr.diagTdr n pairs cap avg len, .diagSnapshot n pairs cap, .diagLoss n pairs, .diagWear n pairs],
        refused c) ∧
      (s.checking n = false →
        (s.link n ≠ stDISABLED → s.link n ≠ stDORMANT → refused (.diagTdr n pairs cap avg len)) ∧
        (s.link n = stDISABLED → s.pairsOn n pairs = true → ∃ t, Ends (.diagTdr n pairs cap avg len) s t ∧ started t .tdr pairs ∧
          t.port[n].diag.avg = min (avg % 16) 10 ∧ t.port[n].diag.len = min (len % 8) 4 ∧ t.port[n].diag.cap = cap) ∧
        (s.link n = stDORMANT → ∃ u, Ends (.diagTdr n pairs cap avg len) s (u.portWake n) ∧ started u .tdr pairs) ∧
        (s.linkUp n = false → refused (.diagSnapshot n pairs cap)) ∧
        (s.linkUp n = true → s.rd (F.LINK_STATUS.MODE n) ≠ 1 → ∃ t, Ends (.diagSnapshot n pairs cap) s t ∧
          started t .snapshot pairs ∧ t.port[n].diag.rate = s.lineRate n) ∧
        (s.link n ≠ stUP → refused (.diagLoss n pairs)) ∧
        (s.link n = stUP → s.rd (F.LINK_STATUS.MODE n) ≠ 1 → s.rd (F.LPI_STATUS.RX_LPI n) = lpiACTIVE →
          ∃ t, Ends (.diagLoss n pairs) s t ∧ started t .loss pairs) ∧
        (s.link n = stUP → s.spire n = true → ∃ t, Ends (.diagWear n pairs) s t ∧ started t .wear pairs))) ∧
    (busy → s.port[n].diag.scanDue = false → ∀ m, ∃ t, Ends (.diagRunEnd n m) s t ∧ t.on (F.DIAG_STATUS.DIAG_BUSY n) = false ∧
      t.on (F.DIAG_EVENT.DIAG_DONE n) = true) ∧
    (s.rd (F.DIAG_CFG.WEAR_PERIOD n) ≠ 0 → s.link n = stUP → s.spire n = true →
      (busy → ∃ t, Ends (.wearScan n) s t ∧ t.port[n].diag.scanDue = true ∧ t.regs = s.regs) ∧
      (¬ busy → Ends (.wearScan n) s (s.echoScan n (s.lineRate n)))) ∧
    (s.rd (F.DIAG_CFG.WEAR_PERIOD n) = 0 → Ends (.wearScan n) s s) ∧
    (∀ (x : Fin 4) (i : Fin 8), ∃ t, Ends (.lmSet n x i) s t ∧ t.on (F.LM_VAL.BASE_VALID n x i) = false ∧
      t.on (F.LM_VAL.LM_ALARM n x i) = false ∧ 8 * x.val + i.val ∉ t.port[n].diag.lmSeen) ∧
    (s.lpiMayEnter n = true → ∃ t, Ends (.lpiTxEntry n) s t ∧ t.rd (F.LPI_STATUS.TX_LPI n) = lpiQUIET ∧
      t.rd (F.LPI_COUNT.TX_ENTRIES n) = (s.rd (F.LPI_COUNT.TX_ENTRIES n) + 1) % 2 ^ 16 ∧
      t.on (F.DIAG_EVENT.TX_LPI_ENTER n) = true ∧ t.port[n].lpi.txStart = s.tb ∧ t.port[n].lpi.wakeDue = false) ∧
    (s.lpiMayEnter n = false → Ends (.lpiTxEntry n) s s) ∧
    (s.rd (F.LPI_STATUS.TX_LPI n) = lpiQUIET → lpi.wakeDue = false → ∃ t, Ends (.lpiRefresh n) s t ∧
      t.rd (F.LPI_TIME.TX_QUIET_US n) = ((lpi.quietNs + (s.tb - lpi.txStart)) / 1000) % 2 ^ 32 ∧
      (s.spire n = true → t.rd (F.LPI_STATUS.TX_LPI n) = lpiREFRESH ∧ t.port[n].lpi.refreshLeft = 16) ∧
      (s.spire n = false → t.rd (F.LPI_STATUS.TX_LPI n) = lpiQUIET ∧ t.port[n].lpi.txStart = s.tb)) ∧
    (lpi.wakeDue = true → s.rd (F.LPI_STATUS.TX_LPI n) = lpiQUIET ∨ s.rd (F.LPI_STATUS.TX_LPI n) = lpiREFRESH →
      ∃ t, Ends (.lpiWake n) s t ∧ t.rd (F.LPI_STATUS.TX_LPI n) = lpiACTIVE ∧ t.port[n].lpi.wakeDue = false ∧
        t.port[n].lpi.wokeTb = some s.tb) ∧
    (s.linkUp n = true → s.on (F.LPI_STATUS.LPI_RES n) = true → s.rd (F.LPI_STATUS.RX_LPI n) ≠ lpiQUIET →
      ∃ u, Ends (.lpiRxSleep n) s ((([0, 1, 2, 3, 4].foldl (fun (v : State) x => v.impClr n x) u).freeze n (fun _ => true) frzLPI
          true).modLane n fun l => { l with lpiTx := true }) ∧ u.rd (F.LPI_STATUS.RX_LPI n) = lpiQUIET ∧
        (s.rd (F.LPI_STATUS.RX_LPI n) = lpiREFRESH → u.rd (F.LPI_COUNT.RX_ENTRIES n) = s.rd (F.LPI_COUNT.RX_ENTRIES n)) ∧
        (s.rd (F.LPI_STATUS.RX_LPI n) ≠ lpiREFRESH → u.on (F.DIAG_EVENT.RX_LPI_ENTER n) = true ∧
          u.rd (F.LPI_COUNT.RX_ENTRIES n) = (s.rd (F.LPI_COUNT.RX_ENTRIES n) + 1) % 2 ^ 16)) ∧
    (s.linkUp n = true → s.rd (F.LPI_STATUS.RX_LPI n) = lpiQUIET → ∃ t, Ends (.lpiRefreshExpected n) s t ∧
      t.rd (F.LPI_STATUS.RX_LPI n) = lpiREFRESH) ∧
    (s.linkUp n = true → s.rd (F.LPI_STATUS.RX_LPI n) ≠ lpiACTIVE → ∃ t, Ends (.lpiRxWake n) s t ∧
      t.rd (F.LPI_STATUS.RX_LPI n) = lpiACTIVE ∧ t.lane[n].lpiTx = false ∧ t.lane[n].lpiEi = false)

/-- The host lanes (11_host_lanes.md R382, R384-R391, R398-R409): what one block time sends, the PRBS generator, what RS-FEC
counts, PAUSE, loopbacks, the loss flags and block lock, the eye and the PRBS checker. -/
def Obligations.HostLanes : Prop :=
  ∀ (s : State) (n : Fin 8) (bad : List Nat), s.hlOn n = true →
    let o := s.ownerOf n
    let h := s.side[o]
    let tx := Instr.egressBlockTx ⟨n, bad, none⟩
    let quiet := s.laneIdle n = false ∧ s.lane[n].protoBad = false
    let plain := quiet ∧ s.laneUnderTest n = false ∧ (o.val < 8 ∨ h.backoff = false)
    let los := s.on (F.HL_STATUS.LOS n) = true
    let lol := s.on (F.HL_STATUS.LOL n) = true
    let lock := s.on (F.HL_STATUS.BLOCK_LOCK n) = true
    let masked := s.on (F.LPI_STATUS.HOST_LPI n) = true
    (s.laneIdle n = true ∨ s.lane[n].protoBad = true → ∃ t, Ends tx s t ∧ t.lane[n].out = none ∧ t.side = s.side ∧ t.regs = s.regs) ∧
    (quiet → o.val < 8 ∨ h.backoff = false → s.on (F.HL_PRBS_CTRL.GEN_EN n) = true → ∀ b bs, h.egress = b :: bs →
      ∃ t, Ends tx s t ∧ t.side[o].egress = bs ∧ t.lane[n].out = none ∧
        t.lane[n].prbsOut = (prbsBits (s.rd (F.HL_PRBS_CTRL.GEN_POLY n)) (s.on (F.HL_PRBS_CTRL.GEN_INV n))
          (if s.rd (F.HL_STATUS.PROTO_CUR n) = 3 then 80 else 66) s.lane[n].prbs).1 ∧
        t.rd (F.HL_DISCARD.HL_DISCARD n) = (s.rd (F.HL_DISCARD.HL_DISCARD n) + 1) % 2 ^ 32) ∧
    (quiet → o.val < 8 ∨ h.backoff = false → s.on (F.HL_PRBS_CTRL.GEN_EN n) = false →
      s.rd (F.HL_STATUS.LB_CUR n) = 1 ∨ s.rd (F.HL_STATUS.LB_CUR n) = 2 → ∀ b bs, h.egress = b :: bs →
      ∃ t, Ends tx s t ∧ t.side[o].egress = bs ∧ t.lane = s.lane ∧
        t.rd (F.HL_DISCARD.HL_DISCARD n) = (s.rd (F.HL_DISCARD.HL_DISCARD n) + 1) % 2 ^ 32) ∧
    (s.on (F.HL_STATUS.FEC_ACT n) = true → ∀ c t,
      Ends tx (s.count (if c then F.HL_FEC_CORR.FEC_CORR n else F.HL_FEC_UNCORR.FEC_UNCORR n)) t →
      Ends (.egressBlockTx ⟨n, bad, some c⟩) s t) ∧
    (plain → h.egError = true → ∃ t, Ends tx s t ∧ t.lane[n].out = some errorBlk ∧ t.side[o].egError = false) ∧
    (plain → h.egError = false → s.ownerUp o = false → ∃ t, Ends tx s t ∧
      t.lane[n].out = downBlk (s.rd (F.HL_CTRL.DOWN_TX n)) (s.rd (F.HL_STATUS.PROTO_CUR n) == 3) ∧ t.side = s.side) ∧
    (plain → h.egError = false → s.ownerUp o = true → h.egFrame = true →
      (∀ b bs, h.egress = b :: bs → ∃ t, Ends tx s t ∧ t.lane[n].out = some b ∧ t.side[o].egress = bs ∧
        t.side[o].egFrame = !b.endsFrame bs.head? true) ∧
      (h.egress = [] → ∃ t, Ends tx s t ∧ t.lane[n].out = some errorBlk ∧ t.on (F.HL_EVENT.UNDERRUN n) = true ∧
        t.rd (F.HL_CNT_EG.EG_UNDERRUN n) = (s.rd (F.HL_CNT_EG.EG_UNDERRUN n) + 1) % 2 ^ 16)) ∧
    (plain → h.egError = false → s.ownerUp o = true → h.egFrame = false → h.pauseOut = [] →
      (∀ q, h.pause = some q → ∀ b bs, pauseBlks (s.rd (F.HL_PAUSE_SA_LO.SA_LO n)) (s.rd (F.HL_PAUSE_SA_HI.SA_HI n)) q = b :: bs →
        ∃ t, Ends tx s t ∧ t.lane[n].out = some b ∧ t.side[o].pauseOut = bs ∧ t.side[o].pause = none ∧
          t.rd (F.HL_CNT_PAUSE.PAUSE_TX n) = (s.rd (F.HL_CNT_PAUSE.PAUSE_TX n) + 1) % 2 ^ 32) ∧
      (h.pause = none → h.egress = [] → s.lane[n].lpiTx = false → ∃ t, Ends tx s t ∧ t.lane[n].out = some idleBlk ∧
        t.rd (F.HL_CNT_RM.IDLE_INS n) = (s.rd (F.HL_CNT_RM.IDLE_INS n) + 1) % 2 ^ 16) ∧
      (h.pause = none → h.egress = [] → s.lane[n].lpiTx = true → ∃ t, Ends tx s t ∧
        t.lane[n].out = if s.lane[n].lpiEi then none else some lpiBlk) ∧
      (h.pause = none → ∀ b bs, (egTrim (s.lane[n].out.any Blk.isTerm) h.egress).1 = b :: bs →
        b.isStart = false ∨ mayRelease (s.rd (F.HL_CTRL.EG_CUT n)) (b :: bs) = true → ∃ t, Ends tx s t ∧
        t.lane[n].out = some b ∧ t.side[o].egress = bs ∧ t.side[o].egFrame = b.isStart ∧
        t.rd (F.HL_CNT_RM.IDLE_DEL n) = (s.rd (F.HL_CNT_RM.IDLE_DEL n) +
          (egTrim (s.lane[n].out.any Blk.isTerm) h.egress).2) % 2 ^ 16)) ∧
    (s.laneIdle n = false → s.on (F.SPILL_STATUS.ICONG (spillPort o)) = true → s.on (F.SPILL_CTRL.FC_EN (spillPort o)) = true →
      ∃ t, Ends (.pauseRefresh n) s t ∧ t.side[o].pause = some (s.rd (F.HL_PAUSE.PAUSE_QUANTA n)) ∧ t.side[o].pauseTb = s.tb) ∧
    (s.on (F.HL_CTRL.LPI_EI n) = true → s.lane[n].lpiTx = true → s.laneUnderTest n = false →
      s.rd (F.HL_STATUS.PROTO_CUR n) = 1 ∨ s.rd (F.HL_STATUS.PROTO_CUR n) = 2 →
      ∃ t, Ends (.lpiEiEntry n) s t ∧ t.lane[n].lpiEi = true) ∧
    (∀ p ∈ [(Instr.lbOff n, 0), (.lbNearSerial n, 1), (.lbNearParallel n, 2), (.lbFarEnd n, 3)],
      let ok := p.2 = 3 → s.linkUp n = true ∧ s.twinned n = false
      (ok → ∃ t, Ends p.1 s t ∧ t.rd (F.HL_CTRL.LB_MODE n) = p.2 ∧ t.rd (F.HL_STATUS.LB_CUR n) = p.2 ∧
        t.rd (F.HL_STATUS.LB_RESULT n) = 1) ∧
      (¬ ok → ∃ t, Ends p.1 s t ∧ t.rd (F.HL_STATUS.LB_CUR n) = s.rd (F.HL_STATUS.LB_CUR n) ∧
        t.rd (F.HL_STATUS.LB_RESULT n) = 2 ∧ t.on (F.HL_EVENT.LB_END n) = true)) ∧
    (¬ los → ¬ masked → ∃ u : State, Ends (.losRise n) s (u.laneFailover n) ∧ u.on (F.HL_STATUS.LOS n) = true ∧
      u.on (F.HL_EVENT.LOS n) = true ∧ u.rd (F.HL_CNT_ERR.LOS_CNT n) = (s.rd (F.HL_CNT_ERR.LOS_CNT n) + 1) % 2 ^ 8 ∧
      u.rd (F.HL_STATUS.EYE_W n) = 0) ∧
    (¬ lol → ¬ masked → ∃ u : State, Ends (.lolRise n) s (u.laneFailover n) ∧ u.on (F.HL_STATUS.LOL n) = true ∧
      u.on (F.HL_EVENT.LOL n) = true ∧ u.rd (F.HL_CNT_ERR.LOL_CNT n) = (s.rd (F.HL_CNT_ERR.LOL_CNT n) + 1) % 2 ^ 8 ∧
      u.rd (F.HL_STATUS.EYE_W n) = 0) ∧
    (masked → Ends (.losRise n) s s ∧ Ends (.lolRise n) s s) ∧
    (los → ∃ t, Ends (.losClear n) s t ∧ t.on (F.HL_STATUS.LOS n) = false ∧
      (¬ lol → lock → t.on (F.HL_EVENT.SIGNAL_OK n) = true)) ∧
    (lol → ∃ t, Ends (.lolClear n) s t ∧ t.on (F.HL_STATUS.LOL n) = false ∧
      (¬ los → lock → t.on (F.HL_EVENT.SIGNAL_OK n) = true)) ∧
    (s.rd (F.HL_STATUS.PROTO_CUR n) ≠ 0 → ¬ lock → ∃ t, Ends (.blockLockGain n) s t ∧ t.on (F.HL_STATUS.BLOCK_LOCK n) = true ∧
      t.on (F.HL_STATUS.FEC_ALIGN n) = s.on (F.HL_STATUS.FEC_ACT n) ∧
      (¬ los → ¬ lol → t.on (F.HL_EVENT.SIGNAL_OK n) = true)) ∧
    (lock → ∃ t, Ends (.blockLockLoss n) s t ∧ t.on (F.HL_STATUS.BLOCK_LOCK n) = false ∧ t.on (F.HL_STATUS.FEC_ALIGN n) = false) ∧
    (s.rd (F.HL_STATUS.PROTO_CUR n) = 1 ∨ s.rd (F.HL_STATUS.PROTO_CUR n) = 2 → ∀ up, ∃ t, Ends (.hiBerChange n up) s t ∧
      t.on (F.HL_STATUS.HI_BER n) = up ∧ (up = true → s.on (F.HL_STATUS.HI_BER n) = false → t.on (F.HL_EVENT.HI_BER n) = true)) ∧
    (¬ los → ¬ lol → ¬ masked → ∀ w, ∃ t, Ends (.eyeUpdate n w) s t ∧ t.rd (F.HL_STATUS.EYE_W n) = min 64 w ∧
      (s.domOn 131 = true → t.rd (F.QF_EYE.EYE_CUR n) = min 64 w)) ∧
    (s.on (F.HL_PRBS_CTRL.CHK_EN n) = true → ∃ t, Ends (.prbsLockGain n) s t ∧ t.on (F.HL_STATUS.PRBS_LOCK n) = true) ∧
    (s.on (F.HL_PRBS_CTRL.CHK_EN n) = true → s.on (F.HL_STATUS.PRBS_LOCK n) = true → ∀ bits errs, ∃ t,
      Ends (.prbsLockLost n bits errs) s t ∧ t.on (F.HL_STATUS.PRBS_LOCK n) = false ∧ t.on (F.HL_EVENT.PRBS_LOCK_LOST n) = true ∧
        t.rd (F.HL_PRBS_ERR.PRBS_ERR n) = min (s.rd (F.HL_PRBS_ERR.PRBS_ERR n) + errs) (2 ^ 32 - 1))
/-! ### The Cupola -/

/-- Channels of the Cupola (14_cupola.md R486, R487, R493, R495, R508, R519, 17_power.md R617): training is taken, refused,
fails and puts a channel in service; refresh, calibration and the parity retry; a failed channel retires with AUTO_RET, and
RETIRE_GO retires one in service; a channel at rest in QUIET powers its DRAM down. -/
def Obligations.CupolaChannels : Prop :=
  ∀ (s : State) (c : Fin 4),
    let st := s.chState c
    let h := s.cup.ch[c]
    let on := s.domOn (120 + c.val) = true
    let svc := st = chSERVICE
    let retired (t : State) (cause : Nat) := t.chState c = chRETIRED ∧ t.rd (F.CH_STATUS.RET_CAUSE c) = cause ∧
      t.chUp c = false ∧ t.on F.CUP_EVENT.RETIRED = true
    let auto := s.on F.CUP_CTRL.AUTO_RET = true
    let failed (i : Instr) (cause : Nat) :=
      (svc → auto → ∃ t, Ends i s t ∧ retired t cause) ∧
      (svc → ¬ auto → Ends i s (s.rise (chanSrc c 2) (s.chErrWords c)))
    let may := s.on (F.CH_CFG.CH_EN c) = true ∧ (st = chUNTRAINED ∨ st = chFAILED ∨ st = chRETIRED)
    (on → may → ∃ t, Ends (.chTrainGo c) s t ∧ t.chState c = chTRAINING ∧ t.rd (F.CH_STATUS.TRAIN_RESULT c) = 0 ∧
      t.rd (F.CH_STATUS.TRAIN_FAIL c) = 0 ∧ t.cup.ch[c].training = true ∧ t.cup.ch[c].cfg = s.chCfg c ∧
      ((s.chCfg c).ok = false → t.cup.ch[c].cfgBad = true)) ∧
    (on → ¬ may → ∃ t, Ends (.chTrainGo c) s t ∧ t.rd (F.CH_STATUS.TRAIN_RESULT c) = 2 ∧ t.chState c = st ∧ t.cup = s.cup) ∧
    (on → h.training = true →
      (h.cfgBad = false → ∃ t, Ends (.chTrainDone c .toInit) s t ∧ t.chState c = chINIT) ∧
      (∀ e, h.cfgBad = true → ∃ t, Ends (.chTrainDone c e) s t ∧ t.chState c = chFAILED ∧ t.rd (F.CH_STATUS.TRAIN_FAIL c) = 1 ∧
        t.rd (F.CH_STATUS.TRAIN_RESULT c) = 3 ∧ t.on F.CUP_EVENT.TRAIN_DONE = true) ∧
      (∀ code lanes, h.cfgBad = false → ∃ t, Ends (.chTrainDone c (.failed code lanes)) s t ∧ t.chState c = chFAILED ∧
        t.rd (F.CH_STATUS.TRAIN_FAIL c) = max 2 (min 8 code) ∧ t.rd (F.CH_STATUS.TRAIN_RESULT c) = 3 ∧
        t.on F.CUP_EVENT.TRAIN_DONE = true ∧ t.cup.ch[c].training = false) ∧
      (h.cfgBad = false → ∃ t, Ends (.chTrainDone c .trained) s t ∧ t.chState c = chSERVICE ∧ t.chUp c = true ∧
        t.rd (F.CH_STATUS.TRAIN_RESULT c) = 1 ∧ t.on F.CUP_EVENT.TRAIN_DONE = true)) ∧
    (on → svc →
      (∀ k ≤ h.refDebt + 1, ∃ t, Ends (.dramRefresh c k) s t ∧ t.regs = s.regs ∧
        t.cup.ch[c].refDebt + t.cup.ch[c].refs = h.refDebt + 1 + h.refs ∧ h.refs + k ≤ t.cup.ch[c].refs ∧
        t.cup.ch[c].refDebt ≤ 8) ∧
      (∃ t, Ends (.zqcs c) s t ∧ t.regs = s.regs ∧ t.cup.ch[c].zqcs = h.zqcs + 1) ∧
      (s.rd (F.CH_CFG.RETRAIN_S c) ≠ 0 → Ends (.recentre c true) s s ∧ failed (.recentre c false) 3) ∧
      (∀ same, (same = true → h.retries + 1 < 16) → ∃ t, Ends (.caParityError c same) s t ∧
        t.rd (F.CH_ECC.CAP_RETRY c) = (s.rd (F.CH_ECC.CAP_RETRY c) + 1) % 2 ^ 8 ∧ t.chState c = chSERVICE ∧
        t.cup.ch[c].retries = if same then h.retries + 1 else 1) ∧
      (h.retries + 1 = 16 → auto → ∃ t, Ends (.caParityError c true) s t ∧ retired t 2)) ∧
    (∀ cause ∈ [1, 2, 3, 6], failed (.channelFailure c cause) cause ∧ (¬ svc → Ends (.channelFailure c cause) s s)) ∧
    (s.domOn 124 = true → (svc → ∃ t, Ends (.retireGo c) s t ∧ retired t 5) ∧
      (¬ svc → ∃ t, Ends (.retireGo c) s t ∧ t.chState c = st ∧ t.rd F.CUP_CTRL.RETIRE_CH = c.val)) ∧
    (s.rd F.PWC_MODE.MODE = 1 → s.chUp c = true → s.waitingAt c = [] → ∃ t, Ends (.dramPowerDown c) s t ∧
      t.cup.ch[c].powerDown = true ∧ t.regs = s.regs)

/-- Requests, regulation, patrol and the pool (14_cupola.md R32, R491, R492, R497, R500, R502-R506, R511, R516, R528). -/
def Obligations.CupolaRequests : Prop :=
  ∀ (s : State) (c : Fin 4), 
    let up := s.domOn 124 = true
    let inside (a len : Nat) := ddrBase ≤ a ∧ a + len ≤ ddrBase + s.cup.capacity
    let written (i : Fin 32) (v : Nat) := ((s.wr (F.BWR_CLIENT.CLASS i) (v / 2 ^ 30)).wr (F.BWR_CLIENT.BUDGET i) v).wr
      (F.BWR_CLIENT.RSV29 i) (v / 2 ^ 16)
    let ctrl (v : Nat) := (((s.wr F.BWR_CTRL.WIN (v / 2 ^ 26)).wr F.BWR_CTRL.URG_WR (v / 2 ^ 22)).wr F.BWR_CTRL.URG_RD
      (v / 2 ^ 18)).wr F.BWR_CTRL.RSV17 v
    let turned (u : State) := s.gBudget * u.winNow < u.gBudget * s.winNow ∧ overLimit u.limit10 u.gBudget u.winNow = true
    let cfgRefused (i : Instr) := ∃ t, Ends i s t ∧ t.on F.SPL_STATUS.CFG_REFUSED = true ∧
      t.rd F.SPL_CFG.SPL_EN = s.rd F.SPL_CFG.SPL_EN ∧ t.rd F.SPL_CFG.SPL_PAGES = s.rd F.SPL_CFG.SPL_PAGES ∧ t.cup = s.cup
    (∀ mid cl a len wr data,
      (admitDdr mid = true → clientFits mid cl = true → inside a len → ∃ t, Ends (.memoryRequest mid cl a len wr data) s t ∧
        t.cup.waiting = s.cup.waiting ++ splitUnits mid cl wr (len / 64 + 2) (a - ddrBase) len data ∧ t.regs = s.regs) ∧
      (admitDdr mid = false ∨ ¬ inside a len → ∃ t, Ends (.memoryRequest mid cl a len wr data) s t ∧ t.cup = s.cup ∧
        t.bus = { master := mid, err := true, unc := false, data := 0 }) ∧
      (admitDdr mid = false → inside a (len + 1) → a < 2 ^ 40 → ∃ u, Ends (.memoryRequest mid cl a len wr data) s u ∧
        u = (s.rise 0x200 [mid + 2 ^ 8 * (a / 2 ^ 32), a % 2 ^ 32, b2n wr]).reply mid true false 0)) ∧
    (∀ errs, (s.cup.granted = [] → s.chUp c = true → Ends (.memoryRequestDone c errs) s s) ∧
      (∀ p l, s.cup.granted = p :: l → s.cup.chOf p.1.addr = c.val → ∃ t, Ends (.memoryRequestDone c errs) s t ∧
        t.bus.master = p.1.mid ∧ (p.1.write = false → t.bus.err = false))) ∧
    (up → s.chUp c = true →
      (s.waitingAt c = [] → Ends (.bwrGrant c) s s) ∧
      (∀ u, s.waitingAt c = [u] → u.client < 32 → ∃ t, Ends (.bwrGrant c) s t ∧
        t.cup.waiting = s.cup.waiting.erase u ∧ t.cup.granted = s.cup.granted ++ [(u, s.grantClass u.client)] ∧
        (spFind t.cup.winBytes u.client).getD 0 = (spFind s.cup.winBytes u.client).getD 0 + 64)) ∧
    (up → ∃ t, Ends .bwrWindow s t ∧ t.cup.winBytes = [] ∧ ∀ i : Fin 32,
      t.rd (F.BWR_OVER.OVER_WIN i) = if s.rd (F.BWR_CLIENT.BUDGET i) ≠ 0 ∧
        64 * s.rd (F.BWR_CLIENT.BUDGET i) < (spFind s.cup.winBytes i).getD 0 then (s.rd (F.BWR_OVER.OVER_WIN i) + 1) % 2 ^ 32
        else s.rd (F.BWR_OVER.OVER_WIN i)) ∧
    (up → ∀ i v, (turned (written i v) → Ends (.bwrClientWrite i v) s (s.wrB F.BWR_FLAGS.ADM_REFUSED true)) ∧
      (¬ turned (written i v) → ∃ t, Ends (.bwrClientWrite i v) s t ∧ t.on F.BWR_FLAGS.ADM_REFUSED = false ∧
        t.rd (F.BWR_CLIENT.CLASS i) = v / 2 ^ 30 % 4 ∧ t.rd (F.BWR_CLIENT.BUDGET i) = v % 2 ^ 16)) ∧
    (up → ∀ v, (turned (ctrl v) → Ends (.bwrCtrlWrite v) s (s.wrB F.BWR_FLAGS.ADM_REFUSED true)) ∧
      (¬ turned (ctrl v) → ∃ t, Ends (.bwrCtrlWrite v) s t ∧ t.on F.BWR_FLAGS.ADM_REFUSED = false ∧
        t.rd F.BWR_CTRL.WIN = v / 2 ^ 26 % 64)) ∧
    (up → s.on F.SCRUB_CTRL.SCRUB_EN = true → ∀ a e, a < s.cup.capacity → s.chUp (s.cup.chOf a) = true →
      ∃ u : State, Ends (.scrubRead a e) s u.patrolNext ∧ u.cup.scrubbed = s.cup.scrubbed ∧
        (u.patrolTotal ≤ s.cup.scrubbed + 1 → u.patrolNext.cup.scrubbed = 0 ∧ u.patrolNext.cup.passTb = u.tb) ∧
        (s.cup.scrubbed + 1 < u.patrolTotal → u.patrolNext.cup.scrubbed = s.cup.scrubbed + 1)) ∧
    (up → ∀ pages < 2 ^ 18,
      (s.on F.SPL_CFG.SPL_EN = false → ∃ t, Ends (.splEnable pages) s t ∧ t.on F.SPL_CFG.SPL_EN = true ∧
        t.rd F.SPL_CFG.SPL_PAGES = pages ∧ t.on F.SPL_STATUS.SPL_RDY = false ∧ t.cup.spt.building = true ∧
        t.cup.spt.pages = min pages 131072) ∧
      (s.on F.SPL_CFG.SPL_EN = true → pages ≠ s.rd F.SPL_CFG.SPL_PAGES → cfgRefused (.splEnable pages))) ∧
    (up → s.cup.spt.building = true → ∃ t, Ends .splTableReady s t ∧ t.on F.SPL_STATUS.SPL_RDY = true ∧
      t.cup.spt.building = false) ∧
    (up → s.on F.SPL_CFG.SPL_EN = true → s.rd F.SPL_CFG.SPL_PAGES < 2 ^ 18 →
      (s.anyHeld = true → cfgRefused .splDisable) ∧
      (s.anyHeld = false → ∃ t, Ends .splDisable s t ∧ t.on F.SPL_CFG.SPL_EN = false ∧ t.on F.SPL_STATUS.SPL_RDY = false)) ∧
    (up → s.on F.SPL_CFG.SPL_EN = true → ∀ k < s.cup.spt.pages,
      (s.holder k = none → ∃ t, Ends (.sptOwnerScan k) s t ∧ k ∈ t.cup.spt.bad ∧ ∀ l ∈ t.cup.spt.free, k ∉ l) ∧
      (∀ o, s.holder k = some o → Ends (.sptOwnerScan k) s (s.sptLost k)))
/-! ### The register fabric and the host interfaces -/

/-- Accesses to registers (00_scope.md R8, R12, 01_architecture.md R37, 15_host_access_mailboxes.md R532-R538, R550, R746): a
check that fails ends the access with a bus error and no effect but its source and the host's capture; a posted write is held,
and its completion returns at once; with a full queue it is dropped; a write that is not posted takes effect, or meets the boot
lock; a read returns the addressed bytes; a stopped clock ends in the register access bound; a held write is delivered in order,
or dropped. -/
def Obligations.FabricAccesses : Prop :=
  ∀ (s : State) (mid ofs len data : Nat),
    let wr := Instr.registerWrite mid ofs len data
    let rd (i : Instr) := i = .rclRead mid ofs len ∨ i = .counterLowRead mid ofs len ∨
      (s.clockGone ofs = true ∧ i = .registerReadTimeout mid ofs len)
    let entry (v : View) : Held := { mid := mid, tag := 0, addr := ofs % 2 ^ 26, view := v, data := data % 2 ^ 32, tb := s.tb }
    (s.fabricRuns = false → Ends wr s s ∧ (∀ i, rd i → Ends i s s) ∧
      ∀ page b, Ends (.postedWriteDelivery page) s s ∧ Ends (.postedWriteDiscard page b) s s) ∧
    (s.clockGone ofs = false → Ends (.registerReadTimeout mid ofs len) s s) ∧
    (s.fabricRuns = true → ¬ (len = 8 ∧ ofs % 8 = 0) →
      (∀ f, s.judge mid ofs len (some data) = .error f → Ends wr s ((s.refuse mid ofs true f).reply mid true false 0)) ∧
      (∀ f, s.judge mid ofs len none = .error f → ∀ i, rd i → Ends i s ((s.refuse mid ofs false f).reply mid true false 0)) ∧
      (∀ pl v, s.judge mid ofs len (some data) = .ok (pl, v) → pl.isThp = true →
        Ends wr s ((s.hostErr mid ofs true failBlock).reply mid true false 0)) ∧
      (∀ pl v, s.judge mid ofs len (some data) = .ok (pl, v) → pl.isThp = false →
        (pl.posted = true → (s.held pl.page.pageBase).length < 8 → ∃ t, Ends wr s t ∧
          t.bus = { master := mid, err := false, unc := false, data := 0 } ∧ t.regs = s.regs ∧
          t.held pl.page.pageBase = s.held pl.page.pageBase ++ [entry v]) ∧
        (pl.posted = true → 8 ≤ (s.held pl.page.pageBase).length →
          Ends wr s ((s.wdrop pl.page mid (ofs % 2 ^ 26)).reply mid false false 0)) ∧
        (pl.posted = false → s.held pl.page.pageBase = [] →
          (s.placeClocked pl = false → Ends wr s ((s.refuse mid ofs true failClock).reply mid true false 0)) ∧
          (s.placeClocked pl = true → s.lockHit (s.placeFields pl) v (data % 2 ^ 32) = false → ∀ u,
            s.regWrite mid v (data % 2 ^ 32) pl = (false, u) → Ends wr s (u.reply mid false false 0)) ∧
          (s.placeClocked pl = true → s.lockHit (s.placeFields pl) v (data % 2 ^ 32) = true → ∃ t, Ends wr s t ∧
            t.bus = { master := mid, err := true, unc := false, data := 0 }))) ∧
      (∀ pl v, s.judge mid ofs len none = .ok (pl, v) → s.held pl.page.pageBase = [] → ∀ i, rd i →
        (s.placeClocked pl = false → Ends i s ((s.refuse mid ofs false failClock).reply mid true false 0)) ∧
        (s.placeClocked pl = true → ∀ w u, s.regRead mid pl = (w, false, u) →
          Ends i s (u.reply mid false false (w / 2 ^ (8 * (ofs % 4)) % 2 ^ (8 * len)))))) ∧
    (s.fabricRuns = true → len = 8 → ofs % 8 = 0 →
      let a := s.write32 mid 0 ofs 4 (data % 2 ^ 32)
      let b := a.2.write32 mid 0 (ofs + 4) 4 (data / 2 ^ 32)
      Ends wr s (b.2.reply mid (a.1 || b.1) false 0)) ∧
    (s.fabricRuns = true → ∀ page,
      (s.held page = [] → ∀ b, Ends (.postedWriteDelivery page) s s ∧ Ends (.postedWriteDiscard page b) s s) ∧
      (∀ h rest pl, s.held page = h :: rest → placeOf h.addr = some pl →
        let dropped := (s.setHeld page rest).wdrop pl.page h.mid h.addr
        (s.heldLive pl = true → Ends (.postedWriteDelivery page) s
          ((s.setHeld page rest).takeEffect h.mid h.addr h.view h.data pl true).2 ∧ Ends (.postedWriteDiscard page false) s s) ∧
        (s.heldLive pl = false → Ends (.postedWriteDelivery page) s dropped ∧ Ends (.postedWriteDiscard page false) s dropped) ∧
        Ends (.postedWriteDiscard page true) s dropped ∧
        (pl.page.pageBase < 0x3000 ∨ 0xC000 ≤ pl.page.pageBase → pl.page.info.kind ≠ .hl →
          dropped.on (F.BUSY.WDROP pl.page.pageBase) = true ∧ dropped.hif.queue = (s.setHeld page rest).hif.queue)))
/-- Mailboxes (15_host_access_mailboxes.md R557-R562): binding a channel, sending a message, its last word's read, and a reset
by the receiver, each by an identity that R560 admits. -/
def Obligations.MailboxCommands : Prop :=
  ∀ (s : State) (mid : Nat) (c : Fin 16),
    let up := s.fabricRuns = true ∧ s.on F.FLT_STATUS.SAFE = false ∧ s.domOn 133 = true ∧ s.held 0x10000 = []
    let inside (u : State) := u.bus = { master := mid, err := false, unc := false, data := 0 }
    let snd := s.rd (F.MBX_BIND.SND_ID c)
    let rcv := s.rd (F.MBX_BIND.RCV_ID c)
    let debug := mid = 0x13 → s.kep.dbg = true
    let emptied (t : State) := t.on (F.MB_STATUS.FULL c) = false ∧ ∀ w : Fin 16, t.rd (F.MB_DATA.WORD c w) = 0
    (up → mid < 2 → s.kep.locked = false → ∀ v, ∃ t, Ends (.mbxBindWrite mid c v) s t ∧ inside t ∧
      t.on (F.MBX_BIND.VALID c) = bitB v 31 ∧ t.rd (F.MBX_BIND.SND_ID c) = v / 2 ^ 8 % 64 ∧ t.rd (F.MBX_BIND.RCV_ID c) = v % 64 ∧
      emptied t) ∧
    (up → mid = snd → debug → s.mbValid c = true → s.on (F.MB_STATUS.FULL c) = false → ∀ (len1 : Fin 16) (db : Fin 32) (en : Bool),
      ∃ t, Ends (.mbSend mid c len1 db en) s t ∧ inside t ∧ t.on (F.MB_STATUS.FULL c) = true ∧
        t.rd (F.MB_STATUS.LEN_M1 c) = len1.val ∧ t.rd (F.MB_STATUS.DB c) = db.val ∧
        t.rd (F.MB_STATUS.MSEQ c) = (s.rd (F.MB_STATUS.MSEQ c) + 1) % 2 ^ 8 ∧
        (∀ w : Fin 16, t.rd (F.MB_DATA.WORD c w) = if len1.val < w.val then 0 else s.rd (F.MB_DATA.WORD c w)) ∧
        ∀ e : Fin 16, t.rd (F.DB_PEND.DB e) = if en = true ∧ epOf rcv = some e.val then
          setBit (s.rd (F.DB_PEND.DB e)) db.val % 2 ^ 32 else s.rd (F.DB_PEND.DB e)) ∧
    (up → mid = snd → debug → s.on (F.MB_STATUS.FULL c) = true → ∀ len1 db en, ∃ t, Ends (.mbSend mid c len1 db en) s t ∧
      t.bus = { master := mid, err := true, unc := false, data := 0 } ∧ t.on (F.MB_STATUS.FULL c) = true) ∧
    (up → mid = rcv → debug → s.mbValid c = true → s.on (F.MB_STATUS.FULL c) = true → s.rd (F.MB_STATUS.LEN_M1 c) < 16 →
      ∃ t, Ends (.mbReceiveLast mid c) s t ∧ emptied t ∧ t.bus.master = mid ∧ t.bus.err = false ∧
        t.bus.data = s.rd (F.MB_DATA.WORD c (s.rd (F.MB_STATUS.LEN_M1 c))) % 2 ^ 32) ∧
    (up → mid = rcv → debug → s.mbValid c = true → ∃ t, Ends (.mbRreset mid c) s t ∧ inside t ∧ emptied t ∧
      ∀ e, epOf snd = some e → bitB (t.rd (F.ABORT.ABRT e)) c = true)

/-- PCIe and MDIO (15_host_access_mailboxes.md R542-R548, R551, R554). -/
def Obligations.HostPorts : Prop :=
  ∀ (s : State) (f : Fin 2),
    let pf := s.hif.fn[f]
    (s.domOn 132 = true → s.pwc.porst = false → s.pwc.aonLow = false → ∃ t, Ends .pcieLinkUp s t ∧ t.hif.linkUp = true ∧ t.regs = s.regs) ∧
    (s.domOn 132 = true → (∃ t, Ends (.pcieHotReset true) s t ∧ t.hif.linkUp = false ∧ ∀ g : Fin 2, t.hif.fn[g] = {}) ∧
      (∃ t, Ends (.pcieHotReset false) s t ∧ t.hif.linkUp = s.hif.linkUp ∧ ∀ g : Fin 2, t.hif.fn[g] = {})) ∧
    (∀ v : Fin 64, (s.hif.linkUp = true → pf.d3 = false → bitB pf.due v.val = true → ∃ t, Ends (.msixSend f v) s t ∧
        t.hif.fn[f].sent = some (v.val, pf.word (4 * v.val) + 2 ^ 32 * pf.word (4 * v.val + 1), pf.word (4 * v.val + 2)) ∧
        t.hif.fn[f].due = pf.due - 2 ^ v.val ∧ t.regs = s.regs) ∧
      (bitB pf.due v.val = false ∨ s.hif.linkUp = false → Ends (.msixSend f v) s s)) ∧
    (s.pcieRuns = false → (∀ q, Ends (.pcieMemRequest f q) s s) ∧ Ends (.pcieFlr f) s s) ∧
    (s.pcieRuns = true →
      (∃ t, Ends (.pcieFlr f) s t ∧ t.hif.fn[f] = {} ∧ t.rd (F.DB_PEND.DB (4 + f.val)) = 0 ∧
        (∀ page h, h ∈ t.held page → h.mid ≠ 0x10 + f.val) ∧ ∀ g : Fin 2, g ≠ f → t.hif.fn[g] = s.hif.fn[g]) ∧
      (∀ d m, ∃ t, Ends (.pcieMemRequest f (.config d m)) s t ∧ t.hif.fn[f].d3 = d ∧ t.hif.fn[f].mask = m ∧ t.regs = s.regs) ∧
      (∀ ofs wr dws, pf.d3 = true ∨ 16 < dws.length → ∃ t, Ends (.pcieMemRequest f (.bar0 wr ofs dws)) s t ∧
        t.hif.cpl = .unsupported ∧ t.regs = s.regs) ∧
      (pf.d3 = false → ∀ ofs, ofs % 4 = 0 → ∀ w u, s.read32 (0x10 + f.val) ofs 4 = (w, false, u) →
        Ends (.pcieMemRequest f (.bar0 false ofs [(15, 0)])) s (u.complete (.data [w] false))) ∧
      (pf.d3 = false → ∀ ofs, ofs % 4 = 0 → ∀ v b u, s.write32 (0x10 + f.val) 0 ofs 4 v = (b, u) →
        Ends (.pcieMemRequest f (.bar0 true ofs [(15, v)])) s ((u.aerLog f b false).complete .none)) ∧
      (pf.d3 = false → ∀ ofs, ofs % 4 = 0 → ∀ w u, s.read32 (0x10 + f.val) ofs 4 = (w, true, u) →
        ∃ t, Ends (.pcieMemRequest f (.bar0 false ofs [(15, 0)])) s t ∧ t.hif.cpl = .abort ∧ t.hif.fn[f].aerAbort = true ∧ t.regs = u.regs) ∧
      (pf.d3 = false → ∀ w < 256, ∀ v, ∃ t, Ends (.pcieMemRequest f (.bar4 true (4 * w) [(15, v)])) s t ∧
        t.hif.fn[f].word w = if w % 4 = 3 then v % 2 else v % 2 ^ 32) ∧
      (f = 1 ∨ pf.d3 = true → ∀ ofs l bs, ∃ t, Ends (.pcieMemRequest f (.bar2Read ofs l)) s t ∧ t.hif.cpl = .unsupported ∧
        ∃ t, Ends (.pcieMemRequest f (.bar2Write ofs bs)) s t ∧ t.hif.cpl = .unsupported)) ∧
    (s.fabricRuns = true → ∀ prt mmd,
      (s.mdioPort prt = none → ∀ op, ∃ t, Ends (.mdioFrame prt mmd op) s t ∧ t.hif.mdio.out = none ∧ t.regs = s.regs) ∧
      (∀ n, s.mdioPort prt = some n →
        let reg := (spFind s.hif.mdio.reg (32 * n.val + mmd % 32)).getD 0
        (∀ a, ∃ t, Ends (.mdioFrame prt mmd (.address a)) s t ∧
          spFind t.hif.mdio.reg (32 * n.val + mmd % 32) = some (a % 2 ^ 16) ∧ t.regs = s.regs) ∧
        (mmd = 30 → (∃ t, Ends (.mdioFrame prt mmd .read) s t ∧ t.hif.mdio.out = some (s.mdioStat n reg) ∧ t.regs = s.regs) ∧
          ∃ t, Ends (.mdioFrame prt mmd .readInc) s t ∧ t.hif.mdio.out = some (s.mdioStat n reg) ∧
            spFind t.hif.mdio.reg (32 * n.val + mmd % 32) = some ((reg + 1) % 2 ^ 16)) ∧
        (mmd ∉ [1, 3, 7, 30, 31] → (∃ t, Ends (.mdioFrame prt mmd .read) s t ∧ t.hif.mdio.out = some 0) ∧
          ∀ v, ∃ t, Ends (.mdioFrame prt mmd (.write v)) s t ∧ t.regs = s.regs) ∧
        (mmd = 31 → reg = 4 → s.hif.mdio.busy = false → ∀ v, bitB (v % 2 ^ 16) 15 = true →
          ∃ t, Ends (.mdioFrame prt mmd (.write v)) s t ∧ t.hif.mdio.busy = true ∧ t.hif.mdio.err = false ∧
            t.hif.mdio.write = bitB (v % 2 ^ 16) 14 ∧ t.hif.mdio.inc = bitB (v % 2 ^ 16) 13))) ∧
    (s.fabricRuns = true → (s.hif.mdio.busy = false → Ends .mdioWinDone s s) ∧
      (s.hif.mdio.busy = true → s.hif.mdio.write = false → ∀ w e u, s.read32 0x12 s.hif.mdio.ofs 4 = (w, e, u) → u.hif.mdio = s.hif.mdio →
        ∃ t, Ends .mdioWinDone s t ∧ t.hif.mdio.busy = false ∧ t.hif.mdio.data = w ∧ t.hif.mdio.err = (s.hif.mdio.err || e) ∧
          t.hif.mdio.ofs = if s.hif.mdio.inc then (s.hif.mdio.ofs + 4) % 2 ^ 28 else s.hif.mdio.ofs) ∧
      (s.hif.mdio.busy = true → s.hif.mdio.write = true → ∀ e u, s.write32 0x12 0 s.hif.mdio.ofs 4 s.hif.mdio.data = (e, u) →
        ∃ t, Ends .mdioWinDone s t ∧ t.hif.mdio.busy = false ∧ t.regs = u.regs))
/-! ### Clocks -/

/-- References, PLLs, family switches, gates and the frequency counter (16_clocks.md R580-R583, R586-R593). -/
def Obligations.ClockCommands : Prop :=
  ∀ (s : State),
    let held (t : State) := ∀ p : Fin 12, pllRef p = true → s.on (pllLock p) = true → t.on (pllHold p) = true
    let aon := s.aonWrites = true
    let gate (g : Nat) (on force : Bool) (tmo : Nat) := (((s.wr F.CKC_GATE.GATE_ID g).wrB F.CKC_GATE.GATE_ON on).wrB
      F.CKC_GATE.GATE_FORCE force).wr F.CKC_GATE.GATE_TO tmo
    let ended (t : State) (result : Nat) := t.on F.CKC_GATE_STATUS.GATE_BUSY = false ∧
      t.rd F.CKC_GATE_STATUS.GATE_RESULT = result ∧ t.on F.CKC_EVENT.GATE_DONE = true ∧ t.ckc.gate = none
    let stays (t : State) := t.rd F.CKC_GATE_STATUS.GATE_STATE = s.rd F.CKC_GATE_STATUS.GATE_STATE
    (s.xtalRuns = true → s.xt 0 = xtSTARTING → s.xt 1 = xtSTARTING → ∀ a b, ∃ t, Ends (.xtalStartCheck a b) s t ∧
      t.xt 0 = (if a then xtREADY else xtFAILED) ∧ t.xt 1 = if b then xtREADY else xtFAILED) ∧
    (∀ x : Fin 2, s.xtalRuns = true →
      (s.xt x = xtREADY → ∃ t, Ends (.xtalLost x) s t ∧ t.xt x = xtLOST ∧ t.on F.CKC_EVENT.XTAL_LOST = true ∧
        (s.on F.CKC_REF.REF_SEL = decide (x = 1) → held t) ∧
        (x = 0 → s.on F.CKC_REF.REF_SEL = false → s.on F.CKC_REF.AUTO_REF = true → s.xt 1 = xtREADY →
          t.on F.CKC_REF.REF_SEL = true ∧ t.on F.CKC_EVENT.REF_AUTO = true)) ∧
      (s.xt x = xtLOST → ∃ t, Ends (.xtalRecover x) s t ∧ t.xt x = xtREADY)) ∧
    (∀ sel, aon → (s.on F.CKC_REF.REF_SEL = sel → Ends (.refSwitch sel) s s) ∧
      (s.on F.CKC_REF.REF_SEL ≠ sel → ∃ t, Ends (.refSwitch sel) s t ∧ t.on F.CKC_REF.REF_SEL = sel ∧ held t)) ∧
    (s.refReady = true → Ends .holdoverExpiry s s) ∧
    (s.refReady = false → ∃ t, Ends .holdoverExpiry s t ∧ ∀ p, pllRef p = true → s.on (pllHold p) = true → s.on (pllLock p) = true →
      t.on (pllLock p) = false ∧ t.on (pllHold p) = false) ∧
    (∀ p, s.domOn (pllDom p) = true →
      (s.on (pllLock p) = true → ∃ t, Ends (.pllLockLoss p) s t ∧ t.on (pllLock p) = false ∧ t.on (pllHold p) = false ∧
        t.on F.CKC_EVENT.PLL_LOL = true ∧
        (p.val < 4 → t.rd (F.CKC_PLL_STATUS.LOL_CNT p.val) = (s.rd (F.CKC_PLL_STATUS.LOL_CNT p.val) + 1) % 2 ^ 16) ∧
        (p = 0 → s.on F.CKC_REF.AUTO_FB = true → s.on F.CKC_SW_STATUS.SRC_CUR = true →
          t.ckc.sw = some { src := false, ramp := false, auto := true })) ∧
      (s.on (pllLock p) = false → Ends (.pllLockLoss p) s s) ∧
      (s.refReady = true → ∃ t, Ends (.pllLock p) s t ∧ t.on (pllLock p) = true ∧ t.on (pllHold p) = false)) ∧
    (aon → ∀ src ramp us, ∃ t, Ends (.familySwitch src ramp us) s t ∧
      if s.on F.CKC_SW_STATUS.SW_BUSY = true ∨ s.on F.CKC_GATE_STATUS.GATE_BUSY = true ∨ src = s.on F.CKC_SW_STATUS.SRC_CUR ∨
        (src = true ∧ s.on (F.CKC_PLL_STATUS.LOCK 0) = false) then t.rd F.CKC_SW_STATUS.SW_RESULT = 2 ∧ t.ckc = s.ckc
      else t.on F.CKC_SW_STATUS.SW_BUSY = true ∧ t.ckc.sw = some { src := src, ramp := ramp, auto := false }) ∧
    (∀ w, s.ckc.sw = some w → w.ramping = false →
      (∃ t, Ends .familySwitchDone s t ∧ t.on F.CKC_SW_STATUS.SRC_CUR = w.src ∧ t.rd F.CKC_SW_STATUS.SW_RESULT = 1 ∧
        t.on F.CKC_SW_STATUS.SW_FORCED = false ∧ t.on F.CKC_SW_STATUS.SW_AUTO = w.auto ∧ t.on F.CKC_EVENT.SW_DONE = true ∧
        t.tbq = s.tbq + 2 * regQuarters (s.on F.CKC_SW_STATUS.SRC_CUR) + 3 * regQuarters w.src ∧
        (w.ramp = false → t.ckc.sw = none ∧ t.ckc.mult = 1 ∧ t.on F.CKC_SW_STATUS.SW_BUSY = false) ∧
        (w.ramp = true → t.ckc.sw = some { w with ramping := true } ∧ t.ckc.mult = 8)) ∧
      ∃ t, Ends .switchForced s t ∧ t.on F.CKC_SW_STATUS.SRC_CUR = w.src ∧ t.on F.CKC_SW_STATUS.SW_FORCED = true ∧
        t.on F.CKC_SW_STATUS.TB_INEXACT = true ∧ t.rd F.CKC_SW_STATUS.SW_GAP = 0xFF ∧ t.on F.CKC_EVENT.SW_FORCED = true) ∧
    (∀ w, s.ckc.sw = some w → w.ramping = true → ∃ t, Ends .rampStep s t ∧ t.ckc.mult = s.ckc.mult / 2 ∧
      (s.ckc.mult / 2 ≤ 1 → t.ckc.sw = none ∧ t.on F.CKC_SW_STATUS.SW_BUSY = false ∧ t.on F.CKC_EVENT.RAMP_DONE = true) ∧
      (1 < s.ckc.mult / 2 → t.ckc.sw = some w ∧ t.regs = s.regs)) ∧
    (s.ckc.sw = none → Ends .familySwitchDone s s ∧ Ends .switchForced s s ∧ Ends .rampStep s s) ∧
    (aon → s.on F.CKC_GATE_STATUS.GATE_BUSY = false → s.on F.CKC_SW_STATUS.SW_BUSY = false → ∀ g < 26, ∀ force tmo,
      (∃ t, Ends (.gateOn g force tmo) s t ∧
        if (∀ p, gateParent g = some p → s.gateOn p = true) then ended t 1 ∧ t.gateOn g = true else ended t 2 ∧ stays t) ∧
      ∃ t, Ends (.gateOff g force tmo) s t ∧
        if (gate g false force tmo).gateUse g = true then ended t 2 ∧ stays t
        else if (gateDom g = none ∧ 16 ≤ g) ∨ ∃ d, gateDom g = some d ∧ s.domOn d = false then ended t 1 ∧ t.gateOn g = false
        else t.on F.CKC_GATE_STATUS.GATE_BUSY = true ∧ stays t ∧ t.ckc.gate = some (g, force)) ∧
    (∀ g force, s.ckc.gate = some (g, force) → g < 26 →
      (∃ t, Ends .gateHandshakeAck s t ∧ ended t 1 ∧ t.gateOn g = false) ∧
      ∃ t, Ends .gateTimeout s t ∧ if force then ended t 4 ∧ t.gateOn g = false else ended t 3 ∧ stays t) ∧
    (s.ckc.gate = none → Ends .gateHandshakeAck s s ∧ Ends .gateTimeout s s) ∧
    (aon → ∀ sel n, ∃ t, Ends (.fcGo sel n) s t ∧ t.on F.CKC_FCNT_RESULT.FC_BUSY =
      (s.on F.CKC_FCNT_RESULT.FC_BUSY || (s.xt 0 == xtREADY && decide (sel % 64 ≤ 0x20)))) ∧
    (s.on F.CKC_FCNT_RESULT.FC_BUSY = true → ∀ cnt, ∃ t, Ends (.fcWindowEnd cnt) s t ∧ t.on F.CKC_FCNT_RESULT.FC_BUSY = false ∧
      t.on F.CKC_FCNT_RESULT.FC_DONE = true ∧ t.rd F.CKC_FCNT_RESULT.FC_COUNT = min cnt 0xFFFFFF ∧
      t.on F.CKC_FCNT_RESULT.FC_OVF = decide (0xFFFFFF < cnt))

/-! ### Power -/

/-- Requests to the power controller, commits, ready signals, wakes, resets and supplies (17_power.md R608, R610-R617, R620,
R621). What a request refuses is `State.pwcRefuses`, the table of R611. -/
def Obligations.PowerCommands : Prop :=
  ∀ (s : State),
    let dom (t : State) (i : Nat) := t.rd (F.PWC_DOM.STATE i)
    let result (t : State) (tag code why : Nat) := t.rd F.PWC_RESULT.LAST_TAG = tag % 256 ∧ t.rd F.PWC_RESULT.LAST_RESULT = code ∧
      t.rd F.PWC_RESULT.WHY = why ∧ t.on F.PWC_EVENT.REQ_DONE = true
    let flies (t : State) (r : PwcReq) (deciding : Bool) (todo : List Nat) :=
      t.pwc.inflight = some { req := r, deciding := deciding, todo := todo } ∧ t.on F.PWC_RESULT.INFLIGHT = true ∧
        t.rd F.PWC_RESULT.INF_TAG = r.tag % 256
    let started (r : PwcReq) (t : State) :=
      if r.mode then
        if r.target = 0 then (s.restoreList = [] → result t r.tag 1 0 ∧ t.rd F.PWC_MODE.MODE = 0) ∧
          (s.restoreList ≠ [] → flies t r false (s.restoreList.map Prod.fst) ∧
            ∀ e ∈ s.restoreList, e.1 < numDomains → dom t e.1 = domCHANGING)
        else flies t r true [] ∧ ∀ i < numDomains, dom t i = dom s i
      else if numDomains ≤ r.index then result t r.tag 4 1 ∧ ∀ i < numDomains, dom t i = dom s i
      else if dom s r.index = r.target then result t r.tag 1 0
      else match s.pwcRefuses r with
        | some why => result t r.tag 4 why ∧ t.on F.PWC_RESULT.INFLIGHT = false
        | none =>
          (dom s r.index < r.target → flies t r false [r.index] ∧ dom t r.index = domCHANGING) ∧
          (dom s r.index = domON → flies t r true [] ∧ dom t r.index = domON) ∧
          (dom s r.index = domRETAIN → r.target = domOFF → result t r.tag 1 0 ∧ dom t r.index = domOFF)
    let rises (i : Nat) (x : Rising) := s.pwc.rising.find? (fun y => y.dom == i) = some x
    let clocked (x : Rising) := (s.xt 0 ≠ xtFAILED ∨ s.xt 1 ≠ xtFAILED) ∧
      (x.steps.head? = some .osc → s.refReady = true ∧ s.on (F.CKC_PLL_STATUS.LOCK 1) = true)
    let held (t : State) := t.regs = [] ∧ t.ddr = [] ∧ t.sram = [] ∧ t.kepStore = s.keepCut.kepStore ∧
      (s.kep.cmd = none → t.kepStore = s.kepStore) ∧ t.flash = s.flash ∧ t.cal.mtp = s.cal.cutSave.mtp ∧ t.pending = s.pending
    let fresh (t : State) (dly : Fin 8) := t.pwc.porst = false ∧ t.pwc.aonLow = false ∧ t.rd F.IDS_STRAP.XTAL_DLY = dly ∧
      t.kep.step = 1 ∧ t.kep.dbg = decide (s.kepStore.lifecycle = lcENG) ∧
      t.kepStore.fcRsv = (s.kepStore.fcRsv + 2 ^ 32) % 2 ^ 48
    (∀ i tag who c r, s.aonWrites = true →
      (c, r) ∈ [(Instr.pdRequestOn i tag who, ({ mode := false, target := domON, index := i % 256, tag := tag % 256, who := who } : PwcReq)),
        (.pdRequestRetain i tag who, { mode := false, target := domRETAIN, index := i % 256, tag := tag % 256, who := who }),
        (.pdRequestOff i tag who, { mode := false, target := domOFF, index := i % 256, tag := tag % 256, who := who }),
        (.modeRun tag who, { mode := true, target := 0, index := s.rd F.PWC_REQ.INDEX, tag := tag % 256, who := who }),
        (.modeQuiet tag who, { mode := true, target := 1, index := s.rd F.PWC_REQ.INDEX, tag := tag % 256, who := who }),
        (.modeDepot tag who, { mode := true, target := 2, index := s.rd F.PWC_REQ.INDEX, tag := tag % 256, who := who })] →
      (∀ q, s.pwc.queued = some q → ∃ t, Ends c s t ∧ t.pwc.queued = some r ∧ t.pwc.inflight = s.pwc.inflight ∧ result t q.tag 3 0 ∧
        t.rd F.PWC_RESULT.SUP_TAG = q.tag % 256 ∧ t.on F.PWC_EVENT.SUPERSEDED = true) ∧
      (∀ w, s.pwc.queued = none → s.pwc.inflight = some w → ∃ t, Ends c s t ∧ t.pwc.queued = some r ∧ t.pwc.inflight = some w ∧
        t.on F.PWC_RESULT.QUEUED = true) ∧
      (s.pwc.queued = none → s.pwc.inflight = none → ∃ t, Ends c s t ∧ started r t)) ∧
    (∀ r, s.pwcRuns = true → s.pwc.inflight = none → s.pwc.queued = some r → r.target < 3 →
      ∃ t, Ends .pwcRequestStart s t ∧ started r t) ∧
    (s.pwc.queued = none → Ends .pwcRequestStart s s) ∧
    (∀ w, s.familyRuns = true → s.pwc.inflight = some w → w.deciding = true → ∃ t, Ends .pwcCommit s t ∧ t.pwc.inflight = none ∧
      result t w.req.tag 1 0 ∧
      if w.req.mode then t.rd F.PWC_MODE.MODE = (if w.req.target = 1 then 1 else 2)
      else w.req.index < numDomains → w.req.target < domON → dom t w.req.index = w.req.target) ∧
    ((∀ w, s.pwc.inflight = some w → w.deciding = false) → Ends .pwcCommit s s) ∧
    (∀ i, s.released = true → i < numDomains →
      ((∀ x ∈ s.pwc.rising, x.dom ≠ i) → Ends (.pdStepReady i) s s ∧ Ends (.pdReadyTimeout i) s s) ∧
      (∀ x, rises i x → (∃ p ∈ domParents i, s.domOn p = false) → Ends (.pdStepReady i) s s) ∧
      (∀ x, rises i x → (∀ p ∈ domParents i, s.domOn p = true) → clocked x →
        let rest := s.pwc.rising.filter fun y => y.dom != i
        (2 ≤ x.steps.length → Ends (.pdStepReady i) s
          { s with pwc := { s.pwc with rising := rest ++ [{ x with steps := x.steps.drop 1 }] } }) ∧
        (x.steps.length < 2 → x.target = domON → Ends (.pdStepReady i) s
          ((({ s with pwc := { s.pwc with rising := rest } }).setDom i domON).domainUp i).risingSettle) ∧
        (x.steps.length < 2 → x.target = domRETAIN → ∃ t, Ends (.pdStepReady i) s t ∧ dom t i = domRETAIN)) ∧
      ((∃ x ∈ s.pwc.rising, x.dom = i) → ∃ t, Ends (.pdReadyTimeout i) s t ∧ dom t i = domOFF ∧ (∀ x ∈ t.pwc.rising, x.dom ≠ i) ∧
        ∀ w, s.pwc.inflight = some w → i ∈ w.todo → t.pwc.inflight = none ∧ result t w.req.tag 5 0 ∧ t.on F.PWC_EVENT.FAILED = true)) ∧
    (s.released = true → s.on F.FLT_STATUS.SAFE = false → s.on F.PWC_DEPOT.WAKE_N_EN = true →
      ((s.pwc.waking ≠ none ∨ s.rd F.PWC_MODE.MODE = 0) → ∃ t, Ends .wakeNAssert s t ∧ ∀ w, s.pwc.inflight = some w →
        s.pwc.queued = none → if w.deciding then t.pwc.inflight = none ∧ result t w.req.tag 2 0 ∧ t.on F.PWC_EVENT.ABORTED = true
          else t = s) ∧
      (s.pwc.waking = none → s.rd F.PWC_MODE.MODE = 2 → ∃ t, Ends .wakeNAssert s t ∧ t.rd F.PWC_MODE.WAKE_CAUSE = 1 ∧
        t.on F.CKC_SW_STATUS.SRC_CUR = false ∧
        (t.pwc.waking = some true ∨ (t.pwc.waking = none ∧ t.rd F.PWC_MODE.MODE = 0 ∧ t.on F.PWC_EVENT.WAKE_DONE = true))) ∧
      (s.pwc.waking = none → s.rd F.PWC_MODE.MODE = 1 → ∃ t, Ends .wakeNAssert s t ∧
        (t.pwc.waking = some false ∨ (t.pwc.waking = none ∧ t.rd F.PWC_MODE.MODE = 0)))) ∧
    (s.on F.PWC_DEPOT.WAKE_N_EN = false → Ends .wakeNAssert s s) ∧
    (s.released = true → s.rd F.PWC_DEPOT.DEP_WAKE_S ≠ 0 → s.rd F.PWC_MODE.MODE = 2 → s.pwc.waking = none →
      ∃ t, Ends .depotTimerExpiry s t ∧ t.rd F.PWC_MODE.WAKE_CAUSE = 2 ∧
        (t.pwc.waking = some true ∨ (t.pwc.waking = none ∧ t.rd F.PWC_MODE.MODE = 0 ∧ t.on F.PWC_EVENT.WAKE_DONE = true))) ∧
    (s.rd F.PWC_DEPOT.DEP_WAKE_S = 0 → Ends .depotTimerExpiry s s) ∧
    (s.familyRuns = true → ∃ t, Ends .avsUpdate s t ∧ t.on F.PWC_AVS.AVS_VALID = true ∧
      (t.rd F.PWC_AVS.AVS_TARGET = s.rd F.PWC_AVS.AVS_TARGET ∨
        ((t.rd F.PWC_AVS.AVS_TARGET = s.rd F.PWC_AVS.AVS_TARGET + 10 ∨ t.rd F.PWC_AVS.AVS_TARGET + 10 = s.rd F.PWC_AVS.AVS_TARGET) ∧
          720 ≤ t.rd F.PWC_AVS.AVS_TARGET ∧ t.rd F.PWC_AVS.AVS_TARGET ≤ 880 ∧ t.on F.PWC_EVENT.AVS_CHANGE = true ∧
          ∀ b, s.cal.avsTb = some b → b + 1000000000 ≤ s.tb))) ∧
    (∃ t, Ends .porstAssert s t ∧ held t ∧ t.pwc.porst = true) ∧
    (∃ t, Ends .vddAonLow s t ∧ held t ∧ t.pwc.aonLow = true) ∧
    (∀ dly : Fin 8, s.pwc.porst = true → s.pwc.aonLow = false → ∃ t, Ends (.porstRelease dly) s t ∧ fresh t dly) ∧
    (∀ dly : Fin 8, s.pwc.porst = false → s.pwc.aonLow = true → ∃ t, Ends (.vddAonRestore dly) s t ∧ fresh t dly) ∧
    (∀ dly : Fin 8, (s.pwc.porst = false → Ends (.porstRelease dly) s s) ∧ (s.pwc.aonLow = false → Ends (.vddAonRestore dly) s s)) ∧
    (∀ sup : Fin 7, s.released = true → Ends (.supplyLoss sup) s (s.supplyLoss sup)) ∧
    (s.released = false → ∀ sup : Fin 7, Ends (.supplyLoss sup) s s)

/-! ### Calibration and monitors -/

/-- Calibrations, handovers, records, references and monitors (18_calibration_monitors.md R632-R639, R642, R643). What CAL_GO
refuses is `State.calRefused`, the list of R634. -/
def Obligations.CalibrationCommands : Prop :=
  ∀ (s : State),
    let ended (t : State) (code : Nat) := t.cal.run = none ∧ t.on F.CAL_STATUS.CAL_BUSY = false ∧
      t.rd F.CAL_STATUS.CAL_RESULT = code ∧ t.on F.CAL_EVENT.CAL_DONE = true
    let fails (t : State) := t.on F.CAL_EVENT.CAL_FAIL = true
    (∀ (n : Fin 8) (p : Fin 8), s.monWrites = true →
      (s.calRefused n p.val = true → ∃ t, Ends (.calGo n p) s t ∧ t.rd F.CAL_STATUS.CAL_RESULT = 2 ∧ t.cal = s.cal) ∧
      (∀ x : Fin 5, p.val = x.val → s.calRefused n x.val = false →
        ((4 ≤ x.val ∨ s.linkUp n = false) → ∃ t, Ends (.calGo n p) s t ∧ t.on F.CAL_STATUS.CAL_BUSY = true ∧
          t.cal.run = some { n := n, x := x, handover := false, step := .measure, snr := s.rd (F.EQ_STATUS.SLC_SNR n x.val) }) ∧
        (x.val < 4 → s.linkUp n = true → ∃ t, Ends (.calGo n p) s t ∧
          t.rd (F.QF_MARGIN.PRE n x.val) = qfCode (s.qfMargin n x.val) % 1024 ∧
          (if t.rd (F.XB_STATUS.XB_STATE n) = xbSHADOW ∧ t.rd (F.XB_STATUS.XB_CUR_PAIR n) = x.val then
            t.cal.run = some { n := n, x := x, handover := true, step := .converge, snr := s.rd (F.EQ_STATUS.SLC_SNR n x.val) }
           else ended t 5 ∧ fails t)))) ∧
    (∀ r, s.cal.run = some r →
      (r.step = .converge → s.rxQuiet r.n = false →
        (r.snr ≤ s.rd (F.EQ_STATUS.SLC_SNR r.n 4) + s.calRevert →
          ∃ t, Ends .calConverged s t ∧ t.cal.run = some { r with step := .swap }) ∧
        (s.rd (F.EQ_STATUS.SLC_SNR r.n 4) + s.calRevert < r.snr → Ends .calConverged s s) ∧
        (s.link r.n ≠ stHOLD → ∃ t, Ends .calConvTimeout s t ∧ ended t 4 ∧ fails t) ∧
        (s.link r.n = stHOLD → Ends .calConvTimeout s s)) ∧
      ((r.step ≠ .converge ∨ s.rxQuiet r.n = true) → Ends .calConverged s s ∧ Ends .calConvTimeout s s) ∧
      (r.step = .measure → (∃ t, Ends (.calMeasureDone none) s t ∧ ended t 6 ∧ fails t) ∧
        ∀ m : CalMeas, (s.refBad = true → ∃ t, Ends (.calMeasureDone (some m)) s t ∧ ended t 6 ∧ fails t) ∧
          (s.refBad = false → r.handover = false → ∃ t, Ends (.calMeasureDone (some m)) s t ∧ ended t 1 ∧
            t.sliceCal r.n r.x = { tCal := unsignedOf 16 (s.afeTemp r.n), tb := s.tb, meas := some (m.hRef, m.residual) }) ∧
          (s.refBad = false → r.handover = true → ∃ t, Ends (.calMeasureDone (some m)) s t ∧
            t.on (F.SLICE_CTRL.TRIM_PEND r.n r.x.val) = true ∧
            ∃ r', t.cal.run = some r' ∧ r'.step = .trim ∧ r'.n = r.n ∧ r'.x = r.x ∧ r'.meas = some (m.hRef, m.residual))) ∧
      (r.step = .check → ∃ t, Ends .calCheck s t ∧
        if s.rd (F.EQ_STATUS.SLC_SNR r.n r.x.val) + s.calRevert < r.snr then ended t 3 ∧ t.on F.CAL_EVENT.REVERTED = true else ended t 1) ∧
      (r.step ≠ .measure → ∀ m, Ends (.calMeasureDone m) s s) ∧ (r.step ≠ .check → Ends .calCheck s s)) ∧
    (s.cal.run = none → Ends .calConverged s s ∧ Ends .calConvTimeout s s ∧ Ends .calCheck s s ∧ ∀ m, Ends (.calMeasureDone m) s s) ∧
    (s.monWrites = true → ∃ t, Ends .calSave s t ∧
      if s.on F.CAL_STATUS.SAVE_BUSY = true ∨ s.on F.CAL_STATUS.CAL_BUSY = true ∨ s.refBad = true then
        t.on F.CAL_STATUS.SAVE_REFUSED = true ∧ t.cal = s.cal
      else (∃ k ∈ [1, 2, 3], s.cal.bad.contains k = false) → t.on F.CAL_STATUS.SAVE_BUSY = true ∧
        t.on F.CAL_STATUS.SAVE_REFUSED = false ∧ ∃ k gen, t.cal.save = some (k, gen) ∧ k ∈ [1, 2, 3] ∧ s.cal.bad.contains k = false ∧
          ((∀ j ∈ [1, 2, 3], s.recOk j = false) → gen = 1)) ∧
    (∀ k gen, s.cal.save = some (k, gen) → k < 4 → ∀ ok, ∃ t, Ends (.calSaveDone ok) s t ∧ t.cal.save = none ∧
      t.on F.CAL_STATUS.SAVE_BUSY = false ∧ t.on F.CAL_EVENT.CAL_SAVE_DONE = true ∧ t.on (F.REC_SLOT.VALID k) = ok ∧
      (ok = true → t.cal.mtp = s.cal.mtp.writeL (0x8000 * k) (s.recordBytes k gen) ∧ t.cal.bad = s.cal.bad ∧
        t.rd (F.REC_SLOT.GEN k) = gen % 2 ^ 16 ∧ t.rd F.CAL_STATUS.CUR_GEN = gen % 2 ^ 16) ∧
      (ok = false → t.cal.bad = k :: s.cal.bad ∧ t.on (F.REC_SLOT.SLOT_BAD k) = true)) ∧
    (s.cal.save = none → ∀ ok, Ends (.calSaveDone ok) s s) ∧
    (s.familyRuns = true → s.monOn = true → s.cal.loaded = none → ∃ t, Ends .calRecordLoad s t ∧
      (∀ k, s.newest ([1, 2, 3].filter fun k => s.recOk k) = some k → t.rd F.CAL_STATUS.CAL_SRC = 1 ∧
        t.cal.loaded = some (s.mtpSlot k) ∧ t.rd F.CAL_STATUS.CUR_GEN = s.recGen k % 2 ^ 16) ∧
      ((∀ k ∈ [1, 2, 3], s.recOk k = false) → s.recOk 0 = true → t.rd F.CAL_STATUS.CAL_SRC = 2 ∧ t.cal.loaded = some (s.mtpSlot 0)) ∧
      ((∀ k ∈ [0, 1, 2, 3], s.recOk k = false) → t.rd F.CAL_STATUS.CAL_SRC = 0 ∧ t.cal.loaded = none ∧
        ∀ n x, (t.sliceCal n x).noRecord = true)) ∧
    (∀ m, s.cal.loaded = some m → Ends .calRecordLoad s s) ∧
    (∀ (n : Fin 8) (x : Fin 5),
      (s.monOn = true → s.rd F.CAL_CTRL.CAL_PERIOD ≠ 0 → ∃ t, Ends (.calPeriodExpiry n x) s t ∧ (t.sliceCal n x).period = true ∧
        (s.domOn (14 * n.val + x.val) = true → bitB (t.rd (F.CAL_DUE.DUE n)) x.val = true)) ∧
      (s.rd F.CAL_CTRL.CAL_PERIOD = 0 → Ends (.calPeriodExpiry n x) s s)) ∧
    (s.familyRuns = true → s.monOn = true → s.gateOn 25 = true → ∀ v r, ∃ t, Ends (.vrefCheck v r) s t ∧
      t.on F.CAL_STATUS.VREF_BAD = v ∧ t.on F.CAL_STATUS.RES_BAD = r ∧
      ((v = true ∧ s.on F.CAL_STATUS.VREF_BAD = false) ∨ (r = true ∧ s.on F.CAL_STATUS.RES_BAD = false) →
        t.on F.CAL_EVENT.REF_BAD = true)) ∧
    (s.familyRuns = true → s.monRuns = true →
      (∀ (i : Fin 24) (d : Int), -2047 ≤ d → d ≤ 2047 → ∃ t, Ends (.tempConversion i d) s t ∧
        t.rd (F.MON_TEMP.T_NOW i) = unsignedOf 12 d ∧
        t.rd (F.MON_TEMP.T_MAX i) = (if signedOf 12 (s.rd (F.MON_TEMP.T_MAX i)) < d then unsignedOf 12 d else s.rd (F.MON_TEMP.T_MAX i)) ∧
        (spFind s.cal.limit i.val = some { run := 3, crossed := false } → 8 * (s.rd F.MON_CTRL.T_WARN : Int) < d →
          t.on F.MON_EVENT.T_WARN = true)) ∧
      (∀ (i : Fin 16) mv, ∃ t, Ends (.voltConversion i mv) s t ∧ t.rd (F.MON_VOLT.V_NOW i) = min 4095 mv) ∧
      (∀ (j : Fin 6) edges, ∃ t, Ends (.procConversion j edges) s t ∧ t.rd (F.MON_PROC.RO_CNT j) = edges / 16 % 2 ^ 16 ∧
        (j.val = 5 → t.on F.MON_EVENT.AVS_IN = true))) ∧
    (∀ i : Fin 24, s.pwc.porst = false → s.pwc.aonLow = false → Ends (.overtempTrip i) s (s.rise 0x242 [i.val]))

/-! ### Faults, resets, injection, the journal -/

/-- Fault reports, wires, repairs, resets, injection and the journal (19_faults_availability.md R659, R662-R664, R666, R669,
R673-R675). -/
def Obligations.FaultCommands : Prop :=
  ∀ (s : State),
    let seq := s.rd F.EVJ_SEQ.NEXT_SEQ
    let hostLane (i : Nat) := i < 512 ∧ 4 ≤ i / 16 % 16 ∧ i / 16 % 16 < 8
    (∀ i data kl, s.familyRuns = true → srcClass? i = some kl → s.wireHeld i = false →
      (kl = .record → Ends (.faultReport i data) s (s.rise i data)) ∧
      (kl ≠ .record → s.on (F.FLT_SRC_STAT.ACTIVE i) = true → Ends (.faultReport i data) s s) ∧
      (kl ≠ .record → s.on (F.FLT_SRC_STAT.ACTIVE i) = false → s.on (F.FLT_SRC_STAT.WIRE i) = false → s.on (F.FLT_SRC_STAT.LATCHED i) = false →
        s.on (F.FLT_FIRST_INFO.VALID kl.code) = false → seq < 2 ^ 32 - 1 → (hostLane i → kl = .c) →
        ∃ t : State, Ends (.faultReport i data) s (t.halfChecker i) ∧ t.on (F.FLT_SRC_STAT.ACTIVE i) = true ∧ t.on (F.FLT_SRC_STAT.LATCHED i) = true ∧
          t.rd (F.FLT_SRC_STAT.COUNT i) = min (s.rd (F.FLT_SRC_STAT.COUNT i) + 1) 0xFFFF ∧
          t.on (F.FLT_FIRST_INFO.VALID kl.code) = true ∧ t.rd (F.FLT_FIRST_INFO.ID kl.code) = i ∧
          t.rd F.EVJ_SEQ.NEXT_SEQ = seq + 1 ∧ t.rd (F.EVJ_RING.WORD (seq % 64) 0) = seq ∧
          (i, seq) ∈ t.flt.react)) ∧
    (∀ i data, s.familyRuns = true → (srcClass? i = none ∨ s.wireHeld i = true) → Ends (.faultReport i data) s s) ∧
    (∀ i ones, s.familyRuns = true →
      ((srcClass? i).isSome = true → s.wireHeld i = false → s.on (F.FLT_SRC_STAT.WIRE i) = false →
        Ends (.wireFault i ones) s ((s.wrB (F.FLT_SRC_STAT.WIRE i) true).rise 0x230 [i, 3 * b2n ones])) ∧
      (s.on (F.FLT_SRC_STAT.WIRE i) = true → Ends (.wireFault i ones) s s) ∧
      ∃ t, Ends (.faultSourceClear i) s t ∧ t.on (F.FLT_SRC_STAT.ACTIVE i) = false ∧ t.on (F.FLT_SRC_STAT.WIRE i) = false ∧
        t.on (F.FLT_SRC_STAT.LATCHED i) = s.on (F.FLT_SRC_STAT.LATCHED i)) ∧
    (∀ n : Fin 8, ((∀ r ∈ s.flt.repair, srcPort r.1 ≠ n) → Ends (.repairSpare n) s s) ∧
      ∀ r, s.flt.repair.find? (fun r => srcPort r.1 == n) = some r → r.1 % 16 < 4 → s.domOn (14 * n.val + 4) = true →
        (s.rd (F.XB_STATUS.XB_STATE n) = xbSWAP → s.rd (F.XB_STATUS.XB_CUR_PAIR n) ≠ r.1 % 16 → Ends (.repairSpare n) s s) ∧
        (s.cal.run = none → (s.rd (F.XB_STATUS.XB_STATE n) = xbIDLE ∨ s.rd (F.XB_STATUS.XB_STATE n) = xbSHADOW ∨
            (s.rd (F.XB_STATUS.XB_STATE n) = xbSWAP ∧ s.rd (F.XB_STATUS.XB_CUR_PAIR n) = r.1 % 16)) →
          ∃ t, Ends (.repairSpare n) s t ∧ t.flt.repair = s.flt.repair.erase r ∧
            t.rd (F.XB_STATUS.XB_STATE n) = xbSPARE ∧ t.rd (F.XB_STATUS.XB_CUR_PAIR n) = r.1 % 16)) ∧
    (∀ b : Fin 64, s.aonWrites = true → ∃ t, Ends (.blockReset b) s t ∧ t = (s.wr F.FLT_CTRL.BLK_SEL b).blockReset b ∧
      (b.val ∈ [0x21, 0x22, 0x25, 0x27, 0x28, 0x29] → ∀ f : Fld, addrBlock (f.key / 32) = some b.val → keptByBlockReset f.key = false →
        t.rd f = f.reset) ∧
      (b.val ∈ [10, 15, 26, 31, 0x20, 0x23, 0x2C, 0x3F] → t = s.wr F.FLT_CTRL.BLK_SEL b)) ∧
    (s.aonWrites = true → s.kep.cmd = none → ∃ t, Ends .chipReset s t ∧ t.rd F.FLT_PERSIST.LAST_RESET = 2 ∧ t.rd F.FLT_PERSIST.RST_ID = 0 ∧
      t.rd F.FLT_PERSIST.CHIP_RESETS = min (s.rd F.FLT_PERSIST.CHIP_RESETS + 1) 0xFFFF ∧
      (∀ i < numDomains, t.rd (F.PWC_DOM.STATE i) = domResetCode i) ∧ t.pwc = {} ∧ t.ddr = [] ∧ t.sram = [] ∧
      t.flash = s.flash ∧ t.cal.mtp = s.cal.mtp ∧ t.pending = s.pending ∧ t.kep.dbg = s.kep.dbg ∧ t.kep.step = 1) ∧
    (∀ (mode : Fin 4) i unit bit, i < 1024 → unit < 2048 → s.aonWrites = true → ∃ t, Ends (.fltInjArm mode i unit bit) s t ∧
      if (srcClass? i = some .c ∨ srcClass? i = some .u) ∧ s.domOn (srcDom i) = true ∧ s.flt.inj = none ∧ mode ≠ 0 ∧
          (mode = 3 ∨ unit < srcUnits i) then
        t.rd F.FLT_INJ.INJ_RESULT = 1 ∧ t.flt.inj = some { mode := mode, src := i }
      else t.rd F.FLT_INJ.INJ_RESULT = 3 ∧ t.flt.inj = s.flt.inj) ∧
    (∀ seen data, s.familyRuns = true →
      (s.flt.inj = none → Ends (.injectionAct seen data) s s) ∧
      ∀ j, s.flt.inj = some j →
        let s1 : State := { (s.wr F.FLT_INJ.INJ_RESULT 2) with flt := { s.flt with inj := none } }
        ((∀ i, (if j.mode = 3 then some j.src else seen) = some i →
          (s.wireHeld i = false → Ends (.injectionAct seen data) s ((s1.rise i data true (s.on F.FLT_CTRL.INJ_QUIET)).halfChecker i)) ∧
          (s.wireHeld i = true → Ends (.injectionAct seen data) s s1)) ∧
        (j.mode ≠ 3 → seen = none → Ends (.injectionAct seen data) s s1))) ∧
    (∀ k : Fin 16, s.aonWrites = true → seq < 2 ^ 32 - 1 → ∃ t, Ends (.evjSwgo k) s t ∧ t.rd F.EVJ_SEQ.NEXT_SEQ = seq + 1 ∧
      t.rd (F.EVJ_RING.WORD (seq % 64) 0) = seq ∧ t.rd (F.EVJ_RING.WORD (seq % 64) 5) = s.rd (F.EVJ_SWDATA.WORD 0) % 2 ^ 32 ∧
      t.rd (F.EVJ_RING.WORD (seq % 64) 6) = s.rd (F.EVJ_SWDATA.WORD 1) % 2 ^ 32 ∧
      t.rd (F.EVJ_RING.WORD (seq % 64) 7) = s.rd (F.EVJ_SWDATA.WORD 2) % 2 ^ 32) ∧
    (s.familyRuns = true → s.on F.EVJ_CTRL.MIRROR_EN = true →
      (s.flt.mirrorQ = [] → Ends .evjMirrorWrite s s) ∧
      ∀ ws rest, s.flt.mirrorQ = ws :: rest →
        let a := 4096 * s.rd F.EVJ_MEM_BASE.BASE + 32 * (ws.headD 0 % 2 ^ memLog (s.rd F.EVJ_CTRL.MEM_LOG))
        let w := ({ s with flt := { s.flt with mirrorQ := rest } } : State).memWrite 0x22 30 a (ws.flatMap (bytesLE 4))
        (w.1 ≠ .bus → Ends .evjMirrorWrite s w.2) ∧
        (w.1 = .bus → ∃ t, Ends .evjMirrorWrite s t ∧ t = ((w.2.wrB F.EVJ_CTRL.MIRROR_EN false).rise 0x232 [a / 2 ^ 12, a % 2 ^ 12])))

/-! ### The Keep and JTAG -/

/-- Commands of the Keep, their results, the boot lock, start-up, and the JTAG instructions (20_keep_startup.md R703, R704,
R706-R709, R711-R714, R717; 21_pins_electrical.md R741). A started command holds the arguments as KEP_ARG held them. -/
def Obligations.KeepAndJtagCommands : Prop :=
  ∀ (s : State),
    let withArgs (args : List Nat) := (List.range (min 32 args.length)).foldl (fun (s : State) w => s.wr (F.KEP_ARG.WORD w) (args.getD w 0)) s
    let ends (t : State) (r : Nat) := t.on F.KEP_CMD.BUSY = false ∧ t.rd F.KEP_CMD.RESULT = r ∧ t.kep.cmd = none ∧ t.kep.arg = []
    let runs (code : Nat) := s.keepOn = true ∧ ∃ who, s.kep.cmd = some (code, who)
    (∀ who args v c code given,
      (c, code, given) ∈ [(Instr.provision who args, 1, args), (.bootHost who, 2, []), (.verify who args, 3, args), (.svnAdvance who v, 4, [v]),
        (.fcReserve who, 5, []), (.keyLoad who args, 6, args), (.devKeyGen who, 7, []), (.dbgNonce who, 8, []),
        (.dbgOpen who args, 9, args), (.dbgClose who, 10, [])] →
      (s.keepOn = true → s.aonWrites = true → s.keepAdmits who = true →
        if s.on F.KEP_CMD.BUSY = true ∨ (withArgs given).keepRefuses code who = true then
          ∃ t, Ends c s t ∧ t.rd F.KEP_CMD.RESULT = 2 ∧ t.kep = s.kep
        else ∃ t, Ends c s t ∧ t.on F.KEP_CMD.BUSY = true ∧ t.rd F.KEP_CMD.CMD = code ∧ t.kep.cmd = some (code, who) ∧
          ∀ w < 32, t.kep.arg.getD w 0 = if w < given.length then given.getD w 0 % 2 ^ 32 else s.rd (F.KEP_ARG.WORD w)) ∧
      (s.keepOn = false → Ends c s s)) ∧
    (∀ ok, runs 1 → s.on F.FLT_STATUS.SAFE = false →
      (ok = true → s.kepStore.fuseBad = false → s.kepStore.marker = false → ∃ t, Ends (.keepCommandDone ok) s t ∧
        t.kepStore.lifecycle = lcSECURE ∧ t.kepStore.rootHash = s.argBytes 0 8 ∧ t.rd F.FLT_PERSIST.LAST_RESET = 3 ∧ t.kep.cmd = none) ∧
      (ok = false ∨ s.kepStore.fuseBad = true → ∃ t, Ends (.keepCommandDone ok) s t ∧ ends t 4 ∧ t.kepStore.fuseBad = true ∧
        t.kepStore.lifecycle = s.kepStore.lifecycle)) ∧
    (∀ ok, runs 2 → ∃ t, Ends (.keepCommandDone ok) s t ∧ ends t 1 ∧ t = s.bootHost.keepEnd 1) ∧
    (∀ ok, runs 3 → ∃ t, Ends (.keepCommandDone ok) s t ∧ ends t 1 ∧ t = s.verify.keepEnd 1) ∧
    (runs 4 → (∃ t, Ends (.keepCommandDone true) s t ∧ ends t 1 ∧ t.kepStore = { s.kepStore with svn := s.argWord 0 }) ∧
      ∃ t, Ends (.keepCommandDone false) s t ∧ ends t 4 ∧ t.kepStore = s.kepStore) ∧
    (∀ ok, runs 5 → ∃ t, Ends (.keepCommandDone ok) s t ∧ ends t 1 ∧
      t.kepStore = { s.kepStore with fcRsv := (s.fc + 2 ^ 32) % 2 ^ 48 }) ∧
    (∀ ok, runs 6 → ∃ t, Ends (.keepCommandDone ok) s t ∧ ends t 1 ∧
      t.kepStore = { s.kepStore with keys := s.kepStore.keys.set (s.argWord 4 % 8) (some (s.argBytes 0 4)) } ∧
      ∀ w < 32, t.rd (F.KEP_ARG.WORD w) = 0) ∧
    (∀ ok, runs 7 → ∃ t, Ends (.keepCommandDone ok) s t ∧ ends t 1 ∧ t.kepStore.devKey.isSome = true ∧ t.kepStore.keys = s.kepStore.keys) ∧
    (∀ ok, runs 8 → ∃ t, Ends (.keepCommandDone ok) s t ∧ ends t 1 ∧ t.kep.nonce.isSome = true ∧ t.kepStore = s.kepStore) ∧
    (runs 9 → (∀ ok, s.kep.nonce = none → ∃ t, Ends (.keepCommandDone ok) s t ∧ ends t 3 ∧ t.kep.dbg = s.kep.dbg ∧ t.kepStore = s.kepStore) ∧
      ∀ v, s.kep.nonce = some v →
        let good := sha256 (s.argBytes 0 16) == s.kepStore.rootHash &&
          sigOk (s.argBytes 0 16) (s.argBytes 16 16) ([0x4B, 0x58, 0x44, 0x42, 0x47] ++ natsLE 8 s.devId ++ natsLE 16 v)
        (∀ ok, good = false → ∃ t, Ends (.keepCommandDone ok) s t ∧ ends t 3 ∧ t.kep.dbg = s.kep.dbg ∧ t.kep.nonce = none ∧
          t.kepStore = s.kepStore) ∧
        (good = true → (∃ t, Ends (.keepCommandDone true) s t ∧ ends t 1 ∧ t.kep.dbg = true ∧ t.kep.nonce = none ∧
            t.kepStore = { s.kepStore with devKey := none, keys := List.replicate 8 none, marker := false }) ∧
          ∃ t, Ends (.keepCommandDone false) s t ∧ ends t 4 ∧ t.kep.dbg = s.kep.dbg ∧
            t.kepStore = { s.kepStore with devKey := none, keys := List.replicate 8 none, marker := true })) ∧
    (∀ ok, runs 10 → ∃ t, Ends (.keepCommandDone ok) s t ∧ ends t 1 ∧ t.kep.dbg = false ∧ t.kepStore = s.kepStore) ∧
    (s.kep.cmd = none → ∀ ok, Ends (.keepCommandDone ok) s s) ∧
    (∃ t, Ends .dbgNonceExpiry s t ∧ t.kep = { s.kep with nonce := none } ∧ t.regs = s.regs) ∧
    (∀ who, s.keepOn = true → s.aonWrites = true →
      (who = 1 ∨ who = 0x10 → ∃ t, Ends (.bootLock who) s t ∧ t.kep.locked = true ∧ t.on F.KEP_LOCK.LOCK = true) ∧
      (who ≠ 1 → who ≠ 0x10 → Ends (.bootLock who) s s)) ∧
    (s.keepOn = true → (s.kep.runTb.isSome = true → ∃ t, Ends .bootLockTimeout s t ∧ t.kep.locked = true ∧ t.on F.KEP_LOCK.LOCK = true) ∧
      (s.kep.runTb = none → Ends .bootLockTimeout s s)) ∧
    (s.keepOn = true → s.familyRuns = true → s.kep.step = 3 → ∃ t, Ends .bootImageSearch s t ∧ t = s.imageSearch ∧
      (s.kepStore.lifecycle = lcBLANK → t.rd F.KEP_STATUS.BOOT_RESULT = 0xF ∧ t.kep.step = 5)) ∧
    (s.kep.step ≠ 3 → Ends .bootImageSearch s s) ∧
    (∀ c x, (c, x) ∈ [(Instr.jtagExtest, TapInstr.extest), (.extestPulse, .extestPulse), (.extestTrain, .extestTrain), (.clamp, .clamp),
        (.highz, .highz)] → ∃ t, Ends c s t ∧ t = s.tapLoad x ∧ t.tap = some x) ∧
    (s.tap = none → Ends .tapReset s s) ∧
    (s.tap.isSome = true → ∃ t, Ends .tapReset s t ∧ t.tap = none ∧ ∀ n : Fin 8, t.link n =
      if s.pcsOn n = true ∧ s.link n = stDISABLED ∧ s.on (F.NEG_CTRL.PORT_EN n) = true then stSENSE else s.link n)
/-! ### What holds of every step -/

/-- The block's own time (16_clocks.md R585, 17_power.md R617, 19_faults_availability.md R670; the model's choice of what an
empty queue means is log entry 3): on an empty queue TB advances by one SEQ edge, 1.25 ns on ROOT and 5 ns on FOSC, and not at
all in a gap, under reset or at rest; nothing else changes. -/
def Obligations.IdleAdvancesTime : Prop :=
  ∀ (s : State), s.pending = [] →
    (s.familyRuns = true → s.ckc.mult = 1 → s.on F.CKC_SW_STATUS.SRC_CUR = true → step s = .next { s with tbq := s.tbq + 5 }) ∧
    (s.familyRuns = true → s.ckc.mult = 1 → s.on F.CKC_SW_STATUS.SRC_CUR = false → step s = .next { s with tbq := s.tbq + 20 }) ∧
    (s.familyRuns = false → step s = .next s) ∧
    (∀ t, step s = .next t → t = { s with tbq := t.tbq } ∧ s.tbq ≤ t.tbq)

/-- Every step goes on, and the interrupt levels stand as their sources give them after it (15_host_access_mailboxes.md R547,
R555, R556, R567): HIF_INT_SRC, INT_N, the levels that MSI-X and the Lantern's doorbell follow. -/
def Obligations.LevelsFollowEveryStep : Prop :=
  ∀ (s : State), LevelsFollow s → ∃ t, step s = .next t ∧ LevelsFollow t

/-- The levels stand after reset. -/
def Obligations.LevelsFollowReset : Prop := LevelsFollow State.reset

/-- What follows the own effect `u` of a command where nothing else is due (15_host_access_mailboxes.md R547, R548, R555,
R556, R567): HIF_INT_SRC, INT_N, the MSI-X vectors and the doorbell of endpoint 1; every other register and every other part of
the state is as `u` has it. -/
def Obligations.QuietEffectsEndThere : Prop :=
  ∀ (c : Instr) (s u : State), Ends c s u → Quiet u → ∃ t, exec c s = .next t ∧ LevelsFollow t ∧
    t = { u with regs := t.regs, hif := { u.hif with fn := t.hif.fn, rung := t.hif.rung, intN := t.hif.intN } } ∧
    (∀ f : Fld, f.key / 32 ≠ F.HIF_INT_SRC.SRC.addr → f.key ≠ (F.DB_PEND.DB 1).key → t.rd f = u.rd f) ∧
    (ringLevels u.intLevels = u.hif.rung → t.rd (F.DB_PEND.DB 1) = u.rd (F.DB_PEND.DB 1)) ∧
    ∀ f : Fin 2, u.hif.fn[f].level = u.pfLevels u.intLevels f → u.hif.fn[f].pba = 0 → t.hif.fn[f] = u.hif.fn[f]

/-- The words of the MOLX instructions (12_molx_isa.md R415-R419, R421, R424): the word of an instruction, where a table lists
it, is a word of 32 bits and spells that instruction and no other; and a word that spells an instruction is the instruction's
word, but for the operations on all entries or lines, whose register field means nothing. -/
def Obligations.MolxWordsRoundTrip : Prop :=
  (∀ c i w, molxWord c = some (i, w) → w < 2 ^ 32 ∧ (molxLegal w = true → molxDecode i w = some (soundLoad c))) ∧
  ∀ i w c, w < 2 ^ 32 → molxDecode i w = some c →
    ¬ (bitsOf w 31 26 = 0x30 ∧ (bitsOf w 5 0 = 7 ∧ bitsOf w 10 6 = 1 ∨ bitsOf w 5 0 = 8 ∧ 8 ≤ bitsOf w 10 6)) →
    molxWord c = some (i, w)
end

