-- ==== Sys2Proof/Laws/Sparse.lean ====
section
/-! SUPPORT. Laws of sparse maps and of memory: reading after writing, and the canonical form that every memory operation
keeps. -/

namespace Sys2Proof.Machine

/-! ### Sparse maps -/

@[simp] theorem spFind_spPut_same {α : Type} (m : Sparse α) (k : Nat) (v : α) : spFind (spPut m k v) k = some v := by
  induction m with
  | nil => simp [spPut, spFind]
  | cons p r ih =>
    obtain ⟨a, w⟩ := p
    simp only [spPut]
    split
    · simp [spFind]
    · split
      · simp [spFind]
      · simp [spFind, *]

theorem spFind_spPut_other {α : Type} (m : Sparse α) {k j : Nat} (v : α) (h : k ≠ j) :
    spFind (spPut m k v) j = spFind m j := by
  induction m with
  | nil => simp [spPut, spFind, h]
  | cons p r ih =>
    obtain ⟨a, w⟩ := p
    simp only [spPut]
    split
    · next e => subst e; simp [spFind, h]
    · split
      · simp [spFind, h]
      · simp [spFind, ih]

@[simp] theorem spFind_spDel_same {α : Type} (m : Sparse α) (k : Nat) : spFind (spDel m k) k = none := by
  induction m with
  | nil => rfl
  | cons p r ih =>
    obtain ⟨a, w⟩ := p
    simp only [spDel]
    split
    · exact ih
    · simp [spFind, *]

theorem spFind_spDel_other {α : Type} (m : Sparse α) {k j : Nat} (h : k ≠ j) : spFind (spDel m k) j = spFind m j := by
  induction m with
  | nil => rfl
  | cons p r ih =>
    obtain ⟨a, w⟩ := p
    simp only [spDel]
    split
    · next e => subst e; simp [spFind, ih, h]
    · simp [spFind, ih]

/-! ### The rising order of keys -/

/-- A list that rises above a bound rises above a lower one. -/
theorem spRising_le {α : Type} (m : Sparse α) {l l' : Nat} (hl : l' ≤ l) (h : spRising (some l) m = true) :
    spRising (some l') m = true := by
  cases m with
  | nil => rfl
  | cons p r =>
    obtain ⟨a, w⟩ := p
    simp only [spRising, Bool.and_eq_true, decide_eq_true_eq] at h ⊢
    exact ⟨by omega, h.2⟩

theorem spRising_none {α : Type} (m : Sparse α) {l : Nat} (h : spRising (some l) m = true) : spRising none m = true := by
  cases m with
  | nil => rfl
  | cons p r =>
    obtain ⟨a, w⟩ := p
    simp only [spRising, Bool.and_eq_true, decide_eq_true_eq] at h ⊢
    exact h.2

theorem spPut_rising_some {α : Type} (m : Sparse α) (k : Nat) (v : α) (l : Nat) (hk : l < k)
    (h : spRising (some l) m = true) : spRising (some l) (spPut m k v) = true := by
  induction m generalizing l with
  | nil => simp [spPut, spRising, hk]
  | cons p r ih =>
    obtain ⟨a, w⟩ := p
    simp only [spRising, Bool.and_eq_true, decide_eq_true_eq] at h
    simp only [spPut]
    split
    · next e => subst e; simp [spRising, h.1, h.2]
    · split
      · next e1 e2 => simp [spRising, hk, e2, h.2]
      · next e1 e2 =>
        simp only [spRising, Bool.and_eq_true, decide_eq_true_eq]
        exact ⟨h.1, ih a (by omega) h.2⟩

theorem spPut_rising {α : Type} (m : Sparse α) (k : Nat) (v : α) (h : spRising none m = true) :
    spRising none (spPut m k v) = true := by
  cases m with
  | nil => rfl
  | cons p r =>
    obtain ⟨a, w⟩ := p
    simp only [spRising] at h
    simp only [spPut]
    split
    · next e => subst e; simpa [spRising] using h
    · split
      · next e1 e2 => simp [spRising, e2, h]
      · next e1 e2 => exact spPut_rising_some r k v a (by omega) h

theorem spDel_rising_some {α : Type} (m : Sparse α) (k l : Nat) (h : spRising (some l) m = true) :
    spRising (some l) (spDel m k) = true := by
  induction m generalizing l with
  | nil => rfl
  | cons p r ih =>
    obtain ⟨a, w⟩ := p
    simp only [spRising, Bool.and_eq_true, decide_eq_true_eq] at h
    simp only [spDel]
    split
    · exact ih l (spRising_le r (by omega) h.2)
    · simp only [spRising, Bool.and_eq_true, decide_eq_true_eq]
      exact ⟨h.1, ih a h.2⟩

theorem spDel_rising {α : Type} (m : Sparse α) (k : Nat) (h : spRising none m = true) :
    spRising none (spDel m k) = true := by
  cases m with
  | nil => rfl
  | cons p r =>
    obtain ⟨a, w⟩ := p
    simp only [spRising] at h
    simp only [spDel]
    split
    · exact spRising_none _ (spDel_rising_some r k a h)
    · exact spDel_rising_some r k a h

/-! ### Memory -/

theorem Mem.read_write_same (m : Mem) (a : Nat) (b : Byte) : (m.write a b).read a = b := by
  unfold Mem.write Mem.read
  split <;> simp [*]

theorem Mem.read_write_other (m : Mem) {a c : Nat} (b : Byte) (h : a ≠ c) : (m.write a b).read c = m.read c := by
  unfold Mem.write Mem.read
  split
  · rw [spFind_spDel_other m h]
  · rw [spFind_spPut_other m b h]

/-- A list of bytes written from `a` upward leaves every other byte as it was. -/
theorem Mem.read_writeL_other (bs : List Byte) (m : Mem) {a c : Nat} (h : c < a ∨ a + bs.length ≤ c) :
    (m.writeL a bs).read c = m.read c := by
  induction bs generalizing m a with
  | nil => rfl
  | cons b bs ih =>
    simp only [List.length_cons] at h
    rw [Mem.writeL, ih _ (by omega), Mem.read_write_other _ _ (by omega)]

/-- Bytes written from `a` upward read back. -/
theorem Mem.readN_writeL (bs : List Byte) (m : Mem) (a : Nat) : (m.writeL a bs).readN a bs.length = bs := by
  induction bs generalizing m a with
  | nil => rfl
  | cons b bs ih =>
    simp only [List.length_cons, Mem.readN, Mem.writeL]
    rw [ih, Mem.read_writeL_other _ _ (by omega), Mem.read_write_same]

theorem spPut_all {α : Type} (p : α → Bool) (m : Sparse α) (k : Nat) (v : α) (hv : p v = true)
    (h : m.all (fun e => p e.2) = true) : (spPut m k v).all (fun e => p e.2) = true := by
  induction m with
  | nil => simp [spPut, hv]
  | cons e r ih =>
    obtain ⟨a, w⟩ := e
    simp only [List.all_cons, Bool.and_eq_true] at h
    simp only [spPut]
    split
    · simp [hv, h.2]
    · split
      · simp [hv, h.1, h.2]
      · simp [h.1, ih h.2]

theorem spDel_all {α : Type} (p : α → Bool) (m : Sparse α) (k : Nat) (h : m.all (fun e => p e.2) = true) :
    (spDel m k).all (fun e => p e.2) = true := by
  induction m with
  | nil => rfl
  | cons e r ih =>
    obtain ⟨a, w⟩ := e
    simp only [List.all_cons, Bool.and_eq_true] at h
    simp only [spDel]
    split
    · exact ih h.2
    · simp [h.1, ih h.2]

/-- Writing a byte keeps the canonical form. -/
theorem Mem.write_wf (m : Mem) (a : Nat) (b : Byte) (h : m.wf = true) : (m.write a b).wf = true := by
  unfold Mem.wf at h ⊢
  simp only [Bool.and_eq_true] at h ⊢
  unfold Mem.write
  split
  · exact ⟨spDel_rising m a h.1, spDel_all (· != Mem.blank) m a h.2⟩
  · next e => exact ⟨spPut_rising m a b h.1, spPut_all (· != Mem.blank) m a b (by simpa using e) h.2⟩

/-- Writing a list of bytes keeps the canonical form. -/
theorem Mem.writeL_wf (bs : List Byte) (m : Mem) (a : Nat) (h : m.wf = true) : (m.writeL a bs).wf = true := by
  induction bs generalizing m a with
  | nil => exact h
  | cons b bs ih => exact ih _ _ (Mem.write_wf m a b h)

/-- Writing a number keeps the canonical form. -/
theorem Mem.writeNat_wf (m : Mem) (a k v : Nat) (h : m.wf = true) : (m.writeNat a k v).wf = true :=
  Mem.writeL_wf _ m a h

theorem Mem.ofBytes_rising (bs : List Byte) (a l : Nat) (h : l < a) : spRising (some l) (Mem.ofBytes a bs) = true := by
  induction bs generalizing a l with
  | nil => rfl
  | cons b bs ih =>
    simp only [Mem.ofBytes]
    split
    · exact ih (a + 1) l (by omega)
    · simp only [spRising, Bool.and_eq_true, decide_eq_true_eq]
      exact ⟨h, ih (a + 1) a (by omega)⟩

/-- A memory made of bytes has the canonical form. -/
theorem Mem.ofBytes_wf (bs : List Byte) (a : Nat) : (Mem.ofBytes a bs).wf = true := by
  unfold Mem.wf
  simp only [Bool.and_eq_true]
  constructor
  · cases a with
    | succ a => exact spRising_none _ (Mem.ofBytes_rising bs (a + 1) a (by omega))
    | zero =>
      cases bs with
      | nil => rfl
      | cons b bs =>
        simp only [Mem.ofBytes]
        split
        · exact spRising_none _ (Mem.ofBytes_rising bs 1 0 (by omega))
        · simp only [spRising]
          exact Mem.ofBytes_rising bs 1 0 (by omega)
  · induction bs generalizing a with
    | nil => rfl
    | cons b bs ih =>
      simp only [Mem.ofBytes]
      split
      · exact ih (a + 1)
      · next e => simp [ih (a + 1), e]

end Sys2Proof.Machine
end

