-- ==== Sys2Proof/Laws/State.lean ====
section
/-! SUPPORT. One lemma per field of State and per update: what each named update leaves as it was, and reading a register
field after writing one. -/

namespace Sys2Proof.Machine

@[simp] theorem State.wr_pending (s : State) (f : Fld) (v : Nat) : (s.wr f v).pending = s.pending := rfl
@[simp] theorem State.wr_freeCtr (s : State) (f : Fld) (v : Nat) : (s.wr f v).freeCtr = s.freeCtr := rfl
@[simp] theorem State.wr_tbq (s : State) (f : Fld) (v : Nat) : (s.wr f v).tbq = s.tbq := rfl
@[simp] theorem State.wr_port (s : State) (f : Fld) (v : Nat) : (s.wr f v).port = s.port := rfl
@[simp] theorem State.wr_twin (s : State) (f : Fld) (v : Nat) : (s.wr f v).twin = s.twin := rfl
@[simp] theorem State.wr_side (s : State) (f : Fld) (v : Nat) : (s.wr f v).side = s.side := rfl
@[simp] theorem State.wr_lane (s : State) (f : Fld) (v : Nat) : (s.wr f v).lane = s.lane := rfl
@[simp] theorem State.wr_ddr (s : State) (f : Fld) (v : Nat) : (s.wr f v).ddr = s.ddr := rfl
@[simp] theorem State.wr_sram (s : State) (f : Fld) (v : Nat) : (s.wr f v).sram = s.sram := rfl
@[simp] theorem State.wr_flash (s : State) (f : Fld) (v : Nat) : (s.wr f v).flash = s.flash := rfl
@[simp] theorem State.wr_flt (s : State) (f : Fld) (v : Nat) : (s.wr f v).flt = s.flt := rfl
@[simp] theorem State.wr_pwc (s : State) (f : Fld) (v : Nat) : (s.wr f v).pwc = s.pwc := rfl
@[simp] theorem State.wr_ckc (s : State) (f : Fld) (v : Nat) : (s.wr f v).ckc = s.ckc := rfl
@[simp] theorem State.wr_tap (s : State) (f : Fld) (v : Nat) : (s.wr f v).tap = s.tap := rfl
@[simp] theorem State.wr_cup (s : State) (f : Fld) (v : Nat) : (s.wr f v).cup = s.cup := rfl
@[simp] theorem State.wr_bus (s : State) (f : Fld) (v : Nat) : (s.wr f v).bus = s.bus := rfl
@[simp] theorem State.wr_hif (s : State) (f : Fld) (v : Nat) : (s.wr f v).hif = s.hif := rfl
@[simp] theorem State.wr_bf (s : State) (f : Fld) (v : Nat) : (s.wr f v).bf = s.bf := rfl
@[simp] theorem State.wr_bfPseq (s : State) (f : Fld) (v : Nat) : (s.wr f v).bfPseq = s.bfPseq := rfl
@[simp] theorem State.wr_kepStore (s : State) (f : Fld) (v : Nat) : (s.wr f v).kepStore = s.kepStore := rfl
@[simp] theorem State.wr_kep (s : State) (f : Fld) (v : Nat) : (s.wr f v).kep = s.kep := rfl
@[simp] theorem State.wr_cal (s : State) (f : Fld) (v : Nat) : (s.wr f v).cal = s.cal := rfl
@[simp] theorem State.wr_core (s : State) (f : Fld) (v : Nat) : (s.wr f v).core = s.core := rfl
@[simp] theorem State.wr_sqc (s : State) (f : Fld) (v : Nat) : (s.wr f v).sqc = s.sqc := rfl

@[simp] theorem State.wrB_pending (s : State) (f : Fld) (b : Bool) : (s.wrB f b).pending = s.pending := rfl
@[simp] theorem State.wrB_freeCtr (s : State) (f : Fld) (b : Bool) : (s.wrB f b).freeCtr = s.freeCtr := rfl
@[simp] theorem State.wrB_tbq (s : State) (f : Fld) (b : Bool) : (s.wrB f b).tbq = s.tbq := rfl
@[simp] theorem State.wrB_port (s : State) (f : Fld) (b : Bool) : (s.wrB f b).port = s.port := rfl
@[simp] theorem State.wrB_twin (s : State) (f : Fld) (b : Bool) : (s.wrB f b).twin = s.twin := rfl
@[simp] theorem State.wrB_side (s : State) (f : Fld) (b : Bool) : (s.wrB f b).side = s.side := rfl
@[simp] theorem State.wrB_lane (s : State) (f : Fld) (b : Bool) : (s.wrB f b).lane = s.lane := rfl
@[simp] theorem State.wrB_ddr (s : State) (f : Fld) (b : Bool) : (s.wrB f b).ddr = s.ddr := rfl
@[simp] theorem State.wrB_sram (s : State) (f : Fld) (b : Bool) : (s.wrB f b).sram = s.sram := rfl
@[simp] theorem State.wrB_flash (s : State) (f : Fld) (b : Bool) : (s.wrB f b).flash = s.flash := rfl
@[simp] theorem State.wrB_flt (s : State) (f : Fld) (b : Bool) : (s.wrB f b).flt = s.flt := rfl
@[simp] theorem State.wrB_pwc (s : State) (f : Fld) (b : Bool) : (s.wrB f b).pwc = s.pwc := rfl
@[simp] theorem State.wrB_ckc (s : State) (f : Fld) (b : Bool) : (s.wrB f b).ckc = s.ckc := rfl
@[simp] theorem State.wrB_tap (s : State) (f : Fld) (b : Bool) : (s.wrB f b).tap = s.tap := rfl
@[simp] theorem State.wrB_cup (s : State) (f : Fld) (b : Bool) : (s.wrB f b).cup = s.cup := rfl
@[simp] theorem State.wrB_bus (s : State) (f : Fld) (b : Bool) : (s.wrB f b).bus = s.bus := rfl
@[simp] theorem State.wrB_hif (s : State) (f : Fld) (b : Bool) : (s.wrB f b).hif = s.hif := rfl
@[simp] theorem State.wrB_bf (s : State) (f : Fld) (b : Bool) : (s.wrB f b).bf = s.bf := rfl
@[simp] theorem State.wrB_bfPseq (s : State) (f : Fld) (b : Bool) : (s.wrB f b).bfPseq = s.bfPseq := rfl
@[simp] theorem State.wrB_kepStore (s : State) (f : Fld) (b : Bool) : (s.wrB f b).kepStore = s.kepStore := rfl
@[simp] theorem State.wrB_kep (s : State) (f : Fld) (b : Bool) : (s.wrB f b).kep = s.kep := rfl
@[simp] theorem State.wrB_cal (s : State) (f : Fld) (b : Bool) : (s.wrB f b).cal = s.cal := rfl
@[simp] theorem State.wrB_core (s : State) (f : Fld) (b : Bool) : (s.wrB f b).core = s.core := rfl
@[simp] theorem State.wrB_sqc (s : State) (f : Fld) (b : Bool) : (s.wrB f b).sqc = s.sqc := rfl

@[simp] theorem State.modPort_pending (s : State) (n : Fin 8) (g : Port → Port) : (s.modPort n g).pending = s.pending := rfl
@[simp] theorem State.modPort_regs (s : State) (n : Fin 8) (g : Port → Port) : (s.modPort n g).regs = s.regs := rfl
@[simp] theorem State.modPort_freeCtr (s : State) (n : Fin 8) (g : Port → Port) : (s.modPort n g).freeCtr = s.freeCtr := rfl
@[simp] theorem State.modPort_tbq (s : State) (n : Fin 8) (g : Port → Port) : (s.modPort n g).tbq = s.tbq := rfl
@[simp] theorem State.modPort_twin (s : State) (n : Fin 8) (g : Port → Port) : (s.modPort n g).twin = s.twin := rfl
@[simp] theorem State.modPort_side (s : State) (n : Fin 8) (g : Port → Port) : (s.modPort n g).side = s.side := rfl
@[simp] theorem State.modPort_lane (s : State) (n : Fin 8) (g : Port → Port) : (s.modPort n g).lane = s.lane := rfl
@[simp] theorem State.modPort_ddr (s : State) (n : Fin 8) (g : Port → Port) : (s.modPort n g).ddr = s.ddr := rfl
@[simp] theorem State.modPort_sram (s : State) (n : Fin 8) (g : Port → Port) : (s.modPort n g).sram = s.sram := rfl
@[simp] theorem State.modPort_flash (s : State) (n : Fin 8) (g : Port → Port) : (s.modPort n g).flash = s.flash := rfl
@[simp] theorem State.modPort_flt (s : State) (n : Fin 8) (g : Port → Port) : (s.modPort n g).flt = s.flt := rfl
@[simp] theorem State.modPort_pwc (s : State) (n : Fin 8) (g : Port → Port) : (s.modPort n g).pwc = s.pwc := rfl
@[simp] theorem State.modPort_ckc (s : State) (n : Fin 8) (g : Port → Port) : (s.modPort n g).ckc = s.ckc := rfl
@[simp] theorem State.modPort_tap (s : State) (n : Fin 8) (g : Port → Port) : (s.modPort n g).tap = s.tap := rfl
@[simp] theorem State.modPort_cup (s : State) (n : Fin 8) (g : Port → Port) : (s.modPort n g).cup = s.cup := rfl
@[simp] theorem State.modPort_bus (s : State) (n : Fin 8) (g : Port → Port) : (s.modPort n g).bus = s.bus := rfl
@[simp] theorem State.modPort_hif (s : State) (n : Fin 8) (g : Port → Port) : (s.modPort n g).hif = s.hif := rfl
@[simp] theorem State.modPort_bf (s : State) (n : Fin 8) (g : Port → Port) : (s.modPort n g).bf = s.bf := rfl
@[simp] theorem State.modPort_bfPseq (s : State) (n : Fin 8) (g : Port → Port) : (s.modPort n g).bfPseq = s.bfPseq := rfl
@[simp] theorem State.modPort_kepStore (s : State) (n : Fin 8) (g : Port → Port) : (s.modPort n g).kepStore = s.kepStore := rfl
@[simp] theorem State.modPort_kep (s : State) (n : Fin 8) (g : Port → Port) : (s.modPort n g).kep = s.kep := rfl
@[simp] theorem State.modPort_cal (s : State) (n : Fin 8) (g : Port → Port) : (s.modPort n g).cal = s.cal := rfl
@[simp] theorem State.modPort_core (s : State) (n : Fin 8) (g : Port → Port) : (s.modPort n g).core = s.core := rfl
@[simp] theorem State.modPort_sqc (s : State) (n : Fin 8) (g : Port → Port) : (s.modPort n g).sqc = s.sqc := rfl

@[simp] theorem State.modTwin_pending (s : State) (k : Fin 4) (g : Twin → Twin) : (s.modTwin k g).pending = s.pending := rfl
@[simp] theorem State.modTwin_regs (s : State) (k : Fin 4) (g : Twin → Twin) : (s.modTwin k g).regs = s.regs := rfl
@[simp] theorem State.modTwin_freeCtr (s : State) (k : Fin 4) (g : Twin → Twin) : (s.modTwin k g).freeCtr = s.freeCtr := rfl
@[simp] theorem State.modTwin_tbq (s : State) (k : Fin 4) (g : Twin → Twin) : (s.modTwin k g).tbq = s.tbq := rfl
@[simp] theorem State.modTwin_port (s : State) (k : Fin 4) (g : Twin → Twin) : (s.modTwin k g).port = s.port := rfl
@[simp] theorem State.modTwin_side (s : State) (k : Fin 4) (g : Twin → Twin) : (s.modTwin k g).side = s.side := rfl
@[simp] theorem State.modTwin_lane (s : State) (k : Fin 4) (g : Twin → Twin) : (s.modTwin k g).lane = s.lane := rfl
@[simp] theorem State.modTwin_ddr (s : State) (k : Fin 4) (g : Twin → Twin) : (s.modTwin k g).ddr = s.ddr := rfl
@[simp] theorem State.modTwin_sram (s : State) (k : Fin 4) (g : Twin → Twin) : (s.modTwin k g).sram = s.sram := rfl
@[simp] theorem State.modTwin_flash (s : State) (k : Fin 4) (g : Twin → Twin) : (s.modTwin k g).flash = s.flash := rfl
@[simp] theorem State.modTwin_flt (s : State) (k : Fin 4) (g : Twin → Twin) : (s.modTwin k g).flt = s.flt := rfl
@[simp] theorem State.modTwin_pwc (s : State) (k : Fin 4) (g : Twin → Twin) : (s.modTwin k g).pwc = s.pwc := rfl
@[simp] theorem State.modTwin_ckc (s : State) (k : Fin 4) (g : Twin → Twin) : (s.modTwin k g).ckc = s.ckc := rfl
@[simp] theorem State.modTwin_tap (s : State) (k : Fin 4) (g : Twin → Twin) : (s.modTwin k g).tap = s.tap := rfl
@[simp] theorem State.modTwin_cup (s : State) (k : Fin 4) (g : Twin → Twin) : (s.modTwin k g).cup = s.cup := rfl
@[simp] theorem State.modTwin_bus (s : State) (k : Fin 4) (g : Twin → Twin) : (s.modTwin k g).bus = s.bus := rfl
@[simp] theorem State.modTwin_hif (s : State) (k : Fin 4) (g : Twin → Twin) : (s.modTwin k g).hif = s.hif := rfl
@[simp] theorem State.modTwin_bf (s : State) (k : Fin 4) (g : Twin → Twin) : (s.modTwin k g).bf = s.bf := rfl
@[simp] theorem State.modTwin_bfPseq (s : State) (k : Fin 4) (g : Twin → Twin) : (s.modTwin k g).bfPseq = s.bfPseq := rfl
@[simp] theorem State.modTwin_kepStore (s : State) (k : Fin 4) (g : Twin → Twin) : (s.modTwin k g).kepStore = s.kepStore := rfl
@[simp] theorem State.modTwin_kep (s : State) (k : Fin 4) (g : Twin → Twin) : (s.modTwin k g).kep = s.kep := rfl
@[simp] theorem State.modTwin_cal (s : State) (k : Fin 4) (g : Twin → Twin) : (s.modTwin k g).cal = s.cal := rfl
@[simp] theorem State.modTwin_core (s : State) (k : Fin 4) (g : Twin → Twin) : (s.modTwin k g).core = s.core := rfl
@[simp] theorem State.modTwin_sqc (s : State) (k : Fin 4) (g : Twin → Twin) : (s.modTwin k g).sqc = s.sqc := rfl

@[simp] theorem State.modSide_pending (s : State) (o : Fin 12) (g : HostSide → HostSide) : (s.modSide o g).pending = s.pending := rfl
@[simp] theorem State.modSide_regs (s : State) (o : Fin 12) (g : HostSide → HostSide) : (s.modSide o g).regs = s.regs := rfl
@[simp] theorem State.modSide_freeCtr (s : State) (o : Fin 12) (g : HostSide → HostSide) : (s.modSide o g).freeCtr = s.freeCtr := rfl
@[simp] theorem State.modSide_tbq (s : State) (o : Fin 12) (g : HostSide → HostSide) : (s.modSide o g).tbq = s.tbq := rfl
@[simp] theorem State.modSide_port (s : State) (o : Fin 12) (g : HostSide → HostSide) : (s.modSide o g).port = s.port := rfl
@[simp] theorem State.modSide_twin (s : State) (o : Fin 12) (g : HostSide → HostSide) : (s.modSide o g).twin = s.twin := rfl
@[simp] theorem State.modSide_lane (s : State) (o : Fin 12) (g : HostSide → HostSide) : (s.modSide o g).lane = s.lane := rfl
@[simp] theorem State.modSide_ddr (s : State) (o : Fin 12) (g : HostSide → HostSide) : (s.modSide o g).ddr = s.ddr := rfl
@[simp] theorem State.modSide_sram (s : State) (o : Fin 12) (g : HostSide → HostSide) : (s.modSide o g).sram = s.sram := rfl
@[simp] theorem State.modSide_flash (s : State) (o : Fin 12) (g : HostSide → HostSide) : (s.modSide o g).flash = s.flash := rfl
@[simp] theorem State.modSide_flt (s : State) (o : Fin 12) (g : HostSide → HostSide) : (s.modSide o g).flt = s.flt := rfl
@[simp] theorem State.modSide_pwc (s : State) (o : Fin 12) (g : HostSide → HostSide) : (s.modSide o g).pwc = s.pwc := rfl
@[simp] theorem State.modSide_ckc (s : State) (o : Fin 12) (g : HostSide → HostSide) : (s.modSide o g).ckc = s.ckc := rfl
@[simp] theorem State.modSide_tap (s : State) (o : Fin 12) (g : HostSide → HostSide) : (s.modSide o g).tap = s.tap := rfl
@[simp] theorem State.modSide_cup (s : State) (o : Fin 12) (g : HostSide → HostSide) : (s.modSide o g).cup = s.cup := rfl
@[simp] theorem State.modSide_bus (s : State) (o : Fin 12) (g : HostSide → HostSide) : (s.modSide o g).bus = s.bus := rfl
@[simp] theorem State.modSide_hif (s : State) (o : Fin 12) (g : HostSide → HostSide) : (s.modSide o g).hif = s.hif := rfl
@[simp] theorem State.modSide_bf (s : State) (o : Fin 12) (g : HostSide → HostSide) : (s.modSide o g).bf = s.bf := rfl
@[simp] theorem State.modSide_bfPseq (s : State) (o : Fin 12) (g : HostSide → HostSide) : (s.modSide o g).bfPseq = s.bfPseq := rfl
@[simp] theorem State.modSide_kepStore (s : State) (o : Fin 12) (g : HostSide → HostSide) : (s.modSide o g).kepStore = s.kepStore := rfl
@[simp] theorem State.modSide_kep (s : State) (o : Fin 12) (g : HostSide → HostSide) : (s.modSide o g).kep = s.kep := rfl
@[simp] theorem State.modSide_cal (s : State) (o : Fin 12) (g : HostSide → HostSide) : (s.modSide o g).cal = s.cal := rfl
@[simp] theorem State.modSide_core (s : State) (o : Fin 12) (g : HostSide → HostSide) : (s.modSide o g).core = s.core := rfl
@[simp] theorem State.modSide_sqc (s : State) (o : Fin 12) (g : HostSide → HostSide) : (s.modSide o g).sqc = s.sqc := rfl

@[simp] theorem State.modLane_pending (s : State) (n : Fin 8) (g : Lane → Lane) : (s.modLane n g).pending = s.pending := rfl
@[simp] theorem State.modLane_regs (s : State) (n : Fin 8) (g : Lane → Lane) : (s.modLane n g).regs = s.regs := rfl
@[simp] theorem State.modLane_freeCtr (s : State) (n : Fin 8) (g : Lane → Lane) : (s.modLane n g).freeCtr = s.freeCtr := rfl
@[simp] theorem State.modLane_tbq (s : State) (n : Fin 8) (g : Lane → Lane) : (s.modLane n g).tbq = s.tbq := rfl
@[simp] theorem State.modLane_port (s : State) (n : Fin 8) (g : Lane → Lane) : (s.modLane n g).port = s.port := rfl
@[simp] theorem State.modLane_twin (s : State) (n : Fin 8) (g : Lane → Lane) : (s.modLane n g).twin = s.twin := rfl
@[simp] theorem State.modLane_side (s : State) (n : Fin 8) (g : Lane → Lane) : (s.modLane n g).side = s.side := rfl
@[simp] theorem State.modLane_ddr (s : State) (n : Fin 8) (g : Lane → Lane) : (s.modLane n g).ddr = s.ddr := rfl
@[simp] theorem State.modLane_sram (s : State) (n : Fin 8) (g : Lane → Lane) : (s.modLane n g).sram = s.sram := rfl
@[simp] theorem State.modLane_flash (s : State) (n : Fin 8) (g : Lane → Lane) : (s.modLane n g).flash = s.flash := rfl
@[simp] theorem State.modLane_flt (s : State) (n : Fin 8) (g : Lane → Lane) : (s.modLane n g).flt = s.flt := rfl
@[simp] theorem State.modLane_pwc (s : State) (n : Fin 8) (g : Lane → Lane) : (s.modLane n g).pwc = s.pwc := rfl
@[simp] theorem State.modLane_ckc (s : State) (n : Fin 8) (g : Lane → Lane) : (s.modLane n g).ckc = s.ckc := rfl
@[simp] theorem State.modLane_tap (s : State) (n : Fin 8) (g : Lane → Lane) : (s.modLane n g).tap = s.tap := rfl
@[simp] theorem State.modLane_cup (s : State) (n : Fin 8) (g : Lane → Lane) : (s.modLane n g).cup = s.cup := rfl
@[simp] theorem State.modLane_bus (s : State) (n : Fin 8) (g : Lane → Lane) : (s.modLane n g).bus = s.bus := rfl
@[simp] theorem State.modLane_hif (s : State) (n : Fin 8) (g : Lane → Lane) : (s.modLane n g).hif = s.hif := rfl
@[simp] theorem State.modLane_bf (s : State) (n : Fin 8) (g : Lane → Lane) : (s.modLane n g).bf = s.bf := rfl
@[simp] theorem State.modLane_bfPseq (s : State) (n : Fin 8) (g : Lane → Lane) : (s.modLane n g).bfPseq = s.bfPseq := rfl
@[simp] theorem State.modLane_kepStore (s : State) (n : Fin 8) (g : Lane → Lane) : (s.modLane n g).kepStore = s.kepStore := rfl
@[simp] theorem State.modLane_kep (s : State) (n : Fin 8) (g : Lane → Lane) : (s.modLane n g).kep = s.kep := rfl
@[simp] theorem State.modLane_cal (s : State) (n : Fin 8) (g : Lane → Lane) : (s.modLane n g).cal = s.cal := rfl
@[simp] theorem State.modLane_core (s : State) (n : Fin 8) (g : Lane → Lane) : (s.modLane n g).core = s.core := rfl
@[simp] theorem State.modLane_sqc (s : State) (n : Fin 8) (g : Lane → Lane) : (s.modLane n g).sqc = s.sqc := rfl

@[simp] theorem State.modCore_pending (s : State) (i : Fin 11) (g : Core → Core) : (s.modCore i g).pending = s.pending := rfl
@[simp] theorem State.modCore_regs (s : State) (i : Fin 11) (g : Core → Core) : (s.modCore i g).regs = s.regs := rfl
@[simp] theorem State.modCore_freeCtr (s : State) (i : Fin 11) (g : Core → Core) : (s.modCore i g).freeCtr = s.freeCtr := rfl
@[simp] theorem State.modCore_tbq (s : State) (i : Fin 11) (g : Core → Core) : (s.modCore i g).tbq = s.tbq := rfl
@[simp] theorem State.modCore_port (s : State) (i : Fin 11) (g : Core → Core) : (s.modCore i g).port = s.port := rfl
@[simp] theorem State.modCore_twin (s : State) (i : Fin 11) (g : Core → Core) : (s.modCore i g).twin = s.twin := rfl
@[simp] theorem State.modCore_side (s : State) (i : Fin 11) (g : Core → Core) : (s.modCore i g).side = s.side := rfl
@[simp] theorem State.modCore_lane (s : State) (i : Fin 11) (g : Core → Core) : (s.modCore i g).lane = s.lane := rfl
@[simp] theorem State.modCore_ddr (s : State) (i : Fin 11) (g : Core → Core) : (s.modCore i g).ddr = s.ddr := rfl
@[simp] theorem State.modCore_sram (s : State) (i : Fin 11) (g : Core → Core) : (s.modCore i g).sram = s.sram := rfl
@[simp] theorem State.modCore_flash (s : State) (i : Fin 11) (g : Core → Core) : (s.modCore i g).flash = s.flash := rfl
@[simp] theorem State.modCore_flt (s : State) (i : Fin 11) (g : Core → Core) : (s.modCore i g).flt = s.flt := rfl
@[simp] theorem State.modCore_pwc (s : State) (i : Fin 11) (g : Core → Core) : (s.modCore i g).pwc = s.pwc := rfl
@[simp] theorem State.modCore_ckc (s : State) (i : Fin 11) (g : Core → Core) : (s.modCore i g).ckc = s.ckc := rfl
@[simp] theorem State.modCore_tap (s : State) (i : Fin 11) (g : Core → Core) : (s.modCore i g).tap = s.tap := rfl
@[simp] theorem State.modCore_cup (s : State) (i : Fin 11) (g : Core → Core) : (s.modCore i g).cup = s.cup := rfl
@[simp] theorem State.modCore_bus (s : State) (i : Fin 11) (g : Core → Core) : (s.modCore i g).bus = s.bus := rfl
@[simp] theorem State.modCore_hif (s : State) (i : Fin 11) (g : Core → Core) : (s.modCore i g).hif = s.hif := rfl
@[simp] theorem State.modCore_bf (s : State) (i : Fin 11) (g : Core → Core) : (s.modCore i g).bf = s.bf := rfl
@[simp] theorem State.modCore_bfPseq (s : State) (i : Fin 11) (g : Core → Core) : (s.modCore i g).bfPseq = s.bfPseq := rfl
@[simp] theorem State.modCore_kepStore (s : State) (i : Fin 11) (g : Core → Core) : (s.modCore i g).kepStore = s.kepStore := rfl
@[simp] theorem State.modCore_kep (s : State) (i : Fin 11) (g : Core → Core) : (s.modCore i g).kep = s.kep := rfl
@[simp] theorem State.modCore_cal (s : State) (i : Fin 11) (g : Core → Core) : (s.modCore i g).cal = s.cal := rfl
@[simp] theorem State.modCore_sqc (s : State) (i : Fin 11) (g : Core → Core) : (s.modCore i g).sqc = s.sqc := rfl

@[simp] theorem State.modCtx_pending (s : State) (i : Fin 11) (c : Fin 4) (g : Ctx → Ctx) : (s.modCtx i c g).pending = s.pending := rfl
@[simp] theorem State.modCtx_regs (s : State) (i : Fin 11) (c : Fin 4) (g : Ctx → Ctx) : (s.modCtx i c g).regs = s.regs := rfl
@[simp] theorem State.modCtx_freeCtr (s : State) (i : Fin 11) (c : Fin 4) (g : Ctx → Ctx) : (s.modCtx i c g).freeCtr = s.freeCtr := rfl
@[simp] theorem State.modCtx_tbq (s : State) (i : Fin 11) (c : Fin 4) (g : Ctx → Ctx) : (s.modCtx i c g).tbq = s.tbq := rfl
@[simp] theorem State.modCtx_port (s : State) (i : Fin 11) (c : Fin 4) (g : Ctx → Ctx) : (s.modCtx i c g).port = s.port := rfl
@[simp] theorem State.modCtx_twin (s : State) (i : Fin 11) (c : Fin 4) (g : Ctx → Ctx) : (s.modCtx i c g).twin = s.twin := rfl
@[simp] theorem State.modCtx_side (s : State) (i : Fin 11) (c : Fin 4) (g : Ctx → Ctx) : (s.modCtx i c g).side = s.side := rfl
@[simp] theorem State.modCtx_lane (s : State) (i : Fin 11) (c : Fin 4) (g : Ctx → Ctx) : (s.modCtx i c g).lane = s.lane := rfl
@[simp] theorem State.modCtx_ddr (s : State) (i : Fin 11) (c : Fin 4) (g : Ctx → Ctx) : (s.modCtx i c g).ddr = s.ddr := rfl
@[simp] theorem State.modCtx_sram (s : State) (i : Fin 11) (c : Fin 4) (g : Ctx → Ctx) : (s.modCtx i c g).sram = s.sram := rfl
@[simp] theorem State.modCtx_flash (s : State) (i : Fin 11) (c : Fin 4) (g : Ctx → Ctx) : (s.modCtx i c g).flash = s.flash := rfl
@[simp] theorem State.modCtx_flt (s : State) (i : Fin 11) (c : Fin 4) (g : Ctx → Ctx) : (s.modCtx i c g).flt = s.flt := rfl
@[simp] theorem State.modCtx_pwc (s : State) (i : Fin 11) (c : Fin 4) (g : Ctx → Ctx) : (s.modCtx i c g).pwc = s.pwc := rfl
@[simp] theorem State.modCtx_ckc (s : State) (i : Fin 11) (c : Fin 4) (g : Ctx → Ctx) : (s.modCtx i c g).ckc = s.ckc := rfl
@[simp] theorem State.modCtx_tap (s : State) (i : Fin 11) (c : Fin 4) (g : Ctx → Ctx) : (s.modCtx i c g).tap = s.tap := rfl
@[simp] theorem State.modCtx_cup (s : State) (i : Fin 11) (c : Fin 4) (g : Ctx → Ctx) : (s.modCtx i c g).cup = s.cup := rfl
@[simp] theorem State.modCtx_bus (s : State) (i : Fin 11) (c : Fin 4) (g : Ctx → Ctx) : (s.modCtx i c g).bus = s.bus := rfl
@[simp] theorem State.modCtx_hif (s : State) (i : Fin 11) (c : Fin 4) (g : Ctx → Ctx) : (s.modCtx i c g).hif = s.hif := rfl
@[simp] theorem State.modCtx_bf (s : State) (i : Fin 11) (c : Fin 4) (g : Ctx → Ctx) : (s.modCtx i c g).bf = s.bf := rfl
@[simp] theorem State.modCtx_bfPseq (s : State) (i : Fin 11) (c : Fin 4) (g : Ctx → Ctx) : (s.modCtx i c g).bfPseq = s.bfPseq := rfl
@[simp] theorem State.modCtx_kepStore (s : State) (i : Fin 11) (c : Fin 4) (g : Ctx → Ctx) : (s.modCtx i c g).kepStore = s.kepStore := rfl
@[simp] theorem State.modCtx_kep (s : State) (i : Fin 11) (c : Fin 4) (g : Ctx → Ctx) : (s.modCtx i c g).kep = s.kep := rfl
@[simp] theorem State.modCtx_cal (s : State) (i : Fin 11) (c : Fin 4) (g : Ctx → Ctx) : (s.modCtx i c g).cal = s.cal := rfl
@[simp] theorem State.modCtx_sqc (s : State) (i : Fin 11) (c : Fin 4) (g : Ctx → Ctx) : (s.modCtx i c g).sqc = s.sqc := rfl

@[simp] theorem State.modCh_pending (s : State) (c : Fin 4) (g : Chan → Chan) : (s.modCh c g).pending = s.pending := rfl
@[simp] theorem State.modCh_regs (s : State) (c : Fin 4) (g : Chan → Chan) : (s.modCh c g).regs = s.regs := rfl
@[simp] theorem State.modCh_freeCtr (s : State) (c : Fin 4) (g : Chan → Chan) : (s.modCh c g).freeCtr = s.freeCtr := rfl
@[simp] theorem State.modCh_tbq (s : State) (c : Fin 4) (g : Chan → Chan) : (s.modCh c g).tbq = s.tbq := rfl
@[simp] theorem State.modCh_port (s : State) (c : Fin 4) (g : Chan → Chan) : (s.modCh c g).port = s.port := rfl
@[simp] theorem State.modCh_twin (s : State) (c : Fin 4) (g : Chan → Chan) : (s.modCh c g).twin = s.twin := rfl
@[simp] theorem State.modCh_side (s : State) (c : Fin 4) (g : Chan → Chan) : (s.modCh c g).side = s.side := rfl
@[simp] theorem State.modCh_lane (s : State) (c : Fin 4) (g : Chan → Chan) : (s.modCh c g).lane = s.lane := rfl
@[simp] theorem State.modCh_ddr (s : State) (c : Fin 4) (g : Chan → Chan) : (s.modCh c g).ddr = s.ddr := rfl
@[simp] theorem State.modCh_sram (s : State) (c : Fin 4) (g : Chan → Chan) : (s.modCh c g).sram = s.sram := rfl
@[simp] theorem State.modCh_flash (s : State) (c : Fin 4) (g : Chan → Chan) : (s.modCh c g).flash = s.flash := rfl
@[simp] theorem State.modCh_flt (s : State) (c : Fin 4) (g : Chan → Chan) : (s.modCh c g).flt = s.flt := rfl
@[simp] theorem State.modCh_pwc (s : State) (c : Fin 4) (g : Chan → Chan) : (s.modCh c g).pwc = s.pwc := rfl
@[simp] theorem State.modCh_ckc (s : State) (c : Fin 4) (g : Chan → Chan) : (s.modCh c g).ckc = s.ckc := rfl
@[simp] theorem State.modCh_tap (s : State) (c : Fin 4) (g : Chan → Chan) : (s.modCh c g).tap = s.tap := rfl
@[simp] theorem State.modCh_bus (s : State) (c : Fin 4) (g : Chan → Chan) : (s.modCh c g).bus = s.bus := rfl
@[simp] theorem State.modCh_hif (s : State) (c : Fin 4) (g : Chan → Chan) : (s.modCh c g).hif = s.hif := rfl
@[simp] theorem State.modCh_bf (s : State) (c : Fin 4) (g : Chan → Chan) : (s.modCh c g).bf = s.bf := rfl
@[simp] theorem State.modCh_bfPseq (s : State) (c : Fin 4) (g : Chan → Chan) : (s.modCh c g).bfPseq = s.bfPseq := rfl
@[simp] theorem State.modCh_kepStore (s : State) (c : Fin 4) (g : Chan → Chan) : (s.modCh c g).kepStore = s.kepStore := rfl
@[simp] theorem State.modCh_kep (s : State) (c : Fin 4) (g : Chan → Chan) : (s.modCh c g).kep = s.kep := rfl
@[simp] theorem State.modCh_cal (s : State) (c : Fin 4) (g : Chan → Chan) : (s.modCh c g).cal = s.cal := rfl
@[simp] theorem State.modCh_core (s : State) (c : Fin 4) (g : Chan → Chan) : (s.modCh c g).core = s.core := rfl
@[simp] theorem State.modCh_sqc (s : State) (c : Fin 4) (g : Chan → Chan) : (s.modCh c g).sqc = s.sqc := rfl

@[simp] theorem State.modFn_pending (s : State) (f : Fin 2) (g : PcieFn → PcieFn) : (s.modFn f g).pending = s.pending := rfl
@[simp] theorem State.modFn_regs (s : State) (f : Fin 2) (g : PcieFn → PcieFn) : (s.modFn f g).regs = s.regs := rfl
@[simp] theorem State.modFn_freeCtr (s : State) (f : Fin 2) (g : PcieFn → PcieFn) : (s.modFn f g).freeCtr = s.freeCtr := rfl
@[simp] theorem State.modFn_tbq (s : State) (f : Fin 2) (g : PcieFn → PcieFn) : (s.modFn f g).tbq = s.tbq := rfl
@[simp] theorem State.modFn_port (s : State) (f : Fin 2) (g : PcieFn → PcieFn) : (s.modFn f g).port = s.port := rfl
@[simp] theorem State.modFn_twin (s : State) (f : Fin 2) (g : PcieFn → PcieFn) : (s.modFn f g).twin = s.twin := rfl
@[simp] theorem State.modFn_side (s : State) (f : Fin 2) (g : PcieFn → PcieFn) : (s.modFn f g).side = s.side := rfl
@[simp] theorem State.modFn_lane (s : State) (f : Fin 2) (g : PcieFn → PcieFn) : (s.modFn f g).lane = s.lane := rfl
@[simp] theorem State.modFn_ddr (s : State) (f : Fin 2) (g : PcieFn → PcieFn) : (s.modFn f g).ddr = s.ddr := rfl
@[simp] theorem State.modFn_sram (s : State) (f : Fin 2) (g : PcieFn → PcieFn) : (s.modFn f g).sram = s.sram := rfl
@[simp] theorem State.modFn_flash (s : State) (f : Fin 2) (g : PcieFn → PcieFn) : (s.modFn f g).flash = s.flash := rfl
@[simp] theorem State.modFn_flt (s : State) (f : Fin 2) (g : PcieFn → PcieFn) : (s.modFn f g).flt = s.flt := rfl
@[simp] theorem State.modFn_pwc (s : State) (f : Fin 2) (g : PcieFn → PcieFn) : (s.modFn f g).pwc = s.pwc := rfl
@[simp] theorem State.modFn_ckc (s : State) (f : Fin 2) (g : PcieFn → PcieFn) : (s.modFn f g).ckc = s.ckc := rfl
@[simp] theorem State.modFn_tap (s : State) (f : Fin 2) (g : PcieFn → PcieFn) : (s.modFn f g).tap = s.tap := rfl
@[simp] theorem State.modFn_cup (s : State) (f : Fin 2) (g : PcieFn → PcieFn) : (s.modFn f g).cup = s.cup := rfl
@[simp] theorem State.modFn_bus (s : State) (f : Fin 2) (g : PcieFn → PcieFn) : (s.modFn f g).bus = s.bus := rfl
@[simp] theorem State.modFn_bf (s : State) (f : Fin 2) (g : PcieFn → PcieFn) : (s.modFn f g).bf = s.bf := rfl
@[simp] theorem State.modFn_bfPseq (s : State) (f : Fin 2) (g : PcieFn → PcieFn) : (s.modFn f g).bfPseq = s.bfPseq := rfl
@[simp] theorem State.modFn_kepStore (s : State) (f : Fin 2) (g : PcieFn → PcieFn) : (s.modFn f g).kepStore = s.kepStore := rfl
@[simp] theorem State.modFn_kep (s : State) (f : Fin 2) (g : PcieFn → PcieFn) : (s.modFn f g).kep = s.kep := rfl
@[simp] theorem State.modFn_cal (s : State) (f : Fin 2) (g : PcieFn → PcieFn) : (s.modFn f g).cal = s.cal := rfl
@[simp] theorem State.modFn_core (s : State) (f : Fin 2) (g : PcieFn → PcieFn) : (s.modFn f g).core = s.core := rfl
@[simp] theorem State.modFn_sqc (s : State) (f : Fin 2) (g : PcieFn → PcieFn) : (s.modFn f g).sqc = s.sqc := rfl

@[simp] theorem State.tick_pending (s : State) : (s.tick).pending = s.pending := rfl
@[simp] theorem State.tick_regs (s : State) : (s.tick).regs = s.regs := rfl
@[simp] theorem State.tick_freeCtr (s : State) : (s.tick).freeCtr = s.freeCtr := rfl
@[simp] theorem State.tick_port (s : State) : (s.tick).port = s.port := rfl
@[simp] theorem State.tick_twin (s : State) : (s.tick).twin = s.twin := rfl
@[simp] theorem State.tick_side (s : State) : (s.tick).side = s.side := rfl
@[simp] theorem State.tick_lane (s : State) : (s.tick).lane = s.lane := rfl
@[simp] theorem State.tick_ddr (s : State) : (s.tick).ddr = s.ddr := rfl
@[simp] theorem State.tick_sram (s : State) : (s.tick).sram = s.sram := rfl
@[simp] theorem State.tick_flash (s : State) : (s.tick).flash = s.flash := rfl
@[simp] theorem State.tick_flt (s : State) : (s.tick).flt = s.flt := rfl
@[simp] theorem State.tick_pwc (s : State) : (s.tick).pwc = s.pwc := rfl
@[simp] theorem State.tick_ckc (s : State) : (s.tick).ckc = s.ckc := rfl
@[simp] theorem State.tick_tap (s : State) : (s.tick).tap = s.tap := rfl
@[simp] theorem State.tick_cup (s : State) : (s.tick).cup = s.cup := rfl
@[simp] theorem State.tick_bus (s : State) : (s.tick).bus = s.bus := rfl
@[simp] theorem State.tick_hif (s : State) : (s.tick).hif = s.hif := rfl
@[simp] theorem State.tick_bf (s : State) : (s.tick).bf = s.bf := rfl
@[simp] theorem State.tick_bfPseq (s : State) : (s.tick).bfPseq = s.bfPseq := rfl
@[simp] theorem State.tick_kepStore (s : State) : (s.tick).kepStore = s.kepStore := rfl
@[simp] theorem State.tick_kep (s : State) : (s.tick).kep = s.kep := rfl
@[simp] theorem State.tick_cal (s : State) : (s.tick).cal = s.cal := rfl
@[simp] theorem State.tick_core (s : State) : (s.tick).core = s.core := rfl
@[simp] theorem State.tick_sqc (s : State) : (s.tick).sqc = s.sqc := rfl

/-! ### Register fields -/

theorem State.rd_wr_same (s : State) (f : Fld) (v : Nat) : (s.wr f v).rd f = v % 2 ^ f.width := by
  unfold State.wr State.rd
  dsimp only
  split
  · next h => rw [spFind_spDel_same, h]; rfl
  · rw [spFind_spPut_same]; rfl

theorem State.rd_wr_other (s : State) {f g : Fld} (v : Nat) (h : f.key ≠ g.key) : (s.wr f v).rd g = s.rd g := by
  unfold State.wr State.rd
  dsimp only
  split
  · rw [spFind_spDel_other _ h]
  · rw [spFind_spPut_other _ _ h]

theorem State.rd_wrB_other (s : State) {f g : Fld} (b : Bool) (h : f.key ≠ g.key) : (s.wrB f b).rd g = s.rd g :=
  State.rd_wr_other s _ h

/-- A one-bit field reads back. -/
theorem State.on_wrB_same (s : State) (f : Fld) (b : Bool) (h : f.width = 1) : (s.wrB f b).on f = b := by
  unfold State.on State.wrB
  rw [State.rd_wr_same, h]
  cases b <;> rfl

/-- A field depends on the register store alone. -/
theorem State.rd_congr {s t : State} (f : Fld) (h : s.regs = t.regs) : s.rd f = t.rd f := by
  unfold State.rd
  rw [h]

/-- A write keeps the keys of the register store strictly rising. -/
theorem State.wr_rising (s : State) (f : Fld) (v : Nat) (h : spRising none s.regs = true) :
    spRising none (s.wr f v).regs = true := by
  unfold State.wr
  dsimp only
  split
  · exact spDel_rising _ _ h
  · exact spPut_rising _ _ _ h

/-! ### Cores and contexts -/

@[simp] theorem State.ctx_modCtx_same (s : State) (i : Fin 11) (c : Fin 4) (g : Ctx → Ctx) :
    (s.modCtx i c g).ctx i c = g (s.ctx i c) := by
  simp [State.ctx, State.modCtx, State.modCore, Core.modCtx]

theorem State.core_modCore_other (s : State) {i j : Fin 11} (g : Core → Core) (h : i ≠ j) :
    (s.modCore i g).core[j] = s.core[j] := by
  have hv : (i : Nat) ≠ (j : Nat) := fun e => h (Fin.ext e)
  simp only [State.modCore, Fin.getElem_fin]
  exact Vector.getElem_set_ne i.isLt j.isLt hv

@[simp] theorem State.core_modCore_same (s : State) (i : Fin 11) (g : Core → Core) :
    (s.modCore i g).core[i] = g s.core[i] := by
  simp [State.modCore]

/-- A change of one context leaves the others of its core as they were. -/
theorem Core.ctx_modCtx_other (k : Core) {c d : Fin 4} (g : Ctx → Ctx) (h : c ≠ d) : (k.modCtx c g).ctx[d] = k.ctx[d] := by
  have hv : (c : Nat) ≠ (d : Nat) := fun e => h (Fin.ext e)
  simp only [Core.modCtx, Fin.getElem_fin]
  exact Vector.getElem_set_ne c.isLt d.isLt hv

@[simp] theorem Ctx.rg_zero (x : Ctx) : x.rg 0 = 0 := by simp [Ctx.rg]

@[simp] theorem Ctx.setG_zero (x : Ctx) (v : Word) : x.setG 0 v = x := by simp [Ctx.setG]

theorem Ctx.rg_setG_same (x : Ctx) (r : Fin 32) (v : Word) (h : r ≠ 0) : (x.setG r v).rg r = v := by
  simp [Ctx.rg, Ctx.setG, h]

theorem Ctx.rg_setG_other (x : Ctx) {r q : Fin 32} (v : Word) (h : r ≠ q) : (x.setG r v).rg q = x.rg q := by
  have hv : (r : Nat) ≠ (q : Nat) := fun e => h (Fin.ext e)
  unfold Ctx.rg Ctx.setG
  split
  · rfl
  · split
    · rfl
    · simp only [Fin.getElem_fin]
      exact Vector.getElem_set_ne r.isLt q.isLt hv

end Sys2Proof.Machine
end

