-- ==== Sys2Proof/Laws/Record.lean ====
section
/-! SUPPORT. Counters, records and fault reports: what they touch, and what they leave alone. -/

namespace Sys2Proof.Machine

@[simp] theorem State.count_core (s : State) (f : Fld) (k) : (s.count f k).core = s.core := rfl
@[simp] theorem State.countSat_core (s : State) (f : Fld) (k) : (s.countSat f k).core = s.core := rfl

/-- Only the numbers of sources have a class. -/
theorem srcClass_lt {i : Nat} {k : SrcClass} (h : srcClass? i = some k) : i < 0x400 := by
  unfold srcClass? at h
  split at h
  · omega
  · split at h
    · omega
    · simp at h

/-! ### What the fault and journal hardware touches -/

/-- `u` is `s` but for the fault and journal hardware: its state, and its registers at 0x4000-0x7FFF and
0xA000-0xBFFF. -/
def FltOnly (s u : State) : Prop :=
  u = { s with regs := u.regs, flt := u.flt } ∧
    ∀ f : Fld, (f.key / 32 < 0x4000 ∨ 0xC000 ≤ f.key / 32 ∨ (0x8000 ≤ f.key / 32 ∧ f.key / 32 < 0xA000)) → u.rd f = s.rd f

theorem FltOnly.refl (s : State) : FltOnly s s := ⟨rfl, fun _ _ => rfl⟩

theorem FltOnly.trans {s t u : State} (h : FltOnly s t) (g : FltOnly t u) : FltOnly s u :=
  ⟨by rw [g.1, h.1], fun f hf => (g.2 f hf).trans (h.2 f hf)⟩

theorem FltOnly.wr (s : State) (f : Fld) (v : Nat) (h : (0x4000 ≤ f.key / 32 ∧ f.key / 32 < 0x8000) ∨ (0xA000 ≤ f.key / 32 ∧ f.key / 32 < 0xC000)) :
    FltOnly s (s.wr f v) :=
  ⟨rfl, fun g hg => State.rd_wr_other _ _ (fun e => by rw [e] at h; omega)⟩

theorem FltOnly.flt (s : State) (x : FltState) : FltOnly s { s with flt := x } := ⟨rfl, fun _ _ => rfl⟩

theorem FltOnly.putRing (ws : List Nat) : ∀ (s : State) (slot w : Nat), slot < 64 → w + ws.length ≤ 8 →
    FltOnly s (s.putRing slot w ws) := by
  induction ws with
  | nil => intro s slot w _ _; exact .refl _
  | cons v vs ih =>
    intro s slot w h1 h2
    simp only [List.length_cons] at h2
    refine FltOnly.trans (FltOnly.wr _ _ _ ?_) (ih _ _ _ h1 (by omega))
    simp only [Fld.key]; omega

theorem FltOnly.mirror (s : State) (ws : List Nat) : FltOnly s (s.mirror ws) := by
  unfold State.mirror
  split
  · split
    · exact .flt _ _
    · exact .wr _ _ _ (by decide)
  · exact .refl _

theorem FltOnly.record1 (s : State) (src cls kind flags count : Nat) (data : List Nat) :
    FltOnly s (s.record1 src cls kind flags count data) :=
  ((FltOnly.putRing _ _ _ _ (Nat.mod_lt _ (by decide)) (by simp [recordWords])).trans (.mirror _ _)).trans
    (.wr _ _ _ (by decide))

theorem FltOnly.record (s : State) (src cls kind flags count : Nat) (data : List Nat) :
    FltOnly s (s.record src cls kind flags count data) := by
  unfold State.record
  dsimp only
  split
  · exact ((FltOnly.record1 _ _ _ _ _ _ _).trans (.wr _ _ _ (by decide))).trans (.record1 _ _ _ _ _ _ _)
  · exact .record1 _ _ _ _ _ _ _

theorem FltOnly.capture (s : State) (k i : Nat) (data : List Nat) (hk : k < 4) : FltOnly s (s.capture k i data) := by
  unfold State.capture
  split
  · refine FltOnly.trans (.wr _ _ _ ?_) (.wr _ _ _ ?_)
    · simp only [Fld.key]; omega
    · simp only [Fld.key]; omega
  · have hv : ∀ (t : State) (w v : Nat), w < 5 → FltOnly t (t.wr (F.FLT_FIRST_DATA.VALUE k w) v) := by
      intro t w v hw
      refine .wr _ _ _ ?_
      simp only [Fld.key]; omega
    refine FltOnly.trans (FltOnly.trans (FltOnly.trans (FltOnly.trans (FltOnly.trans (FltOnly.trans (.wr _ _ _ ?_) (.wr _ _ _ ?_))
      (hv _ _ _ (by decide))) (hv _ _ _ (by decide))) (hv _ _ _ (by decide))) (hv _ _ _ (by decide))) (hv _ _ _ (by decide))
    · simp only [Fld.key]; omega
    · simp only [Fld.key]; omega

theorem FltOnly.pinLow (s : State) (i : Nat) : FltOnly s (s.pinLow i) := by
  unfold State.pinLow
  split
  · exact .wr _ _ _ (by decide)
  · exact .refl _

theorem FltOnly.latch (s : State) (i : Nat) (kl : SrcClass) (inj quiet : Bool) (data : List Nat) (hi : i < 0x400) :
    FltOnly s (s.latch i kl inj quiet data) := by
  unfold State.latch
  dsimp only
  have h1 : FltOnly s (((s.wrB (F.FLT_SRC_STAT.LATCHED i) true).wrB (F.FLT_SRC_STAT.INJ i) inj).count (latchedCount kl)) := by
    refine FltOnly.trans (FltOnly.trans (.wr _ _ _ ?_) (.wr _ _ _ ?_)) (.wr _ _ _ ?_)
    · simp only [Fld.key]; omega
    · simp only [Fld.key]; omega
    · cases kl <;> decide
  have h2 := h1.trans (.capture _ kl.code i data (by cases kl <;> decide))
  split
  · exact (h2.trans (.record _ _ _ _ _ _ _)).trans (.flt _ _)
  · exact (((h2.trans (.record _ _ _ _ _ _ _)).trans (.flt _ _)).trans (.pinLow _ _)).trans (.flt _ _)

/-- A rise touches the fault and journal hardware alone. -/
theorem State.rise_flt (s : State) (i : Nat) (data : List Nat) (inj quiet : Bool) : FltOnly s (s.rise i data inj quiet) := by
  unfold State.rise
  split
  · exact .refl _
  · exact .record _ _ _ _ _ _ _
  · next kl h =>
    have hi : i < 0x400 := srcClass_lt h
    split
    · exact .refl _
    · dsimp only
      have h1 : FltOnly s (s.countSat (F.FLT_SRC_STAT.COUNT i)) := by
        refine .wr _ _ _ ?_
        simp only [Fld.key]; omega
      split
      · split
        · exact (h1.trans (.record _ _ _ _ _ _ _)).trans (.flt _ _)
        · exact h1.trans (.wr _ _ _ (by decide))
      · exact h1.trans (.latch _ _ _ _ _ _ hi)

/-- A rise leaves the cores alone. -/
theorem State.rise_core (s : State) (i : Nat) (d) (inj quiet : Bool) : (s.rise i d inj quiet).core = s.core := by
  rw [(s.rise_flt i d inj quiet).1]

end Sys2Proof.Machine
end

