-- ==== Sys2Proof/Laws/Touch.lean ====
section
/-! SUPPORT. Which register addresses the shared operations touch. -/

namespace Sys2Proof.Machine

/-- Going from `s` to `u`, only register fields at addresses in `A` may change. -/
def Touch (A : Nat → Prop) (s u : State) : Prop := ∀ f : Fld, ¬ A (f.key / 32) → u.rd f = s.rd f

/-- Offsets `lo` to `hi` of a port page. -/
def Off (lo hi a : Nat) : Prop := 0x200000 ≤ a ∧ lo ≤ a % 0x100000 ∧ a % 0x100000 < hi

/-- The addresses of the fault and journal hardware. -/
def FltA (a : Nat) : Prop := 0x4000 ≤ a ∧ a < 0xC000

theorem Touch.refl {A} (s : State) : Touch A s s := fun _ _ => rfl
theorem Touch.trans {A} {s t u : State} (h : Touch A s t) (g : Touch A t u) : Touch A s u :=
  fun f hf => (g f hf).trans (h f hf)
theorem Touch.mono {A B : Nat → Prop} {s u : State} (h : Touch A s u) (hAB : ∀ a, A a → B a) : Touch B s u :=
  fun f hf => h f (fun ha => hf (hAB _ ha))
theorem Touch.wr {A} (s : State) (f : Fld) (v : Nat) (h : A (f.key / 32)) : Touch A s (s.wr f v) :=
  fun _ hg => State.rd_wr_other _ _ (fun e => hg (e ▸ h))
theorem Touch.wrB {A} (s : State) (f : Fld) (b : Bool) (h : A (f.key / 32)) : Touch A s (s.wrB f b) := .wr _ _ _ h
theorem Touch.count {A} (s : State) (f : Fld) (k : Nat) (h : A (f.key / 32)) : Touch A s (s.count f k) := .wr _ _ _ h
theorem Touch.countSat {A} (s : State) (f : Fld) (k : Nat) (h : A (f.key / 32)) : Touch A s (s.countSat f k) := .wr _ _ _ h
theorem Touch.regs {A} {s u : State} (h : u.regs = s.regs) : Touch A s u := fun f _ => by simp [State.rd, h]
theorem Touch.ite {A} {s t u : State} {c : Prop} [Decidable c] (h : Touch A s t) (g : Touch A s u) :
    Touch A s (if c then t else u) := by split <;> assumption
theorem Touch.fold {A} {α : Type} (l : List α) (f : State → α → State) (h : ∀ s, ∀ a ∈ l, Touch A s (f s a)) :
    ∀ s, Touch A s (l.foldl f s) := by
  induction l with
  | nil => exact fun s => .refl _
  | cons a l ih => exact fun s => (h s a List.mem_cons_self).trans (ih (fun s a ha => h s a (List.mem_cons_of_mem _ ha)) _)
theorem Touch.peak {A} (s : State) (f : Fld) (v : Nat) (h : A (f.key / 32)) : Touch A s (s.peak f v) := by
  unfold State.peak; split
  · exact .wr _ _ _ h
  · exact .refl _
theorem Touch.rise {A} (s : State) (i : Nat) (d) (inj quiet) (h : ∀ a, FltA a → A a) : Touch A s (s.rise i d inj quiet) :=
  fun f hf => (s.rise_flt i d inj quiet).2 f (by
    have hh : ¬ FltA (f.key / 32) := fun hh => hf (h _ hh)
    unfold FltA at hh; omega)
theorem Touch.modPort {A} {s t : State} {n f} (h : Touch A s t) : Touch A s (t.modPort n f) := h
theorem Touch.modTwin {A} {s t : State} {n f} (h : Touch A s t) : Touch A s (t.modTwin n f) := h
theorem Touch.modSide {A} {s t : State} {n f} (h : Touch A s t) : Touch A s (t.modSide n f) := h
theorem Touch.modLane {A} {s t : State} {n f} (h : Touch A s t) : Touch A s (t.modLane n f) := h
theorem Touch.iff {A} {s t : State} {c f} (h : Touch A s t) (g : Touch A t (f t)) : Touch A s (t.iff c f) := by
  unfold State.iff; split
  · exact h.trans g
  · exact h

/-! The same, for a chain of operations read from its end. -/

theorem Touch.endWr {A} {s t : State} {f v} (h : Touch A s t) (a : A (f.key / 32)) : Touch A s (t.wr f v) := h.trans (.wr _ _ _ a)
theorem Touch.endWrB {A} {s t : State} {f b} (h : Touch A s t) (a : A (f.key / 32)) : Touch A s (t.wrB f b) := h.trans (.wr _ _ _ a)
theorem Touch.endCount {A} {s t : State} {f k} (h : Touch A s t) (a : A (f.key / 32)) : Touch A s (t.count f k) :=
  h.trans (.wr _ _ _ a)
theorem Touch.endCountSat {A} {s t : State} {f k} (h : Touch A s t) (a : A (f.key / 32)) : Touch A s (t.countSat f k) :=
  h.trans (.wr _ _ _ a)
theorem Touch.endPeak {A} {s t : State} {f k} (h : Touch A s t) (a : A (f.key / 32)) : Touch A s (t.peak f k) :=
  h.trans (.peak _ _ _ a)
theorem Touch.endRise {A} {s t : State} {i d inj quiet} (h : Touch A s t) (a : ∀ a, FltA a → A a) :
    Touch A s (t.rise i d inj quiet) := h.trans (.rise _ _ _ _ _ a)

/-! Reading a field through an update that leaves the registers alone, or counts. -/

theorem State.rd_modPort (s : State) (n f g) : (s.modPort n f).rd g = s.rd g := rfl
theorem State.rd_modTwin (s : State) (n f g) : (s.modTwin n f).rd g = s.rd g := rfl
theorem State.rd_modSide (s : State) (n f g) : (s.modSide n f).rd g = s.rd g := rfl
theorem State.rd_modLane (s : State) (n f g) : (s.modLane n f).rd g = s.rd g := rfl
theorem State.rd_count_same (s : State) (f : Fld) (k) : (s.count f k).rd f = (s.rd f + k) % 2 ^ f.width := State.rd_wr_same _ _ _
theorem State.rd_count_other (s : State) {f g : Fld} (k) (h : f.key ≠ g.key) : (s.count f k).rd g = s.rd g :=
  State.rd_wr_other _ _ h
theorem State.rd_countSat_other (s : State) {f g : Fld} (k) (h : f.key ≠ g.key) : (s.countSat f k).rd g = s.rd g :=
  State.rd_wr_other _ _ h
theorem State.rd_wrB_same (s : State) (f : Fld) (b : Bool) : (s.wrB f b).rd f = b2n b % 2 ^ f.width := State.rd_wr_same _ _ _

end Sys2Proof.Machine
end

