-- ==== Sys2Proof/Laws/Link.lean ====
section
/-! SUPPORT. What the operations below the link state machine touch, and the facts of the link's own transitions
(02_port_modes_negotiation.md R52). -/

namespace Sys2Proof.Machine

/-- Where the operations below the link write: below the port pages, and in a port page the framer and ladder registers, the
filters and pairs, retransmission and spill, diagnostics and low-power idle (01_architecture.md R27). -/
def LowA (a : Nat) : Prop :=
  a < 0x200000 ∨ (0x2000 ≤ a % 0x100000 ∧ a % 0x100000 < 0x4000) ∨ (0xC000 ≤ a % 0x100000 ∧ a % 0x100000 < 0xC800) ∨
    (0x18000 ≤ a % 0x100000 ∧ a % 0x100000 < 0x19000) ∨ (0x80000 ≤ a % 0x100000 ∧ a % 0x100000 < 0x82000)

/-- The same, with the training registers (R134). -/
def LowT (a : Nat) : Prop := LowA a ∨ (0xC800 ≤ a % 0x100000 ∧ a % 0x100000 < 0xC900)

theorem lowT_of (a : Nat) (h : LowA a) : LowT a := .inl h
theorem lowA_id (a : Nat) (h : LowA a) : LowA a := h
theorem lowT_id (a : Nat) (h : LowT a) : LowT a := h

theorem State.syncLane_low {A} {s t : State} {n : Fin 8} (hA : ∀ a, LowA a → A a) (h : Touch A s t) : Touch A s (t.syncLane n) := by
  refine h.trans (Touch.mono (A := LowA) ?_ hA)
  clear h hA
  unfold State.syncLane
  try dsimp only
  repeat' first
    | with_reducible exact Touch.refl _
    | with_reducible apply Touch.endWr
    | with_reducible apply Touch.endWrB
    | with_reducible apply Touch.ite
  all_goals (clear * -; (try simp only [LowA, Fld.key]); omega)

theorem State.syncLane_rd {s : State} {n : Fin 8} {g : Fld} (hg : ¬ LowA (g.key / 32)) :
    (s.syncLane n).rd g = s.rd g := State.syncLane_low (fun _ h => h) (.refl _) g hg

theorem State.lbResult_low {A} {s t : State} {n : Fin 8} {r : Nat} (hA : ∀ a, LowA a → A a) (h : Touch A s t) : Touch A s (t.lbResult n r) := by
  refine h.trans (Touch.mono (A := LowA) ?_ hA)
  clear h hA
  unfold State.lbResult
  try dsimp only
  repeat' first
    | with_reducible exact Touch.refl _
    | with_reducible apply Touch.endWr
    | with_reducible apply Touch.endWrB
    | with_reducible apply Touch.ite
  all_goals (clear * -; (try simp only [LowA, Fld.key]); omega)

theorem State.lbResult_rd {s : State} {n : Fin 8} {r : Nat} {g : Fld} (hg : ¬ LowA (g.key / 32)) :
    (s.lbResult n r).rd g = s.rd g := State.lbResult_low (fun _ h => h) (.refl _) g hg

theorem State.lbCut_low {A} {s t : State} {n : Fin 8} (hA : ∀ a, LowA a → A a) (h : Touch A s t) : Touch A s (t.lbCut n) := by
  refine h.trans (Touch.mono (A := LowA) ?_ hA)
  clear h hA
  unfold State.lbCut
  try dsimp only
  repeat' first
    | with_reducible exact Touch.refl _
    | with_reducible apply Touch.modSide
    | with_reducible apply Touch.ite
  all_goals (clear * -; (try simp only [LowA, Fld.key]); omega)

theorem State.lbCut_rd {s : State} {n : Fin 8} {g : Fld} (hg : ¬ LowA (g.key / 32)) :
    (s.lbCut n).rd g = s.rd g := State.lbCut_low (fun _ h => h) (.refl _) g hg

theorem State.lbAbort_low {A} {s t : State} {n : Fin 8} (hA : ∀ a, LowA a → A a) (h : Touch A s t) : Touch A s (t.lbAbort n) := by
  refine h.trans (Touch.mono (A := LowA) ?_ hA)
  clear h hA
  unfold State.lbAbort
  try dsimp only
  repeat' first
    | with_reducible exact Touch.refl _
    | with_reducible apply Touch.endWr
    | with_reducible apply Touch.ite
    | with_reducible apply (State.lbResult_low lowA_id)
    | with_reducible apply (State.syncLane_low lowA_id)
    | with_reducible apply (State.lbCut_low lowA_id)
  all_goals (clear * -; (try simp only [LowA, Fld.key]); omega)

theorem State.lbAbort_rd {s : State} {n : Fin 8} {g : Fld} (hg : ¬ LowA (g.key / 32)) :
    (s.lbAbort n).rd g = s.rd g := State.lbAbort_low (fun _ h => h) (.refl _) g hg

theorem State.protoStart_low {A} {s t : State} {n : Fin 8} (hA : ∀ a, LowA a → A a) (h : Touch A s t) : Touch A s (t.protoStart n) := by
  refine h.trans (Touch.mono (A := LowA) ?_ hA)
  clear h hA
  unfold State.protoStart
  try dsimp only
  repeat' first
    | with_reducible exact Touch.refl _
    | with_reducible apply Touch.modLane
    | with_reducible apply Touch.endWr
    | with_reducible apply Touch.endWrB
    | with_reducible apply Touch.ite
    | with_reducible apply (State.syncLane_low lowA_id)
    | with_reducible apply (State.lbAbort_low lowA_id)
    | split
  all_goals (clear * -; (try simp only [LowA, Fld.key]); omega)

theorem State.protoStart_rd {s : State} {n : Fin 8} {g : Fld} (hg : ¬ LowA (g.key / 32)) :
    (s.protoStart n).rd g = s.rd g := State.protoStart_low (fun _ h => h) (.refl _) g hg

theorem State.lpiQuietEnd_low {A} {s t : State} {n : Fin 8} (hA : ∀ a, LowA a → A a) (h : Touch A s t) : Touch A s (t.lpiQuietEnd n) := by
  refine h.trans (Touch.mono (A := LowA) ?_ hA)
  clear h hA
  unfold State.lpiQuietEnd
  try dsimp only
  repeat' first
    | with_reducible exact Touch.refl _
    | with_reducible apply Touch.endWr
    | with_reducible apply Touch.modPort
    | with_reducible apply Touch.ite
  all_goals (clear * -; (try simp only [LowA, Fld.key]); omega)

theorem State.lpiQuietEnd_rd {s : State} {n : Fin 8} {g : Fld} (hg : ¬ LowA (g.key / 32)) :
    (s.lpiQuietEnd n).rd g = s.rd g := State.lpiQuietEnd_low (fun _ h => h) (.refl _) g hg

theorem State.lpiTrigger_low {A} {s t : State} {n : Fin 8} (hA : ∀ a, LowA a → A a) (h : Touch A s t) : Touch A s (t.lpiTrigger n) := by
  refine h.trans (Touch.mono (A := LowA) ?_ hA)
  clear h hA
  unfold State.lpiTrigger
  try dsimp only
  repeat' first
    | with_reducible exact Touch.refl _
    | with_reducible apply Touch.modPort
    | with_reducible apply Touch.ite
  all_goals (clear * -; (try simp only [LowA, Fld.key]); omega)

theorem State.lpiTrigger_rd {s : State} {n : Fin 8} {g : Fld} (hg : ¬ LowA (g.key / 32)) :
    (s.lpiTrigger n).rd g = s.rd g := State.lpiTrigger_low (fun _ h => h) (.refl _) g hg

theorem State.freeze_low {A} {s t : State} {n : Fin 8} {p} {bit : Nat} {v : Bool} (hA : ∀ a, LowA a → A a) (h : Touch A s t) : Touch A s (t.freeze n p bit v) := by
  refine h.trans (Touch.mono (A := LowA) ?_ hA)
  clear h hA
  unfold State.freeze
  refine Touch.fold _ _ ?_ _
  intro s f hf
  have hb : f.1 < 5 ∧ f.2 < 5 :=
    (by decide : ∀ f ∈ filters, f.1 < 5 ∧ f.2 < 5) f (List.mem_filter.1 hf).1
  try dsimp only
  repeat' first
    | with_reducible exact Touch.refl _
    | with_reducible apply Touch.endWr
    | with_reducible apply Touch.ite
  all_goals (clear * - hb; (try simp only [LowA, Fld.key]); omega)

theorem State.freeze_rd {s : State} {n : Fin 8} {p} {bit : Nat} {v : Bool} {g : Fld} (hg : ¬ LowA (g.key / 32)) :
    (s.freeze n p bit v).rd g = s.rd g := State.freeze_low (fun _ h => h) (.refl _) g hg

theorem State.syncBound_low {A} {s t : State} {n : Fin 8} (hA : ∀ a, LowA a → A a) (h : Touch A s t) : Touch A s (t.syncBound n) := by
  refine h.trans (Touch.mono (A := LowA) ?_ hA)
  clear h hA
  unfold State.syncBound
  try dsimp only
  repeat' first
    | with_reducible exact Touch.refl _
    | with_reducible apply Touch.endWr
  all_goals (clear * -; (try simp only [LowA, Fld.key]); omega)

theorem State.syncBound_rd {s : State} {n : Fin 8} {g : Fld} (hg : ¬ LowA (g.key / 32)) :
    (s.syncBound n).rd g = s.rd g := State.syncBound_low (fun _ h => h) (.refl _) g hg

theorem State.syncRtx_low {A} {s t : State} {n : Fin 8} (hA : ∀ a, LowA a → A a) (h : Touch A s t) : Touch A s (t.syncRtx n) := by
  refine h.trans (Touch.mono (A := LowA) ?_ hA)
  clear h hA
  unfold State.syncRtx
  try dsimp only
  repeat' first
    | with_reducible exact Touch.refl _
    | with_reducible apply Touch.endWr
    | with_reducible apply Touch.endWrB
    | with_reducible apply Touch.ite
  all_goals (clear * -; (try simp only [LowA, Fld.key]); omega)

theorem State.syncRtx_rd {s : State} {n : Fin 8} {g : Fld} (hg : ¬ LowA (g.key / 32)) :
    (s.syncRtx n).rd g = s.rd g := State.syncRtx_low (fun _ h => h) (.refl _) g hg

theorem State.syncTwin_low {A} {s t : State} {k : Fin 4} (hA : ∀ a, LowA a → A a) (h : Touch A s t) : Touch A s (t.syncTwin k) := by
  refine h.trans (Touch.mono (A := LowA) ?_ hA)
  clear h hA
  unfold State.syncTwin
  try dsimp only
  repeat' first
    | with_reducible exact Touch.refl _
    | with_reducible apply Touch.endWr
    | with_reducible apply (State.syncRtx_low lowA_id)
  all_goals (clear * -; (try simp only [LowA, Fld.key]); omega)

theorem State.syncTwin_rd {s : State} {k : Fin 4} {g : Fld} (hg : ¬ LowA (g.key / 32)) :
    (s.syncTwin k).rd g = s.rd g := State.syncTwin_low (fun _ h => h) (.refl _) g hg

theorem State.setReplay_low {A} {s t : State} {n : Fin 8} {a : Nat} (hA : ∀ a, LowA a → A a) (h : Touch A s t) : Touch A s (t.setReplay n a) := by
  refine h.trans (Touch.mono (A := LowA) ?_ hA)
  clear h hA
  unfold State.setReplay
  try dsimp only
  repeat' first
    | with_reducible exact Touch.refl _
    | with_reducible apply Touch.modPort
    | with_reducible apply Touch.ite
  all_goals (clear * -; (try simp only [LowA, Fld.key]); omega)

theorem State.setReplay_rd {s : State} {n : Fin 8} {a : Nat} {g : Fld} (hg : ¬ LowA (g.key / 32)) :
    (s.setReplay n a).rd g = s.rd g := State.setReplay_low (fun _ h => h) (.refl _) g hg

theorem State.timeoutReplay_low {A} {s t : State} {n : Fin 8} (hA : ∀ a, LowA a → A a) (h : Touch A s t) : Touch A s (t.timeoutReplay n) := by
  refine h.trans (Touch.mono (A := LowA) ?_ hA)
  clear h hA
  unfold State.timeoutReplay
  try dsimp only
  repeat' first
    | with_reducible exact Touch.refl _
    | with_reducible apply Touch.endCount
    | with_reducible apply Touch.modPort
    | with_reducible apply (State.setReplay_low lowA_id)
  all_goals (clear * -; (try simp only [LowA, Fld.key]); omega)

theorem State.timeoutReplay_rd {s : State} {n : Fin 8} {g : Fld} (hg : ¬ LowA (g.key / 32)) :
    (s.timeoutReplay n).rd g = s.rd g := State.timeoutReplay_low (fun _ h => h) (.refl _) g hg

theorem State.resetRtx_low {A} {s t : State} {n : Fin 8} (hA : ∀ a, LowA a → A a) (h : Touch A s t) : Touch A s (t.resetRtx n) := by
  refine h.trans (Touch.mono (A := LowA) ?_ hA)
  clear h hA
  unfold State.resetRtx
  try dsimp only
  repeat' first
    | with_reducible exact Touch.refl _
    | with_reducible apply Touch.modPort
  all_goals (clear * -; (try simp only [LowA, Fld.key]); omega)

theorem State.resetRtx_rd {s : State} {n : Fin 8} {g : Fld} (hg : ¬ LowA (g.key / 32)) :
    (s.resetRtx n).rd g = s.rd g := State.resetRtx_low (fun _ h => h) (.refl _) g hg

theorem State.dropWin_low {A} {s t : State} {n : Fin 8} (h : Touch A s t) : Touch A s (t.dropWin n) := h.modPort

theorem State.askPause_low {A} {s t : State} {o : Fin 12} {q : Nat} (hA : ∀ a, LowA a → A a) (h : Touch A s t) : Touch A s (t.askPause o q) := by
  refine h.trans (Touch.mono (A := LowA) ?_ hA)
  clear h hA
  unfold State.askPause
  try dsimp only
  repeat' first
    | with_reducible exact Touch.refl _
    | with_reducible apply Touch.modSide
    | with_reducible apply Touch.ite
  all_goals (clear * -; (try simp only [LowA, Fld.key]); omega)

theorem State.askPause_rd {s : State} {o : Fin 12} {q : Nat} {g : Fld} (hg : ¬ LowA (g.key / 32)) :
    (s.askPause o q).rd g = s.rd g := State.askPause_low (fun _ h => h) (.refl _) g hg

theorem State.hostEvent_low {A} {s t : State} {o : Fin 12} {f : Nat → Fld} (hA : ∀ a, LowA a → A a) (h : Touch A s t)
    (a : ∀ n : Fin 8, LowA ((f n).key / 32)) : Touch A s (t.hostEvent o f) := by
  unfold State.hostEvent
  refine h.trans (Touch.fold _ _ ?_ _)
  intro s n _
  exact Touch.ite (.wr _ _ _ (hA _ (a _))) (.refl _)

theorem State.hostCount_touch {A} {s t : State} {o : Fin 12} {f : Fld} {k : Nat} (h : Touch A s t) (a : A (f.key / 32)) :
    Touch A s (t.hostCount o f k) := Touch.iff h (.count _ _ _ a)

theorem State.icong_low {A} {s t : State} {o : Fin 12} (hA : ∀ a, LowA a → A a) (h : Touch A s t) : Touch A s (t.icong o) := by
  refine h.trans (Touch.mono (A := LowA) ?_ hA)
  clear h hA
  unfold State.icong
  try dsimp only
  repeat' first
    | with_reducible exact Touch.refl _
    | with_reducible apply Touch.endWrB
    | with_reducible apply State.hostCount_touch
    | with_reducible apply Touch.ite
    | with_reducible apply (State.askPause_low lowA_id)
    | with_reducible apply (State.hostEvent_low lowA_id)
  all_goals (clear * -; (try simp only [LowA, Fld.key, spillPort]); omega)

theorem State.icong_rd {s : State} {o : Fin 12} {g : Fld} (hg : ¬ LowA (g.key / 32)) :
    (s.icong o).rd g = s.rd g := State.icong_low (fun _ h => h) (.refl _) g hg

theorem State.dropEgress_low {A} {s t : State} {o : Fin 12} {b : Bool} (hA : ∀ a, LowA a → A a) (h : Touch A s t) : Touch A s (t.dropEgress o b) := by
  refine h.trans (Touch.mono (A := LowA) ?_ hA)
  clear h hA
  unfold State.dropEgress
  try dsimp only
  repeat' first
    | with_reducible exact Touch.refl _
    | with_reducible apply Touch.modSide
    | with_reducible apply State.hostCount_touch
  all_goals (clear * -; (try simp only [LowA, Fld.key, spillPort]); omega)

theorem State.dropEgress_rd {s : State} {o : Fin 12} {b : Bool} {g : Fld} (hg : ¬ LowA (g.key / 32)) :
    (s.dropEgress o b).rd g = s.rd g := State.dropEgress_low (fun _ h => h) (.refl _) g hg

theorem State.dropSide_low {A} {s t : State} {o : Fin 12} (hA : ∀ a, LowA a → A a) (h : Touch A s t) : Touch A s (t.dropSide o) := by
  refine h.trans (Touch.mono (A := LowA) ?_ hA)
  clear h hA
  unfold State.dropSide
  try dsimp only
  repeat' first
    | with_reducible exact Touch.refl _
    | with_reducible apply Touch.modSide
    | with_reducible apply Touch.endWrB
    | with_reducible apply State.hostCount_touch
    | with_reducible apply (State.icong_low lowA_id)
    | with_reducible apply (State.dropEgress_low lowA_id)
  all_goals (clear * -; (try simp only [LowA, Fld.key, spillPort]); omega)

theorem State.dropSide_rd {s : State} {o : Fin 12} {g : Fld} (hg : ¬ LowA (g.key / 32)) :
    (s.dropSide o).rd g = s.rd g := State.dropSide_low (fun _ h => h) (.refl _) g hg

theorem memberFld_low (k : Fin 4) (m : Nat) : LowA ((memberFld k m).key / 32) := by
  unfold memberFld
  split <;> (simp only [LowA, Fld.key]; omega)

theorem State.pairEval_low {A} {s t : State} {k : Fin 4} (hA : ∀ a, LowA a → A a) (h : Touch A s t) : Touch A s (t.pairEval k) := by
  refine h.trans (Touch.mono (A := LowA) ?_ hA)
  clear h hA
  unfold State.pairEval
  extract_lets a b lone u old new v
  have hu : Touch LowA t u :=
    Touch.ite (.trans (.wr _ _ _ (memberFld_low _ _)) (.wr _ _ _ (memberFld_low _ _))) (.refl _)
  have hv : Touch LowA t v := hu.trans (.wr _ _ _ (by simp only [LowA, Fld.key]; omega))
  clear_value v
  split
  · exact hv
  split
  · exact Touch.modTwin (State.dropSide_low lowA_id hv)
  split
  · repeat' first
      | exact hv
      | with_reducible apply Touch.modTwin
      | with_reducible apply Touch.endWr
    all_goals (simp only [LowA, Fld.key]; omega)
  split
  · exact (hv.endCount (by simp only [LowA, Fld.key]; omega)).endWrB (by simp only [LowA, Fld.key]; omega)
  split
  · exact hv.endWrB (by simp only [LowA, Fld.key]; omega)
  · exact hv

theorem State.pairEval_rd {s : State} {k : Fin 4} {g : Fld} (hg : ¬ LowA (g.key / 32)) :
    (s.pairEval k).rd g = s.rd g := State.pairEval_low (fun _ h => h) (.refl _) g hg

theorem State.stall_low {A} {s t : State} {k : Fin 4} (hA : ∀ a, LowA a → A a) (h : Touch A s t) : Touch A s (t.stall k) := by
  refine h.trans (Touch.mono (A := LowA) ?_ hA)
  clear h hA
  unfold State.stall
  extract_lets ahead mark
  split
  · refine State.syncTwin_low lowA_id (Touch.endWrB (Touch.endCount (Touch.modTwin (.refl _)) ?_) ?_)
    all_goals (simp only [LowA, Fld.key]; omega)
  · exact .refl _

theorem State.stall_rd {s : State} {k : Fin 4} {g : Fld} (hg : ¬ LowA (g.key / 32)) :
    (s.stall k).rd g = s.rd g := State.stall_low (fun _ h => h) (.refl _) g hg

theorem State.memberLoss_low {A} {s t : State} {n : Fin 8} (hA : ∀ a, LowA a → A a) (h : Touch A s t) : Touch A s (t.memberLoss n) := by
  refine h.trans (Touch.mono (A := LowA) ?_ hA)
  clear h hA
  unfold State.memberLoss
  try dsimp only
  repeat' first
    | with_reducible exact Touch.refl _
    | with_reducible apply Touch.ite
    | with_reducible apply (State.stall_low lowA_id)
    | with_reducible apply (State.timeoutReplay_low lowA_id)
    | split
  all_goals (clear * -; (try simp only [LowA, Fld.key]); omega)

theorem State.memberLoss_rd {s : State} {n : Fin 8} {g : Fld} (hg : ¬ LowA (g.key / 32)) :
    (s.memberLoss n).rd g = s.rd g := State.memberLoss_low (fun _ h => h) (.refl _) g hg

theorem State.modMember_low {A} {s t : State} {n : Fin 8} {f} (hA : ∀ a, LowA a → A a) (h : Touch A s t) : Touch A s (t.modMember n f) := by
  refine h.trans (Touch.mono (A := LowA) ?_ hA)
  clear h hA
  unfold State.modMember
  try dsimp only
  repeat' first
    | with_reducible exact Touch.refl _
    | with_reducible apply Touch.modTwin
  all_goals (clear * -; (try simp only [LowA, Fld.key]); omega)

theorem State.modMember_rd {s : State} {n : Fin 8} {f} {g : Fld} (hg : ¬ LowA (g.key / 32)) :
    (s.modMember n f).rd g = s.rd g := State.modMember_low (fun _ h => h) (.refl _) g hg

theorem State.memberOut_low {A} {s t : State} {n : Fin 8} (hA : ∀ a, LowA a → A a) (h : Touch A s t) : Touch A s (t.memberOut n) := by
  refine h.trans (Touch.mono (A := LowA) ?_ hA)
  clear h hA
  unfold State.memberOut
  try dsimp only
  repeat' first
    | with_reducible exact Touch.refl _
    | with_reducible apply Touch.endWr
    | with_reducible apply Touch.ite
    | with_reducible apply (State.syncTwin_low lowA_id)
    | with_reducible apply (State.modMember_low lowA_id)
    | with_reducible apply (State.pairEval_low lowA_id)
    | with_reducible apply (State.memberLoss_low lowA_id)
    | with_reducible exact memberFld_low _ _
  all_goals (clear * -; (try simp only [LowA, Fld.key]); omega)

theorem State.memberOut_rd {s : State} {n : Fin 8} {g : Fld} (hg : ¬ LowA (g.key / 32)) :
    (s.memberOut n).rd g = s.rd g := State.memberOut_low (fun _ h => h) (.refl _) g hg

theorem State.memberUp_low {A} {s t : State} {n : Fin 8} (hA : ∀ a, LowA a → A a) (h : Touch A s t) : Touch A s (t.memberUp n) := by
  refine h.trans (Touch.mono (A := LowA) ?_ hA)
  clear h hA
  unfold State.memberUp
  try dsimp only
  repeat' first
    | with_reducible exact Touch.refl _
    | with_reducible apply Touch.endWr
    | with_reducible apply Touch.endWrB
    | with_reducible apply Touch.ite
    | with_reducible apply (State.modMember_low lowA_id)
    | with_reducible apply (State.pairEval_low lowA_id)
    | with_reducible exact memberFld_low _ _
  all_goals (clear * -; (try simp only [LowA, Fld.key]); omega)

theorem State.memberUp_rd {s : State} {n : Fin 8} {g : Fld} (hg : ¬ LowA (g.key / 32)) :
    (s.memberUp n).rd g = s.rd g := State.memberUp_low (fun _ h => h) (.refl _) g hg

theorem State.ladRequest_low {A} {s t : State} {n : Fin 8} {r l : Nat} (hA : ∀ a, LowA a → A a) (h : Touch A s t) : Touch A s (t.ladRequest n r l) := by
  refine h.trans (Touch.mono (A := LowA) ?_ hA)
  clear h hA
  unfold State.ladRequest
  try dsimp only
  repeat' first
    | with_reducible exact Touch.refl _
    | with_reducible apply Touch.modPort
    | with_reducible apply Touch.endWr
    | with_reducible apply (State.lpiTrigger_low lowA_id)
  all_goals (clear * -; (try simp only [LowA, Fld.key]); omega)

theorem State.ladRequest_rd {s : State} {n : Fin 8} {r l : Nat} {g : Fld} (hg : ¬ LowA (g.key / 32)) :
    (s.ladRequest n r l).rd g = s.rd g := State.ladRequest_low (fun _ h => h) (.refl _) g hg

theorem State.ladFallback_low {A} {s t : State} {n : Fin 8} (hA : ∀ a, LowA a → A a) (h : Touch A s t) : Touch A s (t.ladFallback n) := by
  refine h.trans (Touch.mono (A := LowA) ?_ hA)
  clear h hA
  unfold State.ladFallback
  try dsimp only
  repeat' first
    | with_reducible exact Touch.refl _
    | with_reducible apply Touch.modPort
    | with_reducible apply Touch.endWrB
    | with_reducible apply Touch.ite
    | with_reducible apply (State.ladRequest_low lowA_id)
  all_goals (clear * -; (try simp only [LowA, Fld.key]); omega)

theorem State.ladFallback_rd {s : State} {n : Fin 8} {g : Fld} (hg : ¬ LowA (g.key / 32)) :
    (s.ladFallback n).rd g = s.rd g := State.ladFallback_low (fun _ h => h) (.refl _) g hg

theorem State.ladEnd_low {A} {s t : State} {n : Fin 8} (hA : ∀ a, LowA a → A a) (h : Touch A s t) : Touch A s (t.ladEnd n) := by
  refine h.trans (Touch.mono (A := LowA) ?_ hA)
  clear h hA
  unfold State.ladEnd
  try dsimp only
  repeat' first
    | with_reducible exact Touch.refl _
    | with_reducible apply Touch.modPort
    | with_reducible apply Touch.endWr
  all_goals (clear * -; (try simp only [LowA, Fld.key]); omega)

theorem State.ladEnd_rd {s : State} {n : Fin 8} {g : Fld} (hg : ¬ LowA (g.key / 32)) :
    (s.ladEnd n).rd g = s.rd g := State.ladEnd_low (fun _ h => h) (.refl _) g hg

theorem State.setLens_low {A} {s t : State} {n : Fin 8} {a b : Nat} (hA : ∀ a, LowA a → A a) (h : Touch A s t) : Touch A s (t.setLens n a b) := by
  refine h.trans (Touch.mono (A := LowA) ?_ hA)
  clear h hA
  unfold State.setLens
  refine Touch.fold _ _ ?_ _
  intro s f hf
  have hb : f < 4 := (by decide : ∀ f ∈ [0, 1, 2, 3], f < 4) f hf
  try dsimp only
  repeat' first
    | with_reducible exact Touch.refl _
    | with_reducible apply Touch.endWr
  all_goals (clear * - hb; (try simp only [LowA, Fld.key]); omega)

theorem State.setLens_rd {s : State} {n : Fin 8} {a b : Nat} {g : Fld} (hg : ¬ LowA (g.key / 32)) :
    (s.setLens n a b).rd g = s.rd g := State.setLens_low (fun _ h => h) (.refl _) g hg

theorem State.enterPhase_low {A} {s t : State} {n : Fin 8} {p : Nat} (hA : ∀ a, LowT a → A a) (h : Touch A s t) : Touch A s (t.enterPhase n p) := by
  refine h.trans (Touch.mono (A := LowT) ?_ hA)
  clear h hA
  unfold State.enterPhase
  try dsimp only
  repeat' first
    | with_reducible exact Touch.refl _
    | with_reducible apply Touch.endWr
    | with_reducible apply Touch.modPort
    | with_reducible apply (State.freeze_low lowT_of)
  all_goals (clear * -; (try simp only [LowT, LowA, Fld.key]); omega)

theorem State.enterPhase_rd {s : State} {n : Fin 8} {p : Nat} {g : Fld} (hg : ¬ LowT (g.key / 32)) :
    (s.enterPhase n p).rd g = s.rd g := State.enterPhase_low (fun _ h => h) (.refl _) g hg

theorem State.holdEnd_low {A} {s t : State} {n : Fin 8} (hA : ∀ a, LowA a → A a) (h : Touch A s t) : Touch A s (t.holdEnd n) := by
  refine h.trans (Touch.mono (A := LowA) ?_ hA)
  clear h hA
  unfold State.holdEnd
  try dsimp only
  repeat' first
    | with_reducible exact Touch.refl _
    | with_reducible apply Touch.modPort
    | with_reducible apply Touch.endWr
    | with_reducible apply Touch.endPeak
  all_goals (clear * -; (try simp only [LowA, Fld.key]); omega)

theorem State.holdEnd_rd {s : State} {n : Fin 8} {g : Fld} (hg : ¬ LowA (g.key / 32)) :
    (s.holdEnd n).rd g = s.rd g := State.holdEnd_low (fun _ h => h) (.refl _) g hg

theorem State.leaveActive_low {A} {s t : State} {n : Fin 8} (hA : ∀ a, LowT a → A a) (h : Touch A s t) : Touch A s (t.leaveActive n) := by
  refine h.trans (Touch.mono (A := LowT) ?_ hA)
  clear h hA
  unfold State.leaveActive
  try dsimp only
  repeat' first
    | with_reducible exact Touch.refl _
    | with_reducible apply Touch.modPort
    | with_reducible apply Touch.modLane
    | with_reducible apply Touch.endWr
    | with_reducible apply Touch.endWrB
    | with_reducible apply Touch.ite
    | with_reducible apply (State.holdEnd_low lowT_of)
    | with_reducible apply (State.dropSide_low lowT_of)
    | with_reducible apply (State.lpiQuietEnd_low lowT_of)
    | with_reducible apply (State.ladEnd_low lowT_of)
    | with_reducible apply State.dropWin_low
    | with_reducible apply (State.setLens_low lowT_of)
    | with_reducible apply (State.freeze_low lowT_of)
    | with_reducible apply (State.lbAbort_low lowT_of)
  all_goals (clear * -; (try simp only [LowT, LowA, Fld.key]); omega)

theorem State.leaveActive_rd {s : State} {n : Fin 8} {g : Fld} (hg : ¬ LowT (g.key / 32)) :
    (s.leaveActive n).rd g = s.rd g := State.leaveActive_low (fun _ h => h) (.refl _) g hg

/-! ### Events and states of the link -/

theorem State.linkEvent_touch {A} {s t : State} {n : Fin 8} {f : Nat → Fld} (h : Touch A s t) (a : A ((f n).key / 32))
    (hA : ∀ a, FltA a → A a) : Touch A s (t.linkEvent n f) := (h.endWrB a).endRise hA

/-- An event bit is set, and every other field outside the fault hardware stands. -/
theorem State.linkEvent_on (s : State) (n : Fin 8) (f : Nat → Fld) (hw : (f n).width = 1) (hk : 0xC000 ≤ (f n).key / 32) :
    (s.linkEvent n f).on (f n) = true := by
  unfold State.linkEvent State.on
  dsimp only
  rw [Touch.rise (A := FltA) _ _ _ _ _ (fun _ h => h) (f n) (by unfold FltA; omega)]
  exact State.on_wrB_same s (f n) true hw

theorem State.linkEvent_rd (s : State) (n : Fin 8) (f : Nat → Fld) (g : Fld) (hg : 0xC000 ≤ g.key / 32) (h : (f n).key ≠ g.key) :
    (s.linkEvent n f).rd g = s.rd g := by
  unfold State.linkEvent
  dsimp only
  rw [Touch.rise (A := FltA) _ _ _ _ _ (fun _ h => h) g (by unfold FltA; omega)]
  exact State.rd_wrB_other _ _ h

@[simp] theorem State.linkEvent_port (s : State) (n : Fin 8) (f) : (s.linkEvent n f).port = s.port := by
  unfold State.linkEvent
  dsimp only
  rw [(State.rise_flt _ _ _ _ _).1]; rfl

theorem State.syncRtx_port (s : State) (n : Fin 8) : (s.syncRtx n).port = s.port := by unfold State.syncRtx; dsimp only; split <;> rfl
theorem State.syncLane_port (s : State) (n : Fin 8) : (s.syncLane n).port = s.port := by unfold State.syncLane; split <;> rfl
theorem State.syncTwin_port (s : State) (k : Fin 4) : (s.syncTwin k).port = s.port := by unfold State.syncTwin; simp [State.syncRtx_port]
def SameNeg (s u : State) : Prop := ∀ m : Fin 8, u.port[m].neg = s.port[m].neg
theorem SameNeg.mp {s t : State} {n : Fin 8} {f : Port → Port} (h : SameNeg s t) (hf : ∀ p, (f p).neg = p.neg) : SameNeg s (t.modPort n f) := by
  intro m
  rw [← h m]
  simp only [State.modPort, Fin.getElem_fin]
  by_cases e : (n : Nat) = m
  · simp [Vector.getElem_set, e, hf]
  · simp [Vector.getElem_set, e]
theorem SameNeg.setReplay (s : State) (n : Fin 8) (a) : SameNeg s (s.setReplay n a) := .mp (fun _ => rfl) (fun _ => rfl)
theorem SameNeg.of (s u : State) (h : u.port = s.port) : SameNeg s u := fun m => by rw [h]
theorem SameNeg.trans {s t u : State} (h : SameNeg s t) (g : SameNeg t u) : SameNeg s u := fun m => (g m).trans (h m)
theorem SameNeg.timeoutReplay (s : State) (n : Fin 8) : SameNeg s (s.timeoutReplay n) :=
  .mp (f := fun p => { p with rtx := { p.rtx with lastReplay := some (s.replayFrom n (s.oldestOf n), s.tb) } })
    (.setReplay s n (s.replayFrom n (s.oldestOf n))) (fun _ => rfl)
@[simp] theorem State.hostCount_port (s : State) (o f k) : (s.hostCount o f k).port = s.port := by
  unfold State.hostCount State.iff; split <;> rfl
theorem State.dropSide_port (s : State) (o) : (s.dropSide o).port = s.port := by
  have hi : ∀ s : State, (s.icong o).port = s.port := by
    intro s
    unfold State.icong State.askPause State.hostEvent
    dsimp only
    have hf : ∀ (l : List (Fin 8)) (s : State), (List.foldl (fun (s : State) (n : Fin 8) => if s.domOn (14 * ↑n + 10) = true then s.wrB (F.RTX_EVENT.ICONG_RISE n) true else s) s l).port = s.port := by
      intro l
      induction l with
      | nil => intro; rfl
      | cons a l ih => intro s; rw [List.foldl_cons, ih]; split <;> rfl
    repeat' split
    all_goals first | rfl | skip
    all_goals simp [hf, State.modSide]
  unfold State.dropSide State.dropEgress
  dsimp only
  rw [hi]
  simp
theorem State.pairEval_port (s : State) (k) : (s.pairEval k).port = s.port := by
  unfold State.pairEval
  extract_lets a b lone u old new v
  have hu : u.port = s.port := by simp only [u]; split <;> rfl
  have hv : v.port = s.port := hu
  clear_value v
  repeat' split
  all_goals first | exact hv | skip
  simp [State.dropSide_port, hv]
theorem SameNeg.memberLoss (s : State) (n) : SameNeg s (s.memberLoss n) := by
  have h2 : ∀ (t : State) k, (t.stall k).port = t.port := by
    intro t k
    unfold State.stall
    extract_lets ahead mark
    split
    · rw [State.syncTwin_port]; rfl
    · rfl
  unfold State.memberLoss
  dsimp only
  refine .trans ?_ (.of _ _ (h2 _ _))
  repeat' split
  all_goals first | exact fun _ => rfl | exact SameNeg.timeoutReplay _ _
theorem SameNeg.memberOut (s : State) (n) : SameNeg s (s.memberOut n) := by
  unfold State.memberOut
  dsimp only
  split
  · have h1 : SameNeg s ((s.wr (memberFld (pairOf n) (memberOf n)) mOUT).memberLoss n) :=
      SameNeg.memberLoss (s.wr (memberFld (pairOf n) (memberOf n)) mOUT) n
    refine .trans h1 ?_
    intro m
    rw [State.syncTwin_port, State.modMember, State.modTwin_port, State.pairEval_port]
  · exact fun _ => rfl

theorem State.linkDown_wentDown (s : State) (n : Fin 8) (st r : Nat) (hs : st < 8) (hr : r < 16) : WentDown (s.linkDown n st r) n st r := by
  have hlow : ∀ (g : Fld), ¬ LowT (g.key / 32) → g.key ≠ (F.LINK_EVENT.LINK_DOWN n).key → 0xC000 ≤ g.key / 32 →
      (s.linkDown n st r).rd g = ((((s.leaveActive n).setLink n st).clearResolved n).wr (F.LINK_STATUS.LAST_DOWN n) r).rd g := by
    intro g hg hk hc
    unfold State.linkDown
    dsimp only
    have hl : ¬ LowA (g.key / 32) := fun h => hg (lowT_of _ h)
    rw [State.linkEvent_rd _ _ _ _ hc (Ne.symm hk), State.syncLane_rd hl, State.syncRtx_rd hl, State.memberOut_rd hl, State.rd_modPort]
  refine ⟨?_, ?_, ?_, ?_, ?_, ?_⟩
  · unfold State.link
    rw [hlow _ (by simp only [LowT, LowA, Fld.key]; omega) (by simp only [Fld.key]; omega) (by simp only [Fld.key]; omega)]
    simp (disch := (simp only [Fld.key, ne_eq]; omega)) only [State.clearResolved, State.rd_wr_other, State.rd_wrB_other, State.setLink, State.rd_wr_same]
    omega
  · rw [hlow _ (by simp only [LowT, LowA, Fld.key]; omega) (by simp only [Fld.key]; omega) (by simp only [Fld.key]; omega), State.rd_wr_same]
    exact Nat.mod_eq_of_lt hr
  · exact State.linkEvent_on _ _ _ rfl (by simp only [Fld.key]; omega)
  · rw [hlow _ (by simp only [LowT, LowA, Fld.key]; omega) (by simp only [Fld.key]; omega) (by simp only [Fld.key]; omega)]
    simp (disch := (simp only [Fld.key, ne_eq]; omega)) only [State.clearResolved, State.rd_wr_other, State.rd_wrB_other, State.rd_wr_same]
    all_goals rfl
  · rw [hlow _ (by simp only [LowT, LowA, Fld.key]; omega) (by simp only [Fld.key]; omega) (by simp only [Fld.key]; omega)]
    simp (disch := (simp only [Fld.key, ne_eq]; omega)) only [State.clearResolved, State.rd_wr_other, State.rd_wrB_other, State.rd_wr_same]
    all_goals rfl
  · unfold State.linkDown
    dsimp only
    rw [State.linkEvent_port, State.syncLane_port, State.syncRtx_port, SameNeg.memberOut]
    simp only [State.modPort, Fin.getElem_fin, Vector.getElem_set_self]
theorem State.autoUp_low {s t : State} {i : Nat} (h : Touch LowA s t) (hi : i < 200) : Touch LowA s (t.autoUp i) := by
  refine h.trans ?_
  unfold State.autoUp
  split
  · exact Touch.wr _ _ _ (by simp only [LowA, Fld.key]; omega)
  · exact .refl _
theorem State.portWake_low {s t : State} {n : Fin 8} (h : Touch LowA s t) : Touch LowA s (t.portWake n) := by
  refine h.trans (Touch.fold _ _ ?_ _)
  intro s i hi
  refine State.autoUp_low (.refl _) ?_
  simp only [dormantDoms, List.mem_append, List.mem_reverse, List.mem_cons, List.not_mem_nil, or_false] at hi
  omega
theorem State.portWake_rd {s : State} {n : Fin 8} {g : Fld} (hg : ¬ LowA (g.key / 32)) : (s.portWake n).rd g = s.rd g :=
  State.portWake_low (.refl _) g hg
theorem State.portWake_port (s : State) (n : Fin 8) : (s.portWake n).port = s.port := by
  unfold State.portWake
  generalize (dormantDoms n.val).reverse ++ [112 + n.val] = l
  induction l generalizing s with
  | nil => rfl
  | cons a l ih => rw [List.foldl_cons, ih]; unfold State.autoUp; dsimp only; split <;> rfl
theorem State.diagEnd_low {s t : State} {n : Fin 8} {r : Nat} (hl : t.link n ≠ stDORMANT) (h : Touch LowA s t) : Touch LowA s (t.diagEnd n r) := by
  refine h.trans ?_
  unfold State.diagEnd
  dsimp only
  rw [if_neg hl]
  refine Touch.modPort (Touch.endWrB (Touch.endWr (Touch.endWrB (.refl _) ?_) ?_) ?_)
  all_goals (simp only [LowA, Fld.key]; omega)

theorem State.linkDown_rd (s : State) (n : Fin 8) (st r : Nat) (g : Fld) (hg : ¬ LowT (g.key / 32)) (hc : 0xC000 ≤ g.key / 32)
    (h1 : g.key / 32 ≠ 0x201020 + 0x100000 * n.val) (h2 : g.key ≠ (F.LINK_EVENT.LINK_DOWN n).key) :
    (s.linkDown n st r).rd g = s.rd g := by
  simp only [Fld.key] at h1
  unfold State.linkDown
  dsimp only
  have hl : ¬ LowA (g.key / 32) := fun h => hg (lowT_of _ h)
  rw [State.linkEvent_rd _ _ _ _ hc (Ne.symm h2), State.syncLane_rd hl, State.syncRtx_rd hl, State.memberOut_rd hl, State.rd_modPort]
  simp (disch := (simp only [Fld.key, ne_eq]; omega)) only [State.clearResolved, State.rd_wr_other, State.rd_wrB_other, State.setLink]
  exact State.leaveActive_rd hg

theorem State.setLink_rd (s : State) (n : Fin 8) (st : Nat) (g : Fld) (h : g.key ≠ (F.LINK_STATUS.STATE n).key) :
    (s.setLink n st).rd g = s.rd g := State.rd_wr_other _ _ (Ne.symm h)
theorem State.setLink_link (s : State) (n : Fin 8) (st : Nat) (h : st < 8) : (s.setLink n st).link n = st := by
  unfold State.link State.setLink
  rw [State.rd_wr_same]
  exact Nat.mod_eq_of_lt h

theorem State.disable_facts (s : State) (n : Fin 8) (r : Nat) (hr : r < 16) :
    (s.disable n r).link n = stDISABLED ∧ (s.active n = true → (s.disable n r).rd (F.LINK_STATUS.LAST_DOWN n) = r ∧
      (s.disable n r).on (F.LINK_EVENT.LINK_DOWN n) = true) ∧
    (s.disable n r).rd (F.NEG_CTRL.PORT_EN n) = s.rd (F.NEG_CTRL.PORT_EN n) := by
  unfold State.disable
  have hw := State.linkDown_wentDown s n stDISABLED r (by decide) hr
  dsimp only
  by_cases h : s.active n = true
  · simp only [h, if_true]
    refine ⟨hw.1, fun _ => ⟨hw.2.1, hw.2.2.1⟩, ?_⟩
    rw [State.rd_modPort]
    exact State.linkDown_rd _ _ _ _ _ (by simp only [LowT, LowA, Fld.key]; omega) (by simp only [Fld.key]; omega) (by simp only [Fld.key]; omega) (by simp only [Fld.key]; omega)
  · simp only [h]
    refine ⟨State.setLink_link s n stDISABLED (by decide), fun h => by simp at h, ?_⟩
    exact State.setLink_rd s n stDISABLED _ (by simp only [Fld.key]; omega)
theorem State.anRestart_active {s : State} {n : Fin 8} (h : s.active n = true) : s.anRestart n = s.linkDown n stSENSE rHOST_RESTART := by
  unfold State.anRestart; simp [h]
theorem spFind_filter {α : Type} (q : Nat → Bool) (k : Nat) (hk : q k = true) : ∀ m : Sparse α,
    spFind (m.filter fun e => q e.1) k = spFind m k := by
  intro m
  induction m with
  | nil => rfl
  | cons e m ih =>
    obtain ⟨a, v⟩ := e
    by_cases h : q a = true
    · simp only [List.filter_cons, h, if_true, spFind, ih]
    · simp only [List.filter_cons, h, spFind]
      rw [if_neg (by simp), ih, if_neg]
      intro e; subst e; exact h hk
theorem State.clearRegs_rd (s : State) (p : Nat → Bool) (g : Fld) (h : p (g.key / 32) = false) : (s.clearRegs p).rd g = s.rd g := by
  unfold State.rd State.clearRegs
  rw [spFind_filter (fun k => !p (k / 32)) g.key (by simp [h])]
theorem State.dropDomain_rd (s : State) (i target : Nat) (g : Fld) (h : addrDom (g.key / 32) ≠ i) : (s.dropDomain i target).rd g = s.rd g := by
  have hc : (s.clearDomRegs i).rd g = s.rd g := by
    show (s.clearRegs fun a => addrDom a == i && !chipOnly a).rd g = _
    exact State.clearRegs_rd _ _ _ (by simp [h])
  have hr : ∀ (t : State) (c : Prop) [Decidable c] (x : State), (if c then s else s.clearDomRegs i).rd g = s.rd g := by
    intro t c _ x; split
    · rfl
    · exact hc
  unfold State.dropDomain
  dsimp only
  split
  · split
    · exact hr s _ s
    · split
      · exact hr s _ s
      · exact hr s _ s
  · split
    · exact hr s _ s
    · exact hr s _ s
theorem State.dormantDown_rd (s : State) (n : Fin 8) (g : Fld)
    (h : addrDom (g.key / 32) ≤ 111 → addrDom (g.key / 32) % 14 = 9) (h2 : addrDom (g.key / 32) < 112 ∨ 120 ≤ addrDom (g.key / 32)) (h3 : 0x3000 ≤ g.key / 32) (hlow : ¬ LowA (g.key / 32)) :
    (s.dormantDown n).rd g = s.rd g := by
  have hh : ∀ (s : State) (m : Fin 8) (k : Nat), (s.halfDown m k).rd g = s.rd g := by
    intro s m k
    have e : Touch LowA s (s.halfDown m k) := by
      unfold State.halfDown
      refine Touch.endWrB (Touch.ite (.wrB _ _ _ ?_) (.refl _)) ?_ <;> (split <;> (simp only [LowA, Fld.key]; omega))
    exact e g hlow
  have ha : ∀ (s : State) i, i < 120 → (i < 112 → i % 14 ≠ 9) → (s.autoDown i).rd g = s.rd g := by
    intro s i hi h9
    unfold State.autoDown
    split
    · extract_lets s0 s1
      have hi9 : addrDom (g.key / 32) ≠ i := by
        intro e
        rw [e] at h h2
        rcases h2 with h2 | h2
        · exact h9 h2 (h (by omega))
        · omega
      have h0 : s0.rd g = s.rd g := by
        simp only [s0]
        split
        · exact hh _ _ _
        · rfl
      show (((s0.dropDomain i domOFF).wr _ _).rd g) = _
      rw [State.rd_wr_other _ _ (by simp only [Fld.key] at h3 ⊢; omega), State.dropDomain_rd _ _ _ _ hi9, h0]
    · rfl
  have hf : ∀ (l : List Nat) (s : State), (∀ i ∈ l, i < 120 ∧ (i < 112 → i % 14 ≠ 9)) → (l.foldl State.autoDown s).rd g = s.rd g := by
    intro l
    induction l with
    | nil => intros; rfl
    | cons a l ih =>
      intro s hl
      rw [List.foldl_cons, ih _ (fun i hi => hl i (List.mem_cons_of_mem _ hi)), ha _ _ (hl a List.mem_cons_self).1 (hl a List.mem_cons_self).2]
  have hl : ∀ i ∈ dormantDoms n.val, i < 120 ∧ (i < 112 → i % 14 ≠ 9) := by
    intro i hi
    simp only [dormantDoms, List.mem_cons, List.not_mem_nil, or_false] at hi
    omega
  unfold State.dormantDown
  split
  · dsimp only
    split
    · rw [ha _ _ (by omega) (by omega), hf _ _ hl]
    · exact hf _ _ hl
  · rfl
theorem addrDom_neg : ∀ n : Fin 8, ∀ o ∈ [0x1020, 0x1024, 0x1028, 0x1010], addrDom (0x200000 + 0x100000 * n.val + o) = 14 * n.val + 9 := by decide
theorem addrDom_count : ∀ n : Fin 8, addrDom (0x201030 + 0x100000 * n.val) = 133 := by decide
/-- what dormant power-down leaves: the status, event and presence registers of the port -/
theorem State.dormantDown_neg (s : State) (n m : Fin 8) (o lo w : Nat) (k : FType) (r : Nat) (ho : o ∈ [0x1020, 0x1024, 0x1028, 0x1010]) (hl : lo < 32) :
    (s.dormantDown n).rd ⟨0x200000 + 0x100000 * m.val + o, lo, w, k, r⟩ = s.rd ⟨0x200000 + 0x100000 * m.val + o, lo, w, k, r⟩ := by
  have e : (Fld.key ⟨0x200000 + 0x100000 * m.val + o, lo, w, k, r⟩) / 32 = 0x200000 + 0x100000 * m.val + o := by simp only [Fld.key]; omega
  have h := addrDom_neg m o ho
  refine State.dormantDown_rd s n _ ?_ ?_ ?_ ?_
  · rw [e, h]; intro; omega
  · rw [e, h]; omega
  · rw [e]; omega
  · rw [e]
    simp only [List.mem_cons, List.not_mem_nil, or_false] at ho
    unfold LowA
    rcases ho with rfl | rfl | rfl | rfl <;> omega

theorem State.attemptBegin_low {s t : State} {n : Fin 8} {r d : Nat} (hl : t.link n ≠ stDORMANT) (h : Touch LowT s t) :
    Touch LowT s (t.attemptBegin n r d) := by
  refine h.trans ?_
  unfold State.attemptBegin
  extract_lets tr keep s1 s2 coef main s3
  have h1 : Touch LowT t s1 := by
    refine Touch.ite (.wr _ _ _ ?_) (.wr _ _ _ ?_) <;> (simp only [LowT, LowA, Fld.key]; omega)
  have hl1 : s1.link n ≠ stDORMANT := by
    unfold State.link
    rw [h1 _ (by simp only [LowT, LowA, Fld.key]; omega)]
    exact hl
  have h2 : Touch LowT t s2 := Touch.ite (h1.trans ((State.diagEnd_low hl1 (.refl _)).mono lowT_of)) h1
  refine Touch.endWr (State.setLens_low lowT_of (Touch.modPort h2)) ?_
  simp only [LowT, LowA, Fld.key]; omega
theorem State.attemptStart_low {s t : State} {n : Fin 8} (hl : t.link n ≠ stDORMANT) (h : Touch LowT s t) : Touch LowT s (t.attemptStart n) :=
  State.enterPhase_low lowT_id (State.attemptBegin_low hl h)
theorem State.enterTrain_eq (s : State) (n : Fin 8) : ∀ g : Fld, ¬ LowT (g.key / 32) → (s.enterTrain n).rd g = (s.setLink n stTRAIN).rd g := by
  have hT : (s.setLink n stTRAIN).link n = stTRAIN := State.setLink_link s n stTRAIN (by decide)
  unfold State.enterTrain
  extract_lets w s1 s2 mode rate
  have h2 : Touch LowT (s.setLink n stTRAIN) s2 := State.protoStart_low lowT_of (Touch.modPort (.refl _))
  have hl2 : s2.link n ≠ stDORMANT := by
    unfold State.link
    rw [h2 _ (by simp only [LowT, LowA, Fld.key]; omega)]
    show State.link _ n ≠ _
    rw [hT]; decide
  split
  · exact State.attemptStart_low hl2 h2
  · exact State.enterPhase_low lowT_id (Touch.modPort (State.attemptBegin_low hl2 h2))
theorem State.enterTrain_link (s : State) (n : Fin 8) : (s.enterTrain n).link n = stTRAIN := by
  unfold State.link
  rw [State.enterTrain_eq _ _ _ (by simp only [LowT, LowA, Fld.key]; omega)]
  exact State.setLink_link s n stTRAIN (by decide)
theorem State.enterTrain_rd (s : State) (n : Fin 8) (g : Fld) (hg : ¬ LowT (g.key / 32)) (h : g.key ≠ (F.LINK_STATUS.STATE n).key) :
    (s.enterTrain n).rd g = s.rd g := by rw [State.enterTrain_eq _ _ _ hg, State.setLink_rd _ _ _ _ h]
theorem State.drawFree_rd (s : State) (w : Nat) (g : Fld) : (s.drawFree w).2.rd g = s.rd g := rfl
theorem State.resolveStd_facts (s : State) (n : Fin 8) (m : Nat) (hm : m < 16) : (s.resolveStd n m).link n = stTRAIN ∧ (s.resolveStd n m).rd (F.LINK_STATUS.MODE n) = m ∧
    ∀ g : Fld, ¬ LowT (g.key / 32) → g.key ≠ (F.LINK_STATUS.STATE n).key → g.key ≠ (F.LINK_STATUS.MODE n).key → g.key ≠ (F.LINK_STATUS.LDT_RES n).key → g.key ≠ (F.LINK_STATUS.MS_MASTER n).key → (s.resolveStd n m).rd g = s.rd g := by
  unfold State.resolveStd
  extract_lets d s1
  refine ⟨State.enterTrain_link _ _, ?_, ?_⟩
  · rw [State.enterTrain_rd _ _ _ (by simp only [LowT, LowA, Fld.key]; omega) (by simp only [Fld.key]; omega), State.rd_wr_other _ _ (by simp only [Fld.key]; omega), State.rd_wr_same]
    exact Nat.mod_eq_of_lt hm
  · intro g h1 h2 h3 h4 h5
    rw [State.enterTrain_rd _ _ _ h1 h2, State.rd_wr_other _ _ (Ne.symm h4), State.rd_wr_other _ _ (Ne.symm h3)]
    simp only [s1]
    split
    · rw [State.rd_wr_other _ _ (Ne.symm h5)]; rfl
    · rw [State.rd_wr_other _ _ (Ne.symm h5)]
theorem State.partnerArrive_rd (s : State) (n : Fin 8) (g : Fld) (hg : 0xC000 ≤ g.key / 32) (h : g.key ≠ (F.LINK_EVENT.PARTNER_ARRIVE n).key) :
    (s.partnerArrive n).rd g = s.rd g := by
  unfold State.partnerArrive
  rw [State.linkEvent_rd _ _ _ _ hg (Ne.symm h)]; rfl
theorem State.partnerArrive_on (s : State) (n : Fin 8) : (s.partnerArrive n).on (F.LINK_EVENT.PARTNER_ARRIVE n) = true :=
  State.linkEvent_on _ _ _ rfl (by simp only [Fld.key]; omega)
theorem State.partnerLeave_rd (s : State) (n : Fin 8) (g : Fld) (hg : 0xC000 ≤ g.key / 32) (h : g.key ≠ (F.LINK_EVENT.PARTNER_LEAVE n).key) :
    (s.partnerLeave n).rd g = s.rd g := by
  unfold State.partnerLeave
  split
  · rw [State.linkEvent_rd _ _ _ _ hg (Ne.symm h)]; rfl
  · rfl
theorem State.enterDormant_rd (s : State) (n : Fin 8) (g : Fld) (hg : 0xC000 ≤ g.key / 32) (h : g.key ≠ (F.LINK_EVENT.PARTNER_LEAVE n).key)
    (hd : ∀ t : State, (t.dormantDown n).rd g = t.rd g) : (s.enterDormant n).rd g = (s.setLink n stDORMANT).rd g := by
  unfold State.enterDormant
  rw [hd, State.rd_modPort, State.partnerLeave_rd _ _ _ hg h]

theorem State.iff_true {s : State} {c : Bool} {f : State → State} (h : c = true) : s.iff c f = f s := by rw [h]; rfl
theorem State.dormantDown_status (n : Fin 8) : ∀ (t : State), (t.dormantDown n).rd (F.LINK_STATUS.STATE n) = t.rd (F.LINK_STATUS.STATE n) ∧
      (t.dormantDown n).rd (F.LINK_STATUS.LAST_DOWN n) = t.rd (F.LINK_STATUS.LAST_DOWN n) ∧
      (t.dormantDown n).rd (F.LINK_COUNT.FALSE_WAKE n) = t.rd (F.LINK_COUNT.FALSE_WAKE n) := by
    intro t
    refine ⟨?_, ?_, ?_⟩
    · have h := State.dormantDown_neg t n n 0x1020 8 3 .ro 0 (by decide) (by decide)
      have e : F.LINK_STATUS.STATE n = ⟨0x200000 + 0x100000 * n.val + 0x1020, 8, 3, .ro, 0⟩ := by
        simp only [Fld.mk.injEq, and_self, and_true]; omega
      rw [e]; exact h
    · have h := State.dormantDown_neg t n n 0x1020 24 4 .ro 0 (by decide) (by decide)
      have e : F.LINK_STATUS.LAST_DOWN n = ⟨0x200000 + 0x100000 * n.val + 0x1020, 24, 4, .ro, 0⟩ := by
        simp only [Fld.mk.injEq, and_self, and_true]; omega
      rw [e]; exact h
    · have e : (F.LINK_COUNT.FALSE_WAKE n).key / 32 = 0x201030 + 0x100000 * n.val := by simp only [Fld.key]; omega
      refine State.dormantDown_rd t n _ ?_ ?_ ?_ ?_
      · rw [e, addrDom_count]; intro; omega
      · rw [e, addrDom_count]; omega
      · rw [e]; omega
      · rw [e]; unfold LowA; omega
theorem State.sensing_of (s : State) (n : Fin 8) (hp : s.pcsOn n = true) : s.link n = stSENSE ∧ s.port[n].neg.breakSilence = false → s.sensing n = true := by
    intro h
    unfold State.sensing
    rw [hp, h.1, h.2]; rfl
theorem State.link_modPort (s : State) (n m : Fin 8) (f) : (s.modPort n f).link m = s.link m := rfl
theorem State.anFail_facts (s : State) (n : Fin 8) (x : Nat) (h : x < 16) : (s.anFail n x).link n = stSENSE ∧ (s.anFail n x).rd (F.LINK_STATUS.LAST_DOWN n) = x := by
  unfold State.anFail State.link
  constructor
  · rw [State.rd_wr_other _ _ (by simp only [Fld.key]; omega)]; exact State.setLink_link s n stSENSE (by decide)
  · rw [State.rd_wr_same]; exact Nat.mod_eq_of_lt h
theorem State.resolve_std (s : State) (n : Fin 8) (h : (s.port[n].neg.advModes.contains 7 && (s.port[n].neg.spireCapable || s.port[n].neg.verBad)) = false) :
    s.resolve n = if commonStd s.port[n].neg.advModes s.port[n].neg.partnerModes = 0 then s.anFail n rNO_COMMON_MODE
      else s.resolveStd n (commonStd s.port[n].neg.advModes s.port[n].neg.partnerModes) := by
  unfold State.resolve
  simp only [h]; rfl
theorem commonStd_lt (a b) : commonStd a b < 16 := by
  unfold commonStd
  have : ∀ x, ([6, 5, 4, 3, 2, 1].find? fun m => a.contains m && b.contains m) = some x → x < 16 := by
    intro x hx
    have := List.mem_of_find?_eq_some hx
    simp at this; omega
  cases h : ([6, 5, 4, 3, 2, 1].find? fun m => a.contains m && b.contains m) with
  | none => simp
  | some x => simp [this x h]
theorem spireFail_lt {g v p r} (h : spireFail g v p = some r) : r < 16 := by
  unfold spireFail at h
  repeat' split at h
  all_goals first | (simp only [Option.some.injEq] at h; subst h; decide) | simp at h
theorem State.recordPartner_rd (s : State) (n : Fin 8) (ver : Nat) (p : S2Page) (g : Fld) (h : g.key / 32 ≠ 0x201024 + 0x100000 * n.val) :
    (s.recordPartner n ver p).rd g = s.rd g := by
  simp only [Fld.key] at h
  unfold State.recordPartner
  simp (disch := (simp only [Fld.key, ne_eq]; omega)) only [State.rd_modPort, State.rd_wr_other, State.rd_wrB_other]
/-- Recording the partner leaves everything of the port as it was, but for the mark that it is recorded. -/
theorem State.recordPartner_port (s : State) (n : Fin 8) (ver : Nat) (p : S2Page) : (s.recordPartner n ver p).port[n] =
    { s.port[n] with neg := { s.port[n].neg with recorded := true } } := by
  unfold State.recordPartner State.modPort
  simp
theorem State.resolveSpire_facts (s : State) (n : Fin 8) (p : S2Page) :
    let g := s.port[n].neg
    let ldt := min g.ldtMs (ldtMsOf p.ldt)
    let inp := max g.inpMs (inpMsOf p.inp)
    let t := s.resolveSpire n p
    t.link n = stTRAIN ∧ t.rd (F.LINK_STATUS.MODE n) = 7 ∧ t.rd (F.LINK_STATUS.LDT_RES n) = max ldt (inp + 4) % 256 ∧
          t.on (F.LINK_STATUS.LDT_RAISED n) = decide (ldt < inp + 4) ∧
          t.on (F.LINK_STATUS.MS_MASTER n) = (roleOf g p).getD false ∧
    ∀ g : Fld, ¬ LowT (g.key / 32) → g.key / 32 ≠ 0x201020 + 0x100000 * n.val → t.rd g = s.rd g := by
  intro g ldt inp t
  have e : ∀ x : Fld, ¬ LowT (x.key / 32) → x.key ≠ (F.LINK_STATUS.STATE n).key → t.rd x = (((((s.wr (F.LINK_STATUS.MODE n) 7).wr (F.LINK_STATUS.LDT_RES n) (max ldt (inp + 4))).wrB
    (F.LINK_STATUS.LDT_RAISED n) (decide (ldt < inp + 4))).wrB (F.LINK_STATUS.MS_MASTER n) ((roleOf g p).getD false))).rd x := by
    intro x h1 h2
    exact (State.enterTrain_rd _ n x h1 h2).trans (State.rd_modPort _ _ _ _)
  refine ⟨State.enterTrain_link _ _, ?_, ?_, ?_, ?_, ?_⟩
  · rw [e _ (by simp only [LowT, LowA, Fld.key]; omega) (by simp only [Fld.key]; omega)]
    simp (disch := (simp only [Fld.key, ne_eq]; omega)) only [State.rd_wr_other, State.rd_wrB_other, State.rd_wr_same]
    all_goals rfl
  · rw [e _ (by simp only [LowT, LowA, Fld.key]; omega) (by simp only [Fld.key]; omega)]
    simp (disch := (simp only [Fld.key, ne_eq]; omega)) only [State.rd_wr_other, State.rd_wrB_other, State.rd_wr_same]
    all_goals rfl
  · unfold State.on
    rw [e _ (by simp only [LowT, LowA, Fld.key]; omega) (by simp only [Fld.key]; omega), State.rd_wrB_other _ _ (by simp only [Fld.key]; omega)]
    exact State.on_wrB_same _ _ _ rfl
  · unfold State.on
    rw [e _ (by simp only [LowT, LowA, Fld.key]; omega) (by simp only [Fld.key]; omega)]
    exact State.on_wrB_same _ _ _ rfl
  · intro x h1 h2
    simp only [Fld.key] at h2
    rw [e _ h1 (by simp only [Fld.key]; omega)]
    simp (disch := (simp only [Fld.key, ne_eq]; omega)) only [State.rd_wr_other, State.rd_wrB_other]
theorem State.linkEvent_ite_rd (s : State) (n : Fin 8) (c : Prop) [Decidable c] (f : Nat → Fld) (g : Fld) (hg : 0xC000 ≤ g.key / 32) (h : (f n).key ≠ g.key) :
    (if c then s.linkEvent n f else s).rd g = s.rd g := by
  split
  · exact State.linkEvent_rd _ _ _ _ hg h
  · rfl

end Sys2Proof.Machine
end

