-- ==== Sys2Proof/Laws/Slices.lean ====
section
/-! SUPPORT. What entering and leaving HOLD, and a change of the port impulse flag, touch (03_line_signal_path.md R93,
07_retransmission_spill.md R216, R217). -/

namespace Sys2Proof.Machine

/-- Where the link and what stands below it write: LowT and the negotiation registers. -/
def LinkA (a : Nat) : Prop := LowT a ∨ (0x200000 ≤ a ∧ 0x1000 ≤ a % 0x100000 ∧ a % 0x100000 < 0x2000)

theorem linkA_id (a : Nat) (h : LinkA a) : LinkA a := h
theorem linkA_low (a : Nat) (h : LowA a) : LinkA a := .inl (.inl h)
theorem linkA_lowT (a : Nat) (h : LowT a) : LinkA a := .inl h
theorem linkA_flt (a : Nat) (h : FltA a) : LinkA a := by unfold FltA at h; unfold LinkA LowT LowA; omega

theorem Touch.endLinkEvent {A} {s t : State} {n : Fin 8} {f : Nat → Fld} (hA : ∀ a, FltA a → A a) (h : Touch A s t)
    (a : A ((f n).key / 32)) : Touch A s (t.linkEvent n f) := State.linkEvent_touch h a hA

theorem State.setLink_touch {s t : State} {n : Fin 8} {st : Nat} (h : Touch LinkA s t) : Touch LinkA s (t.setLink n st) :=
  h.endWr (by simp only [LinkA, LowT, LowA, Fld.key]; omega)

theorem State.enterHold_touch {A} {s t : State} {n : Fin 8} (hA : ∀ a, LinkA a → A a) (h : Touch A s t) : Touch A s (t.enterHold n) := by
  refine h.trans (Touch.mono (A := LinkA) ?_ hA)
  clear h hA
  unfold State.enterHold
  try dsimp only
  repeat' first
    | with_reducible exact Touch.refl _
    | with_reducible apply Touch.modPort
    | with_reducible apply Touch.endCount
    | with_reducible apply Touch.ite
    | with_reducible apply State.setLink_touch
    | with_reducible apply (Touch.endLinkEvent linkA_flt)
    | with_reducible apply (State.freeze_low linkA_low)
    | with_reducible apply (State.ladFallback_low linkA_low)
    | with_reducible apply (State.syncRtx_low linkA_low)
    | with_reducible apply (State.memberLoss_low linkA_low)
    | split
  all_goals (clear * -; (try simp only [LinkA, LowT, LowA, Fld.key]); omega)

theorem State.enterHold_rd {s : State} {n : Fin 8} {g : Fld} (hg : ¬ LinkA (g.key / 32)) :
    (s.enterHold n).rd g = s.rd g := State.enterHold_touch (fun _ h => h) (.refl _) g hg

theorem State.exitHold_touch {A} {s t : State} {n : Fin 8} (hA : ∀ a, LinkA a → A a) (h : Touch A s t) : Touch A s (t.exitHold n) := by
  refine h.trans (Touch.mono (A := LinkA) ?_ hA)
  clear h hA
  unfold State.exitHold
  try dsimp only
  repeat' first
    | with_reducible exact Touch.refl _
    | with_reducible apply Touch.modPort
    | with_reducible apply Touch.ite
    | with_reducible apply State.setLink_touch
    | with_reducible apply (Touch.endLinkEvent linkA_flt)
    | with_reducible apply (State.freeze_low linkA_low)
    | with_reducible apply (State.holdEnd_low linkA_low)
    | with_reducible apply (State.syncRtx_low linkA_low)
  all_goals (clear * -; (try simp only [LinkA, LowT, LowA, Fld.key]); omega)

theorem State.exitHold_rd {s : State} {n : Fin 8} {g : Fld} (hg : ¬ LinkA (g.key / 32)) :
    (s.exitHold n).rd g = s.rd g := State.exitHold_touch (fun _ h => h) (.refl _) g hg

theorem State.holdExitCheck_touch {A} {s t : State} {n : Fin 8} (hA : ∀ a, LinkA a → A a) (h : Touch A s t) : Touch A s (t.holdExitCheck n) := by
  refine h.trans (Touch.mono (A := LinkA) ?_ hA)
  clear h hA
  unfold State.holdExitCheck
  try dsimp only
  repeat' first
    | with_reducible exact Touch.refl _
    | with_reducible apply Touch.ite
    | with_reducible apply (State.exitHold_touch linkA_id)
  all_goals (clear * -; (try simp only [LinkA, LowT, LowA, Fld.key]); omega)

theorem State.holdExitCheck_rd {s : State} {n : Fin 8} {g : Fld} (hg : ¬ LinkA (g.key / 32)) :
    (s.holdExitCheck n).rd g = s.rd g := State.holdExitCheck_touch (fun _ h => h) (.refl _) g hg

theorem State.flagRise_touch {A} {s t : State} {n : Fin 8} (hA : ∀ a, LinkA a → A a) (h : Touch A s t) : Touch A s (t.flagRise n) := by
  refine h.trans (Touch.mono (A := LinkA) ?_ hA)
  clear h hA
  unfold State.flagRise
  try dsimp only
  repeat' first
    | with_reducible exact Touch.refl _
    | with_reducible apply Touch.modPort
    | with_reducible apply Touch.ite
    | with_reducible apply (State.enterHold_touch linkA_id)
    | with_reducible apply (State.freeze_low linkA_low)
  all_goals (clear * -; (try simp only [LinkA, LowT, LowA, Fld.key]); omega)

theorem State.flagRise_rd {s : State} {n : Fin 8} {g : Fld} (hg : ¬ LinkA (g.key / 32)) :
    (s.flagRise n).rd g = s.rd g := State.flagRise_touch (fun _ h => h) (.refl _) g hg

theorem State.flagFall_touch {A} {s t : State} {n : Fin 8} (hA : ∀ a, LinkA a → A a) (h : Touch A s t) : Touch A s (t.flagFall n) := by
  refine h.trans (Touch.mono (A := LinkA) ?_ hA)
  clear h hA
  unfold State.flagFall
  try dsimp only
  repeat' first
    | with_reducible exact Touch.refl _
    | with_reducible apply Touch.modPort
    | with_reducible apply Touch.ite
    | with_reducible apply (State.holdExitCheck_touch linkA_id)
    | with_reducible apply (State.freeze_low linkA_low)
  all_goals (clear * -; (try simp only [LinkA, LowT, LowA, Fld.key]); omega)

theorem State.flagFall_rd {s : State} {n : Fin 8} {g : Fld} (hg : ¬ LinkA (g.key / 32)) :
    (s.flagFall n).rd g = s.rd g := State.flagFall_touch (fun _ h => h) (.refl _) g hg

theorem State.withFlag_rd {s : State} {n : Fin 8} {f : State → State} {g : Fld} (hg : ¬ LinkA (g.key / 32)) :
    (s.withFlag n f).rd g = (f s).rd g := by
  unfold State.withFlag
  dsimp only
  split
  · exact State.flagRise_rd hg
  · split
    · exact State.flagFall_rd hg
    · rfl

end Sys2Proof.Machine
end

