-- ==== Sys2Proof/Laws/Frames.lean ====
section
/-! SUPPORT. What the operations of the framer touch: sending a frame, taking blocks for it, the events on the host side
(05_spire_framing_ldpc.md R137-R146, 07_retransmission_spill.md R209). -/

namespace Sys2Proof.Machine

theorem ladderMsg_port (s : State) (n : Fin 8) : (s.ladderMsg n).2.2.port[n].fr = s.port[n].fr ∧ (s.ladderMsg n).2.2.port[n].rtx = s.port[n].rtx := by
  unfold State.ladderMsg
  dsimp only
  split
  · exact ⟨rfl, rfl⟩
  · split
    · split
      · constructor <;> simp [State.modPort]
      · split <;> exact ⟨rfl, rfl⟩
    · split
      · split <;> constructor <;> simp [State.modPort]
      · exact ⟨rfl, rfl⟩

theorem ladderMsg_low (s : State) (n : Fin 8) : Touch LowA s (s.ladderMsg n).2.2 := by
  unfold State.ladderMsg
  dsimp only
  split
  · exact .refl _
  · split
    · split
      · exact Touch.modPort (.endWr (.refl _) (by simp only [LowA, Fld.key]; omega))
      · split <;> exact .refl _
    · split
      · split <;> exact Touch.modPort (.refl _)
      · exact .refl _

theorem ladderMsg_rd (s : State) (n : Fin 8) (g : Fld) (h : g.key / 32 < 0x203000 + 0x100000 * n.val ∨ 0x204000 + 0x100000 * n.val ≤ g.key / 32) : (s.ladderMsg n).2.2.rd g = s.rd g := by
  unfold State.ladderMsg
  dsimp only
  split
  · rfl
  · split
    · split
      · rw [State.rd_modPort, State.rd_wr_other]; simp only [Fld.key] at *; omega
      · split <;> rfl
    · split
      · split <;> rfl
      · rfl

theorem sendFrame_rd (s : State) (n : Fin 8) (typ seq : Nat) (blks) (g : Fld) (h : g.key / 32 < 0x203000 + 0x100000 * n.val ∨ 0x204000 + 0x100000 * n.val ≤ g.key / 32) : (s.sendFrame n typ seq blks).rd g = s.rd g := by
  unfold State.sendFrame
  dsimp only
  rw [State.rd_modPort]
  split
  · exact ladderMsg_rd s n g h
  · rfl

theorem sendFrame_facts (s : State) (n : Fin 8) (typ seq : Nat) (blks) : let t := s.sendFrame n typ seq blks
    (∃ g, t.port[n].fr.txFrame = some g ∧ g.typ = typ ∧ g.seq = (if s.linkUp n then seq else 0) ∧ g.ack = (if s.linkUp n then s.expectOf n else 0) ∧ g.blks = blks ∧ g.lock = s.on (F.FRM_STATUS.LOCK_RX n) ∧
        (s.linkUp n = false → g.nak = false ∧ g.lcmd = lcNONE ∧ g.larg = 0) ∧ (s.linkUp n = true → g.nak = s.nakBit n)) ∧
    t.port[n].fr.txIdx = s.port[n].fr.txIdx + 1 ∧ t.port[n].fr.txRungIdx = s.port[n].fr.txRungIdx + 1 ∧
    t.port[n].fr.upFrames = s.port[n].fr.upFrames + (if s.linkUp n = true ∧ s.port[n].fr.upFrames < 16 then 1 else 0) ∧
    t.port[n].rtx = s.port[n].rtx := by
  dsimp only
  unfold State.sendFrame
  dsimp only
  have h := ladderMsg_port s n
  by_cases hu : s.linkUp n = true
  · simp only [hu, if_true, State.modPort, Fin.getElem_fin, Vector.getElem_set_self, Bool.true_and]
    simp only [Fin.getElem_fin] at h
    rw [h.1, h.2]
    refine ⟨⟨_, rfl, rfl, rfl, rfl, rfl, rfl, ?_, ?_⟩, rfl, rfl, ?_, rfl⟩
    · intro h; cases h
    · intro; rfl
    · simp
  · have hu' : s.linkUp n = false := by simpa using hu
    simp only [hu', State.modPort, Fin.getElem_fin, Vector.getElem_set_self, Bool.false_and]
    refine ⟨⟨_, rfl, rfl, rfl, rfl, rfl, rfl, ?_, ?_⟩, rfl, rfl, ?_, rfl⟩
    · intro; exact ⟨rfl, rfl, rfl⟩
    · intro h; cases h
    · simp

theorem State.rise_port (s : State) (i : Nat) (d) (inj quiet : Bool) : (s.rise i d inj quiet).port = s.port := by
  rw [(State.rise_flt s i d inj quiet).1]

theorem State.rise_side (s : State) (i : Nat) (d) (inj quiet : Bool) : (s.rise i d inj quiet).side = s.side := by
  rw [(State.rise_flt s i d inj quiet).1]

theorem State.syncRtx_rd' (s : State) (n : Fin 8) (g : Fld) (h : g.key / 32 ≠ 0x218004 + 0x100000 * n.val ∧ g.key / 32 ≠ 0x218008 + 0x100000 * n.val) : (s.syncRtx n).rd g = s.rd g := by
  unfold State.syncRtx
  dsimp only
  split
  · simp only [Fld.key] at h
    simp (disch := (simp only [Fld.key, ne_eq]; omega)) only [State.rd_wr_other, State.rd_wrB_other]
  · rfl

theorem hostEvent_port (s : State) (o : Fin 12) (f) : (s.hostEvent o f).port = s.port := by
  unfold State.hostEvent
  generalize ownerPorts o = l
  induction l generalizing s with
  | nil => rfl
  | cons a l ih => rw [List.foldl_cons, ih]; split <;> rfl

theorem blkErr_port (s : State) (o : Fin 12) (f k) : (s.blkErr o f k).port = s.port := by
  unfold State.blkErr
  generalize ownerPorts o = l
  induction l generalizing s with
  | nil => rfl
  | cons a l ih => rw [List.foldl_cons, ih]; split <;> rfl

theorem hostEvent_side (s : State) (o : Fin 12) (f) : (s.hostEvent o f).side = s.side := by
  unfold State.hostEvent
  generalize ownerPorts o = l
  induction l generalizing s with
  | nil => rfl
  | cons a l ih => rw [List.foldl_cons, ih]; split <;> rfl

theorem blkErr_side (s : State) (o : Fin 12) (f k) : (s.blkErr o f k).side = s.side := by
  unfold State.blkErr
  generalize ownerPorts o = l
  induction l generalizing s with
  | nil => rfl
  | cons a l ih => rw [List.foldl_cons, ih]; split <;> rfl

theorem icong_port (s : State) (o : Fin 12) : (s.icong o).port = s.port := by
  unfold State.icong State.askPause
  dsimp only
  split_ifs <;> simp [hostEvent_port, State.modSide, State.count]

theorem setSpillFull_port (s : State) (o : Fin 12) : (s.setSpillFull o).port = s.port := by
  unfold State.setSpillFull
  split_ifs <;> simp [hostEvent_port]

theorem spillEnter_port (s : State) (o : Fin 12) : (s.spillEnter o).port = s.port := by
  unfold State.spillEnter
  rw [hostEvent_port]; rfl

theorem spillCheck_port (s : State) (o : Fin 12) : (s.spillCheck o).port = s.port := by
  unfold State.spillCheck
  dsimp only
  rw [icong_port]
  split_ifs <;> simp [setSpillFull_port, spillEnter_port]

theorem takeFrame_port (s : State) (o : Fin 12) (c : Nat) (h : s.spilling o = false) : (s.takeFrame o c).2.port = s.port := by
  unfold State.takeFrame
  dsimp only
  simp only [h, Bool.false_eq_true, if_false]
  split_ifs <;> simp [blkErr_port, spillCheck_port, State.modSide]

/-- Where taking a frame's blocks from the ingress FIFO writes: the framer's error counts, SPILL_STATUS, SPILL_EV and RTX_EVENT. -/
def TakeA (a : Nat) : Prop := 0x200000 ≤ a ∧ (a % 0x100000 = 0x2024 ∨ a % 0x100000 = 0x18048 ∨ a % 0x100000 = 0x18058 ∨ a % 0x100000 = 0x18070)

theorem blkErr_take (s : State) (o : Fin 12) (k) : Touch TakeA s (s.blkErr o F.BLK_ERR.UNDERRUN k) := by
  unfold State.blkErr
  refine Touch.fold _ _ ?_ _
  intro s n _
  exact Touch.ite (.count _ _ _ (by simp only [TakeA, Fld.key]; omega)) (.refl _)

theorem hostEvent_take (s : State) (o : Fin 12) (f : Nat → Fld) (h : ∀ n : Fin 8, TakeA ((f n).key / 32)) : Touch TakeA s (s.hostEvent o f) := by
  unfold State.hostEvent
  refine Touch.fold _ _ ?_ _
  intro s n _
  exact Touch.ite (.wrB _ _ _ (h n)) (.refl _)

theorem Touch.andThen {A} {s t u : State} (h : Touch A t u) (g : Touch A s t) : Touch A s u := g.trans h

theorem askPause_take (s : State) (o : Fin 12) (q) : Touch TakeA s (s.askPause o q) := by
  unfold State.askPause
  split
  · exact Touch.modSide (.refl _)
  · exact .refl _

theorem hostCount_take (s : State) (o : Fin 12) (f : Fld) (h : TakeA (f.key / 32)) : Touch TakeA s (s.hostCount o f) := by
  unfold State.hostCount
  exact Touch.iff (.refl _) (.count _ _ _ h)

theorem icong_take (s : State) (o : Fin 12) : Touch TakeA s (s.icong o) := by
  unfold State.icong
  generalize hp : spillPort o = k
  dsimp only
  split_ifs
  · exact (askPause_take _ _ _).andThen (.wrB _ _ _ (by simp only [TakeA, Fld.key]; omega))
  · exact .refl _
  · exact (askPause_take _ _ _).andThen ((hostEvent_take _ _ _ (fun n => by simp only [TakeA, Fld.key]; omega)).andThen
      ((hostCount_take _ _ _ (by simp only [TakeA, Fld.key]; omega)).andThen (.wrB _ _ _ (by simp only [TakeA, Fld.key]; omega))))
  · exact .refl _

theorem setSpillFull_take (s : State) (o : Fin 12) : Touch TakeA s (s.setSpillFull o) := by
  unfold State.setSpillFull
  generalize hp : spillPort o = k
  split_ifs
  · exact .refl _
  · exact (hostEvent_take _ _ _ (fun n => by simp only [TakeA, Fld.key]; omega)).andThen (.wrB _ _ _ (by simp only [TakeA, Fld.key]; omega))

theorem spillEnter_take (s : State) (o : Fin 12) : Touch TakeA s (s.spillEnter o) := by
  unfold State.spillEnter
  generalize hp : spillPort o = k
  exact (hostEvent_take _ _ _ (fun n => by simp only [TakeA, Fld.key]; omega)).andThen
    (Touch.endCount (.wrB _ _ _ (by simp only [TakeA, Fld.key]; omega)) (by simp only [TakeA, Fld.key]; omega))

theorem spillCheck_take (s : State) (o : Fin 12) : Touch TakeA s (s.spillCheck o) := by
  unfold State.spillCheck
  dsimp only
  refine (icong_take _ _).andThen ?_
  split_ifs
  · exact setSpillFull_take _ _
  · exact .refl _
  · exact spillEnter_take _ _
  · exact setSpillFull_take _ _
  · generalize spillPort o = k
    exact .wrB _ _ _ (by simp only [TakeA, Fld.key]; omega)

theorem takeFrame_take (s : State) (o : Fin 12) (c : Nat) (h : s.spilling o = false) : Touch TakeA s (s.takeFrame o c).2 := by
  unfold State.takeFrame
  dsimp only
  simp only [h, Bool.false_eq_true, if_false]
  split_ifs
  · exact (spillCheck_take _ _).andThen (Touch.modSide (.refl _))
  · exact (blkErr_take _ _ _).andThen ((spillCheck_take _ _).andThen (Touch.modSide (.refl _)))
  · exact (spillCheck_take _ _).andThen (Touch.modSide (.refl _))
end Sys2Proof.Machine
end

