-- ==== Sys2Proof/Laws/Training.lean ====
section
/-! SUPPORT. The training phases, entry to UP and what a link that goes down leaves of its negotiation state
(02_port_modes_negotiation.md R46, R52, 04_equalisation_cancellation.md R115-R121). -/

namespace Sys2Proof.Machine

theorem State.freeze_off {s : State} {n : Fin 8} {p bit v} : Touch (Off 0xC000 0xD000) s (s.freeze n p bit v) := by
  unfold State.freeze
  refine Touch.fold _ _ ?_ _
  intro s f hf
  have hb : f.1 < 5 ∧ f.2 < 5 :=
    (by decide : ∀ f ∈ filters, f.1 < 5 ∧ f.2 < 5) f (List.mem_filter.1 hf).1
  split
  · exact .wr _ _ _ (by simp only [Off, Fld.key]; omega)
  · exact .refl _

theorem State.enterPhase_off {s : State} {n : Fin 8} {ph} : Touch (Off 0xC000 0xD000) s (s.enterPhase n ph) := by
  unfold State.enterPhase
  exact (((Touch.wr s (F.TRN_STATUS.TRN_PHASE n) ph (by simp only [Off, Fld.key]; omega)).modPort).trans State.freeze_off).trans
    State.freeze_off

theorem State.enterPhase_phase (s : State) (n : Fin 8) (ph : Nat) (h : ph < 16) : (s.enterPhase n ph).phase n = ph := by
  unfold State.phase State.enterPhase
  dsimp only
  rw [State.freeze_rd (by simp only [LowA, Fld.key]; omega), State.freeze_rd (by simp only [LowA, Fld.key]; omega), State.rd_modPort,
    State.rd_wr_same]
  exact Nat.mod_eq_of_lt h

theorem State.enterPhase_link (s : State) (n : Fin 8) (ph : Nat) : (s.enterPhase n ph).link n = s.link n :=
  State.enterPhase_rd (by simp only [LowT, LowA, Fld.key]; omega)

theorem State.linkDown_trnFail (s : State) (n : Fin 8) (st r : Nat) : (s.linkDown n st r).rd (F.TRN_STATUS.TRN_FAIL n) = s.rd (F.TRN_STATUS.TRN_FAIL n) := by
  have hl : ¬ LowA ((F.TRN_STATUS.TRN_FAIL n).key / 32) := by simp only [LowA, Fld.key]; omega
  unfold State.linkDown
  dsimp only
  rw [State.linkEvent_rd _ _ _ _ (by simp only [Fld.key]; omega) (by simp only [Fld.key]; omega), State.syncLane_rd hl, State.syncRtx_rd hl, State.memberOut_rd hl, State.rd_modPort]
  simp (disch := (simp only [Fld.key, ne_eq]; omega)) only [State.clearResolved, State.rd_wr_other, State.rd_wrB_other, State.setLink]
  unfold State.leaveActive
  extract_lets wasUp s0 s1 s2 s3 s4 s5 s6
  have h0 : s0.rd (F.TRN_STATUS.TRN_FAIL n) = s.rd (F.TRN_STATUS.TRN_FAIL n) := by
    simp only [s0]; split
    · exact State.holdEnd_rd hl
    · rfl
  have h1 : s1.rd (F.TRN_STATUS.TRN_FAIL n) = s.rd (F.TRN_STATUS.TRN_FAIL n) := by
    simp only [s1]; split
    · exact (State.dropSide_rd hl).trans h0
    · exact h0
  have h2 : s2.rd (F.TRN_STATUS.TRN_FAIL n) = s.rd (F.TRN_STATUS.TRN_FAIL n) := by
    simp only [s2]; rw [State.dropWin, State.rd_modPort, State.ladEnd_rd hl, State.lpiQuietEnd_rd hl, h1]
  have h6 : s6.rd (F.TRN_STATUS.TRN_FAIL n) = s.rd (F.TRN_STATUS.TRN_FAIL n) := by
    simp only [s6, s5, s4, s3]
    rw [State.rd_modLane, State.setLens_rd hl, State.freeze_rd hl, State.freeze_rd hl, State.freeze_rd hl, State.freeze_rd hl, State.rd_modPort]
    simp (disch := (simp only [Fld.key, ne_eq]; omega)) only [State.rd_wr_other, State.rd_wrB_other]
    exact h2
  split
  · rw [State.lbAbort_rd hl, h6]
  · exact h6

theorem find_top (p : Nat → Bool) : ∀ t k, k < t → p k = true → (∀ j < t, p j = true → j ≤ k) → ((List.range t).reverse).find? p = some k := by
  intro t
  induction t with
  | zero => intro k h; omega
  | succ t ih =>
    intro k h hk hj
    rw [List.range_succ, List.reverse_append, List.reverse_singleton, List.singleton_append, List.find?_cons]
    by_cases hp : p t = true
    · have := hj t (by omega) hp
      rw [hp]; simp; omega
    · have : k ≠ t := fun e => hp (e ▸ hk)
      simp only [hp]
      exact ih k (by omega) hk (fun j h' => hj j (by omega))

theorem find_none (p : Nat → Bool) (t) (h : ∀ j < t, p j = false) : ((List.range t).reverse).find? p = none := by
  rw [List.find?_eq_none]
  intro x hx
  simp at hx
  simp [h x hx]

theorem State.attemptFail_facts (u : State) (n : Fin 8) (code : Nat) (hc : code < 16) (hl : u.link n = stTRAIN) :
    (u.attemptFail n code).rd (F.TRN_STATUS.TRN_FAIL n) = code ∧
      (∀ k, (∀ j < u.port[n].trn.tier, bitB (u.rd (F.PARTNER_INFO.RES_SRATES n)) j = true → j ≤ k) → k < u.port[n].trn.tier →
        bitB (u.rd (F.PARTNER_INFO.RES_SRATES n)) k = true →
        (u.attemptFail n code).link n = stTRAIN ∧ (u.attemptFail n code).port[n].trn.silence = true ∧ (u.attemptFail n code).port[n].trn.tier = k) ∧
      ((∀ j < u.port[n].trn.tier, bitB (u.rd (F.PARTNER_INFO.RES_SRATES n)) j = false) →
        WentDown (u.attemptFail n code) n stSENSE rTRAIN_TIMEOUT) := by
  unfold State.attemptFail
  dsimp only
  refine ⟨?_, ?_, ?_⟩
  · split
    · rw [State.linkDown_trnFail, State.rd_wr_same]; exact Nat.mod_eq_of_lt hc
    · rw [State.rd_modPort, State.freeze_rd (by simp only [LowA, Fld.key]; omega), State.setLens_rd (by simp only [LowA, Fld.key]; omega)]
      simp (disch := (simp only [Fld.key, ne_eq]; omega)) only [State.rd_wr_other, State.rd_wrB_other, State.rd_wr_same]
      exact Nat.mod_eq_of_lt hc
  · intro k h1 h2 h3
    rw [find_top _ _ k h2 h3 h1]
    dsimp only
    refine ⟨?_, ?_, ?_⟩
    · rw [State.link_modPort]
      unfold State.link
      rw [State.freeze_rd (by simp only [LowA, Fld.key]; omega), State.setLens_rd (by simp only [LowA, Fld.key]; omega)]
      simp (disch := (simp only [Fld.key, ne_eq]; omega)) only [State.rd_wr_other, State.rd_wrB_other]
      exact hl
    · simp [State.modPort]
    · simp [State.modPort]
  · intro h
    rw [find_none _ _ h]
    exact State.linkDown_wentDown _ _ _ _ (by decide) (by decide)

theorem State.setSnr_low (s : State) (n : Fin 8) (m) : Touch LowA s (s.setSnr n m) := by
  unfold State.setSnr
  refine Touch.modPort (Touch.fold _ _ ?_ _)
  intro s x hx
  have hb : x < 4 := (by decide : ∀ f ∈ [0, 1, 2, 3], f < 4) x hx
  exact .wr _ _ _ (by simp only [LowA, Fld.key]; omega)

theorem State.setSnr_trn (s : State) (n k : Fin 8) (m) : (s.setSnr n m).port[k].trn = s.port[k].trn := by
  unfold State.setSnr State.modPort
  simp only [Fin.getElem_fin, Vector.getElem_set]
  split
  · next h => simp only [h]; rfl
  · rfl

theorem State.attemptFail_snr (s : State) (n : Fin 8) (l) (code : Nat) (hc : code < 16) (hl : s.link n = stTRAIN) :
    ((s.setSnr n l).attemptFail n code).rd (F.TRN_STATUS.TRN_FAIL n) = code ∧
      (∀ k, (∀ j < s.port[n].trn.tier, bitB (s.rd (F.PARTNER_INFO.RES_SRATES n)) j = true → j ≤ k) → k < s.port[n].trn.tier →
        bitB (s.rd (F.PARTNER_INFO.RES_SRATES n)) k = true →
        ((s.setSnr n l).attemptFail n code).link n = stTRAIN ∧ ((s.setSnr n l).attemptFail n code).port[n].trn.silence = true ∧ ((s.setSnr n l).attemptFail n code).port[n].trn.tier = k) ∧
      ((∀ j < s.port[n].trn.tier, bitB (s.rd (F.PARTNER_INFO.RES_SRATES n)) j = false) →
        WentDown ((s.setSnr n l).attemptFail n code) n stSENSE rTRAIN_TIMEOUT) := by
  have h := State.attemptFail_facts (s.setSnr n l) n code hc ?_
  · rw [State.setSnr_trn, State.setSnr_low s n l _ (by simp only [LowA, Fld.key]; omega)] at h
    exact h
  · unfold State.link
    rw [State.setSnr_low s n l _ (by simp only [LowA, Fld.key]; omega)]; exact hl

theorem State.enterSync_facts (s : State) (n : Fin 8) (d : Nat) : (s.enterSync n d).phase n = phFRAME_SYNC ∧
    (s.enterSync n d).rd (F.RTX_RTT.CABLE_DLY n) = min 4095 d := by
  unfold State.enterSync
  extract_lets t i s1 w hist s2 s3
  have hh : ∀ (u : State) (g : Fld), g.key / 32 ≠ 0x202004 + 0x100000 * n.val → (u.syncHalves n).rd g = u.rd g := by
    intro u g hg
    simp only [Fld.key] at hg
    unfold State.syncHalves State.syncLimit
    simp (disch := (simp only [Fld.key, ne_eq]; omega)) only [State.rd_wr_other, State.rd_wrB_other, State.rd_modPort]
  constructor
  · unfold State.phase
    rw [hh _ _ (by simp only [Fld.key]; omega), State.syncBound_rd (by simp only [LowA, Fld.key]; omega)]
    exact State.enterPhase_phase _ _ _ (by decide)
  · rw [hh _ _ (by simp only [Fld.key]; omega)]
    unfold State.syncBound
    rw [State.rd_wr_other _ _ (by simp only [Fld.key]; omega), State.enterPhase_off _ (by simp only [Off, Fld.key]; omega)]
    rw [State.rd_wr_same]
    show min 4095 d % 4096 = _
    omega

theorem State.phaseEnd_phQUIET (s : State) (n : Fin 8) (m : PhaseMeas) (h : s.phase n = phQUIET) : s.phaseEnd n m =
    ((s.modPort n fun p => { p with trn := { p.trn with noise := m.noise } }).adaptsAt n (tierRate s.port[n].trn.tier)).enterPhase n
      phECHO_M := by
  unfold State.phaseEnd
  dsimp only
  rw [h, if_pos rfl]

theorem State.phaseEnd_phECHO_M (s : State) (n : Fin 8) (m : PhaseMeas) (h : s.phase n = phECHO_M) : s.phaseEnd n m = if s.master n && decide (-384 < m.residual) then s.attemptFail n 2
    else (if s.master n then s else s.setPga n m).enterPhase n phECHO_S := by
  unfold State.phaseEnd
  dsimp only
  rw [h, if_neg (by decide), if_pos rfl]

theorem State.phaseEnd_phECHO_S (s : State) (n : Fin 8) (m : PhaseMeas) (h : s.phase n = phECHO_S) : s.phaseEnd n m = if !s.master n && decide (-384 < m.residual) then s.attemptFail n 2
    else (if s.master n then s.setPga n m else s).enterPhase n phDUPLEX2 := by
  unfold State.phaseEnd
  dsimp only
  rw [h, if_neg (by decide), if_neg (by decide), if_pos rfl]

theorem State.phaseEnd_phDUPLEX2 (s : State) (n : Fin 8) (m : PhaseMeas) (h : s.phase n = phDUPLEX2) : s.phaseEnd n m = s.enterPhase n phDUPLEX4 := by
  unfold State.phaseEnd
  dsimp only
  rw [h, if_neg (by decide), if_neg (by decide), if_neg (by decide), if_pos rfl]

theorem State.phaseEnd_phDUPLEX4 (s : State) (n : Fin 8) (m : PhaseMeas) (h : s.phase n = phDUPLEX4) : s.phaseEnd n m = if s.supported n m.snr then ((s.setSnr n m).decideRung n m.snr).enterPhase n phINFO else (s.setSnr n m).attemptFail n 3 := by
  unfold State.phaseEnd
  dsimp only
  rw [h, if_neg (by decide), if_neg (by decide), if_neg (by decide), if_neg (by decide), if_pos rfl]

theorem State.phaseEnd_phINFO (s : State) (n : Fin 8) (m : PhaseMeas) (h : s.phase n = phINFO) : s.phaseEnd n m = if s.port[n].trn.info.isSome then s.enterPrecode n else s.attemptFail n 4 := by
  unfold State.phaseEnd
  dsimp only
  rw [h, if_neg (by decide), if_neg (by decide), if_neg (by decide), if_neg (by decide), if_neg (by decide), if_pos rfl]

theorem State.phaseEnd_phPRECODE (s : State) (n : Fin 8) (m : PhaseMeas) (h : s.phase n = phPRECODE) : s.phaseEnd n m = if [0, 1, 2, 3].any (fun x => decide (m.snr.getD x 0 + 24 < s.port[n].trn.snrD4.getD x 0)) then (s.setSnr n m).attemptFail n 5 else (s.setSnr n m).enterSync n m.cableDly := by
  unfold State.phaseEnd
  dsimp only
  rw [h, if_neg (by decide), if_neg (by decide), if_neg (by decide), if_neg (by decide), if_neg (by decide), if_neg (by decide), if_pos rfl]

theorem State.freeze_port (s : State) (n : Fin 8) (p bit v) : (s.freeze n p bit v).port = s.port := by
  unfold State.freeze
  generalize filters.filter p = l
  induction l generalizing s with
  | nil => rfl
  | cons a l ih => rw [List.foldl_cons, ih]; split <;> rfl

theorem State.enterPhase_port (s : State) (n : Fin 8) (ph) : (s.enterPhase n ph).port =
    s.port.set n { s.port[n] with trn := { s.port[n].trn with sends := phaseTx ph (s.master n) (s.spire n) s.port[n].trn } } := by
  unfold State.enterPhase
  dsimp only
  rw [State.freeze_port, State.freeze_port]; rfl

theorem State.setLens_port (s : State) (n : Fin 8) (a b) : (s.setLens n a b).port = s.port := rfl

theorem State.attemptStart_phase (s : State) (n : Fin 8) : (s.attemptStart n).phase n = phQUIET :=
  State.enterPhase_phase _ _ _ (by decide)

theorem State.attemptBegin_silence (s : State) (n : Fin 8) (r d) : (s.attemptBegin n r d).port[n].trn.silence = false := by
  unfold State.attemptBegin
  simp [State.setLens_port, State.modPort]

theorem State.attemptStart_silence (s : State) (n : Fin 8) : (s.attemptStart n).port[n].trn.silence = false := by
  unfold State.attemptStart
  rw [State.enterPhase_port]
  simpa using State.attemptBegin_silence s n _ _

theorem State.enterUp_facts (s : State) (n : Fin 8) (eee : Bool) : ((s.enterUp n eee).syncHalves n).link n = stUP ∧
    ((s.enterUp n eee).syncHalves n).on (F.LINK_EVENT.LINK_UP n) = true ∧
    ((s.enterUp n eee).syncHalves n).rd (F.LINK_COUNT.UP_CNT n) = (s.rd (F.LINK_COUNT.UP_CNT n) + 1) % 2 ^ 16 := by
  have hh : ∀ (u : State) (g : Fld), g.key / 32 ≠ 0x202004 + 0x100000 * n.val → (u.syncHalves n).rd g = u.rd g := by
    intro u g hg
    simp only [Fld.key] at hg
    unfold State.syncHalves State.syncLimit
    simp (disch := (simp only [Fld.key, ne_eq]; omega)) only [State.rd_wr_other, State.rd_wrB_other, State.rd_modPort]
  have he : ∀ g : Fld, ¬ LowT (g.key / 32) → 0xC000 ≤ g.key / 32 → g.key ≠ (F.LINK_EVENT.LINK_UP n).key → ((s.enterUp n eee).syncHalves n).rd g = ((s.setLink n stUP).count (F.LINK_COUNT.UP_CNT n)).rd g := by
    intro g hg hc hk
    have hl : ¬ LowA (g.key / 32) := fun h => hg (lowT_of _ h)
    have ha : g.key / 32 < 0x202000 ∨ 0x203100 ≤ g.key / 32 := by unfold LowT LowA at hg; omega
    rw [hh _ _ (by unfold LowT LowA at hg; omega)]
    unfold State.enterUp
    dsimp only
    rw [State.linkEvent_rd _ _ _ _ hc (Ne.symm hk), State.syncLane_rd hl, State.syncRtx_rd hl, State.memberUp_rd hl, State.rd_modPort, State.resetRtx_rd hl, State.freeze_rd hl, State.enterPhase_rd hg]
    have hk2 : ∀ f : Fld, LowT (f.key / 32) → f.key ≠ g.key := fun f hf e => hg (e ▸ hf)
    rw [State.rd_wr_other _ _ (hk2 _ (by simp only [LowT, LowA, Fld.key]; omega)), State.rd_wrB_other _ _ (hk2 _ (by simp only [LowT, LowA, Fld.key]; omega)), State.rd_wrB_other _ _ (hk2 _ (by simp only [LowT, LowA, Fld.key]; omega)), State.rd_wr_other _ _ (hk2 _ (by simp only [LowT, LowA, Fld.key]; omega))]
  refine ⟨?_, ?_, ?_⟩
  · unfold State.link
    rw [he _ (by simp only [LowT, LowA, Fld.key]; omega) (by simp only [Fld.key]; omega) (by simp only [Fld.key]; omega), State.rd_count_other _ _ (by simp only [Fld.key]; omega)]
    exact State.setLink_link s n stUP (by decide)
  · unfold State.on
    rw [hh _ _ (by simp only [Fld.key]; omega)]
    exact State.linkEvent_on _ _ _ rfl (by simp only [Fld.key]; omega)
  · rw [he _ (by simp only [LowT, LowA, Fld.key]; omega) (by simp only [Fld.key]; omega) (by simp only [Fld.key]; omega), State.rd_count_same, State.setLink_rd _ _ _ _ (by simp only [Fld.key]; omega)]


theorem SameNeg.leaveActive (s : State) (n : Fin 8) : SameNeg s (s.leaveActive n) := by
  unfold State.leaveActive
  extract_lets wasUp s0 s1 s2 s3 s4 s5 s6
  have h0 : SameNeg s s0 := by
    simp only [s0]; split
    · unfold State.holdEnd
      dsimp only
      have hp : ∀ (f v), SameNeg s (s.peak f v) := fun f v => .of _ _ (by unfold State.peak; split <;> rfl)
      have := SameNeg.mp (n := n) (f := fun p => { p with rtx := { p.rtx with holdTotal := s.port[n].rtx.holdTotal + (s.tb - s.port[n].rtx.holdStart) } }) (hp (F.HOLD_STAT.HOLD_LONGEST n) (usUp (s.tb - s.port[n].rtx.holdStart))) (fun _ => rfl)
      exact this.trans (fun _ => rfl)
    · exact fun _ => rfl
  have h1 : SameNeg s s1 := by
    simp only [s1]; split
    · exact h0.trans (.of _ _ (State.dropSide_port _ _))
    · exact h0
  have h2 : SameNeg s s2 := by
    have a : SameNeg s1 (s1.lpiQuietEnd n) := by
      unfold State.lpiQuietEnd; split
      · extract_lets q
        exact (SameNeg.mp (n := n) (f := fun p => { p with lpi := { p.lpi with quietNs := q } }) (fun _ => rfl) (fun _ => rfl)).trans
          (.of _ _ (State.wr_port _ _ _))
      · exact fun _ => rfl
    have b : SameNeg (s1.lpiQuietEnd n) ((s1.lpiQuietEnd n).ladEnd n) := .mp (fun _ => rfl) (fun _ => rfl)
    have c : SameNeg ((s1.lpiQuietEnd n).ladEnd n) s2 := .mp (fun _ => rfl) (fun _ => rfl)
    exact ((h1.trans a).trans b).trans c
  have h4 : SameNeg s s4 := h2.trans (.mp (fun _ => rfl) (fun _ => rfl))
  have h5 : SameNeg s s5 := h4.trans (.of _ _ (by simp only [s5, State.freeze_port]))
  have h6 : SameNeg s s6 := h5.trans (.of _ _ (by rw [State.modLane_port, State.setLens_port]))
  split
  · refine h6.trans (.of _ _ ?_)
    unfold State.lbAbort
    split
    · rfl
    · unfold State.lbResult State.lbCut; dsimp only
      split <;> simp only [State.wrB_port, State.wr_port, State.syncLane_port, State.modSide_port]
  · exact h6

theorem State.linkDown_neg (s : State) (n : Fin 8) (st r : Nat) : (s.linkDown n st r).port[n].neg = { s.port[n].neg with breakSilence := decide (st = stSENSE) } := by
  have h := SameNeg.leaveActive s n n
  unfold State.linkDown
  dsimp only
  rw [State.linkEvent_port, State.syncLane_port, State.syncRtx_port, SameNeg.memberOut]
  simp only [State.modPort, Fin.getElem_fin, Vector.getElem_set_self]
  have e : ((((s.leaveActive n).setLink n st).clearResolved n).wr (F.LINK_STATUS.LAST_DOWN n) r).port = (s.leaveActive n).port := by
    simp only [State.clearResolved, State.setLink, State.wr_port, State.wrB_port]
  rw [e]
  simp only [Fin.getElem_fin] at h
  rw [h]

end Sys2Proof.Machine
end

