-- ==== Sys2Proof/Laws/Adapt.lean ====
section
/-! SUPPORT. Crossbar requests and trims, impulse flags and adaptation freezes (03_line_signal_path.md R85-R93,
04_equalisation_cancellation.md R123). -/

namespace Sys2Proof.Machine

theorem State.lpiTrigger_regs (s : State) (n : Fin 8) : (s.lpiTrigger n).regs = s.regs := by
  unfold State.lpiTrigger; dsimp only; split <;> rfl

theorem State.rd_lpiTrigger (s : State) (n : Fin 8) (g : Fld) : (s.lpiTrigger n).rd g = s.rd g := State.rd_congr g (State.lpiTrigger_regs s n)

theorem State.rd_lpiTrigger_sl (s : State) (n : Fin 8) : (s.lpiTrigger n).port[n].sl = s.port[n].sl := by
  unfold State.lpiTrigger; dsimp only; split
  · simp [State.modPort]
  · rfl

theorem State.guard_low {A} {s t : State} {n : Fin 8} {p} (hA : ∀ a, LowA a → A a) (h : Touch A s t) : Touch A s (t.guard n p) := State.freeze_low hA h

theorem xbEnter_facts (s : State) (n : Fin 8) (st p : Nat) (h : st < 4) (hp : p < 4) :
    (s.xbEnter n st p).rd (F.XB_STATUS.XB_STATE n) = st ∧ (s.xbEnter n st p).rd (F.XB_STATUS.XB_CUR_PAIR n) = (if st = xbIDLE then 0 else p) ∧
    (s.xbEnter n st p).rd (F.XB_STATUS.XB_SWAPS n) = (if st = xbSWAP ∨ st = xbSPARE then (s.rd (F.XB_STATUS.XB_SWAPS n) + 1) % 2 ^ 16 else s.rd (F.XB_STATUS.XB_SWAPS n)) := by
  have key : ∀ g : Fld, ¬ LinkA (g.key / 32) →
      (s.xbEnter n st p).rd g = (let s1 := (s.wr (F.XB_STATUS.XB_STATE n) st).wr (F.XB_STATUS.XB_CUR_PAIR n) (if st = xbIDLE then 0 else p)
        if st == xbSWAP || st == xbSPARE then s1.count (F.XB_STATUS.XB_SWAPS n) else s1).rd g := by
    intro g hg
    unfold State.xbEnter
    extract_lets cur was will
    rw [State.withFlag_rd hg]
    have hl : ¬ LowA (g.key / 32) := fun h => hg (linkA_low _ h)
    dsimp only
    have hi : ∀ (t : State), Touch LowA t (((t.freeze n (fun f => f.1 == 4) frzSLICE (decide (st ≠ xbSHADOW))).iff (st != xbSHADOW) fun s =>
        s.wr (F.EQ_STATUS.SLC_SNR n 4) 0).iff (st == xbSPARE && p == 0) fun s =>
          (s.wrB (F.FLT_SRC_STAT.ACTIVE (portSrc n 0)) false).wrB (F.FLT_SRC_STAT.WIRE (portSrc n 0)) false) := fun t =>
      Touch.iff (Touch.iff (State.freeze_low lowA_id (.refl _)) (.wr _ _ _ (by simp only [LowA, Fld.key]; omega)))
        (Touch.endWrB (.wrB _ _ _ (by simp only [LowA, Fld.key, portSrc]; omega)) (by simp only [LowA, Fld.key, portSrc]; omega))
    refine (Touch.ite (State.guard_low lowA_id (Touch.trans ?_ (hi _))) (Touch.trans ?_ (hi _)) : Touch LowA _ _) g hl
    · exact Touch.modPort (.refl _)
    · exact Touch.modPort (.refl _)
  refine ⟨?_, ?_, ?_⟩
  · rw [key _ (by simp only [LinkA, LowT, LowA, Fld.key]; omega)]
    dsimp only
    split
    · rw [State.rd_count_other _ _ (by simp only [Fld.key]; omega), State.rd_wr_other _ _ (by simp only [Fld.key]; omega), State.rd_wr_same]
      exact Nat.mod_eq_of_lt (show st < 8 by omega)
    · rw [State.rd_wr_other _ _ (by simp only [Fld.key]; omega), State.rd_wr_same]
      exact Nat.mod_eq_of_lt (show st < 8 by omega)
  · rw [key _ (by simp only [LinkA, LowT, LowA, Fld.key]; omega)]
    have hb : (if st = xbIDLE then 0 else p) < 4 := by split <;> omega
    dsimp only
    split
    · rw [State.rd_count_other _ _ (by simp only [Fld.key]; omega), State.rd_wr_same]
      exact Nat.mod_eq_of_lt hb
    · rw [State.rd_wr_same]
      exact Nat.mod_eq_of_lt hb
  · rw [key _ (by simp only [LinkA, LowT, LowA, Fld.key]; omega)]
    dsimp only
    by_cases hc : st = xbSWAP ∨ st = xbSPARE
    · rw [if_pos (by simpa using hc), if_pos hc, State.rd_count_same, State.rd_wr_other _ _ (by simp only [Fld.key]; omega), State.rd_wr_other _ _ (by simp only [Fld.key]; omega)]
    · rw [if_neg (by simpa using hc), if_neg hc, State.rd_wr_other _ _ (by simp only [Fld.key]; omega), State.rd_wr_other _ _ (by simp only [Fld.key]; omega)]

theorem xbDone_facts (s : State) (n : Fin 8) (st p : Nat) (h : st < 4) (hp : p < 4) :
    (s.xbDone n st p).rd (F.XB_STATUS.XB_STATE n) = st ∧ (s.xbDone n st p).rd (F.XB_STATUS.XB_CUR_PAIR n) = (if st = xbIDLE then 0 else p) ∧
    (s.xbDone n st p).rd (F.XB_STATUS.XB_RESULT n) = 1 ∧ (s.xbDone n st p).on (F.XB_STATUS.XB_BUSY n) = false ∧
    (s.xbDone n st p).port[n].sl.xbPend = none ∧
    (s.xbDone n st p).rd (F.XB_STATUS.XB_SWAPS n) = (if st = xbSWAP ∨ st = xbSPARE then (s.rd (F.XB_STATUS.XB_SWAPS n) + 1) % 2 ^ 16 else s.rd (F.XB_STATUS.XB_SWAPS n)) := by
  obtain ⟨h1, h2, h3⟩ := xbEnter_facts s n st p h hp
  unfold State.xbDone State.on
  refine ⟨?_, ?_, ?_, ?_, ?_, ?_⟩
  · rw [State.rd_modPort, State.rd_wr_other _ _ (by simp only [Fld.key]; omega), State.rd_wrB_other _ _ (by simp only [Fld.key]; omega), h1]
  · rw [State.rd_modPort, State.rd_wr_other _ _ (by simp only [Fld.key]; omega), State.rd_wrB_other _ _ (by simp only [Fld.key]; omega), h2]
  · rw [State.rd_modPort, State.rd_wr_same]; rfl
  · rw [State.rd_modPort, State.rd_wr_other _ _ (by simp only [Fld.key]; omega), State.rd_wrB_same]; rfl
  · simp [State.modPort]
  · rw [State.rd_modPort, State.rd_wr_other _ _ (by simp only [Fld.key]; omega), State.rd_wrB_other _ _ (by simp only [Fld.key]; omega), h3]
/-- XB_CTRL written -/

def xbw (s : State) (n : Fin 8) (req p : Nat) : State := (s.wr (F.XB_CTRL.XB_REQ n) req).wr (F.XB_CTRL.XB_PAIR n) p

theorem xbw_rd (s : State) (n : Fin 8) (req p : Nat) (g : Fld) (h : g.key / 32 ≠ 0x20a400 + 0x100000 * n.val) : (xbw s n req p).rd g = s.rd g := by
  simp only [Fld.key] at h
  unfold xbw
  rw [State.rd_wr_other _ _ (by simp only [Fld.key]; omega), State.rd_wr_other _ _ (by simp only [Fld.key]; omega)]

theorem xbDone_port_facts (s : State) (n : Fin 8) (req p st' p' : Nat) (h : st' < 4) (hp : p' < 4) (t : State) (ht : t = ((xbw s n req p).xbDone n st' p').lpiTrigger n) :
    t.rd (F.XB_STATUS.XB_STATE n) = st' ∧ t.rd (F.XB_STATUS.XB_CUR_PAIR n) = (if st' = xbIDLE then 0 else p') ∧ t.rd (F.XB_STATUS.XB_RESULT n) = 1 ∧
        t.on (F.XB_STATUS.XB_BUSY n) = false ∧ t.port[n].sl.xbPend = none ∧ t.rd (F.XB_STATUS.XB_SWAPS n) = (if st' = xbSWAP ∨ st' = xbSPARE then (s.rd (F.XB_STATUS.XB_SWAPS n) + 1) % 2 ^ 16 else s.rd (F.XB_STATUS.XB_SWAPS n)) := by
  subst ht
  have hf := xbDone_facts (xbw s n req p) n st' p' h hp
  rw [xbw_rd _ _ _ _ _ (by simp only [Fld.key]; omega)] at hf
  unfold State.on at *
  simp only [State.rd_lpiTrigger, State.rd_lpiTrigger_sl]
  exact hf

theorem rff (s : State) (n : Fin 8) (req : Nat) (p : Fin 4) : ((xbw s n req p).xbRefuse n).rd (F.XB_STATUS.XB_STATE n) = s.rd (F.XB_STATUS.XB_STATE n) ∧
    ((xbw s n req p).xbRefuse n).rd (F.XB_STATUS.XB_CUR_PAIR n) = s.rd (F.XB_STATUS.XB_CUR_PAIR n) ∧ ((xbw s n req p).xbRefuse n).rd (F.XB_STATUS.XB_RESULT n) = 2 ∧
    ((xbw s n req p).xbRefuse n).on (F.XB_STATUS.XB_BUSY n) = s.on (F.XB_STATUS.XB_BUSY n) := by
  unfold State.xbRefuse State.on
  refine ⟨?_, ?_, ?_, ?_⟩
  · rw [State.rd_wr_other _ _ (by simp only [Fld.key]; omega), xbw_rd _ _ _ _ _ (by simp only [Fld.key]; omega)]
  · rw [State.rd_wr_other _ _ (by simp only [Fld.key]; omega), xbw_rd _ _ _ _ _ (by simp only [Fld.key]; omega)]
  · rw [State.rd_wr_same]; rfl
  · rw [State.rd_wr_other _ _ (by simp only [Fld.key]; omega), xbw_rd _ _ _ _ _ (by simp only [Fld.key]; omega)]

theorem swf (s : State) (n : Fin 8) (req : Nat) (p : Fin 4) (st' : Nat) (w : XbPend) (h4 : st' < 4) (h0 : st' ≠ xbIDLE) :
    let t := ((xbw s n req p).xbSwitch n st' p w).lpiTrigger n
    (s.link n ≠ stUP ∧ s.link n ≠ stHOLD → t.rd (F.XB_STATUS.XB_STATE n) = st' ∧ t.rd (F.XB_STATUS.XB_CUR_PAIR n) = p ∧ t.rd (F.XB_STATUS.XB_RESULT n) = 1 ∧
        t.on (F.XB_STATUS.XB_BUSY n) = false ∧ t.port[n].sl.xbPend = none ∧ t.rd (F.XB_STATUS.XB_SWAPS n) = (if st' = xbSWAP ∨ st' = xbSPARE then (s.rd (F.XB_STATUS.XB_SWAPS n) + 1) % 2 ^ 16 else s.rd (F.XB_STATUS.XB_SWAPS n))) ∧
    (s.link n = stHOLD ∨ (s.link n = stUP ∧ s.rd (F.LINK_STATUS.MODE n) ≠ 1 ∧ s.rd (F.LINK_STATUS.MODE n) ≠ 2) →
      t.rd (F.XB_STATUS.XB_STATE n) = s.rd (F.XB_STATUS.XB_STATE n) ∧ t.rd (F.XB_STATUS.XB_CUR_PAIR n) = s.rd (F.XB_STATUS.XB_CUR_PAIR n) ∧ t.on (F.XB_STATUS.XB_BUSY n) = true ∧
        t.port[n].sl.xbPend = some w) ∧
    (s.link n = stUP → s.rd (F.LINK_STATUS.MODE n) = 1 ∨ s.rd (F.LINK_STATUS.MODE n) = 2 → t.rd (F.XB_STATUS.XB_STATE n) = s.rd (F.XB_STATUS.XB_STATE n) ∧ t.rd (F.XB_STATUS.XB_CUR_PAIR n) = s.rd (F.XB_STATUS.XB_CUR_PAIR n) ∧ t.rd (F.XB_STATUS.XB_RESULT n) = 2 ∧
        t.on (F.XB_STATUS.XB_BUSY n) = s.on (F.XB_STATUS.XB_BUSY n)) := by
  have hlk : (xbw s n req p).link n = s.link n := xbw_rd _ _ _ _ _ (by simp only [Fld.key]; omega)
  have hmd : (xbw s n req p).rd (F.LINK_STATUS.MODE n) = s.rd (F.LINK_STATUS.MODE n) := xbw_rd _ _ _ _ _ (by simp only [Fld.key]; omega)
  intro t
  have hx : t = (if s.link n = stUP ∧ (s.rd (F.LINK_STATUS.MODE n) = 1 ∨ s.rd (F.LINK_STATUS.MODE n) = 2) then (xbw s n req p).xbRefuse n
    else if s.link n = stUP ∨ s.link n = stHOLD then
      ((xbw s n req p).wrB (F.XB_STATUS.XB_BUSY n) true).modPort n fun q => { q with sl := { q.sl with xbPend := some w } }
    else (xbw s n req p).xbDone n st' p).lpiTrigger n := by
    simp only [t]; unfold State.xbSwitch; dsimp only; rw [hlk, hmd]
  refine ⟨?_, ?_, ?_⟩
  · rintro ⟨h1, h2⟩
    have hf := xbDone_port_facts s n req p st' p h4 p.isLt t (by rw [hx, if_neg (fun h => h1 h.1), if_neg (by simp [h1, h2])])
    rw [if_neg h0] at hf
    exact hf
  · intro h
    have e : t = (((xbw s n req p).wrB (F.XB_STATUS.XB_BUSY n) true).modPort n fun q => { q with sl := { q.sl with xbPend := some w } }).lpiTrigger n := by
      rw [hx]
      rcases h with h | ⟨h, h', h''⟩
      · rw [if_neg (by rw [h]; rintro ⟨a, _⟩; exact absurd a (by decide)), if_pos (.inr h)]
      · rw [if_neg (by rintro ⟨_, a | a⟩ <;> contradiction), if_pos (.inl h)]
    rw [e]
    unfold State.on
    simp only [State.rd_lpiTrigger, State.rd_lpiTrigger_sl]
    refine ⟨?_, ?_, ?_, ?_⟩
    · rw [State.rd_modPort, State.rd_wrB_other _ _ (by simp only [Fld.key]; omega), xbw_rd _ _ _ _ _ (by simp only [Fld.key]; omega)]
    · rw [State.rd_modPort, State.rd_wrB_other _ _ (by simp only [Fld.key]; omega), xbw_rd _ _ _ _ _ (by simp only [Fld.key]; omega)]
    · rw [State.rd_modPort, State.rd_wrB_same]; rfl
    · simp [State.modPort]
  · intro h h'
    rw [hx, if_pos ⟨h, h'⟩]
    have := rff s n req p
    unfold State.on at *
    simp only [State.rd_lpiTrigger]
    exact this

/-- No number stands twice in a list. -/
def distinct : List Nat → Bool
  | [] => true
  | a :: l => l.all (fun b => !Nat.beq a b) && distinct l

theorem nodup_of_distinct : ∀ {l : List Nat}, distinct l = true → l.Nodup
  | [], _ => .nil
  | a :: l, h => by
    simp only [distinct, Bool.and_eq_true, List.all_eq_true] at h
    refine List.nodup_cons.2 ⟨fun hm => ?_, nodup_of_distinct h.2⟩
    have := h.1 a hm
    rw [Nat.beq_refl] at this
    cases this

/-- The trims' keys of slice `x` of port `n` are those of slice A of port 0, shifted. -/
theorem trimKeys (n x : Nat) : (trimFields n x).map Fld.key =
    ((trimFields 0 0).map Fld.key).map (· + (0x100000 * n + 0x800 * x) * 32) := by
  unfold trimFields
  rw [List.map_append, List.map_append, List.map_append, List.map_flatMap, List.map_flatMap, List.map_flatMap]
  refine congr (congrArg _ ?_) (congrArg (List.flatMap · _) (funext fun k => ?_)) <;>
    (simp only [List.map_cons, List.map_nil, Fld.key, List.cons.injEq, and_true]; omega)

theorem trimNodup (n x : Nat) : ((trimFields n x).map Fld.key).Nodup := by
  have h : ((trimFields 0 0).map Fld.key).Nodup := nodup_of_distinct (by decide +kernel)
  rw [trimKeys]
  exact List.Pairwise.map _ (fun a b h e => h (Nat.add_right_cancel e)) h
theorem trimF : ∀ (n : Fin 8) (x : Fin 5), ∀ f ∈ trimFields n x, 0x208000 ≤ f.addr ∧ f.addr < 0xA00000 ∧ f.addr % 0x100000 < 0xB000 ∧ 0x8000 ≤ f.addr % 0x100000 ∧ f.lo < 32 ∧ f.key ≠ (F.SLICE_CTRL.TRIM_PEND n x).key := by decide +kernel

theorem fold_hidden (l : List Fld) (hn : (l.map Fld.key).Nodup) (hb : ∀ f ∈ l, f.addr < 0xA00000 ∧ f.lo < 32) : ∀ (s : State), ∀ f ∈ l,
    (l.foldl (fun s f => s.wr f.hidden (s.rd f)) s).rd f.hidden = s.rd f % 2 ^ f.width ∧ (l.foldl (fun s f => s.wr f.hidden (s.rd f)) s).rd f = s.rd f := by
  have hne : ∀ f ∈ l, ∀ g ∈ l, f.hidden.key ≠ g.key := by
    intro f hf g hg
    have := hb f hf; have := hb g hg
    simp only [Fld.key, Fld.hidden]; omega
  have hot : ∀ (m : List Fld) (g : Fld), (∀ f ∈ m, f.hidden.key ≠ g.key) → ∀ s : State, (m.foldl (fun s f => s.wr f.hidden (s.rd f)) s).rd g = s.rd g := by
    intro m g
    induction m with
    | nil => intros; rfl
    | cons a m ih =>
      intro h s
      rw [List.foldl_cons, ih (fun f hf => h f (List.mem_cons_of_mem _ hf)), State.rd_wr_other _ _ (h a List.mem_cons_self)]
  induction l with
  | nil => intro s f hf; simp at hf
  | cons a l ih =>
    intro s f hf
    simp only [List.map_cons, List.nodup_cons] at hn
    have ha : ∀ g ∈ l, a.key ≠ g.key := fun g hg e => hn.1 (e ▸ List.mem_map_of_mem hg)
    rw [List.foldl_cons]
    rcases List.mem_cons.1 hf with rfl | hm
    · constructor
      · rw [hot l f.hidden]
        · exact State.rd_wr_same _ _ _
        · intro g hg
          have := ha g hg
          simp only [Fld.key, Fld.hidden] at this ⊢; omega
      · rw [hot l f (fun g hg => hne g (List.mem_cons_of_mem _ hg) f List.mem_cons_self), State.rd_wr_other _ _ (hne f List.mem_cons_self f List.mem_cons_self)]
    · have hi := ih hn.2 (fun g hg => hb g (List.mem_cons_of_mem _ hg)) (fun f hf g hg => hne f (List.mem_cons_of_mem _ hf) g (List.mem_cons_of_mem _ hg)) (s.wr a.hidden (s.rd a)) f hm
      rw [State.rd_wr_other _ _ (hne a List.mem_cons_self f hf)] at hi
      exact hi


def frzUpd (c bit : Nat) (v : Bool) : Nat := if bitB c bit = v then c else if v then c + 2 ^ bit else c - 2 ^ bit

theorem freeze_fold (n : Fin 8) (bit : Nat) (v : Bool) (l : List (Nat × Nat)) (hb : ∀ f ∈ l, f.1 < 5 ∧ f.2 < 5) (hn : l.Nodup) : ∀ (s : State) (f : Nat × Nat), f.1 < 5 → f.2 < 5 →
    (l.foldl (fun s f =>
    if s.domOn (filterDom n.val f) then
      let fld := F.ADAPT.FRZ_CAUSE n f.1 f.2
      let c := s.rd fld
      s.wr fld (if bitB c bit = v then c else if v then c + 2 ^ bit else c - 2 ^ bit)
    else s) s).rd (F.ADAPT.FRZ_CAUSE n f.1 f.2) = if f ∈ l ∧ s.domOn (filterDom n.val f) = true then frzUpd (s.rd (F.ADAPT.FRZ_CAUSE n f.1 f.2)) bit v % 256 else s.rd (F.ADAPT.FRZ_CAUSE n f.1 f.2) := by
  induction l with
  | nil => intro s f _ _; simp
  | cons a l ih =>
    intro s f hf1 hf2
    have ha := hb a List.mem_cons_self
    have hnn := List.nodup_cons.1 hn
    rw [List.foldl_cons, ih (fun f hf => hb f (List.mem_cons_of_mem _ hf)) hnn.2 _ f hf1 hf2]
    dsimp only
    generalize hT : (if s.domOn (filterDom n.val a) = true then
      s.wr (F.ADAPT.FRZ_CAUSE n a.1 a.2) (if bitB (s.rd (F.ADAPT.FRZ_CAUSE n a.1 a.2)) bit = v then s.rd (F.ADAPT.FRZ_CAUSE n a.1 a.2) else if v = true then s.rd (F.ADAPT.FRZ_CAUSE n a.1 a.2) + 2 ^ bit else s.rd (F.ADAPT.FRZ_CAUSE n a.1 a.2) - 2 ^ bit)
      else s) = T
    have hd : T.domOn (filterDom n.val f) = s.domOn (filterDom n.val f) := by
      rw [← hT]
      split
      · unfold State.domOn
        rw [State.rd_wr_other]
        have : filterDom n.val f < 200 := by unfold filterDom; split <;> omega
        simp only [Fld.key]; omega
      · rfl
    have hr : T.rd (F.ADAPT.FRZ_CAUSE n f.1 f.2) = if f = a ∧ s.domOn (filterDom n.val f) = true then frzUpd (s.rd (F.ADAPT.FRZ_CAUSE n f.1 f.2)) bit v % 256 else s.rd (F.ADAPT.FRZ_CAUSE n f.1 f.2) := by
      rw [← hT]
      by_cases e : f = a
      · subst e
        by_cases hdom : s.domOn (filterDom n.val f) = true
        · rw [if_pos hdom, State.rd_wr_same]
          have e : (f = f ∧ s.domOn (filterDom n.val f) = true) := ⟨rfl, hdom⟩
          rw [if_pos e]; rfl
        · have e : ¬ (f = f ∧ s.domOn (filterDom n.val f) = true) := fun h => hdom h.2
          rw [if_neg hdom, if_neg e]
      · have e' : ¬ (f = a ∧ s.domOn (filterDom n.val f) = true) := fun h => e h.1
        rw [if_neg e']
        split
        · refine State.rd_wr_other _ _ ?_
          simp only [Fld.key]
          intro h
          apply e
          have h1 : f.1 = a.1 := by omega
          have h2 : f.2 = a.2 := by omega
          exact Prod.ext h1 h2
        · rfl
    rw [hr, hd]
    by_cases e : f = a
    · subst e
      by_cases hdom : s.domOn (filterDom n.val f) = true
      · simp [hnn.1, hdom]
      · simp [hdom]
    · simp [e]

theorem State.freeze_cause (s : State) (n : Fin 8) (p : Nat × Nat → Bool) (bit : Nat) (v : Bool) (f : Nat × Nat) (hf : f ∈ filters) :
    (s.freeze n p bit v).rd (F.ADAPT.FRZ_CAUSE n f.1 f.2) = if p f = true ∧ s.domOn (filterDom n.val f) = true then frzUpd (s.rd (F.ADAPT.FRZ_CAUSE n f.1 f.2)) bit v % 256
      else s.rd (F.ADAPT.FRZ_CAUSE n f.1 f.2) := by
  have hb : ∀ f ∈ filters, f.1 < 5 ∧ f.2 < 5 := by decide
  have hn : filters.Nodup := by decide
  unfold State.freeze
  rw [freeze_fold n bit v _ (fun f hf => hb f (List.mem_filter.1 hf).1) (hn.filter _) s f (hb f hf).1 (hb f hf).2]
  simp [List.mem_filter, hf]

theorem freed_of (s : State) (n : Fin 8) (p : Nat × Nat → Bool) (bit : Nat) : ∀ f ∈ filters,
      (s.freeze n p bit false).rd (F.ADAPT.FRZ_CAUSE n f.1 f.2) % 2 ^ 8 = (if p f && s.domOn (filterDom n f) && bitB (s.rd (F.ADAPT.FRZ_CAUSE n f.1 f.2)) bit then s.rd (F.ADAPT.FRZ_CAUSE n f.1 f.2) - 2 ^ bit
        else s.rd (F.ADAPT.FRZ_CAUSE n f.1 f.2)) % 2 ^ 8 := by
  intro f hf
  rw [State.freeze_cause _ _ _ _ _ _ hf]
  by_cases h : p f = true ∧ s.domOn (filterDom n.val f) = true
  · rw [if_pos h, h.1, h.2]
    unfold frzUpd
    by_cases hb : bitB (s.rd (F.ADAPT.FRZ_CAUSE n f.1 f.2)) bit = true
    · simp [hb]
    · simp [hb]
  · rw [if_neg h]
    have : (p f && s.domOn (filterDom n f)) = false := by
      by_contra hc; simp at hc; exact h hc
    rw [this]; simp

theorem peak_rd (s : State) (f : Fld) (v : Nat) : (s.peak f v).rd f = if s.rd f < v then (if v < 2 ^ f.width then v else 2 ^ f.width - 1) else s.rd f := by
  unfold State.peak
  split
  · rw [State.rd_wr_same]
    split
    · exact Nat.mod_eq_of_lt ‹_›
    · exact Nat.mod_eq_of_lt (Nat.sub_lt (Nat.two_pow_pos _) (by decide))
  · rfl

theorem impClr_facts (s : State) (n : Fin 8) (x : Fin 5) (h : s.on (F.IMP_STATUS.IMP_FLAG n x) = true) :
    (s.impClr n x).on (F.IMP_STATUS.IMP_FLAG n x) = false ∧
    (s.impClr n x).rd (F.IMP_STATUS.IMP_LONGEST n x) = (if s.rd (F.IMP_STATUS.IMP_LONGEST n x) < usUp (s.tb - s.port[n].sl.impStart.getD x 0) then min (usUp (s.tb - s.port[n].sl.impStart.getD x 0)) 65535 else s.rd (F.IMP_STATUS.IMP_LONGEST n x)) ∧
    (s.impClr n x).rd (F.IMP_CTRL.IMP_EN n x) = s.rd (F.IMP_CTRL.IMP_EN n x) := by
  unfold State.impClr State.on
  unfold State.on at h
  rw [if_pos h]
  refine ⟨?_, ?_, ?_⟩
  · rw [State.withFlag_rd (by simp only [LinkA, LowT, LowA, Fld.key]; omega), State.rd_wrB_same]; rfl
  · rw [State.withFlag_rd (by simp only [LinkA, LowT, LowA, Fld.key]; omega), State.rd_wrB_other _ _ (by simp only [Fld.key]; omega), peak_rd]
    split
    · show (if _ < 2 ^ 16 then _ else 2 ^ 16 - 1) = _
      split <;> omega
    · rfl
  · rw [State.withFlag_rd (by simp only [LinkA, LowT, LowA, Fld.key]; omega), State.rd_wrB_other _ _ (by simp only [Fld.key]; omega)]
    unfold State.peak; split
    · exact State.rd_wr_other _ _ (by simp only [Fld.key]; omega)
    · rfl

theorem fmem (s : State) (n : Fin 8) (x : Fin 5) (a) (h : s.on (F.IMP_STATUS.IMP_FLAG n x) = true) : (s.wrB (F.IMP_CTRL.IMP_EN n x) a).on (F.IMP_STATUS.IMP_FLAG n x) = true := by
  unfold State.on at *
  rw [State.rd_wrB_other _ _ (by simp only [Fld.key]; omega)]; exact h

theorem State.freeze_hang (s : State) (n : Fin 8) (p bit v) (g : Port → Port) : ((s.freeze n p bit v).modPort n g).port[n] = g s.port[n] := by
  have : (s.freeze n p bit v).port = s.port := by
    unfold State.freeze
    generalize filters.filter p = l
    induction l generalizing s with
    | nil => rfl
    | cons a l ih => rw [List.foldl_cons, ih]; split <;> rfl
  simp [State.modPort, this]

end Sys2Proof.Machine
end

