-- ==== Sys2Proof/Laws/Received.lean ====
section
/-! SUPPORT. What a decoded frame and its hand-off touch (05_spire_framing_ldpc.md R155-R163, 07_retransmission_spill.md
R210-R216). -/

namespace Sys2Proof.Machine

theorem freeze_rd' (s : State) (n : Fin 8) (p bit v) (g : Fld) (h : g.key / 32 % 0x100000 < 0xC000 ∨ 0xC800 ≤ g.key / 32 % 0x100000) : (s.freeze n p bit v).rd g = s.rd g := by
  have : Touch (fun a => 0xC000 ≤ a % 0x100000 ∧ a % 0x100000 < 0xC800) s (s.freeze n p bit v) := by
    unfold State.freeze
    refine Touch.fold _ _ ?_ _
    intro s f hf
    have hb : ∀ f ∈ filters, f.1 < 5 ∧ f.2 < 5 := by decide
    have := hb f (List.mem_filter.1 hf).1
    refine Touch.ite (.wr _ _ _ ?_) (.refl _)
    simp only [Fld.key]; omega
  exact this g (by omega)

theorem halfUp (u : State) (n : Fin 8) : (u.syncHalves n).on (F.FRM_STATUS.HALF0_UP n) = u.halfIn n 0 ∧ (u.syncHalves n).on (F.FRM_STATUS.HALF1_UP n) = u.halfIn n 1 := by
  unfold State.syncHalves State.syncLimit State.on
  constructor
  · rw [State.rd_wr_other _ _ (by simp only [Fld.key]; omega), State.rd_modPort, State.rd_wrB_other _ _ (by simp only [Fld.key]; omega), State.rd_wrB_same]
    cases u.halfIn n 0 <;> rfl
  · rw [State.rd_wr_other _ _ (by simp only [Fld.key]; omega), State.rd_modPort, State.rd_wrB_same]
    cases u.halfIn n 1 <;> rfl

theorem syncHalves_rd (u : State) (n : Fin 8) (g : Fld) (h : g.key ≠ (F.FRM_STATUS.HALF0_UP n).key ∧ g.key ≠ (F.FRM_STATUS.HALF1_UP n).key ∧ g.key ≠ (F.FRM_STATUS.ITER_LIMIT n).key) : (u.syncHalves n).rd g = u.rd g := by
  unfold State.syncHalves State.syncLimit
  rw [State.rd_wr_other _ _ (Ne.symm h.2.2), State.rd_modPort, State.rd_wrB_other _ _ (Ne.symm h.2.1), State.rd_wrB_other _ _ (Ne.symm h.1)]

theorem halfIn_eq (u : State) (n : Fin 8) (k : Fin 2) (sel : Nat) (hs : u.port[n].fr.halfSel = sel) : u.halfIn n k = (u.halfOk n k && (sel != 2 - k.val || !u.halfOk n (1 - k.val))) := by
  unfold State.halfIn State.halfChosen
  rw [hs]
  have : sel = 0 ∨ sel = 1 ∨ sel = 2 ∨ sel = 3 ∨ 4 ≤ sel := by omega
  rcases this with e | e | e | e | e
  · subst e; fin_cases k <;> cases u.halfOk n 0 <;> cases u.halfOk n 1 <;> rfl
  · subst e; fin_cases k <;> cases u.halfOk n 0 <;> cases u.halfOk n 1 <;> rfl
  · subst e; fin_cases k <;> cases u.halfOk n 0 <;> cases u.halfOk n 1 <;> rfl
  · subst e; fin_cases k <;> cases u.halfOk n 0 <;> cases u.halfOk n 1 <;> rfl
  · have h0 : halfSelected sel 0 = false := by unfold halfSelected; simp; omega
    have h1 : halfSelected sel 1 = false := by unfold halfSelected; simp; omega
    have h2 : (sel != 2) = true := by simp; omega
    have h3 : (sel != 1) = true := by simp; omega
    dsimp only
    rw [h0, h1]
    fin_cases k
    · simp [h0, h2]
    · simp [h1, h3]

theorem decodedOne_rd (s : State) (n : Fin 8) (g : Fld) (h : g.key / 32 % 0x100000 < 0xC000 ∨ 0xC800 ≤ g.key / 32 % 0x100000) : (s.decodedOne n).rd g = s.rd g := by
  unfold State.decodedOne
  generalize s.port[n].eq.decGood + 1 = k
  dsimp only
  split
  · rw [freeze_rd' _ _ _ _ _ _ h, State.rd_modPort]
  · rw [State.rd_modPort]

theorem decodedOne_fr (s : State) (n : Fin 8) : (s.decodedOne n).port[n].fr = s.port[n].fr := by
  unfold State.decodedOne
  generalize s.port[n].eq.decGood + 1 = k
  dsimp only
  split
  · simp only [State.freeze_port]; simp [State.modPort]
  · simp [State.modPort]

theorem failReport_fr (s : State) (n : Fin 8) (d c) : (s.failReport n d c).port[n].fr = s.port[n].fr := by
  unfold State.failReport
  dsimp only
  split
  · simp only [State.freeze_port]; split <;> split <;> simp [State.modPort, State.count]
  · split <;> split <;> simp [State.modPort, State.count]

theorem failReport_rd (s : State) (n : Fin 8) (d c) (g : Fld) (h : g.key / 32 % 0x100000 < 0xC000 ∨ 0xC800 ≤ g.key / 32 % 0x100000)
    (h1 : g.key ≠ (F.FRM_CRC_FAIL.CRC_FAIL n).key) (h2 : g.key ≠ (F.FRM_DEC_FAIL.DEC_FAIL n).key) (h3 : ∀ k, k < 2 → g.key ≠ (F.DEC_STAT.H_FAIL n k).key) : (s.failReport n d c).rd g = s.rd g := by
  unfold State.failReport
  dsimp only
  have e : ∀ v : State, (v.modPort n fun p => { p with
    eq := { p.eq with decGood := 0 }, lad := { p.lad with cleanFails := p.lad.cleanFails + b2n c } }).rd g = v.rd g := fun _ => rfl
  have e1 : (if d.crc = true then s.count (F.FRM_CRC_FAIL.CRC_FAIL n) else s.count (F.FRM_DEC_FAIL.DEC_FAIL n)).rd g = s.rd g := by
    split
    · exact State.rd_count_other _ _ h1.symm
    · exact State.rd_count_other _ _ h2.symm
  have e2 : (if d.half < 2 ∧ s.domOn (14 * n.val + 7 + d.half) = true then (if d.crc = true then s.count (F.FRM_CRC_FAIL.CRC_FAIL n) else s.count (F.FRM_DEC_FAIL.DEC_FAIL n)).count (F.DEC_STAT.H_FAIL n d.half)
      else if d.crc = true then s.count (F.FRM_CRC_FAIL.CRC_FAIL n) else s.count (F.FRM_DEC_FAIL.DEC_FAIL n)).rd g = s.rd g := by
    split
    · rw [State.rd_count_other _ _ (h3 _ (‹_ ∧ _› : _).1).symm]; exact e1
    · exact e1
  split
  · rw [freeze_rd' _ _ _ _ _ _ h, e]; exact e2
  · rw [e]; exact e2

theorem failReport_count (s : State) (n : Fin 8) (d c) : (s.failReport n d c).rd (if d.crc then F.FRM_CRC_FAIL.CRC_FAIL n else F.FRM_DEC_FAIL.DEC_FAIL n) = (s.rd (if d.crc then F.FRM_CRC_FAIL.CRC_FAIL n else F.FRM_DEC_FAIL.DEC_FAIL n) + 1) % 2 ^ 32 ∧
    (d.half < 2 → s.domOn (14 * n.val + 7 + d.half) = true → (s.failReport n d c).rd (F.DEC_STAT.H_FAIL n d.half) = (s.rd (F.DEC_STAT.H_FAIL n d.half) + 1) % 2 ^ 16) := by
  unfold State.failReport
  dsimp only
  have e : ∀ (g : Fld) (v : State), (v.modPort n fun p => { p with
    eq := { p.eq with decGood := 0 }, lad := { p.lad with cleanFails := p.lad.cleanFails + b2n c } }).rd g = v.rd g := fun _ _ => rfl
  have pull : ∀ g : Fld, (g.key / 32 % 0x100000 < 0xC000 ∨ 0xC800 ≤ g.key / 32 % 0x100000) → ∀ (b : Bool) (v : State), (if b = true then v.freeze n isDD frzDECODE true else v).rd g = v.rd g := by
    intro g h b v; split
    · exact freeze_rd' _ _ _ _ _ _ h
    · rfl
  constructor
  · by_cases hc : d.crc = true
    · simp only [hc, if_true]
      rw [pull _ (by simp only [Fld.key]; omega), e]
      split
      · rw [State.rd_count_other _ _ (by simp only [Fld.key]; omega), State.rd_count_same]
      · rw [State.rd_count_same]
    · have hc' : d.crc = false := by simpa using hc
      simp only [hc', Bool.false_eq_true, if_false]
      rw [pull _ (by simp only [Fld.key]; omega), e]
      split
      · rw [State.rd_count_other _ _ (by simp only [Fld.key]; omega), State.rd_count_same]
      · rw [State.rd_count_same]
  · intro h1 h2
    rw [pull _ (by simp only [Fld.key]; omega), e, if_pos ⟨h1, h2⟩, State.rd_count_same]
    split
    · rw [State.rd_count_other _ _ (by simp only [Fld.key]; omega)]
    · rw [State.rd_count_other _ _ (by simp only [Fld.key]; omega)]

/-- Where handing a frame off writes. -/

def FrameA (a : Nat) : Prop :=
  (0x200000 ≤ a ∧ ((0x2000 ≤ a % 0x100000 ∧ a % 0x100000 < 0x4000) ∨ (0x18000 ≤ a % 0x100000 ∧ a % 0x100000 < 0x19000))) ∨
    (0x80000 ≤ a ∧ a < 0x90000)
/-- `u` is `s` for the receive state of port `n`'s retransmission, its framer, the host sides, and all but those registers. -/
structure HG (n : Fin 8) (s u : State) : Prop where
  exp : u.port[n].rtx.expect = s.port[n].rtx.expect
  gap : u.port[n].rtx.gap = s.port[n].rtx.gap
  fails : u.port[n].rtx.fails = s.port[n].rtx.fails
  fr : u.port[n].fr = s.port[n].fr
  side : u.side = s.side
  touch : Touch FrameA s u
  cnt : u.rd (F.RTX_DUP.RX_DUP n) = s.rd (F.RTX_DUP.RX_DUP n) ∧ u.rd (F.RTX_RX_CNT.RX_AHEAD n) = s.rd (F.RTX_RX_CNT.RX_AHEAD n) ∧
    u.rd (F.HL_CNT_EG.EG_BACKOFF n) = s.rd (F.HL_CNT_EG.EG_BACKOFF n)

theorem HG.refl (n) (s : State) : HG n s s := ⟨rfl, rfl, rfl, rfl, rfl, .refl _, rfl, rfl, rfl⟩

theorem HG.trans {n} {s t u : State} (a : HG n s t) (b : HG n t u) : HG n s u :=
  ⟨b.exp.trans a.exp, b.gap.trans a.gap, b.fails.trans a.fails, b.fr.trans a.fr, b.side.trans a.side, a.touch.trans b.touch,
    b.cnt.1.trans a.cnt.1, b.cnt.2.1.trans a.cnt.2.1, b.cnt.2.2.trans a.cnt.2.2⟩

theorem HG.wr {n : Fin 8} (s : State) (f : Fld) (v : Nat)
    (h : FrameA (f.key / 32) ∧ f.key ≠ (F.RTX_DUP.RX_DUP n).key ∧ f.key ≠ (F.RTX_RX_CNT.RX_AHEAD n).key ∧ f.key ≠ (F.HL_CNT_EG.EG_BACKOFF n).key) :
    HG n s (s.wr f v) :=
  ⟨rfl, rfl, rfl, rfl, rfl, .wr _ _ _ h.1, State.rd_wr_other _ _ h.2.1, State.rd_wr_other _ _ h.2.2.1, State.rd_wr_other _ _ h.2.2.2⟩

theorem HG.count {n : Fin 8} (s : State) (f : Fld) (v : Nat)
    (h : FrameA (f.key / 32) ∧ f.key ≠ (F.RTX_DUP.RX_DUP n).key ∧ f.key ≠ (F.RTX_RX_CNT.RX_AHEAD n).key ∧ f.key ≠ (F.HL_CNT_EG.EG_BACKOFF n).key) :
    HG n s (s.count f v) := HG.wr _ _ _ h

theorem HG.mp {n} (s : State) (f : Port → Port) (h : (f s.port[n]).rtx.expect = s.port[n].rtx.expect ∧ (f s.port[n]).rtx.gap = s.port[n].rtx.gap ∧ (f s.port[n]).rtx.fails = s.port[n].rtx.fails ∧ (f s.port[n]).fr = s.port[n].fr) : HG n s (s.modPort n f) := by
  have e : (s.modPort n f).port[n] = f s.port[n] := by simp [State.modPort]
  refine ⟨?_, ?_, ?_, ?_, rfl, Touch.modPort (.refl _), rfl, rfl, rfl⟩
  · rw [e]; exact h.1
  · rw [e]; exact h.2.1
  · rw [e]; exact h.2.2.1
  · rw [e]; exact h.2.2.2

theorem HG.ite {n} {s t u : State} {c : Prop} [Decidable c] (a : HG n s t) (b : HG n s u) : HG n s (if c then t else u) := by
  split
  · exact a
  · exact b

theorem HG.lpiTrigger {n} (s : State) : HG n s (s.lpiTrigger n) := by
  unfold State.lpiTrigger
  exact .ite (.mp _ _ ⟨rfl, rfl, rfl, rfl⟩) (.refl _ _)

theorem HG.ackRelease {n} (s : State) (a) (ht : s.twinned n = false) : HG n s (s.ackRelease n a) := by
  unfold State.ackRelease
  rw [ht]
  refine .ite ?_ (.count _ _ _ (by simp only [FrameA, Fld.key]; omega))
  simp only [Bool.false_eq_true, if_false]
  unfold State.releaseWin
  exact (HG.mp _ _ ⟨rfl, rfl, rfl, rfl⟩).trans (.mp _ _ ⟨rfl, rfl, rfl, rfl⟩)

theorem HG.nakReplay {n} (s : State) (a) : HG n s (s.nakReplay n a) := by
  unfold State.nakReplay State.setReplay
  dsimp only
  refine .ite (.refl _ _) ?_
  refine HG.trans ?_ (.count _ _ _ (by simp only [FrameA, Fld.key]; omega))
  exact (HG.mp _ _ ⟨rfl, rfl, rfl, rfl⟩).trans (.mp _ _ ⟨rfl, rfl, rfl, rfl⟩)

theorem HG.txArm {n} (s : State) : HG n s (s.txArm n) := by
  unfold State.txArm
  exact .ite (.wr _ _ _ (by simp only [FrameA, Fld.key]; omega)) (.refl _ _)

theorem HG.rxAnnounce {n} (s : State) (j c) : HG n s (s.rxAnnounce n j c) := by
  unfold State.rxAnnounce
  dsimp only
  refine .ite ((HG.wr _ _ _ (by simp only [FrameA, Fld.key]; omega)).trans (.mp _ _ ⟨rfl, rfl, rfl, rfl⟩)) (.ite (.refl _ _) (.count _ _ _ (by simp only [FrameA, Fld.key]; omega)))

theorem HG.rxLadder {n} (s : State) (i j f) : HG n s (s.rxLadder n i j f) := by
  unfold State.rxLadder
  have c : ∀ g : Fld, FrameA (g.key / 32) ∧ g.key ≠ (F.RTX_DUP.RX_DUP n).key ∧ g.key ≠ (F.RTX_RX_CNT.RX_AHEAD n).key ∧
      g.key ≠ (F.HL_CNT_EG.EG_BACKOFF n).key → HG n s (s.count g) := fun g h => .count _ _ _ h
  refine .ite (.ite (.wr _ _ _ (by simp only [FrameA, Fld.key]; omega)) (.refl _ _)) (.ite (c _ (by simp only [FrameA, Fld.key]; omega)) (.ite (.rxAnnounce _ _ _) (.ite (.ite (c _ (by simp only [FrameA, Fld.key]; omega)) (.ite (.refl _ _) (.ite ?_ (c _ (by simp only [FrameA, Fld.key]; omega))))) (.ite (c _ (by simp only [FrameA, Fld.key]; omega)) (.ite (.refl _ _) ?_)))))
  · exact (HG.mp _ _ ⟨rfl, rfl, rfl, rfl⟩).trans (.txArm _)
  · exact (HG.mp _ _ ⟨rfl, rfl, rfl, rfl⟩).trans (.txArm _)

theorem State.memberUp_port (s : State) (n : Fin 8) : (s.memberUp n).port = s.port := by
  unfold State.memberUp
  dsimp only
  split
  · rfl
  · split
    · simp [State.pairEval_port]
    · simp [State.pairEval_port, State.modMember, State.modTwin]

theorem State.enterUp_rtx (s : State) (n : Fin 8) (eee : Bool) : ((s.enterUp n eee).syncHalves n).port[n].rtx.expect = 0 ∧ ((s.enterUp n eee).syncHalves n).port[n].rtx.next = 0 := by
  have e : ∀ u : State, (u.syncHalves n).port[n].rtx = u.port[n].rtx := fun u => by
    unfold State.syncHalves State.syncLimit; simp [State.modPort]
  simp only [e]
  unfold State.enterUp
  dsimp only
  simp only [State.linkEvent_port, State.syncLane_port, State.syncRtx_port, State.memberUp_port]
  simp [State.modPort, State.resetRtx]

theorem State.ladFallback_hg (s : State) (n : Fin 8) : HG n s (s.ladFallback n) := by
  unfold State.ladFallback State.ladRequest
  dsimp only
  refine .ite ?_ (.refl _ _)
  refine HG.trans ?_ (.mp _ _ ⟨rfl, rfl, rfl, rfl⟩)
  refine HG.trans ?_ (.wr _ _ _ (by simp only [FrameA, Fld.key]; omega))
  refine HG.trans ?_ (.lpiTrigger _)
  exact (HG.wr _ _ _ (by simp only [FrameA, Fld.key]; omega)).trans (.mp _ _ ⟨rfl, rfl, rfl, rfl⟩)

theorem State.enterHold_facts (s : State) (n : Fin 8) (h : s.link n = stUP) (ht : s.twinned n = false) : (s.enterHold n).link n = stHOLD ∧ (s.enterHold n).on (F.LINK_EVENT.HOLD_ENTER n) = true ∧
    (s.enterHold n).port[n].rtx.gap = s.port[n].rtx.gap ∧ (s.enterHold n).port[n].rtx.expect = s.port[n].rtx.expect ∧ (s.enterHold n).twinned n = false := by
  unfold State.enterHold
  rw [if_pos h]
  extract_lets s1 s2
  have hs1 : s1.port[n].rtx.gap = s.port[n].rtx.gap ∧ s1.port[n].rtx.expect = s.port[n].rtx.expect := by
    simp only [s1]; constructor <;> simp [State.modPort, State.setLink, State.count]
  have hf := State.ladFallback_hg (s1.freeze n (fun _ => true) frzHOLD true) n
  have hp : ∀ u v : State, v.port = u.port → v.port[n].rtx = u.port[n].rtx := fun u v h => by rw [h]
  have h2 : s2.port[n].rtx = ((s1.freeze n (fun _ => true) frzHOLD true).ladFallback n).port[n].rtx := hp _ _ (State.syncRtx_port _ _)
  have h3 := hp _ _ (State.freeze_port s1 n (fun _ => true) frzHOLD true)
  have hk := (pairOf n).isLt
  have r2 : s2.twinned n = false := by
    rw [← ht]
    unfold State.twinned State.twActive State.on
    simp only [s2]
    rw [State.syncRtx_rd' _ _ _ (by simp only [Fld.key]; omega), hf.touch _ (by simp only [FrameA, Fld.key]; omega), freeze_rd' _ _ _ _ _ _ (by simp only [Fld.key]; omega)]
    simp only [s1]
    rw [State.rd_modPort, State.rd_count_other _ _ (by simp only [Fld.key]; omega), State.setLink_rd _ _ _ _ (by simp only [Fld.key]; omega)]
  have l2 : s2.link n = stHOLD := by
    have hl : ¬ LowA ((F.LINK_STATUS.STATE n).key / 32) := by simp only [LowA, Fld.key]; omega
    unfold State.link
    simp only [s2]
    rw [State.syncRtx_rd hl, State.ladFallback_rd hl, State.freeze_rd hl]
    simp only [s1]
    rw [State.rd_modPort, State.rd_count_other _ _ (by simp only [Fld.key]; omega)]
    exact State.setLink_link s n stHOLD (by decide)
  rw [if_neg (by rw [r2]; decide)]
  refine ⟨?_, State.linkEvent_on _ _ _ rfl (by simp only [Fld.key]; omega), ?_, ?_, ?_⟩
  · unfold State.link
    rw [State.linkEvent_rd _ _ _ _ (by simp only [Fld.key]; omega) (by simp only [Fld.key]; omega)]; exact l2
  · simp only [State.linkEvent_port]
    rw [h2, hf.gap, h3]; exact hs1.1
  · simp only [State.linkEvent_port]
    rw [h2, hf.exp, h3]; exact hs1.2
  · unfold State.twinned State.twActive State.on at r2 ⊢
    rw [State.linkEvent_rd _ _ _ _ (by simp only [Fld.key]; omega) (by simp only [Fld.key]; omega)]; exact r2

theorem HG.tw {n} {s u : State} (h : HG n s u) : u.twinned n = s.twinned n := by
  have hk := (pairOf n).isLt
  unfold State.twinned State.twActive State.on
  rw [h.touch _ (by simp only [FrameA, Fld.key]; omega)]

theorem HG.link {n} {s u : State} (h : HG n s u) : u.link n = s.link n := h.touch _ (by simp only [FrameA, Fld.key]; omega)

theorem frameHandoff_some (s : State) (n : Fin 8) (bad : List Nat) (d : RxDone) (h : spFind s.port[n].fr.done s.port[n].fr.rxIdx = some d) : ∃ s1 : State,
    s1.regs = s.regs ∧ s1.side = s.side ∧ s1.port[n].rtx = s.port[n].rtx ∧ s1.port[n].fr.lockCount = s.port[n].fr.lockCount ∧ s1.port[n].fr.rxIdx = s.port[n].fr.rxIdx + 1 ∧
    s.frameHandoff n bad = match d.result with
    | .failed => ((s1.handFailed n d).iff (s.twinned n) fun s => s.syncTwin (pairOf n)).syncRtx n
    | .good f => if s.linkUp n then s1.handGood n s.port[n].fr.rxIdx d f bad else s1.handSync n s.port[n].fr.rxIdx f := by
  refine ⟨_, ?_, ?_, ?_, ?_, ?_, by unfold State.frameHandoff; simp only [h]; rfl⟩
  · rfl
  · rfl
  · simp [State.modPort]
  · simp [State.modPort]
  · simp [State.modPort]

theorem setGap_hg (s : State) (n : Fin 8) (v : Bool) : (s.setGap n v).port[n].rtx.gap = v ∧ (s.setGap n v).port[n].rtx.expect = s.port[n].rtx.expect ∧ (s.setGap n v).port[n].rtx.fails = s.port[n].rtx.fails ∧ (s.setGap n v).port[n].fr = s.port[n].fr ∧ (s.setGap n v).side = s.side ∧ ∀ g, (s.setGap n v).rd g = s.rd g := by
  unfold State.setGap
  dsimp only
  split
  · have h := HG.lpiTrigger (n := n) (s.modPort n fun p => { p with rtx := { p.rtx with gap := v } })
    refine ⟨h.gap.trans (by simp [State.modPort]), h.exp.trans (by simp [State.modPort]), h.fails.trans (by simp [State.modPort]), h.fr.trans (by simp [State.modPort]), h.side, ?_⟩
    intro g; unfold State.lpiTrigger; dsimp only; split <;> rfl
  · exact ⟨by simp [State.modPort], by simp [State.modPort], by simp [State.modPort], by simp [State.modPort], rfl, fun _ => rfl⟩

/-- A good frame in FRAME_SYNC: the lock, the fields that every good frame has, and UP once both ends are locked. -/
theorem handSync_lock (s : State) (n : Fin 8) (i : Nat) (f : Frame) : ∃ u v : State,
    u = ((s.wrB (F.FRM_STATUS.LOCK_PARTNER n) f.lock).modPort n fun p =>
      { p with fr := { p.fr with lockCount := min 8 (s.port[n].fr.lockCount + 1) } }) ∧
    v = (if 8 ≤ s.port[n].fr.lockCount + 1 then u.wrB (F.FRM_STATUS.LOCK_RX n) true else u).syncFields n i f ∧
    s.handSync n i f = if (v.on (F.FRM_STATUS.LOCK_RX n) && f.lock) = true then
      (v.enterUp n (s.port[n].neg.advEee && s.port[n].neg.partnerEee)).syncHalves n else v :=
  ⟨_, _, rfl, rfl, rfl⟩

theorem laneOf_own (s : State) (n : Fin 8) : s.laneOf (ownPort n) = n := by
  unfold State.laneOf ownPort
  have := n.isLt
  simp only [this, if_true]
  exact Fin.ext (Nat.mod_eq_of_lt this)

theorem spillPort_own (n : Fin 8) : spillPort (ownPort n) = n.val := if_pos n.isLt

/-- `u` is `s` for what a frame's TYPE row leaves of port `n`: its failure count, its framer, the other registers. -/
structure RO (n : Fin 8) (s u : State) : Prop where
  fails : u.port[n].rtx.fails = s.port[n].rtx.fails
  fr : u.port[n].fr = s.port[n].fr
  touch : Touch FrameA s u

theorem HG.ro {n} {s u : State} (h : HG n s u) : RO n s u := ⟨h.fails, h.fr, h.touch⟩

theorem RO.gap {n} (s : State) (v) : RO n s (s.setGap n v) := by
  have h := setGap_hg s n v
  exact ⟨h.2.2.1, h.2.2.2.1, fun g _ => h.2.2.2.2.2 g⟩

theorem RO.tr {n} {s t u : State} (a : RO n s t) (b : RO n t u) : RO n s u := ⟨b.fails.trans a.fails, b.fr.trans a.fr, a.touch.trans b.touch⟩

theorem egressPush_facts (s : State) (n : Fin 8) (bs) : (s.egressPush (ownPort n) bs).port = s.port ∧ Touch FrameA s (s.egressPush (ownPort n) bs) ∧
    (s.domOn (112 + n.val) = true → (s.egressPush (ownPort n) bs).side[ownPort n].egress = s.side[ownPort n].egress ++ bs) := by
  unfold State.egressPush
  rw [laneOf_own, spillPort_own]
  unfold State.hlOn
  split
  · refine ⟨rfl, Touch.modSide (.refl _), fun _ => ?_⟩
    simp [State.modSide]
  · refine ⟨?_, ?_, fun h => absurd h ‹_›⟩
    · unfold State.hostCount State.iff; split <;> rfl
    · unfold State.hostCount
      exact Touch.iff (.refl _) (.count _ _ _ (by simp only [FrameA, Fld.key]; omega))

theorem room_eq (s : State) (n : Fin 8) : s.egressRoom (ownPort n) = (!s.domOn (112 + n.val) || decide (52 ≤ 8192 - s.side[ownPort n].egress.length)) := by
  unfold State.egressRoom; rw [laneOf_own]; rfl

theorem rxOwn_facts (s : State) (n : Fin 8) (f : Frame) : RO n s (s.rxOwn n f) ∧
    (f.typ = typDATA → seqDist f.seq s.port[n].rtx.expect = 0 → s.domOn (112 + n.val) = true ∧ s.side[ownPort n].egress.length + 52 ≤ 8192 →
      (s.rxOwn n f).port[n].rtx.expect = seqNext s.port[n].rtx.expect ∧ (s.rxOwn n f).port[n].rtx.gap = false ∧ (s.rxOwn n f).side[ownPort n].egress = s.side[ownPort n].egress ++ f.blks) ∧
    (f.typ = typDATA → seqDist f.seq s.port[n].rtx.expect = 0 → s.domOn (112 + n.val) = true → 8192 < s.side[ownPort n].egress.length + 52 →
      s.rxOwn n f = s.count (F.HL_CNT_EG.EG_BACKOFF n)) ∧
    (f.typ = typDATA → seqDist f.seq s.port[n].rtx.expect < 0 → s.rxOwn n f = s.count (F.RTX_DUP.RX_DUP n)) ∧
    (f.typ = typDATA → 0 < seqDist f.seq s.port[n].rtx.expect → s.rxOwn n f = (if seqDist f.seq s.port[n].rtx.expect ≤ 512 then s.count (F.RTX_RX_CNT.RX_AHEAD n) else s.count (F.RTX_RX_CNT.SEQ_FAR n)).setGap n true) ∧
    (f.typ = typFILLER → s.rxOwn n f = if seqDist f.seq s.port[n].rtx.expect = 0 then s.setGap n false else if 0 < seqDist f.seq s.port[n].rtx.expect then s.setGap n true else s) := by
  have hfd : typFILLER ≠ typDATA := by decide
  have hro : s.backoff (ownPort n) = s.count (F.HL_CNT_EG.EG_BACKOFF n) := by unfold State.backoff; rw [laneOf_own]
  generalize hd : seqDist f.seq s.port[n].rtx.expect = d
  have heg := egressPush_facts s n f.blks
  generalize hw : (((s.egressPush (ownPort n) f.blks).modPort n fun p =>
          { p with rtx := { p.rtx with expect := seqNext p.rtx.expect, gap := false } })) = w
  have hwl := HG.lpiTrigger (n := n) w
  have hwp : w.port[n].rtx.expect = seqNext s.port[n].rtx.expect ∧ w.port[n].rtx.gap = false ∧ w.port[n].rtx.fails = s.port[n].rtx.fails ∧ w.port[n].fr = s.port[n].fr := by
    rw [← hw]; refine ⟨?_, ?_, ?_, ?_⟩ <;> simp [State.modPort, heg.1]
  have e : s.rxOwn n f = if f.typ = typDATA then (if d = 0 then (if s.egressRoom (ownPort n) then w.lpiTrigger n else s.count (F.HL_CNT_EG.EG_BACKOFF n)) else if d < 0 then s.count (F.RTX_DUP.RX_DUP n) else if d ≤ 512 then (s.count (F.RTX_RX_CNT.RX_AHEAD n)).setGap n true else (s.count (F.RTX_RX_CNT.SEQ_FAR n)).setGap n true)
    else if f.typ = typFILLER then (if d = 0 then s.setGap n false else if 0 < d then s.setGap n true else s) else s.count (F.FIELD_ERR.TYPE_BAD n) := by
    rw [← hw, ← hd, ← hro]; rfl
  rw [e]
  have cnt : ∀ g : Fld, FrameA (g.key / 32) → RO n s (s.count g) := fun g h => ⟨rfl, rfl, .count _ _ _ h⟩
  have pick : ∀ {c : Prop} [Decidable c] {a b : State}, RO n s a → RO n s b → RO n s (if c then a else b) := by
    intro c _ a b ha hb; split
    · exact ha
    · exact hb
  refine ⟨?_, ?_, ?_, ?_, ?_, ?_⟩
  · refine pick (pick (pick ?_ (cnt _ (by simp only [FrameA, Fld.key]; omega))) (pick (cnt _ (by simp only [FrameA, Fld.key]; omega)) (pick ((cnt _ (by simp only [FrameA, Fld.key]; omega)).tr (.gap _ _)) ((cnt _ (by simp only [FrameA, Fld.key]; omega)).tr (.gap _ _))))) (pick (pick (.gap _ _) (pick (.gap _ _) (HG.refl _ _).ro)) (cnt _ (by simp only [FrameA, Fld.key]; omega)))
    refine ⟨hwl.fails.trans hwp.2.2.1, hwl.fr.trans hwp.2.2.2, Touch.trans ?_ hwl.touch⟩
    rw [← hw]; exact Touch.modPort heg.2.1
  · intro h1 h2 h3
    have hr : s.egressRoom (ownPort n) = true := by rw [room_eq, decide_eq_true (by omega), Bool.or_true]
    rw [if_pos h1, if_pos h2, if_pos hr]
    refine ⟨hwl.exp.trans hwp.1, hwl.gap.trans hwp.2.1, ?_⟩
    rw [hwl.side, ← hw]; exact heg.2.2 h3.1
  · intro h1 h2 h3 h4
    have hr : ¬ s.egressRoom (ownPort n) = true := by rw [room_eq, decide_eq_false (by omega), h3]; decide
    rw [if_pos h1, if_pos h2, if_neg hr]
  · intro h1 h2
    rw [if_pos h1, if_neg (by omega), if_pos h2]
  · intro h1 h2
    rw [if_pos h1, if_neg (by omega), if_neg (by omega)]
    split <;> rfl
  · intro h1
    rw [if_neg (by rw [h1]; exact hfd), if_pos h1]

theorem handGood_own (s : State) (n : Fin 8) (i : Nat) (d : RxDone) (f : Frame) (bad : List Nat) (ht : s.twinned n = false) (hl : s.link n = stUP) : ∃ u, HG n ((s.wrB (F.FRM_STATUS.LOCK_PARTNER n) f.lock).modPort n fun p => { p with rtx := { p.rtx with
    fails := 0, goods := if d.flagged then p.rtx.goods else p.rtx.goods + 1 } }) u ∧ s.handGood n i d f bad = (u.rxOwn n f).syncRtx n ∧ u.link n = stUP := by
  generalize hB : ((s.wrB (F.FRM_STATUS.LOCK_PARTNER n) f.lock).modPort n fun p => { p with rtx := { p.rtx with
    fails := 0, goods := if d.flagged then p.rtx.goods else p.rtx.goods + 1 } }) = B
  have htB : B.twinned n = false := by
    have hk := (pairOf n).isLt
    rw [← hB, ← ht]; unfold State.twinned State.twActive State.on; rw [State.rd_modPort, State.rd_wrB_other _ _ (by simp only [Fld.key]; omega)]
  have hlB : B.link n = stUP := by
    rw [← hB, ← hl]; unfold State.link; rw [State.rd_modPort, State.rd_wrB_other _ _ (by simp only [Fld.key]; omega)]
  have ha := HG.ackRelease (n := n) B f.ack htB
  have h3 : HG n B (if (f.nak && B.ackOk n f.ack) = true then (B.ackRelease n f.ack).nakReplay n f.ack else B.ackRelease n f.ack) := .ite (ha.trans (.nakReplay _ _)) ha
  generalize h3e : (if (f.nak && B.ackOk n f.ack) = true then (B.ackRelease n f.ack).nakReplay n f.ack else B.ackRelease n f.ack) = u3 at h3
  have h4 := h3.trans (HG.rxLadder u3 i (i - s.port[n].fr.rxStart) f)
  have hl4 := (h4.link).trans hlB
  refine ⟨_, h4, ?_, hl4⟩
  have ro := (rxOwn_facts (u3.rxLadder n i (i - s.port[n].fr.rxStart) f) n f).1
  have hl5 : (((u3.rxLadder n i (i - s.port[n].fr.rxStart) f).rxOwn n f).syncRtx n).link n = stUP := by
    refine Eq.trans (State.syncRtx_rd (by simp only [LowA, Fld.key]; omega)) (Eq.trans (ro.touch _ (by simp only [FrameA, Fld.key]; omega)) hl4)
  have e : s.handGood n i d f bad = ((((u3.rxLadder n i (i - s.port[n].fr.rxStart) f).rxOwn n f).syncRtx n).holdExitCheck n) := by
    unfold State.handGood
    rw [ht]
    simp only [Bool.false_eq_true, if_false]
    rw [hB, h3e]
  rw [e]
  unfold State.holdExitCheck
  rw [hl5]
  rfl

end Sys2Proof.Machine
end

