-- ==== Sys2Proof/Laws/Ladder.lean ====
section
/-! SUPPORT. Ladder requests, the fallback and a tick of the default policy (06_rate_ladder.md R179-R194). -/

namespace Sys2Proof.Machine

theorem State.lpiTrigger_rd' (s : State) (n : Fin 8) (g : Fld) : (s.lpiTrigger n).rd g = s.rd g := by
  unfold State.lpiTrigger; dsimp only; split <;> rfl

theorem State.lpiTrigger_lad (s : State) (n : Fin 8) : (s.lpiTrigger n).port[n].lad = s.port[n].lad := by
  unfold State.lpiTrigger; dsimp only; split
  · simp [State.modPort]
  · rfl

theorem ladRequest_facts (s : State) (n : Fin 8) (r l : Nat) : (s.ladRequest n r l).rd (F.LAD_STATUS.RX_STATE n) = rxREQUESTING ∧
    (s.ladRequest n r l).port[n].lad = { s.port[n].lad with reqRung := r, reqLoad := actLoad r l, reqPhase := false } ∧
    ∀ g : Fld, g.key ≠ (F.LAD_STATUS.RX_STATE n).key → (s.ladRequest n r l).rd g = s.rd g := by
  unfold State.ladRequest
  refine ⟨?_, ?_, ?_⟩
  · rw [State.lpiTrigger_rd', State.rd_modPort, State.rd_wr_same]; rfl
  · rw [State.lpiTrigger_lad]; simp [State.modPort]
  · intro g h; rw [State.lpiTrigger_rd', State.rd_modPort, State.rd_wr_other _ _ h.symm]

theorem ladFallback_facts (s : State) (n : Fin 8) :
    (s.port[n].lad.fallback = true → s.rd (F.LAD_STATUS.RX_STATE n) = rxIDLE → s.port[n].lad.rxHoldoff = false → s.rd (F.LAD_CTRL.LAD_MODE n) < 2 →
      (s.ladFallback n).rd (F.LAD_STATUS.RX_STATE n) = rxREQUESTING ∧ (s.ladFallback n).port[n].lad.reqRung = s.port[n].lad.prevRung ∧
      (s.ladFallback n).on (F.LAD_EVENT.FALLBACK n) = true ∧ (s.ladFallback n).port[n].lad.fallback = false ∧ (s.ladFallback n).port[n].lad.rxHoldoff = false) ∧
    (¬ (s.port[n].lad.fallback = true ∧ s.rd (F.LAD_STATUS.RX_STATE n) = rxIDLE ∧ s.rd (F.LAD_CTRL.LAD_MODE n) < 2) → s.ladFallback n = s) := by
  have lr := ladRequest_facts s n s.port[n].lad.prevRung s.port[n].lad.prevLoad
  constructor
  · intro h1 h2 h3 h4
    have e : s.ladFallback n = ((s.ladRequest n s.port[n].lad.prevRung s.port[n].lad.prevLoad).wrB (F.LAD_EVENT.FALLBACK n) true).modPort n fun p =>
      { p with lad := { p.lad with fallback := false, reqFallback := true } } := by
      unfold State.ladFallback State.ladIdle
      exact if_pos (by rw [h1, h2, h3]; simp [h4])
    rw [e]
    refine ⟨?_, ?_, ?_, ?_, ?_⟩
    · rw [State.rd_modPort, State.rd_wrB_other _ _ (by simp only [Fld.key]; omega), lr.1]
    · simp only [State.modPort, Fin.getElem_fin, Vector.getElem_set_self, State.wrB_port]
      have := congrArg Ladder.reqRung lr.2.1
      exact this
    · unfold State.on; rw [State.rd_modPort, State.rd_wrB_same]; rfl
    · simp [State.modPort]
    · simp only [State.modPort, Fin.getElem_fin, Vector.getElem_set_self, State.wrB_port]
      have := congrArg Ladder.rxHoldoff lr.2.1
      exact this.trans h3
  · intro h
    unfold State.ladFallback State.ladIdle
    refine if_neg ?_
    intro hc
    apply h
    simp only [Bool.and_eq_true, decide_eq_true_eq, beq_iff_eq] at hc
    exact ⟨hc.1.1, hc.1.2.1, hc.2⟩

theorem actLoad_lt (r l : Nat) (h : l < 64) : actLoad r l < 64 := by
  unfold actLoad; split <;> omega

theorem tierHint_port (s : State) (n : Fin 8) (v : TickView) : (s.tierHint n v).port = s.port := by
  unfold State.tierHint State.setHint
  dsimp only
  split_ifs <;> rfl

theorem tierHint_rd (s : State) (n : Fin 8) (v : TickView) (g : Fld) (h1 : g.key ≠ (F.LAD_STATUS.TIER_HINT n).key) (h2 : g.key ≠ (F.LAD_EVENT.TIER n).key) : (s.tierHint n v).rd g = s.rd g := by
  unfold State.tierHint State.setHint
  dsimp only
  split_ifs <;> first | rfl | rw [State.rd_wrB_other _ _ h2.symm, State.rd_wr_other _ _ h1.symm]

theorem propose_facts (s : State) (n : Fin 8) (w : Want) : (s.propose n w).on (F.LAD_PROPOSE.P_VALID n) = true ∧ (s.propose n w).rd (F.LAD_PROPOSE.P_RUNG n) = w.rung % 32 ∧
    (s.propose n w).rd (F.LAD_PROPOSE.P_LOAD n) = w.load % 64 ∧ (∀ m, w.margin = some m → (s.propose n w).rd (F.LAD_PROPOSE.P_MARGIN n) = marginField m % 1024) ∧
    (s.propose n w).port = s.port ∧ ∀ g : Fld, (g.key / 32 ≠ 0x203014 + 0x100000 * n.val ∨ g.key = (F.LAD_PROPOSE.CUR_MARGIN n).key) → (s.propose n w).rd g = s.rd g := by
  unfold State.propose
  extract_lets d s1
  have h1 : s1.port = s.port := by simp only [s1]; split <;> rfl
  have h2 : ∀ g : Fld, g.key ≠ (F.LAD_PROPOSE.P_MARGIN n).key → s1.rd g = s.rd g := by
    intro g hg; simp only [s1]; split
    · exact State.rd_wr_other _ _ hg.symm
    · rw [State.rd_wr_other _ _ hg.symm]; rfl
  refine ⟨?_, ?_, ?_, ?_, ?_, ?_⟩
  · unfold State.on; rw [State.rd_wr_other _ _ (by simp only [Fld.key]; omega), State.rd_wr_other _ _ (by simp only [Fld.key]; omega), State.rd_wrB_same]; rfl
  · rw [State.rd_wr_other _ _ (by simp only [Fld.key]; omega), State.rd_wr_same]; rfl
  · rw [State.rd_wr_same]; rfl
  · intro m hm
    rw [State.rd_wr_other _ _ (by simp only [Fld.key]; omega), State.rd_wr_other _ _ (by simp only [Fld.key]; omega), State.rd_wrB_other _ _ (by simp only [Fld.key]; omega)]
    simp only [s1, hm]; rw [State.rd_wr_same]; rfl
  · simp only [State.wr_port, State.wrB_port, h1]
  · intro g hg
    simp only [Fld.key] at hg
    rw [State.rd_wr_other _ _ (by simp only [Fld.key]; omega), State.rd_wr_other _ _ (by simp only [Fld.key]; omega), State.rd_wrB_other _ _ (by simp only [Fld.key]; omega), h2 _ (by simp only [Fld.key]; omega)]

/-- the state a tick's target is applied to -/
theorem policy_base (s : State) (n : Fin 8) : ∃ X : State, 
    (∀ g : Fld, g.key ≠ (F.LAD_STATUS.TIER_HINT n).key → g.key ≠ (F.LAD_EVENT.TIER n).key → g.key ≠ (F.LAD_PROPOSE.CUR_MARGIN n).key → X.rd g = s.rd g) ∧
    (∀ m, (s.tickView n (s.tickIn n)).margin = some m → X.rd (F.LAD_PROPOSE.CUR_MARGIN n) = marginField m % 1024) ∧
    s.policy n = if s.ladIdle n then
      match s.wantDown n (s.tickIn n) (s.tickView n (s.tickIn n)) with
      | some w => X.policyTarget n w
      | none =>
        if (s.tickView n (s.tickIn n)).bySnr || (s.tickView n (s.tickIn n)).byIter || (s.tickView n (s.tickIn n)).byFail then X
        else match s.wantUp n (s.tickIn n) (s.tickView n (s.tickIn n)) with
          | some w => X.policyTarget n w
          | none => X
      else X := by
  refine ⟨_, ?_, ?_, rfl⟩
  · intro g h1 h2 h3
    rw [tierHint_rd _ _ _ _ h1 h2, State.rd_modPort]
    split
    · exact State.rd_wr_other _ _ h3.symm
    · rfl
  · intro m hm
    rw [tierHint_rd _ _ _ _ (by simp only [Fld.key]; omega) (by simp only [Fld.key]; omega), State.rd_modPort]
    simp only [hm]
    rw [State.rd_wr_same]; rfl

end Sys2Proof.Machine
end

