-- ==== Sys2Proof/Laws/Kept.lean ====
section
/-! SUPPORT. What an access to DDR4 and the operations of the spill pool leave alone: ports, host sides, twin engines, host
lanes (07_retransmission_spill.md R219-R227, 14_cupola.md R488-R499). -/

namespace Sys2Proof.Machine

/-- `u` has the ports, host sides, twin engines and host lanes of `s`. -/
structure Kept (s u : State) : Prop where
  port : u.port = s.port
  side : u.side = s.side
  twin : u.twin = s.twin
  lane : u.lane = s.lane

theorem Kept.refl (s : State) : Kept s s := ⟨rfl, rfl, rfl, rfl⟩

theorem Kept.trans {s t u : State} (a : Kept s t) (b : Kept t u) : Kept s u :=
  ⟨b.port.trans a.port, b.side.trans a.side, b.twin.trans a.twin, b.lane.trans a.lane⟩

theorem Kept.ite {s t u : State} {c : Prop} [Decidable c] (a : Kept s t) (b : Kept s u) : Kept s (if c then t else u) := by
  split
  · exact a
  · exact b

theorem Kept.wr (s : State) (f : Fld) (v : Nat) : Kept s (s.wr f v) := ⟨rfl, rfl, rfl, rfl⟩

theorem Kept.rise (s : State) (i : Nat) (d) (inj quiet : Bool) : Kept s (s.rise i d inj quiet) := by
  have h := (State.rise_flt s i d inj quiet).1
  constructor <;> rw [h]

theorem Kept.fold {α : Type} (l : List α) (f : State → α → State) (h : ∀ s a, Kept s (f s a)) : ∀ s, Kept s (l.foldl f s) := by
  induction l with
  | nil => exact Kept.refl
  | cons a l ih => exact fun s => (h s a).trans (ih _)

theorem Kept.peak (s : State) (f : Fld) (v : Nat) : Kept s (s.peak f v) := by
  unfold State.peak
  exact .ite (.wr _ _ _) (.refl _)

theorem Kept.grantUnits (cl : Nat) : ∀ (k : Nat) (s : State), Kept s (s.grantUnits cl k)
  | 0, s => .refl s
  | k + 1, s => Kept.trans (t := s.countGrant cl (s.grantClass cl) 64) ⟨rfl, rfl, rfl, rfl⟩ (Kept.grantUnits cl k _)

/-- Granting units leaves which channels are in service. -/
theorem grantUnits_chUp (cl c : Nat) : ∀ (k : Nat) (s : State), (s.grantUnits cl k).chUp c = s.chUp c
  | 0, s => rfl
  | k + 1, s => by
    unfold State.grantUnits
    rw [grantUnits_chUp cl c k]
    unfold State.chUp State.countGrant State.count64
    rw [State.rd_wr_other _ _ (by simp only [Fld.key, Fld.hidden]; omega), State.rd_wr_other _ _ (by simp only [Fld.key]; omega)]
    rfl

theorem Kept.errCapture (s : State) (c addr type src mid rank dev cw : Nat) :
    Kept s (s.errCapture c addr type src mid rank dev cw) := by
  unfold State.errCapture
  exact .ite (.refl _) ⟨rfl, rfl, rfl, rfl⟩

theorem Kept.ueCount (s : State) (c : Nat) : Kept s (s.ueCount c) := by
  unfold State.ueCount
  exact .ite ⟨rfl, rfl, rfl, rfl⟩ ⟨rfl, rfl, rfl, rfl⟩

theorem Kept.eccReport (s : State) (a : Nat) (e : Ecc) (src mid : Nat) : Kept s (s.eccReport a e src mid) := by
  have w : ∀ (s : State) (f : Fld) (k : Nat), Kept s (s.count f k) := fun s f k => .wr _ _ _
  have ws : ∀ (s : State) (f : Fld) (k : Nat), Kept s (s.countSat f k) := fun s f k => .wr _ _ _
  have wb : ∀ (s : State) (f : Fld) (b : Bool), Kept s (s.wrB f b) := fun s f k => .wr _ _ _
  unfold State.eccReport
  dsimp only
  split
  · exact .refl _
  · refine Kept.trans ?_ (.rise _ _ _ _ _)
    refine Kept.trans ?_ (.errCapture _ _ _ _ _ _ _ _ _)
    split
    · exact .ite ((w _ _ _).trans (ws _ _ _)) ((w _ _ _).trans (ws _ _ _))
    · exact w _ _ _
  · exact ((((w _ _ _).trans (wb _ _ _)).trans (.errCapture _ _ _ _ _ _ _ _ _)).trans (.rise _ _ _ _ _)).trans (.ueCount _ _)
  · exact (((w _ _ _).trans (wb _ _ _)).trans (.errCapture _ _ _ _ _ _ _ _ _)).trans (.rise _ _ _ _ _)

theorem Kept.cwRead (s : State) (q : Nat) (env : Ecc) (src mid : Nat) (wb : Bool) : Kept s (s.cwRead q env src mid wb).2 := by
  unfold State.cwRead
  dsimp only
  exact .ite ((Kept.eccReport _ _ _ _ _).trans ⟨rfl, rfl, rfl, rfl⟩) (.eccReport _ _ _ _ _)

theorem Kept.cwReads (src mid : Nat) (env : Nat → Ecc) : ∀ (k q : Nat) (s : State), Kept s (s.cwReads src mid env q k).2.2
  | 0, _, s => .refl s
  | k + 1, q, s => by
    unfold State.cwReads
    dsimp only
    refine Kept.trans ?_ (Kept.cwReads src mid env k _ _)
    refine (Kept.cwRead s q (env q) src mid (s.on F.CUP_CTRL.ECC_WB)).trans ?_
    unfold State.cwBytes
    split
    · exact ⟨rfl, rfl, rfl, rfl⟩
    · exact .refl _

theorem Kept.ddrRead (s : State) (src mid a len : Nat) (env : Nat → Ecc) : Kept s (s.ddrRead src mid a len env).2.2 := by
  unfold State.ddrRead
  dsimp only
  split
  · exact Kept.trans (t := s.chTouch _) ⟨rfl, rfl, rfl, rfl⟩ (.cwReads _ _ _ _ _ _)
  · exact .refl _

theorem Kept.cwWrite (s : State) (mid a : Nat) (bs : List Byte) (env : Ecc) : Kept s (s.cwWrite mid a bs env).2 := by
  unfold State.cwWrite
  dsimp only
  split
  · unfold State.injectInto
    refine .ite ?_ ⟨rfl, rfl, rfl, rfl⟩
    exact .ite ⟨rfl, rfl, rfl, rfl⟩ ⟨rfl, rfl, rfl, rfl⟩
  · split
    · exact (Kept.cwRead _ _ _ _ _ _).trans ⟨rfl, rfl, rfl, rfl⟩
    · exact (Kept.cwRead _ _ _ _ _ _).trans ⟨rfl, rfl, rfl, rfl⟩

theorem Kept.cwWrites (mid : Nat) (env : Nat → Ecc) : ∀ (k a : Nat) (bs : List Byte) (s : State),
    Kept s (s.cwWrites mid env k a bs).2
  | 0, _, _, s => .refl s
  | k + 1, a, bs, s => by
    unfold State.cwWrites
    split
    · exact .refl _
    · exact (Kept.cwWrite _ _ _ _ _).trans (Kept.cwWrites mid env k _ _ _)

theorem Kept.ddrWrite (s : State) (mid a : Nat) (bs : List Byte) (env : Nat → Ecc) : Kept s (s.ddrWrite mid a bs env).2 := by
  unfold State.ddrWrite
  dsimp only
  split
  · exact Kept.trans (t := (s.chTouch _).monClear (ddrBase + a) bs.length) ⟨rfl, rfl, rfl, rfl⟩ (.cwWrites _ _ _ _ _ _)
  · exact .refl _

theorem Kept.pageWrite (s : State) (o : Fin 12) (k off : Nat) (bs : List Byte) : Kept s (s.pageWrite o k off bs) := by
  unfold State.pageWrite
  exact .ite ((Kept.grantUnits _ _ _).trans (.ddrWrite _ _ _ _ _)) (.refl _)

theorem Kept.syncPool (s : State) : Kept s s.syncPool := by
  unfold State.syncPool
  dsimp only
  generalize hx : (s.on F.SPL_STATUS.SPL_RDY && decide (s.cup.spt.pages - s.cup.spt.bad.length < s.rsvSum)) = c
  have h : Kept s (if (c && !s.on F.CUP_STATUS.RSV_SHORT) = true then s.wrB F.CUP_EVENT.RSV_SHORT true else s) :=
    .ite (.wr _ _ _) (.refl _)
  exact h.trans ⟨rfl, rfl, rfl, rfl⟩

theorem Kept.syncInUse (s : State) (o : Fin 12) : Kept s (s.syncInUse o) := by
  unfold State.syncInUse
  exact (Kept.wr _ _ _).trans (.peak _ _ _)

theorem Kept.freePage (s : State) (k : Nat) : Kept s (s.freePage k) := by
  unfold State.freePage
  dsimp only
  refine Kept.trans ?_ (.syncPool _)
  exact ⟨rfl, rfl, rfl, rfl⟩

theorem Kept.hostEvent (s : State) (o : Fin 12) (f) : Kept s (s.hostEvent o f) := by
  unfold State.hostEvent
  exact .fold _ _ (fun _ _ => .ite (.wr _ _ _) (.refl _)) _

theorem Kept.blkErr (s : State) (o : Fin 12) (f k) : Kept s (s.blkErr o f k) := by
  unfold State.blkErr
  exact .fold _ _ (fun _ _ => .ite (.wr _ _ _) (.refl _)) _

theorem Kept.hostCount (s : State) (o : Fin 12) (f k) : Kept s (s.hostCount o f k) := by
  unfold State.hostCount State.iff
  exact .ite (.wr _ _ _) (.refl _)

theorem Kept.setSpillFull (s : State) (o : Fin 12) : Kept s (s.setSpillFull o) := by
  unfold State.setSpillFull
  exact .ite (.refl _) ((Kept.wr _ _ _).trans (.hostEvent _ _ _))

theorem Kept.spillEnter (s : State) (o : Fin 12) : Kept s (s.spillEnter o) := by
  unfold State.spillEnter
  refine Kept.trans ?_ (.hostEvent _ _ _)
  exact ⟨rfl, rfl, rfl, rfl⟩

/-- `u` has the ports of `s`, and its host sides but for a PAUSE frame that waits. -/
structure KeptP (s u : State) : Prop where
  port : u.port = s.port
  twin : u.twin = s.twin
  lane : u.lane = s.lane
  side : ∀ m : Fin 12, { u.side[m] with pause := none, pauseTb := 0 } = { s.side[m] with pause := none, pauseTb := 0 }

theorem Kept.p {s u : State} (h : Kept s u) : KeptP s u := ⟨h.port, h.twin, h.lane, fun m => by rw [h.side]⟩

theorem KeptP.trans {s t u : State} (a : KeptP s t) (b : KeptP t u) : KeptP s u :=
  ⟨b.port.trans a.port, b.twin.trans a.twin, b.lane.trans a.lane, fun m => (b.side m).trans (a.side m)⟩

theorem KeptP.ite {s t u : State} {c : Prop} [Decidable c] (a : KeptP s t) (b : KeptP s u) :
    KeptP s (if c then t else u) := by
  split
  · exact a
  · exact b

theorem KeptP.askPause (s : State) (o : Fin 12) (q : Nat) : KeptP s (s.askPause o q) := by
  unfold State.askPause
  refine .ite ⟨rfl, rfl, rfl, fun m => ?_⟩ (Kept.refl _).p
  by_cases h : o = m
  · subst h; simp [State.modSide]
  · have : o.val ≠ m.val := fun e => h (Fin.ext e)
    simp [State.modSide, Vector.getElem_set_ne _ _ this]

theorem KeptP.icong (s : State) (o : Fin 12) : KeptP s (s.icong o) := by
  unfold State.icong
  dsimp only
  refine .ite (.ite ((Kept.wr _ _ _).p.trans (.askPause _ _ _)) (Kept.refl _).p) (.ite ?_ (Kept.refl _).p)
  refine KeptP.trans ?_ (.askPause _ _ _)
  exact (((Kept.wr _ _ _).trans (.hostCount _ _ _ _)).trans (.hostEvent _ _ _)).p

theorem KeptP.icongAll (s : State) : KeptP s s.icongAll := by
  unfold State.icongAll
  generalize s.owners = l
  induction l generalizing s with
  | nil => exact (Kept.refl s).p
  | cons o l ih => exact (KeptP.icong s o).trans (ih (s.icong o))

theorem KeptP.spillCheck (s : State) (o : Fin 12) : KeptP s (s.spillCheck o) := by
  unfold State.spillCheck
  dsimp only
  refine KeptP.trans ?_ (.icong _ _)
  refine (Kept.ite (.ite (.setSpillFull _ _) (.refl _)) (.ite (.ite (.spillEnter _ _) (.setSpillFull _ _)) (.wr _ _ _))).p

end Sys2Proof.Machine
end

