-- ==== Sys2Proof/Laws/Ingress.lean ====
section
/-! SUPPORT. ingress blocks, spill pages and twin configuration (07_retransmission_spill.md, 08_twin_paths.md) -/

namespace Sys2Proof.Machine

theorem ingressBlk_up (u : State) (n : Fin 8) (o : Fin 12) (b : Blk) (h : u.ownerUp o = true) :
    { (u.ingressBlk n o b).side[o] with pause := none, pauseTb := 0 } = { (u.ingressPush o b).side[o] with pause := none, pauseTb := 0 } ∧
    (∀ g : Fld, ¬ TakeA (g.key / 32) → (u.ingressBlk n o b).rd g = (u.ingressPush o b).rd g) := by
  unfold State.ingressBlk
  rw [if_pos h]
  dsimp only
  have hk := KeptP.spillCheck (u.ingressPush o b) o
  have ht := spillCheck_take (u.ingressPush o b) o
  have hl : ∀ v : State, (v.lpiTrigger n).side = v.side := by intro v; unfold State.lpiTrigger; dsimp only; split <;> rfl
  split
  · exact ⟨hk.side o, ht⟩
  · refine ⟨?_, fun g hg => ?_⟩
    · simp only [hl]; exact hk.side o
    · rw [State.lpiTrigger_rd']; exact ht g hg

/-- The counters of an owner's host side count now (R253). -/
def State.counting (s : State) (o : Fin 12) : Bool := s.spillRegs o && (s.ownerSpire o || decide (8 ≤ o.val))

theorem hostCount_side (s : State) (o : Fin 12) (f k) : (s.hostCount o f k).side = s.side := by
  unfold State.hostCount State.iff; split <;> rfl

theorem hostCount_rd (s : State) (o : Fin 12) (f : Fld) (k : Nat) :
    (s.hostCount o f k).rd f = if s.counting o then (s.rd f + k) % 2 ^ f.width else s.rd f := by
  unfold State.hostCount State.iff State.counting
  split
  · exact State.rd_count_same _ _ _
  · rfl

theorem hostCount_other (s : State) (o : Fin 12) (f g : Fld) (k : Nat) (h : f.key ≠ g.key) : (s.hostCount o f k).rd g = s.rd g := by
  unfold State.hostCount State.iff
  split
  · exact State.rd_count_other _ _ h
  · rfl

theorem hostCount_cup (s : State) (o : Fin 12) (f k) : (s.hostCount o f k).cup = s.cup := by
  unfold State.hostCount State.iff; split <;> rfl

theorem counting_modSide (s : State) (o o' : Fin 12) (g) : (s.modSide o' g).counting o = s.counting o := rfl

theorem push_in (u : State) (o : Fin 12) (pay : Nat) (h : u.side[o].inFrame = true) :
    (u.side[o].dropping = true → (u.ingressPush o ⟨false, pay⟩).side[o] = { u.side[o] with dropping := true, inFrame := true } ∧ (u.ingressPush o ⟨false, pay⟩).regs = u.regs) ∧
    (u.side[o].dropping = false → u.side[o].ingress.length + 1 < 8192 → (u.ingressPush o ⟨false, pay⟩).side[o] = { u.side[o] with ingress := u.side[o].ingress ++ [⟨false, pay⟩], inFrame := true }) ∧
    (u.side[o].dropping = false → ¬ u.side[o].ingress.length + 1 < 8192 → (u.ingressPush o ⟨false, pay⟩).side[o] = { u.side[o] with ingress := u.side[o].ingress ++ [errorBlk], dropping := true, inFrame := true } ∧
      (u.ingressPush o ⟨false, pay⟩).rd (F.ING_LOSS.TRUNC (spillPort o)) =
        if u.counting o then (u.rd (F.ING_LOSS.TRUNC (spillPort o)) + 1) % 2 ^ 16 else u.rd (F.ING_LOSS.TRUNC (spillPort o))) := by
  unfold State.ingressPush
  dsimp only
  rw [if_pos h]
  have ht : Blk.isTerm ⟨false, pay⟩ = false := rfl
  rw [ht]
  refine ⟨?_, ?_, ?_⟩
  · intro h2
    rw [if_pos h2]
    exact ⟨by simp [State.modSide], rfl⟩
  · intro h2 h3
    rw [if_neg (by rw [h2]; decide), if_pos h3]
    simp [State.modSide]
  · intro h2 h3
    rw [if_neg (by rw [h2]; decide), if_neg h3]
    constructor
    · simp only [hostEvent_side, hostCount_side]; simp [State.modSide]
    · rw [hostEvent_take _ _ _ (fun n => by simp only [TakeA, Fld.key]; omega) _ (by simp only [TakeA, Fld.key]; omega), hostCount_rd]; rfl

theorem push_start (u : State) (o : Fin 12) (b : Blk) (h : u.side[o].inFrame = false) (hs : b.isStart = true) :
    (u.side[o].ingress.length + 1208 ≤ 8192 → (u.ingressPush o b).side[o] = { u.side[o] with ingress := u.side[o].ingress ++ [b], inFrame := true, dropping := false }) ∧
    (8192 < u.side[o].ingress.length + 1208 → (u.ingressPush o b).side[o] = { u.side[o] with dropping := true, inFrame := true } ∧
      (u.ingressPush o b).rd (F.ING_DROP.DROP_FRAMES (spillPort o)) =
        if u.counting o then (u.rd (F.ING_DROP.DROP_FRAMES (spillPort o)) + 1) % 2 ^ 32 else
          u.rd (F.ING_DROP.DROP_FRAMES (spillPort o))) := by
  unfold State.ingressPush
  dsimp only
  rw [if_neg (by rw [h]; decide), if_pos hs]
  constructor
  · intro h2
    rw [if_neg (by show ¬ 8192 - _ < 1208; omega)]
    simp [State.modSide]
  · intro h2
    rw [if_pos (by show 8192 - _ < 1208; omega)]
    constructor
    · simp only [hostEvent_side, hostCount_side]; simp [State.modSide]
    · rw [hostEvent_take _ _ _ (fun n => by simp only [TakeA, Fld.key]; omega) _ (by simp only [TakeA, Fld.key]; omega), hostCount_rd]; rfl

theorem push_fill (u : State) (o : Fin 12) (h : u.side[o].inFrame = false) (hs : u.side[o].ingress.length + 1 < 8192) :
    (u.ingressPush o idleBlk).side[o] = { u.side[o] with ingress := u.side[o].ingress ++ [idleBlk] } ∧ (u.ingressPush o idleBlk).regs = u.regs := by
  unfold State.ingressPush
  dsimp only
  rw [if_neg (by rw [h]; decide), if_neg (by decide), if_pos hs]
  exact ⟨by simp [State.modSide], rfl⟩

theorem rateMatch_eq (z : State) (n : Fin 8) (b : Blk) (fill : Nat) (ns : Bool) (o : Fin 12) (h : z.ownerOf n = o) : z.rateMatch n b fill ns =
    if rmDeletes z.side[o].rmPrev b fill ns then (z.modSide o fun h => { h with rmPrev := some b }).count (F.HL_CNT_RM.IDLE_DEL n)
    else if rmInserts b fill z.side[o].inFrame then
      (((z.modSide o fun h => { h with rmPrev := some b }).ingressBlk n o b).ingressBlk n o idleBlk).count (F.HL_CNT_RM.IDLE_INS n)
    else (z.modSide o fun h => { h with rmPrev := some b }).ingressBlk n o b := by
  subst h; rfl

theorem rd_ne (s : State) (f : Fld) (b : Bool) (g : Fld) (h : g.key / 32 ≠ f.key / 32) : (s.wrB f b).rd g = s.rd g :=
  State.rd_wrB_other _ _ (fun e => h (by rw [e]))

theorem ownerUp_congr (s u : State) (o : Fin 12) (ht : u.twin = s.twin)
    (h : ∀ g : Fld, (g.key / 32 % 0x100000 = 0x1020 ∧ 0x200000 ≤ g.key / 32 ∨ 0x1f0000 ≤ g.key / 32 ∧ g.key / 32 < 0x1f1000) → u.rd g = s.rd g) : u.ownerUp o = s.ownerUp o := by
  have hk := (pairOfOwner o).isLt
  have hl : u.laneOf o = s.laneOf o := by
    unfold State.laneOf State.on
    dsimp only
    rw [ht, h _ (by simp only [Fld.key]; omega)]
  unfold State.ownerUp State.linkUp State.link
  rw [hl, h _ (by simp only [Fld.key]; omega), h _ (by simp only [Fld.key]; omega)]

theorem hostEvent_rd (s : State) (o : Fin 12) (f : Nat → Fld) (g : Fld) (h : ∀ n : Fin 8, (f n).key ≠ g.key) : (s.hostEvent o f).rd g = s.rd g := by
  unfold State.hostEvent
  generalize ownerPorts o = l
  induction l generalizing s with
  | nil => rfl
  | cons a l ih =>
    rw [List.foldl_cons, ih]; split
    · exact State.rd_wrB_other _ _ (h a)
    · rfl

theorem icong_rd (s : State) (o : Fin 12) (g : Fld) (h1 : g.key ≠ (F.SPILL_STATUS.ICONG (spillPort o)).key) (h2 : g.key ≠ (F.SPILL_EV.ICONG_ON (spillPort o)).key)
    (h3 : ∀ n : Fin 8, g.key ≠ (F.RTX_EVENT.ICONG_RISE n).key) : (s.icong o).rd g = s.rd g := by
  have ha : ∀ (v : State) (q), (v.askPause o q).rd g = v.rd g := by intro v q; unfold State.askPause; split <;> rfl
  unfold State.icong
  dsimp only
  split_ifs
  · rw [ha, State.rd_wrB_other _ _ h1.symm]
  · rfl
  · rw [ha, hostEvent_rd _ _ _ _ (fun n => (h3 n).symm), hostCount_other _ _ _ _ _ h2.symm, State.rd_wrB_other _ _ h1.symm]
  · rfl

theorem icongAll_rd (s : State) (g : Fld) (h1 : ∀ o : Fin 12, g.key ≠ (F.SPILL_STATUS.ICONG (spillPort o)).key)
    (h2 : ∀ o : Fin 12, g.key ≠ (F.SPILL_EV.ICONG_ON (spillPort o)).key)
    (h3 : ∀ n : Fin 8, g.key ≠ (F.RTX_EVENT.ICONG_RISE n).key) : s.icongAll.rd g = s.rd g := by
  unfold State.icongAll
  generalize s.owners = l
  induction l generalizing s with
  | nil => rfl
  | cons o l ih => rw [List.foldl_cons, ih, icong_rd s o g (h1 o) (h2 o) h3]

theorem syncPool_rd (s : State) (g : Fld) (h : g.key / 32 < 0x100000 ∨ 0x100300 ≤ g.key / 32) : s.syncPool.rd g = s.rd g := by
  unfold State.syncPool
  dsimp only
  simp only [Fld.key] at h
  rw [State.rd_wrB_other _ _ (by simp only [Fld.key]; omega), State.rd_wr_other _ _ (by simp only [Fld.key]; omega), State.rd_wr_other _ _ (by simp only [Fld.key]; omega)]
  split
  · rw [State.rd_wrB_other _ _ (by simp only [Fld.key]; omega)]
  · rfl

theorem syncInUse_rd (s : State) (o : Fin 12) (g : Fld) (h1 : g.key ≠ (F.SPILL_STATUS.IN_USE (spillPort o)).key) (h2 : g.key ≠ (F.SPILL_PEAK.PEAK (spillPort o)).key) : (s.syncInUse o).rd g = s.rd g := by
  unfold State.syncInUse State.peak
  split
  · rw [State.rd_wr_other _ _ h2.symm, State.rd_wr_other _ _ h1.symm]
  · rw [State.rd_wr_other _ _ h1.symm]

theorem spillPort_cases (o : Fin 12) : spillPort o < 8 ∨ 4096 ≤ spillPort o ∧ spillPort o < 4108 := by
  unfold spillPort; split <;> omega

theorem allocPage_eq (s : State) (o : Fin 12) (c : Nat) (h : s.allocCh o = some c) : ∃ u : State, s.allocPage o = (u.syncInUse o).syncPool ∧ u.regs = s.regs ∧
    u.side[o] = { s.side[o] with pages := s.side[o].pages ++ [{ page := (s.cup.spt.free.getD c []).headD 0 }], lastCh := some c } ∧ u.cup.spt.free = s.cup.spt.free.set c ((s.cup.spt.free.getD c []).drop 1) := by
  refine ⟨({ s with cup := { s.cup with spt := s.cup.spt.take c } } : State).modSide o fun x => { x with pages := x.pages ++ [{ page := (s.cup.spt.free.getD c []).headD 0 }], lastCh := some c }, ?_, rfl, ?_, rfl⟩
  · unfold State.allocPage; rw [h]
  · simp [State.modSide]

theorem allocCh_congr (s u : State) (o : Fin 12) (h1 : u.side = s.side) (h2 : ∀ c, u.chUp c = s.chUp c) (h3 : u.cup = s.cup) : u.allocCh o = s.allocCh o := by
  unfold State.allocCh
  rw [h1, h3]
  simp only [h2]

theorem rdcup_icong (s : State) (o : Fin 12) : (s.icong o).cup = s.cup := by
  have he : ∀ (v : State) f, (v.hostEvent o f).cup = v.cup := by
    intro v f
    unfold State.hostEvent
    generalize ownerPorts o = l
    induction l generalizing v with
    | nil => rfl
    | cons a l ih => rw [List.foldl_cons, ih]; split <;> rfl
  have ha : ∀ (v : State) (q), (v.askPause o q).cup = v.cup := by intro v q; unfold State.askPause; split <;> rfl
  unfold State.icong
  dsimp only
  split_ifs <;> simp [ha, he, hostCount_cup]

theorem rdcup_icongAll (s : State) : s.icongAll.cup = s.cup := by
  unfold State.icongAll
  generalize s.owners = l
  induction l generalizing s with
  | nil => rfl
  | cons o l ih => rw [List.foldl_cons, ih, rdcup_icong]

theorem hostEvent_cup (v : State) (o : Fin 12) (f) : (v.hostEvent o f).cup = v.cup := by
  unfold State.hostEvent
  generalize ownerPorts o = l
  induction l generalizing v with
  | nil => rfl
  | cons a l ih => rw [List.foldl_cons, ih]; split <;> rfl

theorem syncPool_cup (s : State) : s.syncPool.cup = s.cup := by unfold State.syncPool; dsimp only; split <;> rfl

theorem syncInUse_cup (s : State) (o) : (s.syncInUse o).cup = s.cup := by unfold State.syncInUse State.peak; split <;> rfl

theorem setSpillFull_on (s : State) (o : Fin 12) : (s.setSpillFull o).on (F.SPILL_STATUS.SPILL_FULL (spillPort o)) = true := by
  unfold State.setSpillFull
  split
  · assumption
  · unfold State.on
    rw [hostEvent_rd _ _ _ _ (fun n => by simp only [Fld.key]; omega), State.rd_wrB_same]; rfl

end Sys2Proof.Machine
end

