-- ==== Sys2Proof/Laws/Stored.lean ====
section
/-! SUPPORT. What an access to the memories of the 40-bit map leaves alone (01_architecture.md R32, 14_cupola.md R488-R506):
every register below 0x100000 outside the fault, journal and bandwidth blocks, and what the Belfry and the links hold. -/

namespace Sys2Proof.Machine

/-- The register addresses that an access to memory may change. -/
def MemA (a : Nat) : Prop := FltA a ∨ 0x100000 ≤ a

/-- `u` differs from `s` as an access to memory may make it differ. -/
structure Stored (s u : State) : Prop where
  bf : u.bf = s.bf
  pseq : u.bfPseq = s.bfPseq
  tb : u.tb = s.tb
  port : u.port = s.port
  side : u.side = s.side
  twin : u.twin = s.twin
  lane : u.lane = s.lane
  touch : Touch MemA s u

theorem Stored.refl (s : State) : Stored s s := ⟨rfl, rfl, rfl, rfl, rfl, rfl, rfl, .refl _⟩

theorem Stored.trans {s t u : State} (a : Stored s t) (b : Stored t u) : Stored s u :=
  ⟨b.bf.trans a.bf, b.pseq.trans a.pseq, b.tb.trans a.tb, b.port.trans a.port, b.side.trans a.side, b.twin.trans a.twin,
    b.lane.trans a.lane, a.touch.trans b.touch⟩

theorem Stored.ite {s t u : State} {c : Prop} [Decidable c] (a : Stored s t) (b : Stored s u) : Stored s (if c then t else u) := by
  split
  · exact a
  · exact b

theorem Stored.wr (s : State) (f : Fld) (v : Nat) (h : MemA (f.key / 32)) : Stored s (s.wr f v) :=
  ⟨rfl, rfl, rfl, rfl, rfl, rfl, rfl, .wr _ _ _ h⟩

theorem Stored.rise (s : State) (i : Nat) (d) (inj quiet : Bool) : Stored s (s.rise i d inj quiet) := by
  have h := (State.rise_flt s i d inj quiet).1
  refine ⟨?_, ?_, ?_, ?_, ?_, ?_, ?_, .rise _ _ _ _ _ fun _ h => .inl h⟩ <;> (rw [h]; try rfl)

theorem Stored.wrB (s : State) (f : Fld) (b : Bool) (h : MemA (f.key / 32)) : Stored s (s.wrB f b) := .wr _ _ _ h
theorem Stored.count (s : State) (f : Fld) (k : Nat) (h : MemA (f.key / 32)) : Stored s (s.count f k) := .wr _ _ _ h
theorem Stored.countSat (s : State) (f : Fld) (k : Nat) (h : MemA (f.key / 32)) : Stored s (s.countSat f k) := .wr _ _ _ h

/-- The classes of grant are the five of R502. -/
theorem State.baseClass_le (s : State) (i : Nat) : s.baseClass i ≤ clS := by
  unfold State.baseClass
  dsimp only
  split
  · decide
  · split
    · decide
    · split
      · decide
      · omega

theorem State.grantClass_le (s : State) (i : Nat) : s.grantClass i ≤ clS := by
  have := s.baseClass_le i
  unfold State.grantClass
  dsimp only
  split_ifs <;> first | omega | decide

theorem Stored.countGrant (s : State) (cl k n : Nat) (h : k ≤ clS) : Stored s (s.countGrant cl k n) := by
  have h : k ≤ 4 := h
  unfold State.countGrant State.count64
  refine Stored.trans (t := { s with cup := { s.cup with winBytes := spPut s.cup.winBytes cl ((spFind s.cup.winBytes cl).getD 0 + n) } })
    ⟨rfl, rfl, rfl, rfl, rfl, rfl, rfl, .regs rfl⟩ ?_
  exact (Stored.wr _ _ _ (by simp only [MemA, FltA, Fld.key]; omega)).trans (Stored.wr _ _ _ (by simp only [MemA, FltA, Fld.key, Fld.hidden]; omega))

theorem Stored.grantUnits (cl : Nat) : ∀ (k : Nat) (s : State), Stored s (s.grantUnits cl k)
  | 0, s => .refl s
  | k + 1, s => (Stored.countGrant s cl _ 64 (s.grantClass_le cl)).trans (Stored.grantUnits cl k _)

theorem Stored.errCapture (s : State) (c addr type src mid rank dev cw : Nat) :
    Stored s (s.errCapture c addr type src mid rank dev cw) := by
  have w : ∀ (s : State) (f : Fld) (v : Nat), 0x100000 ≤ f.key / 32 → Stored s (s.wr f v) := fun s f v h => .wr _ _ _ (.inr h)
  have wb : ∀ (s : State) (f : Fld) (v : Bool), 0x100000 ≤ f.key / 32 → Stored s (s.wrB f v) := fun s f v h => .wr _ _ _ (.inr h)
  unfold State.errCapture
  refine .ite (.refl _) ?_
  refine ((((((((w _ _ _ ?_).trans (wb _ _ _ ?_)).trans (w _ _ _ ?_)).trans (w _ _ _ ?_)).trans (w _ _ _ ?_)).trans (w _ _ _ ?_)).trans (w _ _ _ ?_)).trans (w _ _ _ ?_)) <;>
    (simp only [Fld.key]; omega)

theorem Stored.ueCount (s : State) (c : Nat) : Stored s (s.ueCount c) := by
  unfold State.ueCount
  exact .ite ⟨rfl, rfl, rfl, rfl, rfl, rfl, rfl, .regs rfl⟩ ⟨rfl, rfl, rfl, rfl, rfl, rfl, rfl, .regs rfl⟩

theorem Stored.eccReport (s : State) (a : Nat) (e : Ecc) (src mid : Nat) : Stored s (s.eccReport a e src mid) := by
  have m : ∀ f : Fld, 0x100000 ≤ f.key / 32 → MemA (f.key / 32) := fun _ h => .inr h
  unfold State.eccReport
  dsimp only
  split
  · exact .refl _
  · refine Stored.trans ?_ (.rise _ _ _ _ _)
    refine Stored.trans ?_ (.errCapture _ _ _ _ _ _ _ _ _)
    have h1 : Stored s (s.count (F.CH_ECC.CE_CNT (s.cup.chOf a))) := .count _ _ _ (m _ (by simp only [Fld.key]; omega))
    split
    · exact .ite (h1.trans (.countSat _ _ _ (m _ (by simp only [Fld.key]; omega)))) (h1.trans (.countSat _ _ _ (m _ (by simp only [Fld.key]; omega))))
    · exact h1
  · have h1 : Stored s (s.count (F.CH_ECC.UE_CNT (s.cup.chOf a))) := .count _ _ _ (m _ (by simp only [Fld.key]; omega))
    exact (((h1.trans (.wrB _ _ _ (m _ (by simp only [Fld.key]; omega)))).trans (.errCapture _ _ _ _ _ _ _ _ _)).trans (.rise _ _ _ _ _)).trans (.ueCount _ _)
  · have h1 : Stored s (s.count (F.CH_ECC.UE_CNT (s.cup.chOf a))) := .count _ _ _ (m _ (by simp only [Fld.key]; omega))
    exact ((h1.trans (.wrB _ _ _ (m _ (by simp only [Fld.key]; omega)))).trans (.errCapture _ _ _ _ _ _ _ _ _)).trans (.rise _ _ _ _ _)

theorem Stored.cup (s : State) (c : Cup) : Stored s { s with cup := c } := ⟨rfl, rfl, rfl, rfl, rfl, rfl, rfl, .regs rfl⟩
theorem Stored.drawFree (s : State) (k : Nat) : Stored s (s.drawFree k).2 := ⟨rfl, rfl, rfl, rfl, rfl, rfl, rfl, .regs rfl⟩
theorem Stored.ddr (s : State) (a : Nat) (bs : List Byte) : Stored s { s with ddr := s.ddr.writeL a bs } :=
  ⟨rfl, rfl, rfl, rfl, rfl, rfl, rfl, .regs rfl⟩

theorem Stored.cwRead (s : State) (q : Nat) (env : Ecc) (src mid : Nat) (wb : Bool) : Stored s (s.cwRead q env src mid wb).2 := by
  unfold State.cwRead
  dsimp only
  exact .ite ((Stored.eccReport _ _ _ _ _).trans (.cup _ _)) (.eccReport _ _ _ _ _)

theorem Stored.cwReads (src mid : Nat) (env : Nat → Ecc) : ∀ (k q : Nat) (s : State), Stored s (s.cwReads src mid env q k).2.2
  | 0, _, s => .refl s
  | k + 1, q, s => by
    unfold State.cwReads
    dsimp only
    refine Stored.trans ?_ (Stored.cwReads src mid env k _ _)
    refine (Stored.cwRead s q (env q) src mid (s.on F.CUP_CTRL.ECC_WB)).trans ?_
    unfold State.cwBytes
    split
    · exact .drawFree _ 128
    · exact .refl _

theorem Stored.ddrRead (s : State) (src mid a len : Nat) (env : Nat → Ecc) : Stored s (s.ddrRead src mid a len env).2.2 := by
  unfold State.ddrRead
  dsimp only
  split
  · exact Stored.trans (t := s.chTouch _) (.cup _ _) (.cwReads _ _ _ _ _ _)
  · exact .refl _

theorem Stored.cwWrite (s : State) (mid a : Nat) (bs : List Byte) (env : Ecc) : Stored s (s.cwWrite mid a bs env).2 := by
  unfold State.cwWrite
  dsimp only
  split
  · unfold State.injectInto
    refine Stored.trans (t := ({ s with ddr := s.ddr.writeL a bs } : State).dropFlaw (a / 16)) ⟨rfl, rfl, rfl, rfl, rfl, rfl, rfl, .regs rfl⟩ ?_
    refine .ite ?_ (.refl _)
    have h1 : ∀ v : State, Stored v (v.wrB (F.CH_INJECT.INJ_ARM (s.cup.chOf a)) false) := fun v => .wrB _ _ _ (.inr (by simp only [Fld.key]; omega))
    exact .ite (h1 _) ((h1 _).trans (.cup _ _))
  · split
    · exact (Stored.cwRead _ _ _ _ _ _).trans ⟨rfl, rfl, rfl, rfl, rfl, rfl, rfl, .regs rfl⟩
    · exact (Stored.cwRead _ _ _ _ _ _).trans ⟨rfl, rfl, rfl, rfl, rfl, rfl, rfl, .regs rfl⟩

theorem Stored.cwWrites (mid : Nat) (env : Nat → Ecc) : ∀ (k a : Nat) (bs : List Byte) (s : State),
    Stored s (s.cwWrites mid env k a bs).2
  | 0, _, _, s => .refl s
  | k + 1, a, bs, s => by
    unfold State.cwWrites
    split
    · exact .refl _
    · exact (Stored.cwWrite _ _ _ _ _).trans (Stored.cwWrites mid env k _ _ _)

theorem Stored.monClear (s : State) (a n : Nat) : Stored s (s.monClear a n) := ⟨rfl, rfl, rfl, rfl, rfl, rfl, rfl, .regs rfl⟩

theorem Stored.ddrWrite (s : State) (mid a : Nat) (bs : List Byte) (env : Nat → Ecc) : Stored s (s.ddrWrite mid a bs env).2 := by
  unfold State.ddrWrite
  dsimp only
  split
  · exact (Stored.cup s _).trans ((Stored.monClear _ _ _).trans (.cwWrites _ _ _ _ _ _))
  · exact .refl _

theorem Stored.memRead1 (s : State) (mid cl a len : Nat) (env : Nat → Ecc) : Stored s (s.memRead1 mid cl a len env).2.2 := by
  unfold State.memRead1
  split
  · split <;> exact .refl _
  · split <;> exact .refl _
  · split
    · exact (Stored.grantUnits _ _ _).trans (.ddrRead _ _ _ _ _ _)
    · exact .refl _
  · exact .refl _

theorem Stored.memWrite1 (s : State) (mid cl a : Nat) (bs : List Byte) (env : Nat → Ecc) : Stored s (s.memWrite1 mid cl a bs env).2 := by
  unfold State.memWrite1
  split
  · split
    · exact ⟨rfl, rfl, rfl, rfl, rfl, rfl, rfl, .regs rfl⟩
    · exact .refl _
  · split
    · exact (Stored.grantUnits _ _ _).trans (.ddrWrite _ _ _ _ _)
    · exact .refl _
  · exact .refl _

theorem Stored.memReadF (mid cl : Nat) (env : Nat → Ecc) : ∀ (k a len : Nat) (s : State), Stored s (s.memReadF mid cl env k a len).2.2
  | 0, _, _, s => .refl s
  | k + 1, a, len, s => by
    unfold State.memReadF
    split
    · exact .refl _
    · exact (Stored.memRead1 _ _ _ _ _ _).trans (Stored.memReadF mid cl env k _ _ _)

theorem Stored.memWriteF (mid cl : Nat) (env : Nat → Ecc) : ∀ (k a : Nat) (bs : List Byte) (s : State), Stored s (s.memWriteF mid cl env k a bs).2
  | 0, _, _, s => .refl s
  | k + 1, a, bs, s => by
    unfold State.memWriteF
    split
    · exact .refl _
    · exact (Stored.memWrite1 _ _ _ _ _ _).trans (Stored.memWriteF mid cl env k _ _ _)

theorem Stored.rangeCheck (s : State) (mid a : Nat) (wr : Bool) : Stored s (s.rangeCheck mid a wr) := by
  unfold State.rangeCheck
  split
  · exact .refl _
  · exact .rise _ _ _ _ _

theorem Stored.memRead (s : State) (mid cl a len : Nat) (env : Nat → Ecc) : Stored s (s.memRead mid cl a len env).2.2 :=
  (Stored.rangeCheck _ _ _ _).trans (.memReadF _ _ _ _ _ _ _)
theorem Stored.memWrite (s : State) (mid cl a : Nat) (bs : List Byte) (env : Nat → Ecc) : Stored s (s.memWrite mid cl a bs env).2 :=
  (Stored.rangeCheck _ _ _ _).trans (.memWriteF _ _ _ _ _ _ _)

end Sys2Proof.Machine
end

