-- ==== Sys2Proof/Laws/Ring.lean ====
section
/-! SUPPORT. What the TX ring of a Belfry transceiver does and leaves alone (09_belfry.md R315-R317). -/

namespace Sys2Proof.Machine

/-- The fields that ring accesses change: memory's, and the ring's own heads, errors, events and counts. -/
def RingK (k : Nat) : Prop :=
  MemA (k / 32) ∨ ∃ l : Fin 2, k = (F.TXR_CFG.TX_HEAD l).key ∨ k = (F.BF_STATUS.RING_ERR_TX l).key ∨
    k = (F.BF_STATUS.RING_ERR_RX l).key ∨ k = (F.BF_EVENT.RING_ERR l).key ∨ k = (F.BF_EVENT.TX_DONE l).key ∨
    k = (F.BF_CNT_TX.TX_FAIL l).key

/-- `u` differs from `s` as ring accesses may make it differ: in the descriptor in action and the fields of `RingK`. -/
structure RingKept (s u : State) : Prop where
  tb : u.tb = s.tb
  pseq : u.bfPseq = s.bfPseq
  bf : ∀ l : Fin 2, { u.bf[l] with ring := none } = { s.bf[l] with ring := none }
  rd : ∀ g : Fld, ¬ RingK g.key → u.rd g = s.rd g

theorem RingKept.refl (s : State) : RingKept s s := ⟨rfl, rfl, fun _ => rfl, fun _ _ => rfl⟩

theorem RingKept.trans {s t u : State} (a : RingKept s t) (b : RingKept t u) : RingKept s u :=
  ⟨b.tb.trans a.tb, b.pseq.trans a.pseq, fun l => (b.bf l).trans (a.bf l), fun g h => (b.rd g h).trans (a.rd g h)⟩

theorem RingKept.ite {s t u : State} {c : Prop} [Decidable c] (a : RingKept s t) (b : RingKept s u) :
    RingKept s (if c then t else u) := by
  split
  · exact a
  · exact b

theorem Stored.ring {s u : State} (h : Stored s u) : RingKept s u :=
  ⟨h.tb, h.pseq, fun l => by rw [h.bf], fun g hg => h.touch g fun hm => hg (.inl hm)⟩

theorem RingKept.wr (s : State) (f : Fld) (v : Nat) (h : RingK f.key) : RingKept s (s.wr f v) :=
  ⟨rfl, rfl, fun _ => rfl, fun _ hg => State.rd_wr_other _ _ fun e => hg (e ▸ h)⟩

theorem RingKept.wrB (s : State) (f : Fld) (v : Bool) (h : RingK f.key) : RingKept s (s.wrB f v) := .wr _ _ _ h

theorem RingKept.modRing (s : State) (b : Fin 2) (f : Bf → Bf) (h : ∀ x, { f x with ring := none } = { x with ring := none }) :
    RingKept s (s.modBf b f) := by
  refine ⟨rfl, rfl, fun l => ?_, fun _ _ => rfl⟩
  unfold State.modBf
  by_cases e : l = b
  · subst e
    simpa using h _
  · have : (s.bf.set b (f s.bf[b]))[l] = s.bf[l] := by
      simp [Fin.val_inj, Ne.symm e]
    simp only [this]

theorem RingKept.ringErrTx (s : State) (b : Fin 2) : RingKept s (s.ringErr b F.BF_STATUS.RING_ERR_TX) := by
  unfold State.ringErr
  dsimp only
  refine ((RingKept.wrB _ _ _ ?_).trans (.wrB _ _ _ ?_)).trans (Stored.rise _ _ _ _ _).ring
  · exact .inr ⟨b, .inr (.inl rfl)⟩
  · exact .inr ⟨b, .inr (.inr (.inr (.inl rfl)))⟩

theorem RingKept.ringErrRx (s : State) (b : Fin 2) : RingKept s (s.ringErr b F.BF_STATUS.RING_ERR_RX) := by
  unfold State.ringErr
  dsimp only
  refine ((RingKept.wrB _ _ _ ?_).trans (.wrB _ _ _ ?_)).trans (Stored.rise _ _ _ _ _).ring
  · exact .inr ⟨b, .inr (.inr (.inl rfl))⟩
  · exact .inr ⟨b, .inr (.inr (.inr (.inl rfl)))⟩

theorem RingKept.bfRead (s : State) (a len : Nat) : RingKept s (s.bfRead a len).2.2 := (Stored.memRead s 0x20 29 a len noEcc).ring
theorem RingKept.bfWrite (s : State) (a : Nat) (bs : List Nat) : RingKept s (s.bfWrite a bs).2 :=
  (Stored.memWrite s 0x20 29 a (bs.map fun v => BitVec.ofNat 8 v) noEcc).ring

theorem RingKept.txComplete (s : State) (b : Fin 2) (d : BfDesc) (r : Nat) : RingKept s (s.txComplete b d r) := by
  unfold State.txComplete
  extract_lets bf a w3 r1 r2 s1
  have h1 : RingKept s s1 := ((RingKept.bfWrite _ _ _).trans (.bfWrite _ _ _)).trans (.modRing _ _ _ fun _ => rfl)
  clear_value s1
  refine .ite (h1.trans (.ringErrTx _ _)) ?_
  have h2 := (h1.trans (RingKept.wr _ (F.TXR_CFG.TX_HEAD b) (if d.old then s.rd (F.TXR_CFG.TX_HEAD b) else
    (s.rd (F.TXR_CFG.TX_HEAD b) + 1) % 2 ^ bf.txLog) (.inr ⟨b, .inl rfl⟩))).trans
    (RingKept.wrB _ (F.BF_EVENT.TX_DONE b) true (.inr ⟨b, .inr (.inr (.inr (.inr (.inl rfl))))⟩))
  exact .ite h2 (h2.trans (.wr _ _ _ (.inr ⟨b, .inr (.inr (.inr (.inr (.inr rfl))))⟩)))

theorem RingKept.ringRead (b : Fin 2) : ∀ (k : Nat) (s : State), RingKept s (s.ringRead b k)
  | 0, s => .refl s
  | k + 1, s => by
    unfold State.ringRead
    split
    · dsimp only
      have hr := RingKept.bfRead s (s.bf[b].txBase + 32 * s.rd (F.TXR_CFG.TX_HEAD b)) 12
      refine .ite (hr.trans (.ringErrTx _ _)) (.ite hr (.ite (hr.trans ((RingKept.txComplete _ _ _ _).trans (RingKept.ringRead b k _)))
        (.ite (hr.trans ((RingKept.txComplete _ _ _ _).trans (RingKept.ringRead b k _)))
        (.ite (hr.trans ((RingKept.txComplete _ _ _ _).trans (RingKept.ringRead b k _)))
        (.ite (hr.trans ((RingKept.bfRead _ _ _).trans ((RingKept.txComplete _ _ _ _).trans (.ringErrTx _ _))))
          (hr.trans ((RingKept.bfRead _ _ _).trans (.modRing _ _ _ fun _ => rfl))))))))
    · exact .refl _

theorem RingKept.ringGo (s : State) (b : Fin 2) : RingKept s (s.ringGo b) := .ringRead _ _ _

theorem RingKept.descCheck (s : State) (b : Fin 2) : RingKept s (s.descCheck b) := by
  unfold State.descCheck
  split
  · exact .ite (.refl _) ((RingKept.txComplete _ _ _ _).trans (.ringGo _ _))
  · exact .refl _

theorem RingKept.copyEnd (s : State) (b l : Fin 2) (sent : Bool) (tb : Nat) : RingKept s (s.copyEnd b l sent tb) := by
  unfold State.copyEnd
  refine RingKept.trans (RingKept.modRing _ _ _ ?_) (.descCheck _ _)
  exact fun _ => rfl

end Sys2Proof.Machine
end

