-- ==== Sys2Proof/Laws/Levels.lean ====
section
/-! SUPPORT. What follows the effect of a command: the interrupt levels, the MSI-X vectors, INT_N and the Lantern's doorbell (15_host_access_mailboxes.md R547, R548, R555, R556, R567). -/

namespace Sys2Proof.Machine

/-- A register field that the interrupt levels do not write. -/
def NotLv (f : Fld) : Prop := f.key / 32 ≠ 0x1010c ∧ f.key ≠ (F.DB_PEND.DB 1).key

def SameLv (s t : State) : Prop := ∀ f : Fld, NotLv f → t.rd f = s.rd f

theorem evBits_same {s t : State} (h : SameLv s t) (a lo hi : Nat) (ha : a ≠ 0x1010c) (hb : a ≠ (F.DB_PEND.DB 1).addr) (hi32 : hi < 32) : t.evBits a lo hi = s.evBits a lo hi := by
  unfold State.evBits
  have : ∀ l : List Nat, (∀ k ∈ l, k < 32) → ∀ v, l.foldl (fun v k => if lo ≤ k ∧ t.on ⟨a, k, 1, .w1c, 0⟩ then v + 2 ^ k else v) v = l.foldl (fun v k => if lo ≤ k ∧ s.on ⟨a, k, 1, .w1c, 0⟩ then v + 2 ^ k else v) v := by
    intro l
    induction l with
    | nil => intro _ v; rfl
    | cons k l ih =>
      intro hl v
      have hk := hl k List.mem_cons_self
      have e : t.on ⟨a, k, 1, .w1c, 0⟩ = s.on ⟨a, k, 1, .w1c, 0⟩ := by
        unfold State.on; rw [h]
        simp only [NotLv, Fld.key] at *; omega
      rw [List.foldl_cons, List.foldl_cons, e]
      exact ih (fun k hk => hl k (List.mem_cons_of_mem _ hk)) _
  exact this _ (by intro k hk; rw [List.mem_range] at hk; omega) 0

theorem evLine_same {s t : State} (h : SameLv s t) (a lo hi : Nat) (m : Fld) (ha : a ≠ 0x1010c) (hb : a ≠ (F.DB_PEND.DB 1).addr) (hi32 : hi < 32) (hm : NotLv m) : t.evLine a lo hi m = s.evLine a lo hi m := by
  unfold State.evLine; rw [evBits_same h a lo hi ha hb hi32, h m hm]

theorem linkInt_same {s t : State} (h : SameLv s t) (n : Nat) (hn : n < 8) : t.linkInt n = s.linkInt n := by
  unfold State.linkInt
  rw [evLine_same h, evLine_same h, evLine_same h, evLine_same h, evLine_same h, evLine_same h] <;> (try simp only [NotLv, Fld.key]) <;> omega

theorem anyLatched_same {s t : State} (h : SameLv s t) (g : Nat → Fld) (hg : ∀ i < 768, NotLv (g i)) : t.anyLatched g = s.anyLatched g := by
  unfold State.anyLatched
  rw [h F.FLT_STATUS.N_C (by simp only [NotLv, Fld.key]; omega), h F.FLT_STATUS.N_U (by simp only [NotLv, Fld.key]; omega), h F.FLT_STATUS.N_F (by simp only [NotLv, Fld.key]; omega)]
  have : ∀ l : List Nat, (∀ k ∈ l, k < 768) → (l.any fun i => t.on (F.FLT_SRC_STAT.LATCHED i) && t.on (g i)) = (l.any fun i => s.on (F.FLT_SRC_STAT.LATCHED i) && s.on (g i)) := by
    intro l
    induction l with
    | nil => intro _; rfl
    | cons k l ih =>
      intro hl
      have hk := hl k List.mem_cons_self
      rw [List.any_cons, List.any_cons, ih fun k hk => hl k (List.mem_cons_of_mem _ hk)]
      unfold State.on
      rw [h (F.FLT_SRC_STAT.LATCHED k) (by simp only [NotLv, Fld.key]; omega), h (g k) (hg k hk)]
  rw [this _ (fun k hk => List.mem_range.1 hk)]

theorem intLevels_same {s t : State} (h : SameLv s t) : t.intLevels = s.intLevels := by
  have fold : ∀ l : List Nat, (∀ k ∈ l, k < 8) → ∀ v, l.foldl (fun a n => a + b2n (t.linkInt n) * 2 ^ n) v = l.foldl (fun a n => a + b2n (s.linkInt n) * 2 ^ n) v := by
    intro l
    induction l with
    | nil => intro _ v; rfl
    | cons k l ih =>
      intro hl v
      rw [List.foldl_cons, List.foldl_cons, linkInt_same h k (hl k List.mem_cons_self)]
      exact ih (fun k hk => hl k (List.mem_cons_of_mem _ hk)) _
  unfold State.intLevels
  rw [fold _ (by intro k hk; rw [List.mem_range] at hk; omega) 0]
  have b : ∀ n < 2, t.bfInt n = s.bfInt n := by
    intro n hn; unfold State.bfInt; rw [evLine_same h] <;> (try simp only [NotLv, Fld.key]) <;> omega
  have e1 : t.cupInt = s.cupInt := by unfold State.cupInt; rw [evLine_same h] <;> (try simp only [NotLv, Fld.key]) <;> omega
  have e2 : t.sqcInt = s.sqcInt := by unfold State.sqcInt; rw [evLine_same h] <;> (try simp only [NotLv, Fld.key]) <;> omega
  have e3 : t.monInt = s.monInt := by unfold State.monInt; rw [evLine_same h] <;> (try simp only [NotLv, Fld.key]) <;> omega
  have e4 : t.calInt = s.calInt := by unfold State.calInt; rw [evLine_same h] <;> (try simp only [NotLv, Fld.key]) <;> omega
  have e5 : t.pwrInt = s.pwrInt := by unfold State.pwrInt; rw [evLine_same h, evLine_same h] <;> (try simp only [NotLv, Fld.key]) <;> omega
  have e6 : t.fltHostInt = s.fltHostInt := anyLatched_same h _ (by intro i hi; simp only [NotLv, Fld.key]; omega)
  rw [b 0 (by decide), b 1 (by decide), e1, e2, e3, e4, e5, e6]

theorem intLevels_lt (s : State) : s.intLevels < 2 ^ 16 := by
  have fold : ∀ k, ∀ v, ((List.range k).foldl (fun a n => a + b2n (s.linkInt n) * 2 ^ n) v) < v + 2 ^ k := by
    intro k
    induction k with
    | zero => intro v; simp
    | succ k ih =>
      intro v
      rw [List.range_succ, List.foldl_append, List.foldl_cons, List.foldl_nil]
      have := ih v
      have hb : b2n (s.linkInt k) ≤ 1 := by unfold b2n; split <;> omega
      have : b2n (s.linkInt k) * 2 ^ k ≤ 1 * 2 ^ k := Nat.mul_le_mul_right _ hb
      rw [pow_succ]
      omega
  have hb : ∀ b, b2n b ≤ 1 := by intro b; unfold b2n; split <;> omega
  unfold State.intLevels
  have := fold 8 0
  have h1 := hb (s.bfInt 0); have h2 := hb (s.bfInt 1); have h3 := hb s.cupInt; have h4 := hb s.sqcInt; have h5 := hb s.fltHostInt; have h6 := hb s.monInt; have h7 := hb s.calInt; have h8 := hb s.pwrInt
  omega

/-- `t` is `s` but for HIF_INT_SRC, the doorbell of endpoint 1, and what follows the levels -/
def LvShape (s t : State) : Prop :=
  t = { s with regs := t.regs, hif := { s.hif with fn := t.hif.fn, rung := t.hif.rung, intN := t.hif.intN } } ∧ SameLv s t

theorem LvShape.trans {s t u : State} (a : LvShape s t) (b : LvShape t u) : LvShape s u := by
  refine ⟨?_, fun f hf => (b.2 f hf).trans (a.2 f hf)⟩
  have h1 := a.1
  have h2 := b.1
  rw [h1] at h2
  exact h2

theorem msixFollow_shape (s : State) (irq f) : LvShape s (s.msixFollow irq f) ∧ (s.msixFollow irq f).regs = s.regs ∧ (s.msixFollow irq f).hif.rung = s.hif.rung ∧ (s.msixFollow irq f).hif.intN = s.hif.intN := by
  unfold State.msixFollow
  dsimp only
  split
  · exact ⟨⟨rfl, fun _ _ => rfl⟩, rfl, rfl, rfl⟩
  · exact ⟨⟨rfl, fun _ _ => rfl⟩, rfl, rfl, rfl⟩

theorem follow_level (p : PcieFn) (lv : Nat) : (p.follow lv).level = lv := rfl

theorem msixFollow_fn (s : State) (irq) (f : Fin 2) : (s.msixFollow irq f).hif.fn[f].level = s.pfLevels irq f ∧ ∀ g : Fin 2, g ≠ f → (s.msixFollow irq f).hif.fn[g] = s.hif.fn[g] := by
  unfold State.msixFollow
  dsimp only
  split
  · rename_i h; exact ⟨h.1.symm, fun _ _ => rfl⟩
  · constructor
    · simp only [State.modFn, Fin.getElem_fin, Vector.getElem_set_self]; exact follow_level _ _
    · intro g hg
      simp only [State.modFn, Fin.getElem_fin]
      rw [Vector.getElem_set_ne]
      intro h; exact hg (Fin.ext h.symm)

theorem ringFold (lv o : Nat) : ∀ (l : List Nat) (s : State), ∃ r, l.foldl (fun (s' : State) k => if bitB lv k && !bitB o k then s'.dbRing 1 (26 + k) else s') s = { s with regs := r } ∧
    ∀ f : Fld, f.key ≠ (F.DB_PEND.DB 1).key → ({ s with regs := r } : State).rd f = s.rd f := by
  intro l
  induction l with
  | nil => intro s; exact ⟨s.regs, rfl, fun _ _ => rfl⟩
  | cons k l ih =>
    intro s
    rw [List.foldl_cons]
    split
    · obtain ⟨r, e, h⟩ := ih (s.dbRing 1 (26 + k))
      refine ⟨r, e, fun f hf => (h f hf).trans ?_⟩
      unfold State.dbRing
      exact State.rd_wr_other _ _ hf.symm
    · exact ih s

theorem ringFollow_shape (s : State) (irq) : LvShape s (s.ringFollow irq) ∧ (s.ringFollow irq).hif.fn = s.hif.fn ∧ (s.ringFollow irq).hif.intN = s.hif.intN ∧ (s.ringFollow irq).hif.rung = ringLevels irq ∧
    (∀ f : Fld, f.key ≠ (F.DB_PEND.DB 1).key → (s.ringFollow irq).rd f = s.rd f) ∧ (ringLevels irq = s.hif.rung → s.ringFollow irq = s) := by
  unfold State.ringFollow
  dsimp only
  split
  · rename_i h; exact ⟨⟨rfl, fun _ _ => rfl⟩, rfl, rfl, h.symm, fun _ _ => rfl, fun _ => rfl⟩
  · rename_i hn
    obtain ⟨r, e, h⟩ := ringFold (ringLevels irq) s.hif.rung (List.range 5) s
    rw [e]
    exact ⟨⟨rfl, fun f hf => h f hf.2⟩, rfl, rfl, rfl, h, fun h => absurd h hn⟩

/-- The fields of HIF_INT_SRC as the levels give them. -/
def srcPut (s : State) (irq : Nat) : State :=
  ((((s.wr F.HIF_INT_SRC.SRC irq).wrB F.HIF_INT_SRC.DB_PF0 (s.dbLevels 4 != 0)).wrB F.HIF_INT_SRC.DB_PF1
    (s.dbLevels 5 != 0)).wrB F.HIF_INT_SRC.DB_MDIO (s.dbLevels 6 != 0)).wrB F.HIF_INT_SRC.ERR (s.on F.HIF_ERR_INFO.VALID)

/-- A state with INT_N driven low or not. -/
def intNPut (s1 : State) (b : Bool) : State := { s1 with hif := { s1.hif with intN := b } }

/-- The fields that a word of HIF_INT_SRC shows. -/
def srcWord (s : State) : Nat :=
  s.word [F.HIF_INT_SRC.SRC, F.HIF_INT_SRC.DB_PF0, F.HIF_INT_SRC.DB_PF1, F.HIF_INT_SRC.DB_MDIO, F.HIF_INT_SRC.ERR]

theorem srcFollow_eq (s : State) (irq : Nat) :
    s.srcFollow irq = intNPut (srcPut s irq) ((srcWord (srcPut s irq) &&& s.rd F.HIF_INTN_MASK.INTN_EN) != 0) := by
  unfold State.srcFollow
  dsimp only
  unfold intNPut srcWord srcPut
  rfl

theorem LvShape.wr (s : State) (f : Fld) (v : Nat) (h : f.key / 32 = 0x1010c) : LvShape s (s.wr f v) :=
  ⟨rfl, fun g hg => State.rd_wr_other _ _ (by unfold NotLv at hg; omega)⟩

theorem srcPut_shape (s : State) (irq : Nat) : LvShape s (srcPut s irq) := by
  unfold srcPut
  have w : ∀ (t : State) (f : Fld) (v : Nat), f.key / 32 = 0x1010c → LvShape t (t.wr f v) := fun t f v h => .wr t f v h
  exact ((((w _ _ _ (by simp only [Fld.key])).trans (w _ _ _ (by simp only [Fld.key]))).trans (w _ _ _ (by simp only [Fld.key]))).trans
    (w _ _ _ (by simp only [Fld.key]))).trans (w _ _ _ (by simp only [Fld.key]))

theorem intNPut_shape (s : State) (m : Bool) : LvShape s (intNPut s m) ∧ (intNPut s m).hif.fn = s.hif.fn ∧ (intNPut s m).hif.rung = s.hif.rung ∧
    (intNPut s m).regs = s.regs := ⟨⟨rfl, fun _ _ => rfl⟩, rfl, rfl, rfl⟩

theorem srcPut_hif (s : State) (irq : Nat) : (srcPut s irq).hif = s.hif := by unfold srcPut; rfl

theorem srcPut_rd (s : State) (irq : Nat) (f : Fld) (hf : f.key / 32 ≠ 0x1010c) : (srcPut s irq).rd f = s.rd f := by
  simp only [Fld.key] at hf
  unfold srcPut
  simp (disch := (simp only [Fld.key]; omega)) only [State.rd_wr_other, State.rd_wrB_other]

theorem srcFollow_shape (s : State) (irq) : LvShape s (s.srcFollow irq) ∧ (s.srcFollow irq).hif.fn = s.hif.fn ∧ (s.srcFollow irq).hif.rung = s.hif.rung ∧
    (∀ f : Fld, f.key / 32 ≠ 0x1010c → (s.srcFollow irq).rd f = s.rd f) := by
  rw [srcFollow_eq]
  have a := srcPut_shape s irq
  have h := srcPut_hif s irq
  have r := srcPut_rd s irq
  generalize srcPut s irq = s1 at *
  obtain ⟨b1, b2, b3, b4⟩ := intNPut_shape s1 ((srcWord s1 &&& s.rd F.HIF_INTN_MASK.INTN_EN) != 0)
  refine ⟨a.trans b1, b2.trans (by rw [h]), b3.trans (by rw [h]), fun f hf => ?_⟩
  rw [← r f hf]
  have : ∀ s t : State, s.regs = t.regs → s.rd f = t.rd f := by intro s t h; unfold State.rd; rw [h]
  exact this _ _ b4

theorem b2n_on (b : Bool) : (b2n b % 2 ^ 1 == 1) = b := by cases b <;> rfl

theorem srcFollow_vals (s : State) (irq) (hi : irq < 2 ^ 16) : (s.srcFollow irq).rd F.HIF_INT_SRC.SRC = irq ∧
    (s.srcFollow irq).on F.HIF_INT_SRC.DB_PF0 = (s.dbLevels 4 != 0) ∧ (s.srcFollow irq).on F.HIF_INT_SRC.DB_PF1 = (s.dbLevels 5 != 0) ∧
    (s.srcFollow irq).on F.HIF_INT_SRC.DB_MDIO = (s.dbLevels 6 != 0) ∧ (s.srcFollow irq).on F.HIF_INT_SRC.ERR = s.on F.HIF_ERR_INFO.VALID := by
  have r : ∀ f, (s.srcFollow irq).rd f = (srcPut s irq).rd f := by
    intro f
    rw [srcFollow_eq]
    have : ∀ s t : State, s.regs = t.regs → s.rd f = t.rd f := by intro s t h; unfold State.rd; rw [h]
    exact this _ _ (intNPut_shape _ _).2.2.2
  unfold State.on
  simp only [r]
  unfold srcPut
  refine ⟨?_, ?_, ?_, ?_, ?_⟩
  · simp (disch := (simp only [Fld.key]; omega)) only [State.rd_wr_same, State.rd_wrB_other]
    exact Nat.mod_eq_of_lt hi
  all_goals
    simp (disch := (simp only [Fld.key]; omega)) only [State.rd_wrB_same, State.rd_wrB_other]
    exact b2n_on _

theorem word_same {s t : State} (fs : List Fld) (h : ∀ f ∈ fs, t.rd f = s.rd f) : t.word fs = s.word fs := by
  unfold State.word
  have : ∀ v, fs.foldl (fun a f => a + t.rd f * 2 ^ f.lo) v = fs.foldl (fun a f => a + s.rd f * 2 ^ f.lo) v := by
    induction fs with
    | nil => intro v; rfl
    | cons f fs ih =>
      intro v
      rw [List.foldl_cons, List.foldl_cons, h f List.mem_cons_self]
      exact ih (fun f hf => h f (List.mem_cons_of_mem _ hf)) _
  exact this 0

theorem word_src {s t : State} (h : ∀ f : Fld, f.key / 32 = 0x1010c → t.rd f = s.rd f) : srcWord t = srcWord s := by
  refine word_same _ fun f hf => h f ?_
  simp only [List.mem_cons, List.not_mem_nil, or_false] at hf
  rcases hf with rfl | rfl | rfl | rfl | rfl <;> simp only [Fld.key]

theorem pfLevels_same {s t : State} (h : SameLv s t) (irq) (f : Fin 2) : t.pfLevels irq f = s.pfLevels irq f := by
  have := f.isLt
  unfold State.pfLevels State.dbLevels State.on
  rw [h (F.DB_PEND.DB (4 + f.val)) (by simp only [NotLv, Fld.key]; omega), h (F.DB_MASK.DB_EN (4 + f.val)) (by simp only [NotLv, Fld.key]; omega), h F.HIF_ERR_INFO.VALID (by simp only [NotLv, Fld.key]; omega), h F.HIF_ERR_INFO.MID (by simp only [NotLv, Fld.key]; omega)]

theorem dbLevels_same {s t : State} (h : SameLv s t) (e : Nat) (he : e = 4 ∨ e = 5 ∨ e = 6) : t.dbLevels e = s.dbLevels e := by
  unfold State.dbLevels
  rw [h (F.DB_PEND.DB e) (by simp only [NotLv, Fld.key]; omega), h (F.DB_MASK.DB_EN e) (by simp only [NotLv, Fld.key]; omega)]

/-- The interrupt levels after irqFollow. -/
theorem irqFollow_facts (u : State) : LvShape u u.irqFollow ∧ LevelsFollow u.irqFollow ∧
    (∀ f : Fld, f.key / 32 ≠ 0x1010c → f.key ≠ (F.DB_PEND.DB 1).key → u.irqFollow.rd f = u.rd f) ∧
    (ringLevels u.intLevels = u.hif.rung → u.irqFollow.rd (F.DB_PEND.DB 1) = u.rd (F.DB_PEND.DB 1)) ∧
    ∀ f : Fin 2, u.hif.fn[f].level = u.pfLevels u.intLevels f → u.hif.fn[f].pba = 0 → u.irqFollow.hif.fn[f] = u.hif.fn[f] := by
  unfold State.irqFollow
  dsimp only
  have hl := intLevels_lt u
  generalize hq : u.intLevels = irq at *
  obtain ⟨a1, a2, a3, a4⟩ := srcFollow_shape u irq
  obtain ⟨v1, v2, v3, v4, v5⟩ := srcFollow_vals u irq hl
  have vn : (u.srcFollow irq).hif.intN = ((srcWord (u.srcFollow irq) &&& u.rd F.HIF_INTN_MASK.INTN_EN) != 0) := by
    rw [srcFollow_eq]
    generalize srcPut u irq = s1
    have : ∀ b, (intNPut s1 b).hif.intN = b ∧ srcWord (intNPut s1 b) = srcWord s1 := fun b => ⟨rfl, word_src fun _ _ => rfl⟩
    rw [(this _).1, (this _).2]
  generalize u.srcFollow irq = s1 at *
  obtain ⟨b1, b2, b3, b4⟩ := msixFollow_shape s1 irq 0
  obtain ⟨b5, b6⟩ := msixFollow_fn s1 irq 0
  have bz : s1.hif.fn[(0 : Fin 2)].level = s1.pfLevels irq 0 → s1.hif.fn[(0 : Fin 2)].pba = 0 → s1.msixFollow irq 0 = s1 := by
    intro h1 h2; unfold State.msixFollow; dsimp only; rw [if_pos ⟨h1.symm, h2⟩]
  generalize s1.msixFollow irq 0 = s2 at *
  obtain ⟨c1, c2, c3, c4⟩ := msixFollow_shape s2 irq 1
  obtain ⟨c5, c6⟩ := msixFollow_fn s2 irq 1
  have cz : s2.hif.fn[(1 : Fin 2)].level = s2.pfLevels irq 1 → s2.hif.fn[(1 : Fin 2)].pba = 0 → s2.msixFollow irq 1 = s2 := by
    intro h1 h2; unfold State.msixFollow; dsimp only; rw [if_pos ⟨h1.symm, h2⟩]
  generalize s2.msixFollow irq 1 = s3 at *
  obtain ⟨d1, d2, d3, d4, d5, d6⟩ := ringFollow_shape s3 irq
  generalize s3.ringFollow irq = t at *
  have r2 : ∀ f, s2.rd f = s1.rd f := by intro f; unfold State.rd; rw [b2]
  have r3 : ∀ f, s3.rd f = s1.rd f := by intro f; rw [← r2]; unfold State.rd; rw [c2]
  have all := ((a1.trans b1).trans c1).trans d1
  have q : ∀ f : Fld, f.key / 32 ≠ 0x1010c → f.key ≠ (F.DB_PEND.DB 1).key → t.rd f = u.rd f := by
    intro f h1 h2; rw [d5 f h2, r3, a4 f h1]
  have src : ∀ f : Fld, f.key / 32 = 0x1010c → t.rd f = s1.rd f := by
    intro f hf; rw [d5 f (by simp only [Fld.key] at *; omega), r3]
  have lv := all.2
  refine ⟨all, ?_, q, ?_, ?_⟩
  · have on : ∀ f : Fld, f.key / 32 = 0x1010c → t.on f = s1.on f := by intro f hf; unfold State.on; rw [src f hf]
    have ti : t.intLevels = irq := (intLevels_same lv).trans hq
    unfold LevelsFollow
    rw [show t.word [F.HIF_INT_SRC.SRC, F.HIF_INT_SRC.DB_PF0, F.HIF_INT_SRC.DB_PF1, F.HIF_INT_SRC.DB_MDIO, F.HIF_INT_SRC.ERR] = srcWord t from rfl, ti, on _ (by simp only [Fld.key]), on _ (by simp only [Fld.key]), on _ (by simp only [Fld.key]), on _ (by simp only [Fld.key]), src _ (by simp only [Fld.key]), v1, v2, v3, v4, v5,
      word_src src, dbLevels_same lv 4 (.inl rfl), dbLevels_same lv 5 (.inr (.inl rfl)), dbLevels_same lv 6 (.inr (.inr rfl))]
    refine ⟨rfl, rfl, rfl, rfl, ?_, ?_, d4, ?_⟩
    · unfold State.on; rw [q _ (by simp only [Fld.key]; omega) (by simp only [Fld.key]; omega)]
    · rw [q F.HIF_INTN_MASK.INTN_EN (by simp only [Fld.key]; omega) (by simp only [Fld.key]; omega), d3, c4, b4, vn]
    · have p1 : t.pfLevels irq 1 = s2.pfLevels irq 1 := (pfLevels_same (c1.trans d1).2 _ _)
      have p0 : t.pfLevels irq 0 = s1.pfLevels irq 0 := (pfLevels_same ((b1.trans c1).trans d1).2 _ _)
      intro f
      rw [d2]
      match f with
      | 0 => rw [c6 0 (by decide), b5, p0]
      | 1 => rw [c5, p1]
  · intro h
    rw [d6 (h.trans (by rw [c3, b3, a3])), r3, a4 _ (by simp only [Fld.key]; omega)]
  · intro f h1 h2
    rw [d2]
    match f with
    | 0 =>
      rw [c6 0 (by decide), bz (by rw [a2, h1]; exact (pfLevels_same a1.2 _ _).symm) (by rw [a2, h2]), a2]
    | 1 =>
      have e : s2.hif.fn[(1 : Fin 2)] = u.hif.fn[(1 : Fin 2)] := (b6 1 (by decide)).trans (by rw [a2])
      rw [cz (by rw [e, h1]; exact (pfLevels_same (a1.trans b1).2 _ _).symm) (by rw [e, h2]), e]

end Sys2Proof.Machine
end

