-- ==== Sys2Proof/Laws/Molx.lean ====
section
/-! SUPPORT. What the shared operations of MOLX do, once each: fetching and register operations, exceptions, the local
window, vectors, coefficients. -/

namespace Sys2Proof.Machine

/-- What an instruction does once it is fetched. -/
theorem State.instr_fetched {s u : State} {i c} (h : Fetched s u i c) (f) : s.instr i f = f u c := by
  simp [State.instr, h.1, h.2.1]

/-- An instruction that changes its context alone. -/
theorem State.regOp_fetched {s u : State} {i c} (h : Fetched s u i c) (f) :
    s.regOp i f = ctxPut u i c ((f (u.ctx i c)).next) := by
  rw [State.regOp, State.instr_fetched h]; rfl

/-- An instruction that writes gd alone. -/
theorem State.gOp_fetched {s u : State} {i c} (h : Fetched s u i c) (rd v) :
    s.gOp i rd v = gdPut u i c rd (v (u.ctx i c)) := by
  rw [State.gOp, State.regOp_fetched h]; simp only [gdPut, ctxPut, Ctx.setG, Ctx.next, Ctx.pc4]
  split <;> rfl

/-- An instruction that writes gd and the sticky flags. -/
theorem State.aluOp_fetched {s u : State} {i c} (h : Fetched s u i c) (rd v) :
    s.aluOp i rd v = ctxPut u i c { u.ctx i c with
        g := if rd = 0 then (u.ctx i c).g else (u.ctx i c).g.set rd (v (u.ctx i c)).val, ssat := (u.ctx i c).ssat || (v (u.ctx i c)).sat, dz := (u.ctx i c).dz || (v (u.ctx i c)).dz, pc := (u.ctx i c).pc4 } := by
  rw [State.aluOp, State.regOp_fetched h]; simp only [ctxPut, Ctx.setG, Ctx.next, Ctx.pc4]
  split <;> rfl

/-- A command whose meaning is `done v` ends with `v`. -/
theorem Ends.of_done {c : Instr} {s u v : State} (h : exec c s = done v) (e : v = u) : Ends c s u := by
  subst e; exact h

/-- Subtraction as integers. -/
theorem word_sub (a b : Word) : a - b = BitVec.ofInt 32 (a.toInt - b.toInt) := by
  apply BitVec.eq_of_toInt_eq; simp [BitVec.toInt_sub]

/-- Addition as naturals. -/
theorem word_add (a b : Word) : a + b = BitVec.ofNat 32 (a.toNat + b.toNat) := by
  apply BitVec.eq_of_toNat_eq; simp

/-- Rotation as naturals. -/
theorem word_rotateRight (a : Word) (k : Nat) (hk : k < 32) :
    a.rotateRight k = BitVec.ofNat 32 (a.toNat / 2 ^ k + a.toNat % 2 ^ k * 2 ^ (32 - k)) := by
  apply BitVec.eq_of_toNat_eq
  rw [BitVec.rotateRight, BitVec.rotateRightAux, Nat.mod_eq_of_lt hk]
  have hp : (2:Nat) ^ 32 = 2 ^ k * 2 ^ (32 - k) := by rw [← Nat.pow_add]; congr 1; omega
  have ha : a.toNat / 2 ^ k < 2 ^ (32 - k) := by
    rw [Nat.div_lt_iff_lt_mul (by positivity), Nat.mul_comm, ← hp]; exact a.isLt
  have e2 : a.toNat * 2 ^ (32 - k) % 2 ^ 32 = a.toNat % 2 ^ k * 2 ^ (32 - k) := by
    rw [hp, Nat.mul_mod_mul_right]
  have e3 : a.toNat % 2 ^ k * 2 ^ (32 - k) + a.toNat / 2 ^ k < 2 ^ 32 := by
    have := Nat.mod_lt a.toNat (show 0 < 2 ^ k by positivity)
    rw [hp]
    calc _ < a.toNat % 2 ^ k * 2 ^ (32 - k) + 2 ^ (32 - k) := by omega
      _ = (a.toNat % 2 ^ k + 1) * 2 ^ (32 - k) := by ring
      _ ≤ _ := Nat.mul_le_mul_right _ this
  simp only [BitVec.toNat_or, BitVec.toNat_ushiftRight, BitVec.toNat_shiftLeft, Nat.shiftRight_eq_div_pow,
    Nat.shiftLeft_eq, e2, BitVec.toNat_ofNat]
  have e4 := Nat.two_pow_add_eq_or_of_lt ha (a.toNat % 2 ^ k)
  rw [Nat.or_comm, Nat.mul_comm (a.toNat % 2 ^ k), ← e4, Nat.mul_comm (2 ^ (32 - k)), Nat.add_comm (a.toNat / 2 ^ k)]
  exact (Nat.mod_eq_of_lt e3).symm

/-- CLZ counts the leading zeros. -/
theorem clzWord_spec (a : Word) : ∃ n : Nat, clzWord a = BitVec.ofNat 32 n ∧ n ≤ 32 ∧
      (∀ j < n, a.getMsbD j = false) ∧ (n < 32 → a.getMsbD n = true) := by
  by_cases h : a = 0
  · exact ⟨32, by simp [clzWord, h], by omega, by simp [h], by omega⟩
  · have h0 : a.toNat ≠ 0 := by intro e; exact h (BitVec.eq_of_toNat_eq (by simpa using e))
    have hl : Nat.log2 a.toNat < 32 := (Nat.log2_lt h0).2 a.isLt
    refine ⟨31 - Nat.log2 a.toNat, by rw [clzWord, if_neg h], by omega, ?_, ?_⟩
    · intro j hj
      rw [BitVec.getMsbD]
      simp only [show j < 32 by omega, decide_true, Bool.true_and, BitVec.getLsbD]
      apply Nat.testBit_lt_two_pow
      have := (Nat.log2_lt h0).1 (Nat.lt_succ_self (Nat.log2 a.toNat))
      exact Nat.lt_of_lt_of_le this (Nat.pow_le_pow_right (by omega) (by omega))
    · intro _
      rw [BitVec.getMsbD]
      have : 32 - 1 - (31 - Nat.log2 a.toNat) = Nat.log2 a.toNat := by omega
      simp only [show 31 - Nat.log2 a.toNat < 32 by omega, decide_true, Bool.true_and, BitVec.getLsbD, this]
      exact Nat.testBit_log2 h0

/-- The target of a branch. -/
theorem goto_add (p : Nat) (z : Int) : (p + 4 * (z % 2 ^ 32).toNat) % 2 ^ 32 = (BitVec.ofInt 32 (p + 4 * z)).toNat := by
  rw [BitVec.toNat_ofInt]; omega

/-- The offset of a branch, as a number. -/
theorem sextI_toNat (off : Half) : (sextI off).toNat = (off.toInt % 2 ^ 32).toNat := by
  rw [sextI, BitVec.signExtend, BitVec.toNat_ofInt]; rfl

/-- A branch writes the PC alone. -/
theorem State.branchOp_fetched {s u : State} {i c} (h : Fetched s u i c) (off : Half) (t : Ctx → Bool) :
    s.branchOp i off t = ctxPut u i c { u.ctx i c with pc := if t (u.ctx i c) then (BitVec.ofInt 32 ((u.ctx i c).pc + 4 * off.toInt)).toNat else (u.ctx i c).pc4 } := by
  rw [State.branchOp, State.instr_fetched h, ← goto_add, sextI_toNat]
  have : ∀ x : Ctx, (if t x = true then x.goto (x.pc + 4 * (off.toInt % 2 ^ 32).toNat) else x.next) =
    { x with pc := if t x = true then (x.pc + 4 * (off.toInt % 2 ^ 32).toNat) % 2 ^ 32 else x.pc4 } := by
    intro x; cases t x <;> rfl
  simp only [this]
  rfl

/-- Reading back the context that was put. -/
theorem ctx_ctxPut (s : State) (i : Fin 11) (c : Fin 4) (x : Ctx) : (ctxPut s i c x).ctx i c = x := by
  simp [ctxPut, State.ctx]

/-- Nothing to drain. -/
theorem State.drain_none (s : State) (pb : Nat) (p : Held → Bool) (n : Nat) (h : (s.held pb).any p = false) : s.drain pb p n = s := by
  cases n <;> simp [State.drain, h]

/-- An exception with an open EVAL enters with a free value. -/
theorem State.raiseOpen_enters (u : State) (i c code) (e : (u.ctx i c).exl = false) :
    u.raiseOpen i c code = ctxShow { u with freeCtr := u.freeCtr + 1 } i c ((u.ctx i c).entered code 0 0 (Config.free u.freeCtr % 2 ^ 32)) := by
  have : ({ u with freeCtr := u.freeCtr + 1 } : State).ctx i c = u.ctx i c := rfl
  simp only [State.raiseOpen, State.drawFree, State.raise, this, e]; rfl

/-- An operation of level S raises PRIV in level T. -/
theorem State.superOp_task {s u : State} {i c} (h : Fetched s u i c) (f) (e : (u.ctx i c).task = true) : s.superOp i f = u.raiseOpen i c exPRIV := by
  rw [State.superOp, State.instr_fetched h]; simp [e]

/-- An operation of level S runs in level S. -/
theorem State.superOp_super {s u : State} {i c} (h : Fetched s u i c) (f) (e : (u.ctx i c).task = false) : s.superOp i f = (f u c).modCtx i c Ctx.next := by
  rw [State.superOp, State.instr_fetched h]; simp [e]

/-- A CSR instruction once it is fetched. -/
theorem State.csrOp_fetched {s u : State} {i c} (h : Fetched s u i c) (rd rs1 n wr f) :
  s.csrOp i rd rs1 n wr f = (match u.csrRead i c n with
    | none => u.raiseOpen i c exILLEGAL
    | some old =>
      let x := u.ctx i c
      if wr && csrRO n then u.raiseOpen i c exILLEGAL
      else if decide (0x100 ≤ n) && x.task then u.raiseOpen i c exPRIV
      else
        let s1 := u.modCtx i c fun x =>
          { (x.setG rd (BitVec.ofNat 32 old)).next with tbHi := if n = 0x10 then u.tb / 2 ^ 32 else x.tbHi }
        if wr then s1.csrWrite i c n (f (BitVec.ofNat 32 old) (x.rg rs1)).toNat else s1) := by
  rw [State.csrOp, State.instr_fetched h]
  all_goals rfl

/-- Going on to the next instruction. -/
theorem State.modCtx_next (v : State) (i c) : v.modCtx i c Ctx.next = ctxPut v i c { v.ctx i c with pc := (v.ctx i c).pc4 } := rfl

/-- A clean line is not written back. -/
theorem State.dcWriteBack_clean (w : State) (i l) (h : ∀ d, spFind w.core[i].dcache l = some d → d.dirty = false) : w.dcWriteBack i l = w := by
  unfold State.dcWriteBack
  split
  · next d hd => simp [h d hd]
  · rfl

/-- CSRW of a CSR of level S. -/
theorem Ends.csrw_super {s u : State} {i c} (h : Fetched s u i c) (rd rs1 : Fin 32) (n : BitVec 12) (old : Nat) (t : State)
    (hr : u.csrRead i c n.toNat = some old) (ho : csrRO n.toNat = false) (ht : (u.ctx i c).task = false)
    (hn : n.toNat ≠ 0x10)
    (hw : (ctxPut u i c { u.ctx i c with g := if rd = 0 then (u.ctx i c).g else (u.ctx i c).g.set rd (BitVec.ofNat 32 old), pc := (u.ctx i c).pc4 }).csrWrite i c n.toNat ((u.ctx i c).rg rs1).toNat = t) :
      Ends (.csrw i rd rs1 n) s t := by
  have hy2 : (u.modCtx i c fun x : Ctx => ({ (x.setG rd (BitVec.ofNat 32 old)).next with tbHi := if n.toNat = 0x10 then u.tb / 2 ^ 32 else x.tbHi } : Ctx)) = ctxPut u i c { u.ctx i c with g := if rd = 0 then (u.ctx i c).g else (u.ctx i c).g.set rd (BitVec.ofNat 32 old), pc := (u.ctx i c).pc4 } := by
    have : ((fun x : Ctx => ({ (x.setG rd (BitVec.ofNat 32 old)).next with tbHi := if n.toNat = 0x10 then u.tb / 2 ^ 32 else x.tbHi } : Ctx)) (u.ctx i c)) = { u.ctx i c with g := if rd = 0 then (u.ctx i c).g else (u.ctx i c).g.set rd (BitVec.ofNat 32 old), pc := (u.ctx i c).pc4 } := by
      simp only [Ctx.setG, Ctx.next, hn, if_false]
      split <;> rfl
    rw [← this]; rfl
  refine Ends.of_done rfl ?_
  rw [State.csrOp_fetched h, hr]
  simp only [ho, ht, Bool.and_false, Bool.false_eq_true, if_false, if_true]
  rw [hy2]; exact hw

/-- The first of a range that has a property. -/
theorem find_range_first (p : Nat → Bool) (n k : Nat) (hk : k < n) (h1 : p k = true) (h2 : ∀ j < k, p j = false) :
    (List.range n).find? p = some k := by
  rw [List.find?_range_eq_some]
  exact ⟨h1, by simpa using hk, fun j hj => by simp [h2 j hj]⟩

/-- None of a range has it. -/
theorem find_range_none (p : Nat → Bool) (n : Nat) (h2 : ∀ j < n, p j = false) :
    (List.range n).find? p = none := by
  rw [List.find?_eq_none]; intro j hj; simp [h2 j (by simpa using hj)]

/-- The virtual address of a load or store. -/
theorem Ctx.addr_eq (x : Ctx) (rs1 imm) : x.addr rs1 imm = ((x.rg rs1).toNat + (BitVec.ofInt 32 imm.toInt).toNat) % 2 ^ 32 := by
  rw [Ctx.addr, sextI, BitVec.signExtend, BitVec.toNat_add]

/-- An exception outside EXL enters. -/
theorem State.raise_enters (u : State) (i c code sub ev) (e : (u.ctx i c).exl = false) : u.raise i c code sub ev = ctxShow u i c ((u.ctx i c).entered code sub 0 ev) := by
    simp only [State.raise, e]; rfl

/-- A register number is below 32. -/
theorem fin32_mod (rd : Fin 32) : (⟨rd.val % 32, by omega⟩ : Fin 32) = rd := Fin.ext (Nat.mod_eq_of_lt rd.isLt)

/-- A vector register number is below 8. -/
theorem fin8_mod (rd : Fin 8) : (⟨rd.val % 8, by omega⟩ : Fin 8) = rd := Fin.ext (Nat.mod_eq_of_lt rd.isLt)

/-- The datum of a scalar load reaches gd. -/
theorem State.loadDone_g (u : State) (i c) (kind : LoadKind) (va pa : Nat) (ca : Bool) (key bs) (hk : kind ≠ .ldx) (rd : Fin 32) (hl : (u.ctx i c).load = none):
    u.loadDone i c ⟨false, kind, rd.val, va, pa, ca⟩ key bs = gdPut u i c rd (kind.widen bs) := by
  have : (u.ctx i c).loaded ⟨false, kind, rd.val, va, pa, ca⟩ key u.tb bs = { u.ctx i c with g := if rd = 0 then (u.ctx i c).g else (u.ctx i c).g.set rd (kind.widen bs), pc := (u.ctx i c).pc4 } := by
    have e : ∀ y : Ctx, y.load = none → y.loaded ⟨false, kind, rd.val, va, pa, ca⟩ key u.tb bs = { y with g := if rd = 0 then y.g else y.g.set rd (kind.widen bs), pc := y.pc4 } := by
      intro y hy
      simp only [Ctx.loaded, hk, if_false, fin32_mod, Ctx.next, Ctx.pc4, Bool.false_eq_true]
      rw [← hy, Ctx.setG]
      split <;> rfl
    exact e _ hl
  show u.modCtx i c _ = _
  simp only [gdPut, ← this]; rfl

/-- A context that issues waits for no load. -/
theorem Fetched.load_none {s u : State} {i c} (h : Fetched s u i c) : (u.ctx i c).load = none := by
  rw [h.2.2]
  have := h.1
  simp only [State.issuing] at this
  split at this
  · next hh => 
    simp only [Option.some.injEq] at this
    subst this
    simp only [State.ctxIdle, Bool.and_eq_true] at hh
    simpa using hh.2.2
  · simp at this

/-- An address of the local window that the level may use. -/
theorem State.translate_local (u : State) (i) (sp : Space) (a : Acc) (va : Nat) (ha : a ≠ .fetch) (hd : sp.dma = false) (h : 0x20000 ≤ va ∨ sp.task = false) (h2 : va < 0x40000) :
    u.translate i sp a va = (.loc va, u) := by
  by_cases h1 : va < 0x20000
  · have : sp.task = false := by rcases h with h | h; omega; exact h
    simp [State.translate, h1, this, hd]
  · simp [State.translate, h1, h2, ha]

/-- IMEM as data in level T. -/
theorem State.translate_imem_task (u : State) (i) (sp : Space) (a : Acc) (va : Nat) (ha : a ≠ .fetch) (h : sp.task = true) (h2 : va < 0x20000) :
    u.translate i sp a va = (.fault 3, u) := by
    simp [State.translate, h2, h, ha]

/-- Reading a range, byte by byte. -/
theorem Mem.readN_map (m : Mem) (a n) : m.readN a n = (List.range n).map fun j => m.read (a + j) := by
  induction n generalizing a with
  | zero => rfl
  | succ n ih =>
    rw [Mem.readN, ih, List.range_succ_eq_map, List.map_cons, List.map_map]
    congr 1
    apply List.map_congr_left; intro j _; simp [Nat.add_assoc, Nat.add_comm 1]

/-- Reading the local window, byte by byte. -/
theorem Core.localRead_map (k : Core) (va n) : k.localRead va n = (List.range n).map fun j => if va < 0x20000 then k.imem.read (va + j) else k.tcm.read (va - 0x20000 + j) := by
  unfold Core.localRead; split <;> rw [Mem.readN_map]

/-- Reading after writing a range. -/
theorem Mem.read_writeL (bs : List Byte) : ∀ (m : Mem) (a b : Nat), (m.writeL a bs).read b = if a ≤ b ∧ b < a + bs.length then bs.getD (b - a) 0 else m.read b := by
  induction bs with
  | nil => intro m a b; simp [Mem.writeL]
  | cons x xs ih =>
    intro m a b
    rw [Mem.writeL, ih]
    by_cases h1 : a + 1 ≤ b ∧ b < a + 1 + xs.length
    · rw [if_pos h1, if_pos ⟨by omega, by simp; omega⟩]
      have : b - a = (b - (a + 1)) + 1 := by omega
      rw [this]; simp
    · rw [if_neg h1]
      by_cases h2 : b = a
      · subst h2; rw [Mem.read_write_same, if_pos ⟨le_refl _, by simp⟩]; simp
      · rw [Mem.read_write_other _ _ (Ne.symm h2), if_neg]
        simp; omega

/-- What a store into the local window does to each core. -/
theorem State.localStore_core (u : State) (i : Fin 11) (a : Nat) (bs : List Byte) (j : Fin 11) :
    (u.localStore i a bs).core[j] = if j = i then ({ u.core[i] with ctx := u.core[i].ctx.map (Ctx.monClear (tcmKey i a) bs.length) } : Core).localWrite a bs
      else { u.core[j] with ctx := u.core[j].ctx.map (Ctx.monClear (tcmKey i a) bs.length) } := by
  simp only [State.localStore, State.modCore, State.monClear]
  by_cases h : j = i
  · subst h; simp
  · have : (i : Nat) ≠ j := fun e => h (Fin.ext e.symm)
    simp [h, Vector.getElem_set, this]

/-- Clearing a monitor changes nothing else. -/
theorem Ctx.monClear_cases (a n : Nat) (x : Ctx) : Ctx.monClear a n x = x ∨ Ctx.monClear a n x = { x with mon := none } := by
  unfold Ctx.monClear
  split
  · split
    · right; rfl
    · left; rfl
  · left; rfl

/-- What a write of the local window leaves alone. -/
theorem Core.localWrite_fields (k : Core) (a : Nat) (bs : List Byte) :
    ∃ fl, k.localWrite a bs = { k with flaws := fl, imem := if a < 0x20000 then k.imem.writeL a bs else k.imem, tcm := if a < 0x20000 then k.tcm else k.tcm.writeL (a - 0x20000) bs } := by
  unfold Core.localWrite
  split
  · exact ⟨_, rfl⟩
  · exact ⟨_, rfl⟩

/-- The number of bytes. -/
theorem bytesLE_length (k v : Nat) : (bytesLE k v).length = k := by
  induction k generalizing v with
  | zero => rfl
  | succ k ih => simp [bytesLE, ih]

/-- One byte of a number. -/
theorem bytesLE_getD (k v j : Nat) (h : j < k) : (bytesLE k v).getD j 0 = BitVec.ofNat 8 (v / 2 ^ (8 * j)) := by
  induction k generalizing v j with
  | zero => omega
  | succ k ih =>
    cases j with
    | zero => simp [bytesLE]
    | succ j =>
      simp only [bytesLE, List.getD_cons_succ]
      rw [ih _ _ (by omega), Nat.div_div_eq_div_mul]
      congr 2
      rw [show 8 * (j + 1) = 8 + 8 * j by omega, Nat.pow_add]

/-- The end of STX. -/
theorem State.stxEnd_eq (u : State) (i c rd f) : u.stxEnd i c rd f = ctxPut u i c { u.ctx i c with g := if rd = 0 then (u.ctx i c).g else (u.ctx i c).g.set rd (if f then 1 else 0), pc := (u.ctx i c).pc4, mon := none } := by
  have : ∀ y : Ctx, ({ y with mon := none }.setG rd (if f then 1 else 0)).next = { y with g := if rd = 0 then y.g else y.g.set rd (if f then 1 else 0), pc := y.pc4, mon := none } := by
    intro y; simp only [Ctx.next, Ctx.setG, Ctx.pc4]; split <;> rfl
  show ctxPut u i c (({ u.ctx i c with mon := none }.setG rd (if f then 1 else 0)).next) = _
  rw [this]

/-- A lane operation writes vd alone. -/
theorem State.laneOp_fetched {s u : State} {i c} (h : Fetched s u i c) (vd vs1 vs2 f) :
    s.laneOp i vd vs1 vs2 f = vdPut u i c vd (Vector.ofFn fun l => f ((u.ctx i c).v[vs1])[l] ((u.ctx i c).v[vs2])[l]) := by
  rw [State.laneOp, State.regOp_fetched h]; rfl

/-- A lane shift writes vd alone. -/
theorem State.laneShift_fetched {s u : State} {i c} (h : Fetched s u i c) (vd vs1 rs2 f) :
    s.laneShift i vd vs1 rs2 f = vdPut u i c vd (Vector.ofFn fun l => f ((u.ctx i c).v[vs1])[l] (((u.ctx i c).rg rs2).toNat % 16)) := by
  rw [State.laneShift, State.regOp_fetched h]; rfl

/-- Saturation as a clamp. -/
theorem saturate_eq (n : Nat) (hn : 0 < n) (z : Int) : saturate n z = max (-2 ^ (n-1)) (min (2 ^ (n-1) - 1) z) := by
  have h1 : (0:Int) < 2 ^ (n-1) := by positivity
  simp only [saturate]
  generalize hM : (2:Int) ^ (n-1) = M at *
  split
  · rw [max_eq_left]; exact le_trans (min_le_right _ _) (by omega)
  · split
    · rw [min_eq_left (by omega), max_eq_right (by omega)]
    · rw [min_eq_right (by omega), max_eq_right (by omega)]

/-- Some lane clamps. -/
theorem any_clamped (f : Fin 16 → Half × Bool) (p : Fin 16 → Prop) [DecidablePred p] (h : ∀ j, (f j).2 = decide (p j)) :
  ((List.finRange 16).any fun l => (f l).2) = decide (∃ j, p j) := by
  rw [Bool.eq_iff_iff]; simp [h]

/-- A clamping lane operation writes vd and VSAT. -/
theorem State.laneSat_fetched {s u : State} {i c} (h : Fetched s u i c) (vd) (f : Ctx → Fin 16 → Half × Bool) (g : Fin 16 → Int)
   (hg : ∀ l, f (u.ctx i c) l = sat16 (g l)) :
    s.laneSat i vd f = ctxPut u i c { u.ctx i c with
        v := (u.ctx i c).v.set vd (Vector.ofFn fun j => BitVec.ofInt 16 (max (-2 ^ (16-1)) (min (2 ^ (16-1) - 1) (g j)))),
        vsat := (u.ctx i c).vsat || decide (∃ j, max (-2 ^ (16-1)) (min (2 ^ (16-1) - 1) (g j)) ≠ g j), pc := (u.ctx i c).pc4 } := by
  rw [State.laneSat, State.regOp_fetched h]
  simp only [hg, sat16]
  rw [any_clamped (fun l => (BitVec.ofInt 16 (saturate 16 (g l)), decide (saturate 16 (g l) ≠ g l))) _ (fun _ => rfl)]
  simp only [saturate_eq 16 (by decide)]
  rfl

/-- A sum over the lanes. -/
theorem laneSum_eq (f : Fin 16 → Int) : laneSum f = ((List.finRange 16).map f).sum := by
  unfold laneSum
  simp only [List.finRange, List.ofFn]
  simp [Fin.foldr, Fin.foldr.loop]
  ring

/-- A truth value is a bit. -/
theorem b2n_lt_two (b : Bool) : b2n b < 2 := by cases b <;> decide

/-- One bit for each lane. -/
theorem laneBits_spec (f : Fin 16 → Bool) : laneBits f < 2 ^ 16 ∧ ∀ j : Fin 16, bitB (laneBits f) j.val = f j := by
  have key : laneBits f = b2n (f 0) + b2n (f 1) * 2 + b2n (f 2) * 4 + b2n (f 3) * 8 + b2n (f 4) * 16 + b2n (f 5) * 32 + b2n (f 6) * 64 + b2n (f 7) * 128 + b2n (f 8) * 256 + b2n (f 9) * 512 + b2n (f 10) * 1024 + b2n (f 11) * 2048 + b2n (f 12) * 4096 + b2n (f 13) * 8192 + b2n (f 14) * 16384 + b2n (f 15) * 32768 := by
    unfold laneBits
    simp [List.finRange, Fin.foldr, Fin.foldr.loop, List.ofFn]
  have hb : ∀ i, b2n (f i) < 2 := fun i => b2n_lt_two _
  have h0 := hb 0; have h1 := hb 1; have h2 := hb 2; have h3 := hb 3; have h4 := hb 4; have h5 := hb 5; have h6 := hb 6; have h7 := hb 7
  have h8 := hb 8; have h9 := hb 9; have h10 := hb 10; have h11 := hb 11; have h12 := hb 12; have h13 := hb 13; have h14 := hb 14; have h15 := hb 15
  refine ⟨by omega, fun j => ?_⟩
  have bb : ∀ n k b, n / 2 ^ k % 2 = b2n b → bitB n k = b := by
    intro n k b e
    unfold bitB
    rw [e]
    cases b <;> rfl
  apply bb
  rw [key]
  clear key bb hb
  rcases j with ⟨j, hj⟩
  interval_cases j <;> simp only [Fin.mk_zero, Fin.mk_one, Fin.reduceFinMk, Fin.isValue] <;> omega

/-- A coefficient instruction whose checks pass. -/
theorem State.coefOp_fetched {s u : State} {i c n} (h : Fetched s u i c) (rs1 imm wr cnt f) (hn : u.coefPort i = some n)
   (hc : u.coefCheck n wr ((((u.ctx i c).rg rs1).toNat + (BitVec.ofInt 32 imm.toInt).toNat) % 2 ^ 32) cnt = none) :
   s.coefOp i rs1 imm wr cnt f = f u c n ((((u.ctx i c).rg rs1).toNat + (BitVec.ofInt 32 imm.toInt).toNat) % 2 ^ 32) := by
  rw [State.coefOp, State.instr_fetched h, Ctx.addr_eq]; simp only [hn, hc]

/-- A coefficient instruction whose check fails. -/
theorem State.coefOp_refused {s u : State} {i c n e} (h : Fetched s u i c) (rs1 imm wr cnt f) (hn : u.coefPort i = some n)
   (hc : u.coefCheck n wr ((((u.ctx i c).rg rs1).toNat + (BitVec.ofInt 32 imm.toInt).toNat) % 2 ^ 32) cnt = some e) :
   s.coefOp i rs1 imm wr cnt f = u.raise i c exCOEF e.1 e.2 := by
  rw [State.coefOp, State.instr_fetched h, Ctx.addr_eq]; simp only [hn, hc]

/-- What the checks of R431 leave. -/
theorem State.coefCheck_none {u : State} {n wr a cnt} (h : u.coefCheck n wr a cnt = none) :
    a % 4 = 0 ∧ ∀ j < cnt, (a + 4 * j) % 2 ^ 32 < 0x20000 := by
  unfold State.coefCheck at h
  simp only at h
  split at h
  · simp at h
  next h0 =>
    refine ⟨by simpa using h0, fun j hj => ?_⟩
    split at h
    · simp at h
    next h1 =>
      simp only [coefWords, Option.map_eq_none_iff, List.find?_eq_none, List.mem_map, List.mem_range] at h1
      have := h1 _ ⟨j, hj, rfl⟩
      simp at this
      omega

/-- Reading consecutive coefficients. -/
theorem State.coefReads_eq (u : State) (n : Fin 8) (hk : u.port[n].trn.coefKnown = true) : ∀ k w, u.coefReads n w k =
   ((List.range k).map fun j => (spFind u.port[n].eq.coef ((w + 4 * j) / 4)).getD 0 * 256, u) := by
  intro k
  induction k with
  | zero => intro w; rfl
  | succ k ih =>
    intro w
    have e1 : u.coefRead n w = ((spFind u.port[n].eq.coef (w / 4)).getD 0 * 256, u) := by
      unfold State.coefRead
      split
      · next h => rw [h]; rfl
      · next h => rw [if_pos hk, h]; rfl
    rw [State.coefReads, e1]
    simp only [ih, List.range_succ_eq_map, List.map_cons, List.map_map]
    refine Prod.ext (congrArg₂ List.cons rfl (List.map_congr_left fun j _ => ?_)) rfl
    show (spFind u.port[n].eq.coef ((w + 4 + 4 * j) / 4)).getD 0 * 256 = (spFind u.port[n].eq.coef ((w + 4 * (j + 1)) / 4)).getD 0 * 256
    rw [show w + 4 + 4 * j = w + 4 * (j + 1) by omega]

/-- A coefficient after a write. -/
theorem spFind_putCoef (co : Sparse Nat) (w v q : Nat) : (spFind (putCoef co w v) q).getD 0 = if q = w then v else (spFind co q).getD 0 := by
  unfold putCoef
  split
  · next h =>
    by_cases e : q = w
    · subst e; simp [spFind_spDel_same, h]
    · rw [spFind_spDel_other _ (Ne.symm e), if_neg e]
  · by_cases e : q = w
    · subst e; simp [spFind_spPut_same]
    · rw [spFind_spPut_other _ _ (Ne.symm e), if_neg e]

/-- Another coefficient after a write. -/
theorem spFind_putCoef_other (co : Sparse Nat) (w v q : Nat) (e : q ≠ w) : spFind (putCoef co w v) q = spFind co q := by
  unfold putCoef
  split
  · rw [spFind_spDel_other _ (Ne.symm e)]
  · rw [spFind_spPut_other _ _ (Ne.symm e)]

/-- Writing consecutive coefficients. -/
theorem State.coefWrites_eq (n : Fin 8) : ∀ (vs : List Nat) (u : State) (w : Nat), w % 4 = 0 → ∃ co', u.coefWrites n w vs =
   { u with port := u.port.set n { u.port[n] with eq := { u.port[n].eq with coef := co' } } } ∧
   (∀ j < vs.length, (spFind co' (w / 4 + j)).getD 0 = vs.getD j 0 / 256 % 2 ^ 24) ∧
   ∀ q, (q < w / 4 ∨ w / 4 + vs.length ≤ q) → spFind co' q = spFind u.port[n].eq.coef q := by
  intro vs
  induction vs with
  | nil => intro u w _; exact ⟨u.port[n].eq.coef, by
      rw [State.coefWrites]
      have : u.port.set n { u.port[n] with eq := { u.port[n].eq with coef := u.port[n].eq.coef } } = u.port := by
        ext1 j hj; rw [Vector.getElem_set]; split
        · next h => subst h; rfl
        · rfl
      rw [this], by simp, fun q _ => rfl⟩
  | cons v vs ih =>
    intro u w hw
    obtain ⟨co', e1, e2, e3⟩ := ih (u.coefWrite n w v) (w + 4) (by omega)
    have hd : (w + 4) / 4 = w / 4 + 1 := by omega
    rw [hd] at e2 e3
    have hp : (u.coefWrite n w v).port[n].eq.coef = putCoef u.port[n].eq.coef (w / 4) (v / 256 % 2 ^ 24) := by
      simp [State.coefWrite, State.modPort]
    refine ⟨co', ?_, ?_, ?_⟩
    · rw [State.coefWrites, e1]
      simp [State.coefWrite, State.modPort]
    · intro j hj
      cases j with
      | zero =>
        rw [Nat.add_zero, e3 (w / 4) (Or.inl (by omega)), hp, spFind_putCoef, if_pos rfl]; rfl
      | succ j =>
        have := e2 j (by simpa using hj)
        rw [show w / 4 + (j + 1) = w / 4 + 1 + j by omega, this]; rfl
    · intro q hq
      simp only [List.length_cons] at hq
      rw [e3 q (by omega), hp, spFind_putCoef_other _ _ _ _ (by omega)]

end Sys2Proof.Machine
end

