-- ==== Sys2Proof/Tests/Slice0.lean ====
section
/-! SUPPORT. Our own tests: ill-formed commands are refused, words of the spec's worked example decode to what the spec says,
single steps on small states, and a witness for the hypotheses of each statement. -/

namespace Sys2Proof.Tests

open Sys2Proof Sys2Proof.Machine

/-! ### Well-formed commands -/

theorem test_wf_registerWrite_identity : Instr.wf (.registerWrite 64 0 4 0) = false := by decide
theorem test_wf_registerWrite_offset : Instr.wf (.registerWrite 1 0x10000000 4 0) = false := by decide
theorem test_wf_registerWrite_width : Instr.wf (.registerWrite 1 0 3 0) = false := by decide
theorem test_wf_registerWrite_data : Instr.wf (.registerWrite 1 0 1 256) = false := by decide
theorem test_wf_postedWriteDelivery : Instr.wf (.postedWriteDelivery 4) = false := by decide
theorem test_wf_postedWriteDiscard : Instr.wf (.postedWriteDiscard 0x4000000 true) = false := by decide
theorem test_wf_rclRead : Instr.wf (.rclRead 64 0 4) = false := by decide
theorem test_wf_counterLowRead : Instr.wf (.counterLowRead 1 0 16) = false := by decide
theorem test_wf_registerReadTimeout : Instr.wf (.registerReadTimeout 1 0x10000000 4) = false := by decide
theorem test_wf_expectEnforceWrite_node : Instr.wf (.expectEnforceWrite 0 64 0) = false := by decide
theorem test_wf_expectEnforceWrite_port : Instr.wf (.expectEnforceWrite 0 0 8) = false := by decide
theorem test_wf_pgaGainWrite : Instr.wf (.pgaGainWrite 0 0 64) = false := by decide
theorem test_wf_lreqGo_rung : Instr.wf (.lreqGo 0 32 0) = false := by decide
theorem test_wf_lreqGo_load : Instr.wf (.lreqGo 0 0 64) = false := by decide
theorem test_wf_spillRsvWrite_rsv : Instr.wf (.spillRsvWrite 0 0x10000 0) = false := by decide
theorem test_wf_spillRsvWrite_max : Instr.wf (.spillRsvWrite 0 0 0x10000) = false := by decide
theorem test_wf_ingressBlock_sync : Instr.wf (.ingressBlock 0 4 0 0 false) = false := by decide
theorem test_wf_ingressBlock_payload : Instr.wf (.ingressBlock 0 1 (2 ^ 64) 0 false) = false := by decide
theorem test_wf_diagTdr_pairs : Instr.wf (.diagTdr 0 16 false 0 0) = false := by decide
theorem test_wf_diagTdr_avg : Instr.wf (.diagTdr 0 1 false 16 0) = false := by decide
theorem test_wf_diagTdr_len : Instr.wf (.diagTdr 0 1 false 0 16) = false := by decide
theorem test_wf_diagSnapshot : Instr.wf (.diagSnapshot 0 16 false) = false := by decide
theorem test_wf_diagLoss : Instr.wf (.diagLoss 0 16) = false := by decide
theorem test_wf_diagWear : Instr.wf (.diagWear 0 16) = false := by decide
theorem test_wf_rngGo : Instr.wf (.rngGo 0 (2 ^ 32)) = false := by decide
theorem test_wf_loadComplete : Instr.wf (.loadComplete 0 0 [.ok, .ok, .ok]) = false := by decide
theorem test_wf_coreFail_zero : Instr.wf (.coreFail 0 0) = false := by decide
theorem test_wf_coreFail_key : Instr.wf (.coreFail 0 6) = false := by decide
theorem test_wf_memPatrol : Instr.wf (.memPatrol 0 0x10000 .ok) = false := by decide
theorem test_wf_csrw : Instr.wf (.csrw 0 0 0 0x7FF) = false := by decide
theorem test_wf_csrs : Instr.wf (.csrs 0 0 0 0x7FF) = false := by decide
theorem test_wf_csrc : Instr.wf (.csrc 0 0 0 0x7FF) = false := by decide
theorem test_wf_illegalInstruction : Instr.wf (.illegalInstruction 0 0x00000012) = false := by decide
theorem test_wf_memoryRequest_identity : Instr.wf (.memoryRequest 64 0 0 1 false []) = false := by decide
theorem test_wf_memoryRequest_class : Instr.wf (.memoryRequest 0 32 0 1 false []) = false := by decide
theorem test_wf_memoryRequest_range : Instr.wf (.memoryRequest 0 0 (2 ^ 40) 1 false []) = false := by decide
theorem test_wf_memoryRequest_byte : Instr.wf (.memoryRequest 0 0 0 1 true [256]) = false := by decide
theorem test_wf_memoryRequestDone : Instr.wf (.memoryRequestDone 0 [.ok, .ok, .ok, .ok, .ok]) = false := by decide
theorem test_wf_bwrClientWrite : Instr.wf (.bwrClientWrite 0 (2 ^ 32)) = false := by decide
theorem test_wf_bwrCtrlWrite : Instr.wf (.bwrCtrlWrite (2 ^ 32)) = false := by decide
theorem test_wf_channelFailure : Instr.wf (.channelFailure 0 4) = false := by decide
theorem test_wf_splEnable : Instr.wf (.splEnable (2 ^ 18)) = false := by decide
theorem test_wf_mdioFrame_port : Instr.wf (.mdioFrame 32 1 .read) = false := by decide
theorem test_wf_mdioFrame_device : Instr.wf (.mdioFrame 0 32 .read) = false := by decide
theorem test_wf_mbSend : Instr.wf (.mbSend 64 0 0 0 false) = false := by decide
theorem test_wf_mbReceiveLast : Instr.wf (.mbReceiveLast 64 0) = false := by decide
theorem test_wf_mbRreset : Instr.wf (.mbRreset 64 0) = false := by decide
theorem test_wf_mbxBindWrite : Instr.wf (.mbxBindWrite 0 0 (2 ^ 32)) = false := by decide
theorem test_wf_gateOn_gate : Instr.wf (.gateOn 32 false 0) = false := by decide
theorem test_wf_gateOn_timeout : Instr.wf (.gateOn 0 false 256) = false := by decide
theorem test_wf_gateOff_gate : Instr.wf (.gateOff 32 false 0) = false := by decide
theorem test_wf_gateOff_timeout : Instr.wf (.gateOff 0 false 256) = false := by decide
theorem test_wf_fcGo_clock : Instr.wf (.fcGo 64 1) = false := by decide
theorem test_wf_fcGo_window : Instr.wf (.fcGo 0 0x10000) = false := by decide
theorem test_wf_pdRequestOn : Instr.wf (.pdRequestOn 256 0 0) = false := by decide
theorem test_wf_pdRequestRetain : Instr.wf (.pdRequestRetain 0 256 0) = false := by decide
theorem test_wf_pdRequestOff : Instr.wf (.pdRequestOff 0 0 64) = false := by decide
theorem test_wf_modeRun : Instr.wf (.modeRun 256 0) = false := by decide
theorem test_wf_modeQuiet : Instr.wf (.modeQuiet 0 64) = false := by decide
theorem test_wf_modeDepot : Instr.wf (.modeDepot 256 0) = false := by decide
theorem test_wf_pdStepReady : Instr.wf (.pdStepReady 142) = false := by decide
theorem test_wf_pdReadyTimeout : Instr.wf (.pdReadyTimeout 142) = false := by decide
theorem test_wf_calGo : Instr.wf (.calGo 0 8) = false := by decide
theorem test_wf_faultReport : Instr.wf (.faultReport 1024 []) = false := by decide
theorem test_wf_wireFault : Instr.wf (.wireFault 1024 false) = false := by decide
theorem test_wf_faultSourceClear : Instr.wf (.faultSourceClear 1024) = false := by decide
theorem test_wf_provision : Instr.wf (.provision 64 []) = false := by decide
theorem test_wf_bootHost : Instr.wf (.bootHost 64) = false := by decide
theorem test_wf_verify : Instr.wf (.verify 1 [2 ^ 32]) = false := by decide
theorem test_wf_svnAdvance : Instr.wf (.svnAdvance 1 (2 ^ 32)) = false := by decide
theorem test_wf_fcReserve : Instr.wf (.fcReserve 64) = false := by decide
theorem test_wf_keyLoad : Instr.wf (.keyLoad 1 [2 ^ 32]) = false := by decide
theorem test_wf_devKeyGen : Instr.wf (.devKeyGen 64) = false := by decide
theorem test_wf_dbgNonce : Instr.wf (.dbgNonce 64) = false := by decide
theorem test_wf_dbgOpen : Instr.wf (.dbgOpen 64 []) = false := by decide
theorem test_wf_dbgClose : Instr.wf (.dbgClose 64) = false := by decide
theorem test_wf_bootLock : Instr.wf (.bootLock 64) = false := by decide
theorem test_wf_fltInjArm_mode : Instr.wf (.fltInjArm 4 0 0 0) = false := by decide
theorem test_wf_fltInjArm_source : Instr.wf (.fltInjArm 0 1024 0 0) = false := by decide
theorem test_wf_fltInjArm_unit : Instr.wf (.fltInjArm 0 0 2048 0) = false := by decide
theorem test_wf_fltInjArm_bit : Instr.wf (.fltInjArm 0 0 0 64) = false := by decide

theorem test_wf_registerWrite_ok : Instr.wf (.registerWrite 63 0xFFFFFFF 8 (2 ^ 64 - 1)) = true := by decide
theorem test_wf_coreFail_key_ok : Instr.wf (.coreFail 10 6) = true := by decide
theorem test_wf_csrw_ok : Instr.wf (.csrw 0 0 0 0x100) = true := by decide
theorem test_wf_keyLoad_ok : Instr.wf (.keyLoad 1 [0, 0, 0, 2 ^ 32 - 1, 7]) = true := by decide

/-! ### MOLX words (12_molx_isa.md R419 to R424 and "Example: the ladder proposal loop on P3 in MOLX") -/

theorem test_word_1D400050 (i : Fin 11) : molxDecode i 0x1D400050 = some (.lhi i 10 0x50) := by rfl
theorem test_word_154A3000 (i : Fin 11) : molxDecode i 0x154A3000 = some (.ori i 10 10 0x3000) := by rfl
theorem test_word_D420800F (i : Fin 11) : molxDecode i 0xD420800F = some (.wfev i 1 15 true) := by rfl
theorem test_word_484A0014 (i : Fin 11) : molxDecode i 0x484A0014 = some (.lw i 2 10 0x14 .ok) := by rfl
theorem test_word_2082003A (i : Fin 11) : molxDecode i 0x2082003A = some (.srli i 4 2 26) := by rfl
theorem test_word_1084001F (i : Fin 11) : molxDecode i 0x1084001F = some (.andi i 4 4 0x1F) := by rfl
theorem test_word_84860002 (i : Fin 11) : molxDecode i 0x84860002 = some (.bne i 4 6 2) := by rfl
theorem test_word_01084805 (i : Fin 11) : molxDecode i 0x01084805 = some (.andn i 8 8 9) := by rfl
theorem test_word_698A0018 (i : Fin 11) : molxDecode i 0x698A0018 = some (.sw i 12 10 0x18) := by rfl
theorem test_word_8000FFE6 (i : Fin 11) : molxDecode i 0x8000FFE6 = some (.beq i 0 0 0xFFE6) := by rfl
theorem test_word_00000012 (i : Fin 11) : molxDecode i 0x00000012 = some (.clz i 0 0) := by rfl
theorem test_word_illegal_00000812 (i : Fin 11) : molxDecode i 0x00000812 = none := by rfl
theorem test_word_illegal_20000080 (i : Fin 11) : molxDecode i 0x20000080 = none := by rfl
theorem test_word_illegal_FC000000 (i : Fin 11) : molxDecode i 0xFC000000 = none := by rfl

/-! ### Witnesses -/

section

-- each of the following is checked before the next is read: many checks at once ask for more memory than one needs
set_option Elab.async false
/-! ### Small states -/

/-- `s` with register fields given. -/
def W.regs (l : List (Fld × Nat)) (s : State) : State := l.foldl (fun (s : State) p => s.wr p.1 p.2) s
/-- Reset, with power domains ON. -/
def W.on (l : List Nat) : State := W.regs (l.map fun i => (F.PWC_DOM.STATE i, domON)) State.reset
/-- Core 0 runs. -/
def W.core (f : Core → Core) : State :=
  let s := W.on [11]
  { s with core := s.core.set 0 (f { s.core[(0 : Fin 11)] with up := true }) }
/-- Core 0 runs its context 0. -/
def W.run (f : Ctx → Ctx) : State := W.core fun k => { k with ctx := k.ctx.set 0 (f k.ctx[(0 : Fin 4)]) }
/-- Core 0 runs its context 0, whose g1 holds `a`. -/
def W.g1 (a : Word) (task : Bool := false) : State := W.run fun x => { x with g := x.g.set 1 a, task := task }
/-- g1 of context 0 of core 0. -/
def W.a (s : State) : Nat := ((s.ctx 0 0).rg 1).toNat
/-- A page that is readable, writable and executable at both levels, cacheable or not. -/
def W.page (ppn : Nat) (c : Bool) : TlbEntry := ⟨0x40, 0, true, ppn, c, true, true, true, true⟩
/-- A fetch that leaves the state alone. -/
theorem W.f {s : State} (h : s.issuing 0 = some 0) (h' : s.fetch 0 0 = (none, s)) : Fetched s s 0 0 := ⟨h, h', rfl⟩

/-! ### Witnesses: MOLX -/

theorem witness_FetchFromLocalWindow :
    ((W.run id).issuing 0 = some 0 ∧ ((W.run id).ctx 0 0).pc < 0x20000 ∧ (W.run id).core[(0 : Fin 11)].localBad 0 4 = false) ∧
    (let s := W.core fun k => { k with flaws := [0x7FFF], ctx := k.ctx.set 0 { pc := 0x1FFFC } }
     s.issuing 0 = some 0 ∧ (s.ctx 0 0).pc < 0x20000 ∧ s.core[(0 : Fin 11)].localBad (s.ctx 0 0).pc 4 = true) ∧
    (let s := W.run fun x => { x with pc := 0x20000 }
     s.issuing 0 = some 0 ∧ 0x20000 ≤ (s.ctx 0 0).pc ∧ (s.ctx 0 0).pc < 0x40000) ∧
    (let s := W.run fun x => { x with pc := 0x40000, task := true }
     s.issuing 0 = some 0 ∧ 0x40000 ≤ (s.ctx 0 0).pc ∧ (s.ctx 0 0).mmuEn = false ∧ (s.ctx 0 0).task = true) := by
  decide +kernel

/-- The hypothesis of ScalarResults, SaturationAndDivision, ImmediateResults and VectorResults, and that of CsrReadAndWrite in
level S and without an exception in progress. -/
theorem witness_Fetched : Fetched (W.run id) (W.run id) 0 0 ∧ ((W.run id).ctx 0 0).task = false ∧
    ((W.run id).ctx 0 0).exl = false :=
  ⟨W.f (by decide +kernel) rfl, by decide +kernel⟩

theorem witness_BranchesAndCalls :
    (Fetched (W.g1 0x8000) (W.g1 0x8000) 0 0 ∧ (BitVec.ofInt 32 (((W.g1 0x8000).ctx 0 0).rg 1).toInt).toNat % 4 = 0) ∧
    (Fetched (W.g1 0x8001) (W.g1 0x8001) 0 0 ∧
      (BitVec.ofInt 32 (((W.g1 0x8001).ctx 0 0).rg 1).toInt).toNat % 4 ≠ 0 ∧ ((W.g1 0x8001).ctx 0 0).exl = false) :=
  ⟨⟨W.f (by decide +kernel) rfl, by decide +kernel⟩, W.f (by decide +kernel) rfl, by decide +kernel⟩

theorem witness_ExceptionEntryAndReturn :
    (Fetched (W.run id) (W.run id) 0 0 ∧ ((W.run id).ctx 0 0).exl = false ∧ ((W.run id).ctx 0 0).epc % 4 = 0 ∧
      ((W.run id).ctx 0 0).task = false) ∧
    (let s := W.run fun x => { x with exl := true }
     Fetched s s 0 0 ∧ (s.ctx 0 0).exl = true) ∧
    (let s := W.run fun x => { x with epc := 3 }
     Fetched s s 0 0 ∧ (s.ctx 0 0).epc % 4 ≠ 0 ∧ (s.ctx 0 0).exl = false) :=
  ⟨⟨W.f (by decide +kernel) rfl, by decide +kernel⟩, ⟨W.f (by decide +kernel) rfl, by decide +kernel⟩,
    W.f (by decide +kernel) rfl, by decide +kernel⟩

theorem witness_BarriersAndEventFlag :
    (Fetched (W.run id) (W.run id) 0 0 ∧ ((W.run id).drainCtx ((W.run id).coreMid 0) 0).ctx 0 0 = (W.run id).ctx 0 0) ∧
    (let s : State := { W.run id with hif := { (W.run id).hif with queue := [(0x200000, [⟨9, 0, 0x200000, .normal, 1, 0⟩])] } }
     Fetched s s 0 0 ∧ ∀ q ∈ s.hif.queue, ∀ h ∈ q.2, ¬(h.mid = s.coreMid 0 ∧ h.tag = 0)) :=
  ⟨⟨W.f (by decide +kernel) rfl, rfl⟩, W.f (by decide +kernel) rfl, by decide +kernel⟩

theorem witness_LevelTaskRaisesPriv :
    let s := W.g1 0x20000 true
    Fetched s s 0 0 ∧ (s.ctx 0 0).task = true ∧ (s.ctx 0 0).exl = false ∧ (s.ctx 0 0).epc % 4 = 0 ∧
      0x100 ≤ (0x100 : BitVec 12).toNat ∧ (s.csrRead 0 0 0x100).isSome = true ∧ csrRO 0x100 = false :=
  ⟨W.f (by decide +kernel) rfl, by decide +kernel⟩

theorem witness_TlbInvalidation :
    let s := W.core fun k => { k with tlb := [W.page 0x40000 false] }
    Fetched s s 0 0 ∧ (s.ctx 0 0).task = false :=
  ⟨W.f (by decide +kernel) rfl, by decide +kernel⟩

/-- Core 0 with a line of its D-cache, which g1 names through the MMU, in shared SRAM. -/
def W.dline (dirty : Bool) : State :=
  W.regs [(F.PWC_DOM.STATE 138, domON)] (W.core fun k => { k with
    dcache := [(0x800000, ⟨List.replicate 32 0xA5, dirty⟩)], tlb := [W.page 0x10000 true],
    ctx := k.ctx.set 0 { pc := 0, g := (Vector.replicate 32 0).set 1 0x40000, mmuEn := true } })

/-- Every clause, on a line that is not there, a clean one and a dirty one; the address is the lowest outside the window. -/
theorem witness_CacheOperations :
    (let s := W.g1 0x40000
     let r := s.translate 0 (s.ctx 0 0).space .load (W.a s)
     Fetched s s 0 0 ∧ r.1 = .phys 0x40000 false ∧ (s.ctx 0 0).task = false ∧
       spFind r.2.core[(0 : Fin 11)].dcache 0x2000 = none) ∧
    (let s := W.dline false
     let r := s.translate 0 (s.ctx 0 0).space .load (W.a s)
     Fetched s s 0 0 ∧ r.1 = .phys 0x10000000 true ∧ (s.ctx 0 0).task = false ∧
       (spFind r.2.core[(0 : Fin 11)].dcache 0x800000).map Line.dirty = some false ∧
       ∀ e ∈ s.core[(0 : Fin 11)].dcache, e.2.dirty = false) ∧
    (let s := W.dline true
     let r := s.translate 0 (s.ctx 0 0).space .load (W.a s)
     Fetched s s 0 0 ∧ r.1 = .phys 0x10000000 true ∧
       (spFind r.2.core[(0 : Fin 11)].dcache 0x800000).map Line.dirty = some true ∧
       (r.2.memWrite (r.2.coreMid 0) (r.2.coreClient 0) 0x10000000 (List.replicate 32 0xA5)).1 = .ok) :=
  ⟨⟨W.f (by decide +kernel) rfl, by decide +kernel⟩, ⟨W.f (by decide +kernel) rfl, by decide +kernel⟩,
    W.f (by decide +kernel) rfl, by decide +kernel⟩

/-! ### Witnesses: CSRs, waits, loads and stores -/

theorem witness_CsrReadAndWrite :
    (let s := W.g1 5
     Fetched s s 0 0 ∧ (s.ctx 0 0).task = false ∧ (s.ctx 0 0).exl = false ∧ (1 : Fin 32) ≠ 0) ∧
    (let s := W.g1 0xFFFFFFFF true
     Fetched s s 0 0 ∧ (s.ctx 0 0).exl = false) :=
  ⟨⟨W.f (by decide +kernel) rfl, by decide +kernel⟩, W.f (by decide +kernel) rfl, by decide +kernel⟩

/-- Core 0 waits for the events of `m` since TB 0, with a limit. -/
def W.waits (m : Nat) (fl : Bool) : State :=
  W.run fun x => { x with wait := some ⟨m, 1, 0⟩, waitLimit := 1, flag := fl }

theorem witness_WaitsRetireOrWait :
    (let s := W.g1 0
     Fetched s s 0 0 ∧ ((s.ctx 0 0).rg 1).toNat + 2 ^ 32 * ((s.ctx 0 0).rg 0).toNat = 0) ∧
    (let s := W.run fun x => { x with g := x.g.set 1 0x40000, flag := true }
     Fetched s s 0 0 ∧ bitB (0x40000 * 2 ^ 32) 50 = true ∧ s.eventPend 0 0 50 = true ∧
       ∀ j < 50, ¬(bitB (0x40000 * 2 ^ 32) j = true ∧ s.eventPend 0 0 j = true)) ∧
    (let s := W.g1 1
     Fetched s s 0 0 ∧ s.eventPend 0 0 0 = false ∧ ∀ j < 51, ¬(bitB 1 j = true ∧ s.eventPend 0 0 j = true)) ∧
    (let s := W.run fun x => { x with flag := true }
     Fetched s s 0 0 ∧ (s.drainCtx (s.coreMid 0) 0).ctx 0 0 = s.ctx 0 0 ∧
       (s.drainCtx (s.coreMid 0) 0).eventPend 0 0 50 = true) ∧
    (let s := W.waits (2 ^ 50) true
     (s.samples 0 0).isSome = true ∧ (s.ctx 0 0).waitLimit ≠ 0 ∧ s.eventPend 0 0 50 = true ∧
       ∀ j < 50, ¬(bitB (2 ^ 50) j = true ∧ s.eventPend 0 0 j = true)) ∧
    (let s := W.waits 1 false
     (s.samples 0 0).isSome = true ∧ (s.ctx 0 0).waitLimit ≠ 0 ∧
       ∀ j < 51, ¬(bitB 1 j = true ∧ s.eventPend 0 0 j = true)) :=
  ⟨⟨W.f (by decide +kernel) rfl, by decide +kernel⟩, ⟨W.f (by decide +kernel) rfl, by decide +kernel⟩,
    ⟨W.f (by decide +kernel) rfl, by decide +kernel⟩, ⟨W.f (by decide +kernel) rfl, rfl, by decide +kernel⟩,
    by decide +kernel, by decide +kernel⟩

/-- The last places of IMEM and of TCM, a flawed word, misaligned addresses, level T in IMEM. -/
theorem witness_LoadsFromLocalWindow :
    (∀ s ∈ [W.g1 0x1FFFC, W.g1 0x20000, W.g1 0x3FFE0, W.g1 0x20000 true],
      W.a s % 4 = 0 ∧ (0x20000 ≤ W.a s ∨ (s.ctx 0 0).task = false) ∧ W.a s < 0x40000 ∧
        s.core[(0 : Fin 11)].localBad (W.a s) 4 = false) ∧
    W.a (W.g1 0x3FFE0) % 32 = 0 ∧ (W.g1 0x3FFE0).core[(0 : Fin 11)].localBad 0x3FFE0 32 = false ∧
    (let s := W.core fun k => { k with flaws := [0x8000], ctx := k.ctx.set 0 { g := (Vector.replicate 32 0).set 1 0x20000 } }
     Fetched s s 0 0 ∧ W.a s = 0x20000 ∧ s.core[(0 : Fin 11)].localBad 0x20000 4 = true ∧ (s.ctx 0 0).exl = false) ∧
    (let s := W.g1 0x20001
     Fetched s s 0 0 ∧ W.a s % 2 ≠ 0 ∧ W.a s % 4 ≠ 0 ∧ W.a s % 32 ≠ 0 ∧ (s.ctx 0 0).exl = false) ∧
    (let s := W.g1 0x1FFFF true
     Fetched s s 0 0 ∧ W.a s < 0x20000 ∧ (s.ctx 0 0).task = true ∧ (s.ctx 0 0).exl = false) ∧
    Fetched (W.g1 0x1FFFC) (W.g1 0x1FFFC) 0 0 ∧ Fetched (W.g1 0x3FFE0) (W.g1 0x3FFE0) 0 0 :=
  ⟨by decide +kernel, by decide +kernel, by decide +kernel, ⟨W.f (by decide +kernel) rfl, by decide +kernel⟩,
    ⟨W.f (by decide +kernel) rfl, by decide +kernel⟩, ⟨W.f (by decide +kernel) rfl, by decide +kernel⟩,
    W.f (by decide +kernel) rfl, W.f (by decide +kernel) rfl⟩

/-- Core 0 waits for a word at `pa`. -/
def W.loads (pa : Nat) (ca : Bool) (d : Sparse Line) : State :=
  W.regs [(F.PWC_DOM.STATE 138, domON)] (W.core fun k => { k with
    dcache := d, ctx := k.ctx.set 0 { load := some ⟨false, .lw, 1, 0x40000, pa, ca⟩ } })

theorem witness_LoadsThatWait :
    (let s := W.regs [(F.PWC_DOM.STATE 138, domON)] (W.g1 0x10000000)
     let r := s.translate 0 (s.ctx 0 0).space .load (W.a s)
     Fetched s s 0 0 ∧ r.1 = .phys 0x10000000 false ∧ r.2.ctx 0 0 = s.ctx 0 0 ∧ W.a s % 32 = 0 ∧
       r.2.inMem 0x10000000 = true) ∧
    (let s := W.dline false
     let r := s.translate 0 (s.ctx 0 0).space .load (W.a s)
     Fetched s s 0 0 ∧ r.1 = .phys 0x10000000 true ∧ r.2.ctx 0 0 = s.ctx 0 0 ∧ W.a s % 4 = 0 ∧
       (spFind r.2.core[(0 : Fin 11)].dcache 0x800000).isSome = true) ∧
    (let t := W.loads 0x10000000 false []
     t.coreOn 0 = true ∧ t.core[(0 : Fin 11)].up = true ∧ t.core[(0 : Fin 11)].failed = false ∧ t.familyRuns = true ∧
       (t.ctx 0 0).load.isSome = true ∧ (t.memRead (t.coreMid 0) (t.coreClient 0) 0x10000000 4 (envAt 0x10000000 [])).2.1 = .ok) ∧
    (let t := W.loads 0x10000000 true [(0x800000, ⟨List.replicate 32 7, true⟩)]
     t.coreOn 0 = true ∧ t.core[(0 : Fin 11)].up = true ∧ t.familyRuns = true ∧
       (spFind t.core[(0 : Fin 11)].dcache 0x800000).isSome = true) ∧
    (let t := W.loads 0x10000000 true []
     let v := t.dcFill 0 0x800000 []
     t.coreOn 0 = true ∧ t.core[(0 : Fin 11)].up = true ∧ t.familyRuns = true ∧
       spFind t.core[(0 : Fin 11)].dcache 0x800000 = none ∧ v.1 = true ∧ (spFind v.2.core[(0 : Fin 11)].dcache 0x800000).isSome = true) :=
  ⟨⟨W.f (by decide +kernel) rfl, by decide +kernel⟩, ⟨W.f (by decide +kernel) rfl, by decide +kernel⟩,
    by decide +kernel, by decide +kernel, by decide +kernel⟩

theorem witness_StoresIntoLocalWindow :
    (∀ s ∈ [W.g1 0x1FFFC, W.g1 0x20000, W.g1 0x3FFE0, W.g1 0x3FFE0 true],
      W.a s % 4 = 0 ∧ (0x20000 ≤ W.a s ∨ (s.ctx 0 0).task = false) ∧ W.a s < 0x40000) ∧
    W.a (W.g1 0x3FFE0) % 32 = 0 ∧
    (let s := W.g1 0x20001
     Fetched s s 0 0 ∧ W.a s % 2 ≠ 0 ∧ W.a s % 4 ≠ 0 ∧ W.a s % 32 ≠ 0 ∧ (s.ctx 0 0).exl = false) ∧
    (let s := W.g1 0 true
     Fetched s s 0 0 ∧ W.a s < 0x20000 ∧ (s.ctx 0 0).task = true ∧ (s.ctx 0 0).exl = false) ∧
    Fetched (W.g1 0x1FFFC) (W.g1 0x1FFFC) 0 0 ∧ Fetched (W.g1 0x3FFE0) (W.g1 0x3FFE0) 0 0 :=
  ⟨by decide +kernel, by decide +kernel, ⟨W.f (by decide +kernel) rfl, by decide +kernel⟩,
    ⟨W.f (by decide +kernel) rfl, by decide +kernel⟩, W.f (by decide +kernel) rfl, W.f (by decide +kernel) rfl⟩

/-- Core 0 with g1 at `a`, its monitor on that word since TB 0, at TB `tb`. -/
def W.mon (a : Word) (tb : Nat) : State :=
  { W.run fun x => { x with g := x.g.set 1 a, mon := some ((2 ^ 40 + a.toNat) / 32, 0) } with tbq := 4 * tb }

theorem witness_ExclusiveAccess :
    (let s := W.g1 0x3FFFC
     Fetched s s 0 0 ∧ W.a s % 4 = 0 ∧ 0x20000 ≤ W.a s ∧ W.a s < 0x40000 ∧ s.core[(0 : Fin 11)].localBad (W.a s) 4 = false ∧
       (s.ctx 0 0).mon = none) ∧
    (let s := W.mon 0x20000 9999
     Fetched s s 0 0 ∧ W.a s = 0x20000 ∧ (s.ctx 0 0).mon = some ((2 ^ 40 + 0x20000) / 32, 0) ∧ s.tb < 10000) ∧
    (let s := W.mon 0x20000 10000
     Fetched s s 0 0 ∧ W.a s = 0x20000 ∧ (s.ctx 0 0).mon = some ((2 ^ 40 + 0x20000) / 32, 0) ∧ 0 + 10000 ≤ s.tb) ∧
    (let s := W.g1 0x20002
     Fetched s s 0 0 ∧ W.a s % 4 ≠ 0 ∧ (s.ctx 0 0).exl = false) ∧
    (let s := W.g1 0x1FFFC
     Fetched s s 0 0 ∧ W.a s % 4 = 0 ∧ W.a s < 0x20000 ∧ (s.ctx 0 0).exl = false ∧ (s.ctx 0 0).task = false) :=
  ⟨⟨W.f (by decide +kernel) rfl, by decide +kernel⟩, ⟨W.f (by decide +kernel) rfl, by decide +kernel⟩,
    ⟨W.f (by decide +kernel) rfl, by decide +kernel⟩, ⟨W.f (by decide +kernel) rfl, by decide +kernel⟩,
    W.f (by decide +kernel) rfl, by decide +kernel⟩

/-- Core 0 with g1 at a page of shared SRAM that is cached, shared SRAM in state `d`. -/
def W.page1 (d : Nat) : State :=
  W.regs [(F.PWC_DOM.STATE 138, d)] (W.core fun k => { k with
    tlb := [W.page 0x10000 true], ctx := k.ctx.set 0 { pc := 0, g := (Vector.replicate 32 0).set 1 0x40000, mmuEn := true } })

/-- Where a store by g1 goes, and the state after the translation. -/
def W.sx (s : State) : Xl × State := s.translate 0 (s.ctx 0 0).space .store (W.a s)

/-- Context 0 of core 0 fetches, and a store by g1 goes to `pa`, its monitor, its identity and its client standing. -/
def W.stores (s : State) (pa : Nat) (ca : Bool) : Prop :=
  (s.issuing 0 = some 0 ∧ s.fetch 0 0 = (none, s)) ∧ (W.sx s).1 = .phys pa ca ∧
    ((W.sx s).2.ctx 0 0).mon = (s.ctx 0 0).mon ∧ (W.sx s).2.coreMid 0 = s.coreMid 0 ∧ (W.sx s).2.coreClient 0 = s.coreClient 0

theorem witness_StoresThroughTheFabric :
    (let s := W.regs [(F.PWC_DOM.STATE 138, domON)] (W.g1 0x10000000)
     let w := (W.sx s).2
     W.stores s 0x10000000 false ∧ w.inMem 0x10000000 = true ∧ W.a s % 32 = 0 ∧
       ∀ k ∈ [1, 2, 4, 32], (w.memWrite (w.coreMid 0) (w.coreClient 0) 0x10000000 (List.replicate k 0)).1 = .ok) ∧
    (let s := W.regs [(F.PWC_DOM.STATE 138, domOFF)] (W.g1 0x10000000)
     let w := (W.sx s).2
     W.stores s 0x10000000 false ∧ w.inMem 0x10000000 = true ∧
       ∀ k ∈ [1, 2, 4, 32], (w.memWrite (w.coreMid 0) (w.coreClient 0) 0x10000000 (List.replicate k 0)).1 ≠ .ok ∧
         ((w.memWrite (w.coreMid 0) (w.coreClient 0) 0x10000000 (List.replicate k 0)).2.ctx 0 0).exl = false) ∧
    (let s := W.dline false
     W.stores s 0x10000000 true ∧ (W.sx s).2.inMem 0x10000000 = true ∧ W.a s % 32 = 0 ∧
       (spFind (W.sx s).2.core[(0 : Fin 11)].dcache 0x800000).isSome = true) ∧
    (let s := W.page1 domON
     let z := (W.sx s).2.dcFill 0 0x800000 []
     W.stores s 0x10000000 true ∧ (W.sx s).2.inMem 0x10000000 = true ∧
       spFind (W.sx s).2.core[(0 : Fin 11)].dcache 0x800000 = none ∧ z.1 = true ∧
       (spFind z.2.core[(0 : Fin 11)].dcache 0x800000).isSome = true) ∧
    (let s := W.page1 domOFF
     let z := (W.sx s).2.dcFill 0 0x800000 []
     W.stores s 0x10000000 true ∧ (W.sx s).2.inMem 0x10000000 = true ∧
       spFind (W.sx s).2.core[(0 : Fin 11)].dcache 0x800000 = none ∧ z.1 = false ∧ (z.2.ctx 0 0).exl = false) ∧
    (let s := W.g1 0x01000100
     let r := (W.sx s).2.accessWrite ((W.sx s).2.coreMid 0) 0 0x01000100 4 0
     W.stores s 0x01000100 false ∧ (W.sx s).2.inMem 0x01000100 = false ∧ W.a s % 32 = 0 ∧
       ((W.sx s).2.ctx 0 0).exl = false ∧ r.1 = true ∧ (r.2.ctx 0 0).exl = false) ∧
    (let s := W.regs [(F.PWC_DOM.STATE 9, domON)] (W.g1 0x203000)
     let r := (W.sx s).2.accessWrite ((W.sx s).2.coreMid 0) 0 0x203000 4 0
     W.stores s 0x203000 false ∧ r.1 = false ∧ r.2.ctx 0 0 = (W.sx s).2.ctx 0 0) := by
  unfold W.stores
  refine ⟨⟨⟨⟨?_, rfl⟩, ?_⟩, ?_⟩, ⟨⟨⟨?_, rfl⟩, ?_⟩, ?_⟩, ⟨⟨⟨?_, rfl⟩, ?_⟩, ?_⟩, ⟨⟨⟨?_, rfl⟩, ?_⟩, ?_⟩, ⟨⟨⟨?_, rfl⟩, ?_⟩, ?_⟩,
    ⟨⟨⟨?_, rfl⟩, ?_⟩, ?_⟩, ⟨⟨?_, rfl⟩, ?_⟩, ?_⟩ <;> decide +kernel

/-! ### Witnesses: coefficients, contexts, DMA, failures, takeover -/

/-- Core 0, whose port's CANC and EQ are ON, with g1 at `a` and the first half-word coefficient at `a` kept or not. -/
def W.coef (a : Nat) (kept known : Bool) : State :=
  let s := W.regs [(F.PWC_DOM.STATE 5, domON), (F.PWC_DOM.STATE 6, domON)] (W.g1 (BitVec.ofNat 32 a))
  s.modPort 0 fun p => { p with
    eq := { p.eq with coef := if kept then [(a / 4, 0xFFFFFF)] else [] }, trn := { p.trn with coefKnown := known } }

/-- A Turret that serves no port. -/
def W.turret : State :=
  let s := W.on [128]
  { s with core := s.core.set 8 { s.core[(8 : Fin 11)] with up := true } }

theorem witness_CoefficientAccess :
    (let s := W.coef 0 true false
     Fetched s s 0 0 ∧ s.coefPort 0 = some 0 ∧ s.coefCheck 0 false (W.a s) 1 = none ∧ s.coefCheck 0 true (W.a s) 1 = none ∧
       spFind s.port[(0 : Fin 8)].eq.coef 0 = some 0xFFFFFF ∧ (s.ctx 0 0).exl = false) ∧
    (let s := W.coef 0x1B0BC false true
     Fetched s s 0 0 ∧ s.coefPort 0 = some 0 ∧ s.coefCheck 0 false (W.a s) 1 = none ∧
       spFind s.port[(0 : Fin 8)].eq.coef (0x1B0BC / 4) = none ∧ s.port[(0 : Fin 8)].trn.coefKnown = true) ∧
    (let s := W.coef 0 true true
     Fetched s s 0 0 ∧ s.coefCheck 0 false (W.a s) 16 = none ∧ s.coefCheck 0 true (W.a s) 16 = none ∧
       s.port[(0 : Fin 8)].trn.coefKnown = true) ∧
    (let s := W.turret
     Fetched s s 8 0 ∧ s.coefPort 8 = none ∧ (s.ctx 8 0).exl = false) :=
  ⟨⟨W.f (by decide +kernel) rfl, by decide +kernel⟩, ⟨W.f (by decide +kernel) rfl, by decide +kernel⟩,
    ⟨W.f (by decide +kernel) rfl, by decide +kernel⟩, ⟨by decide +kernel, rfl, rfl⟩, by decide +kernel⟩

/-- An address that is not aligned; the first words above a pair's last filter and above the window; the THP's words, the
first and the last; words of CANC and of EQ in domains that are off. -/
theorem witness_CoefficientChecks :
    (∀ a ∈ [1, 0x5500, 0x1B100, 0xFFFFFFFC, 0x5C00, 0x5CBC, 0x17CBC],
       (W.coef a false true).issuing 0 = some 0 ∧ (W.coef a false true).coefPort 0 = some 0 ∧
         ((W.coef a false true).ctx 0 0).exl = false) ∧
    (∀ a ∈ [0x5500, 0x1B100, 0xFFFFFFFC], a % 4 = 0 ∧ (W.coef a false true).coefCheck 0 false a 1 = some (2, a)) ∧
    (∀ a ∈ [0x5C00, 0x5CBC, 0x17CBC], (W.coef a false true).coefCheck 0 true a 1 = some (3, a) ∧
       (W.coef a false true).coefCheck 0 false a 1 = none) ∧
    (∀ a ∈ [0, 0x5600], (W.g1 (BitVec.ofNat 32 a)).coefCheck 0 false a 1 = some (4, a)) ∧
    Fetched (W.coef 1 false true) (W.coef 1 false true) 0 0 ∧ W.a (W.coef 1 false true) % 4 ≠ 0 :=
  ⟨by decide +kernel, by decide +kernel, by decide +kernel, by decide +kernel, W.f (by decide +kernel) rfl, by decide +kernel⟩

/-- Core 0 with contexts 0 and 1 to run, which is at work. -/
def W.two (cur : Nat) : State := W.core fun k => { k with ctxRun := 3, cur := cur }

theorem witness_InterruptsAndSwitches :
    (Fetched (W.run id) (W.run id) 0 0 ∧ molxLegal 0xFC000000 = false ∧ ((W.run id).ctx 0 0).exl = false) ∧
    (let s := W.run fun x => { x with ie := true, imask := 2 ^ 50 + 1, flag := true }
     s.coreLive 0 = true ∧ bitB s.core[(0 : Fin 11)].ctxRun 0 = true ∧ (s.ctx 0 0).halted = false ∧ (s.ctx 0 0).load = none ∧
       (s.ctx 0 0).ie = true ∧ (s.ctx 0 0).exl = false ∧ bitB (s.ctx 0 0).imask 50 = true ∧ s.eventPend 0 0 50 = true ∧
       ∀ j < 50, ¬(bitB (s.ctx 0 0).imask j = true ∧ s.eventPend 0 0 j = true)) ∧
    (∀ cur : Fin 2, (W.two cur.val).coreLive 0 = true ∧ (W.two cur.val).core[(0 : Fin 11)].cur = cur.val ∧
       (∀ d : Fin 2, bitB (W.two cur.val).core[(0 : Fin 11)].ctxRun d.val = true) ∧
       (∀ d : Fin 4, ((W.two cur.val).ctx 0 d).halted = false ∧ ((W.two cur.val).ctx 0 d).wait = none) ∧
       ((W.two cur.val).ctx 0 0).prio < ((W.two cur.val).ctx 0 1).prio) :=
  ⟨⟨W.f (by decide +kernel) rfl, by decide +kernel⟩, by decide +kernel, by decide +kernel⟩

theorem witness_CoreStartHaltReset :
    (∀ i : Fin 11, (W.on [coreDom i.val]).coreOn i = true ∧ (W.on [coreDom i.val]).on (F.CORE_CTRL.RUN i.val) = false) ∧
    (let s := W.regs [(F.CORE_CTRL.RUN 0, 1)] (W.g1 0x6)
     s.coreOn 0 = true ∧ s.on (F.CORE_CTRL.RUN 0) = true) ∧
    Fetched (W.g1 0x6) (W.g1 0x6) 0 0 ∧ ((W.g1 0x6).ctx 0 0).task = false ∧ bitB 6 1 = true ∧
      bitB (W.g1 0x6).core[(0 : Fin 11)].ctxRun 1 = false ∧ ((W.g1 0x6).ctx 0 1).ran = false :=
  ⟨by decide +kernel, by decide +kernel, W.f (by decide +kernel) rfl, by decide +kernel⟩

/-- Core 0 whose DMA channel 3 works on the descriptor at the last place of TCM, `bytes` its words 0 to 2. -/
def W.dma (w0 w2 : Nat) : State := W.core fun k => { k with
  tcm := Mem.ofBytes 0x1FFE0 (bytesLE 4 w0 ++ bytesLE 4 0xA5 ++ bytesLE 4 w2), dma := k.dma.set 3 { desc := 0x3FFE0, active := true } }

theorem witness_DmaChannels :
    (Fetched (W.g1 0xE0000000) (W.g1 0xE0000000) 0 0 ∧ ((W.g1 0xE0000000).ctx 0 0).task = false ∧
      (∀ ch : Fin 4, ((W.g1 0xE0000000).core[(0 : Fin 11)].dma[ch]).active = false) ∧ bitB 0xE0000000 30 = true) ∧
    (let s := W.dma 0 0
     Fetched s s 0 0 ∧ (s.ctx 0 0).task = false ∧ (s.core[(0 : Fin 11)].dma[(3 : Fin 4)]).active = true) ∧
    (∀ p ∈ [(2 ^ 28 + 1, 0x20000), (2 ^ 28 + 64, 0x20000), (2 ^ 28 + 1, 0x3FFFF), (2 ^ 28 + 32, 0x3FFC0)],
      let s := W.dma p.1 p.2
      let k := s.core[(0 : Fin 11)]
      let d := k.dma[(3 : Fin 4)]
      let word (n : Nat) : Nat := natLE ((List.range 4).map fun j => k.tcm.read (d.desc - 0x20000 + 4 * n + j))
      let len := word 0 % 2 ^ 17
      let dst := word 2
      s.coreOn 0 = true ∧ k.failed = false ∧ s.coreClocked 0 = true ∧ s.familyRuns = true ∧ d.active = true ∧
        d.resume = false ∧ 0x20000 ≤ d.desc ∧ d.desc % 32 = 0 ∧ d.desc + 32 ≤ 0x40000 ∧ k.localBad d.desc 32 = false ∧
        word 0 / 2 ^ 17 = 2 ^ 28 / 2 ^ 17 ∧ 1 ≤ len ∧ dst % 64 + len ≤ 64 ∧ 0x20000 ≤ dst ∧ dst + len ≤ 0x40000 ∧
        (dst + len ≤ d.desc + 16 ∨ d.desc + 32 ≤ dst ∨ dst = 0x3FFFF)) :=
  ⟨⟨W.f (by decide +kernel) rfl, by decide +kernel⟩, ⟨W.f (by decide +kernel) rfl, by decide +kernel⟩, by decide +kernel⟩

theorem witness_CoreFailures :
    (let s := W.core fun k => { k with wdog := 1 }
     s.coreOn 0 = true ∧ s.core[(0 : Fin 11)].up = true ∧ s.core[(0 : Fin 11)].wdog ≠ 0) ∧
    (let s := { W.on [coreDom 10] with core := State.reset.core.set 10 { State.reset.core[(10 : Fin 11)] with up := true } }
     s.coreOn 10 = true ∧ s.coreUp 10 = true) ∧
    (let s := W.core fun k => { k with flaws := [0, 0x8000] }
     s.coreOn 0 = true ∧ ∀ w ∈ [1, 0x7FFF, 0x8001, 0xFFFF], w < 0x10000 ∧ s.core[(0 : Fin 11)].flaws.contains w = false) ∧
    (W.core fun k => { k with failed := true }).core[(0 : Fin 11)].failed = true ∧
    (let s := W.regs [(F.SQC_CTRL.TKO_AUTO, 1)] (W.run id)
     s.coreOn 0 = true ∧ s.core[(0 : Fin 11)].failed = false ∧
       (∀ ch : Fin 4, (s.core[(0 : Fin 11)].dma[ch]).active = false) ∧ s.core[(0 : Fin 11)].up = true ∧
       (s.server 0).isSome = false ∧ bitB (s.rd F.SQC_CTRL.TKO_AUTO) 0 = true) := by
  decide +kernel

/-- Core 0 held for a checkpoint whose buffers lie in shared SRAM, which is in state `d`; the latest valid one is A, or none. -/
def W.ckpt (d va : Nat) : State :=
  W.regs [(F.PWC_DOM.STATE 138, d), (F.SLOT_CKPT.CKPT_TCM 0, 0), (F.SLOT_CKPT_BASE.CKPT_BASE 0, 0x10000),
    (F.SLOT_CKPT_STAT.VALID_A 0, va)]
    (W.core fun k => { k with hold := true })

theorem witness_Checkpoints :
    (let s := W.regs [(F.SLOT_CKPT.CKPT_PERIOD 0, 1)] (W.run id)
     s.coreUp 0 = true ∧ s.rd (F.SLOT_CKPT.CKPT_PERIOD (s.coreSlot 0)) ≠ 0) ∧
    State.reset.coreUp 0 = false ∧
    ∀ d ∈ [domON, domOFF], ∀ va < 2,
      let s := W.ckpt d va
      let b := decide (s.ckptLatest 0 = some false)
      let v := (s.dcCleanAll 0).wrB (validFld 0 b) false
      let w1 := v.memWrite 4 (loaderClient 0) (s.ckptAddr 0 b + 4096) (s.core[(0 : Fin 11)].tcm.readN 0 (s.ckptTcm 0))
      s.coreOn 0 = true ∧ s.core[(0 : Fin 11)].hold = true ∧ (∀ c : Fin 4, (s.ctx 0 c).load = none) ∧ s.coreSlot 0 = 0 ∧
        b = decide (va = 1) ∧ w1.1 = .ok ∧
        decide ((w1.2.memWrite 4 (loaderClient 0) (s.ckptAddr 0 b) (List.replicate 4096 0)).1 = .ok) = decide (d = domON) := by
  decide +kernel

/-- Port 0's sequencer at work, Turret 0 in STANDBY or serving port 0, and takeovers due; cores 0 and 8 hold port 0's image where
`img` says so. -/
def W.sqc (up0 : Bool) (serving : Option Nat) (due : List Nat) (img : Option Nat := some 0) : State :=
  let s := W.regs [(F.SQC_CTRL.TUR_EN, 3), (F.SLOT_CKPT.CKPT_TCM 0, 0)] (W.on [coreDom 0, coreDom 8])
  let s := { s with core := s.core.set 0 { s.core[(0 : Fin 11)] with up := up0, img := img } }
  { s with core := s.core.set 8 { s.core[(8 : Fin 11)] with serving := serving, img := img }, sqc := { s.sqc with due := due } }

/-- With the image in the core and no checkpoint, the loader ends without error. -/
theorem W.loads_yes {s : State} {i : Fin 11} {k sub : Nat} (h : s.core[i].img = some (s.imgId k)) (h2 : s.ckptLatest k = none) :
    ∃ v, Loads s i k sub v := ⟨_, s, Or.inl ⟨h, rfl⟩, Or.inl ⟨h2, rfl⟩⟩
/-- With an image that cannot be read, it does not. -/
theorem W.loads_no {s : State} {i : Fin 11} {k sub : Nat} (h : s.core[i].img ≠ some (s.imgId k))
    (h2 : (s.memRead 4 (loaderClient k) (4096 * s.rd (F.SLOT_IMG_BASE.IMG_BASE k)) 0x20000).2.1 ≠ .ok) :
    (∀ v, ¬ ImageIn s i k v) ∧ ∀ v, ¬ Loads s i k sub v := by
  have no : ∀ v, ¬ ImageIn s i k v := by
    rintro v (⟨h3, _⟩ | ⟨_, bs, u, h3, _⟩)
    · exact h h3
    · exact h2 (by rw [h3])
  exact ⟨no, fun v ⟨u, h3, _⟩ => no u h3⟩

/-- What the loader needs of a state: the image is there and there is no checkpoint, or it cannot be read. -/
def W.loader (s : State) (i : Fin 11) (k : Nat) (yes : Bool) : Bool :=
  if yes then decide (s.core[i].img = some (s.imgId k)) && decide (s.ckptLatest k = none)
  else decide (s.core[i].img ≠ some (s.imgId k)) &&
    decide ((s.memRead 4 (loaderClient k) (4096 * s.rd (F.SLOT_IMG_BASE.IMG_BASE k)) 0x20000).2.1 ≠ .ok)

/-- A Turret as the takeover leaves it before the loader starts. -/
def W.turretLoads (u : State) (i : Fin 11) : State := u.setCore i fun k => { k with
  up := false, icache := [], dcache := [], tlb := [], loading := true, ctx := k.ctx.map fun x => { x with mon := none } }

theorem witness_TakeoverAndSqcCommands :
    (let s := W.sqc false none [7, 0]
     0 ∈ s.sqc.due ∧ (∀ j < 0, j ∉ s.sqc.due) ∧ s.turPick = some 0) ∧
    (∀ yes : Bool,
     let s := W.sqc false none [7] (if yes then some 0 else none)
     7 ∈ s.sqc.due ∧ (∀ j < 7, j ∉ s.sqc.due) ∧ s.turPick = some 0 ∧ W.loader (W.turretLoads (s.drainMid 15) 8) 8 7 yes = true) ∧
    (∀ yes : Bool,
     let s := W.sqc true none [] (if yes then some 0 else none)
     s.sqcFree 1 0 = true ∧ s.coreUp 0 = true ∧ s.server 0 = none ∧ s.turPick = some 0 ∧
       W.loader (W.turretLoads (((s.ckptWrite 0 5).dmaAbortAll 0).coreHalt 0) 8) 8 0 yes = true) ∧
    (let s := W.sqc false none []
     s.sqcFree 1 0 = true ∧ s.coreUp 0 = false ∧ s.sqcFree 2 0 = true ∧ s.server 0 = none) ∧
    (∀ yes : Bool,
     let s := W.sqc false (some 0) [] (if yes then some 0 else none)
     W.loader (((((s.ckptWrite 8 5).dmaAbortAll 8).coreHalt 8).setCore 8 fun k => { k with serving := none }).masterReset 8) 0 0
       yes = true ∧ s.sqcFree 2 0 = true ∧ s.server 0 = some 8 ∧ s.coreOn 0 = true ∧ s.core[(0 : Fin 11)].up = false ∧
       s.core[(0 : Fin 11)].failed = false ∧ s.slotCore 8 = none ∧ s.slotCore 0 = some 8) ∧
    (∀ up yes : Bool,
     let s := W.sqc up none [] (if yes then some 0 else none)
     s.sqcFree 3 0 = true ∧ s.slotCore 0 = some 0 ∧ s.coreOn 0 = true ∧ s.core[(0 : Fin 11)].failed = false ∧
       s.slotCore 7 = some 7 ∧ s.coreOn 7 = false ∧ W.loader s 0 0 yes = true ∧
       W.loader (((s.ckptWrite 0 5).dmaAbortAll 0).setCore 0 fun k => { k with up := false }) 0 0 yes = true) ∧
    (∀ p ∈ [(1, 0), (1, 7), (2, 0), (3, 0), (3, 10)], (W.sqc true none [7]).sqcFree p.1 p.2 = false) := by
  decide +kernel

/-! ### Witnesses: ports -/

/-- Port 0 with PD_P0_PCS and the domains `l` ON, its link in state `st` and mode `mode`, and the fields `r`. -/
def W.port (l : List Nat) (st mode : Nat) (r : List (Fld × Nat)) : State :=
  W.regs ([(F.LINK_STATUS.STATE 0, st), (F.LINK_STATUS.MODE 0, mode)] ++ r) (W.on (9 :: l))
/-- The link state of port 0, for the domain that all statements about it ask for. -/
def W.st (s : State) (st : Nat) : Prop := s.pcsOn 0 = true ∧ s.link 0 = st

theorem witness_PortEnableAndRestart :
    (∀ st < 7, W.st (W.port [] st 7 []) st) ∧ (∀ st ∈ [stTRAIN, stUP, stHOLD], (W.port [] st 7 []).active 0 = true) ∧
    (∀ rec : Bool,
     let s := (W.port [] stUP 7 [(F.PARTNER_INFO.P_NODE 0, 63), (F.PARTNER_INFO.P_PORT 0, 7)]).modPort 0 fun p =>
       { p with neg := { p.neg with recorded := rec } }
     s.pcsOn 0 = true ∧ s.linkUp 0 = true ∧ s.port[(0 : Fin 8)].neg.recorded = rec ∧ s.rd (F.PARTNER_INFO.P_NODE 0) = 63 ∧
       s.rd (F.PARTNER_INFO.P_PORT 0) = 7) := by
  unfold W.st; decide +kernel

theorem witness_SensingAndDormancy :
    (∀ dorm < 2,
     let s := W.port [] stSENSE 0 [(F.NEG_CTRL.PARDET_EN 0, 1), (F.NEG_CTRL.FORCE_100 0, 1), (F.NEG_CTRL.DORM_EN 0, dorm)]
     W.st s stSENSE ∧ s.port[(0 : Fin 8)].neg.breakSilence = false ∧ s.on (F.NEG_CTRL.PARDET_EN 0) = true ∧
       s.on (F.NEG_CTRL.FORCE_100 0) = true) ∧
    (let s := W.port [] stDORMANT 0 []
     W.st s stDORMANT ∧ s.on (F.DIAG_STATUS.DIAG_BUSY 0) = false) ∧
    W.st (W.port [] stAN 0 []) stAN := by
  unfold W.st; decide +kernel

/-- Port 0 in AN: `adv` and `part` the modes of the two ends, `s2` the data of the partner's second page where it came, the
seed of this end, and `ties` ties so far. -/
def W.an (adv part : List Nat) (s2 : Option (Nat × Nat)) (ver seed ties : Nat) : State :=
  (W.port [] stAN 0 []).modPort 0 fun p => { p with neg := { p.neg with
    advModes := adv, partnerModes := part, partnerExtNp := true, srates := 7, topRung := 26, seed := seed, ties := ties,
    s1 := some (5, ver * 2 ^ 28 + 2 ^ 24 + 0x38A4C6), s2 := s2 } }

/-- Port 0 in AN with what it still has to send, as `g` leaves its negotiation. -/
def W.anTo (l : List OwnKind) (g : Neg → Neg) : State :=
  (W.an [7, 1] [1] (some (0x7D0, 1023 * 2 ^ 13)) 1 1023 0).modPort 0 fun p => { p with neg := g { p.neg with toSend := l } }

theorem witness_PageExchange :
    (∀ l ∈ [[], [OwnKind.clauses, .s1, .s2], [.s1, .s2], [.s2]], ∀ tog : Bool,
     let s := W.anTo l fun g => { g with toggle := tog }
     let g := s.port[(0 : Fin 8)].neg.page .null
     W.st s stAN ∧ g.toSend = l ∧ g.toggle = tog) ∧
    (∀ only : Bool, ∀ part ∈ [[1], []],
     let s := (W.an [7, 1] part none 2 0 0).modPort 0 fun p => { p with neg := { p.neg with spireOnly := only } }
     let g := s.port[(0 : Fin 8)].neg.page .null
     W.st s stAN ∧ g.advModes.contains 7 = true ∧ g.verBad = true ∧ g.s2.isNone = true ∧ g.spireOnly = only ∧
       commonStd g.advModes g.partnerModes = part.length) := by
  unfold W.st; decide +kernel

theorem witness_PageExchangeEnds :
    (let s := W.an [7, 5] [5] none 1 0 0
     let g := s.port[(0 : Fin 8)].neg.page .null
     W.st s stAN ∧ (g.advModes.contains 7 && (g.spireCapable || g.verBad)) = false ∧ commonStd g.advModes g.partnerModes = 5) ∧
    (let s := W.an [1] [2] none 1 0 0
     let g := s.port[(0 : Fin 8)].neg.page .null
     W.st s stAN ∧ (g.advModes.contains 7 && (g.spireCapable || g.verBad)) = false ∧ commonStd g.advModes g.partnerModes = 0) ∧
    (∀ ties ∈ [0, 5, 6],
      let s := W.an [7] [] none 1 1023 ties
      let g := s.port[(0 : Fin 8)].neg.page (.ext false 0x7D0 (1023 * 2 ^ 13))
      W.st s stAN ∧ (g.advModes.contains 7 && g.spireCapable && tied g (readS2 0x7D0 (1023 * 2 ^ 13))) = true ∧
        g.s2 = some (0x7D0, 1023 * 2 ^ 13) ∧ g.ties = ties) ∧
    (∀ mode < 3,
     let s := (W.an [7] [] none 1 1023 0).modPort 0 fun p => { p with neg := { p.neg with expectMode := mode, expNode := 63 } }
     let g := s.port[(0 : Fin 8)].neg.page (.ext false 0x7D0 0)
     W.st s stAN ∧ (g.advModes.contains 7 && g.spireCapable) = true ∧ tied g (readS2 0x7D0 0) = false ∧
       g.s2 = some (0x7D0, 0) ∧ g.s1 = some (5, 2 ^ 28 + 2 ^ 24 + 0x38A4C6) ∧ g.expectMode = mode ∧
       mismatch g (readS2 0x7D0 0) = true ∧
       spireFail g 1 (readS2 0x7D0 0) = (if mode = 2 then some rPARTNER_MISMATCH else none)) ∧
    (∀ only : Bool,
     let s := (W.an [7, 1] [1] none 2 1023 0).modPort 0 fun p => { p with neg := { p.neg with spireOnly := only } }
     let g := s.port[(0 : Fin 8)].neg.page (.ext false 0x7D0 0)
     W.st s stAN ∧ (g.advModes.contains 7 && (g.spireCapable || g.verBad)) = true ∧
       spireFail g 2 (readS2 0x7D0 0) = some rSPIRE_VER ∧ g.s2 = some (0x7D0, 0) ∧ g.spireOnly = only ∧
       commonStd g.advModes g.partnerModes = 1) := by
  unfold W.st; decide +kernel

/-- Port 0 in a Spire attempt in phase `ph` at tier 2, master or not, the lower rates common or not, the INFO block there or
not. -/
def W.trn (ph ms rates : Nat) (info : Option Info) : State :=
  (W.port [5, 6] stTRAIN 7 [(F.TRN_STATUS.TRN_PHASE 0, ph), (F.LINK_STATUS.MS_MASTER 0, ms),
    (F.PARTNER_INFO.RES_SRATES 0, rates)]).modPort 0 fun p => { p with trn := { p.trn with tier := 2, info := info, snrD4 := [400] } }

theorem witness_Training :
    (∀ ph ∈ [phQUIET, phECHO_M, phECHO_S, phDUPLEX2, phDUPLEX4, phINFO, phPRECODE, phFRAME_SYNC], ∀ ms < 2,
      let s := W.trn ph ms 7 none
      W.st s stTRAIN ∧ s.spire 0 = true ∧ s.port[(0 : Fin 8)].trn.silence = false ∧ s.phase 0 = ph ∧
        s.master 0 = decide (ms = 1)) ∧
    (∀ j < 2, bitB ((W.trn 2 1 7 none).rd (F.PARTNER_INFO.RES_SRATES 0)) j = true) ∧
    (∀ j < 2, bitB ((W.trn 2 1 4 none).rd (F.PARTNER_INFO.RES_SRATES 0)) j = false) ∧
    (∀ big : Bool,
      let m : PhaseMeas := { residual := if big then -383 else -384, sums := List.replicate 4 (if big then 0 else 2 ^ 60), cableDly := 4096 }
      m.snr = List.replicate 4 (if big then 4095 else 0) ∧ (W.trn phDUPLEX4 1 7 none).supported 0 m.snr = big) ∧
    (W.trn phINFO 1 7 (some ⟨[], [], false, 0⟩)).port[(0 : Fin 8)].trn.info.isSome = true ∧
    (W.trn phINFO 1 7 none).port[(0 : Fin 8)].trn.info = none ∧
    (∃ x < 4, [375].getD x 0 + 24 < (W.trn phPRECODE 1 7 none).port[(0 : Fin 8)].trn.snrD4.getD x 0) ∧
    (¬ ∃ x < 4, [376].getD x 0 + 24 < (W.trn phPRECODE 1 7 none).port[(0 : Fin 8)].trn.snrD4.getD x 0) ∧
    (let s := (W.port [] stTRAIN 7 []).modPort 0 fun p => { p with trn := { p.trn with silence := true } }
     W.st s stTRAIN ∧ s.port[(0 : Fin 8)].trn.silence = true) ∧
    (W.st (W.port [] stTRAIN 5 []) stTRAIN ∧ (W.port [] stTRAIN 5 []).spire 0 = false) := by
  unfold W.st; decide +kernel

theorem natOfBits_bitsLE (k v : Nat) : natOfBits (bitsLE k v) = v % 2 ^ k := by
  induction k generalizing v with
  | zero => simp [bitsLE, natOfBits, Nat.mod_one]
  | succ k ih =>
    have e : bitsLE (k + 1) v = bitB v 0 :: bitsLE k (v / 2) := by
      unfold bitsLE bitB
      rw [List.range_succ_eq_map, List.map_cons, List.map_map]
      simp [Function.comp_def, Nat.pow_succ', Nat.div_div_eq_div_mul]
    have h2 : b2n (bitB v 0) = v % 2 := by
      unfold b2n bitB
      rcases Nat.mod_two_eq_zero_or_one v with h | h <;> simp [h]
    rw [e, natOfBits, ih, h2, Nat.pow_succ', Nat.mod_mul]

/-- The votes of 3,136 bits, 129 symbols to 127, spell them. -/
theorem majority_of_votes (bs : List Bool) (h : bs.length = 3136) :
    majorityBits (bs.map fun v => if v then 129 else 127) = bs := by
  unfold majorityBits
  refine List.ext_getElem (by simp [h]) fun k h1 h2 => ?_
  simp only [List.getElem_map, List.getElem_range]
  rw [List.getD_eq_getElem?_getD, List.getElem?_map, List.getElem?_eq_getElem h2]
  cases bs[k] <;> simp [majority]

/-- An INFO block as sent is accepted; with another word in the place of its CRC it is not. -/
theorem witness_InfoVotes (w : Nat) :
    let i : Info := ⟨List.replicate 192 0x8000, [3, 2, 1, 0], true, 26⟩
    infoCrcGood (majorityBits ((i.bits ++ bitsLE 32 w).map fun v => if v then 129 else 127)) =
      decide (w % 2 ^ 32 = (crc32 i.bits).toNat) := by
  intro i
  have hl : i.bits.length = 3104 := by
    simp only [i, Info.bits, bitsLE, List.length_append, List.length_flatMap, List.length_map, List.length_range,
      List.map_replicate, List.sum_replicate_nat, List.map_cons, List.map_nil, List.sum_cons, List.sum_nil,
      List.length_cons, List.length_nil, Nat.reduceMul, Nat.reduceAdd]
  rw [majority_of_votes _ (by simp [hl, bitsLE])]
  unfold infoCrcGood
  rw [List.drop_left' hl, List.take_left' hl, natOfBits_bitsLE, List.length_append, hl]
  simp [bitsLE, Bool.beq_eq_decide_eq]

theorem witness_LinkLossAndPresence :
    (W.st (W.port [] stUP 5 []) stUP ∧ (W.port [] stUP 5 []).spire 0 = false) ∧
    (let s := (W.port [10] stHOLD 7 [(F.SENSE_CTRL.FAST_DEPART 0, 1)]).modPort 0 fun p =>
       { p with neg := { p.neg with leaveDue := true } }
     W.st s stHOLD ∧ s.on (F.SENSE_CTRL.FAST_DEPART 0) = true ∧ s.port[(0 : Fin 8)].neg.leaveDue = true ∧
       s.domOn 10 = true) ∧
    (let s := W.port [4] stDISABLED 0 [(F.XB_STATUS.XB_STATE 0, xbSWAP), (F.XB_STATUS.XB_CUR_PAIR 0, 3)]
     W.st s stDISABLED ∧ s.checking 0 = false ∧ s.pairSlice 0 3 = 4 ∧ s.domOn 4 = true) ∧
    (∀ k < 4, (W.port [k] stDISABLED 0 []).pairSlice 0 k = k ∧ W.st (W.port [k] stDISABLED 0 []) stDISABLED ∧ (W.port [k] stDISABLED 0 []).checking 0 = false ∧
      (W.port [k] stDISABLED 0 []).domOn k = true ∧ (W.port [] stDISABLED 0 [(F.PWC_DOM.STATE k, domOFF)]).domOn k = false) ∧
    (let s := W.port [] stDORMANT 0 [(F.SENSE_CTRL.PCHK_PERIOD 0, 1)]
     W.st s stDORMANT ∧ s.checking 0 = false ∧ s.rd (F.SENSE_CTRL.PCHK_PERIOD 0) ≠ 0) ∧
    (let s := W.port [] stDORMANT 0 [(F.PCHK.PCHK_BUSY 0, 1)]
     W.st s stDORMANT ∧ s.checking 0 = true ∧ s.on (F.PCHK.PCHK_BUSY 0) = true) := by
  unfold W.st; decide +kernel

/-! ### Witnesses: slices, framer, retransmission, ladder -/

/-- The crossbar of port 0 in state `st` on pair `p`, the link in state `l` and mode `m`. -/
def W.xb (st p l m : Nat) (pend : Option XbPend) : State :=
  (W.port [4] l m [(F.XB_STATUS.XB_STATE 0, st), (F.XB_STATUS.XB_CUR_PAIR 0, p),
    (F.XB_STATUS.XB_BUSY 0, if pend.isSome then 1 else 0)]).modPort 0 fun q => { q with sl := { q.sl with xbPend := pend } }

theorem witness_TrimsAndCrossbar :
    (∀ k ∈ [8, 9, 10],
     let s := (W.port [0] stUP 7 [(F.SLICE_CTRL.TRIM_PEND 0 0, 1), (F.LAD_STATUS.TX_RUNG 0, 1)]).modPort 0 fun p =>
       { p with fr := { p.fr with txRungIdx := k } }
     s.sliceOn 0 0 = true ∧ s.on (F.SLICE_CTRL.TRIM_PEND 0 0) = true ∧ s.link 0 ≠ stHOLD ∧ s.spire 0 = true ∧ s.link 0 = stUP ∧
       (s.port[(0 : Fin 8)].fr.txRungIdx % alignFrames (rungBits (s.rd (F.LAD_STATUS.TX_RUNG 0))) = 0 ↔ k = 9)) ∧
    (W.port [0] stUP 7 [(F.LPI_STATUS.TX_LPI 0, lpiQUIET)]).rd (F.LPI_STATUS.TX_LPI 0) = lpiQUIET ∧
    (∀ st < 4, ∀ p < 4, ∀ l ∈ [stSENSE, stAN, stUP, stHOLD], ∀ m ∈ [1, 2, 3, 7],
      let s := W.xb st p l m none
      s.xbOn 0 = true ∧ s.handover 0 = false ∧ s.on (F.XB_STATUS.XB_BUSY 0) = false ∧ s.rd (F.XB_STATUS.XB_STATE 0) = st ∧
        s.rd (F.XB_STATUS.XB_CUR_PAIR 0) = p ∧ s.link 0 = l ∧ s.rd (F.LINK_STATUS.MODE 0) = m) ∧
    (∀ w ∈ [XbPend.swap 3, .handback 0],
      let s := W.xb xbSHADOW 3 stUP 7 (some w)
      s.xbOn 0 = true ∧ s.on (F.XB_STATUS.XB_BUSY 0) = true ∧ s.link 0 ≠ stHOLD ∧ s.shiftHere 0 = false ∧
        s.port[(0 : Fin 8)].sl.xbPend = some w) := by
  decide +kernel

theorem witness_ImpulsesAndAdaptation :
    (let s := W.port [0] stUP 7 [(F.IMP_CTRL.IMP_EN 0 0, 1), (F.IMP_CTRL.IMP_LEVEL 0 0, 8), (F.IMP_CTRL.IMP_NCLIP 0 0, 0)]
     s.sliceOn 0 0 = true ∧ s.rd (F.LPI_STATUS.RX_LPI 0) ≠ lpiQUIET ∧ s.on (F.IMP_CTRL.IMP_EN 0 0) = true ∧
       s.on (F.IMP_STATUS.IMP_FLAG 0 0) = false ∧ s.critA 0 0 [1024] = true ∧ s.critA 0 0 [1023] = false ∧
       s.critB 0 0 [1023] 0 = false) ∧
    (let s := W.port [0] stUP 7 [(F.IMP_CTRL.IMP_EN 0 0, 1), (F.IMP_CTRL.IMPB_EN 0 0, 1), (F.IMP_STATUS.IMPB_VALID 0 0, 1),
       (F.IMP_CTRL.IMP_RATIO 0 0, 0)]
     s.sliceOn 0 0 = true ∧ s.on (F.IMP_STATUS.IMP_FLAG 0 0) = false ∧ s.critA 0 0 (List.replicate 16 2) = false ∧
       s.critB 0 0 (List.replicate 16 2) (16 * 2 ^ 20) = false ∧ s.critB 0 0 (List.replicate 16 2) (16 * 2 ^ 20 - 1) = true) ∧
    (let s := W.port [0] stUP 7 [(F.IMP_STATUS.IMP_FLAG 0 0, 1)]
     s.sliceOn 0 0 = true ∧ s.on (F.IMP_STATUS.IMP_FLAG 0 0) = true) ∧
    (let s := (W.port [0, 5, 6] stUP 7 [(F.ADAPT.ADAPT_EN 0 0 0, 1), (F.ADAPT.FREEZE 0 0 0, 0), (F.ADAPT.FRZ_CAUSE 0 0 0, 0),
       (F.ADAPT.DECIM 0 0 0, 0)]).modPort 0 fun p => { p with eq := { p.eq with hangHold := true, hangImp := true } }
     (coefPlace 0).map (fun c => (c.x, c.f, c.j)) = some (0, 0, 0) ∧ s.active 0 = true ∧ s.domOn (filterDom (0 : Fin 8) (0, 0)) = true ∧
       filterOff (s.rd (F.LINK_STATUS.MODE 0)) ⟨0, 0, 0, 0⟩ = false ∧ s.phase 0 < 2 ∧
       (0 + 2 ^ s.rd (F.ADAPT.DECIM 0 0 0) * 0 - 0) % 2 ^ s.rd (F.ADAPT.DECIM 0 0 0) = 0 ∧ s.frozen 0 0 0 = false ∧
       s.port[(0 : Fin 8)].eq.hangHold = true ∧ s.port[(0 : Fin 8)].eq.hangImp = true ∧ s.carriedPair 0 0 = some 0) ∧
    (let s := W.port [0, 5, 6] stUP 7 [(F.ADAPT.FREEZE 0 0 0, 1)]
     s.active 0 = true ∧ s.domOn (filterDom (0 : Fin 8) (0, 0)) = true ∧ s.phase 0 < 2 ∧ s.frozen 0 0 0 = true) ∧
    (let s := W.port [0, 5, 6] stTRAIN 7 [(F.TRN_STATUS.TRN_PHASE 0, phDUPLEX4)]
     s.active 0 = true ∧ s.domOn (filterDom (0 : Fin 8) (0, 0)) = true ∧ s.domOn (filterDom (0 : Fin 8) (0, 3)) = true ∧
       2 ≤ s.phase 0 ∧ s.phase 0 ≠ phFRAME_SYNC ∧ s.port[(0 : Fin 8)].trn.muOvr = false) ∧
    (∀ k ∈ [65535, 65536],
      let used := [ErrRun.mk k (-1) false, ⟨7, 100, true⟩].filter fun (r : ErrRun) => !r.flagged
      (used.map (·.count)).sum = k ∧ (used.map fun r => r.count * (r.eps * r.eps).toNat).sum = k) ∧
    (let s := W.port [6] stUP 7 [(F.XB_STATUS.XB_STATE 0, xbSHADOW)]
     s.domOn (14 * 0 + 6) = true ∧ s.rd (F.XB_STATUS.XB_STATE 0) = xbSHADOW) := by
  decide +kernel

/-- Port 0 in Spire in UP or in frame synchronisation, its framer and retransmission engine as `f` and `r`. -/
def W.frm (st ph : Nat) (l : List Nat) (f : Framer → Framer) (r : Retrans → Retrans) : State :=
  (W.port (10 :: l) st 7 [(F.TRN_STATUS.TRN_PHASE 0, ph)]).modPort 0 fun p => { p with fr := f p.fr, rtx := r p.rtx }
/-- What the statements about frames ask of port 0. -/
def W.fr (s : State) : Prop :=
  s.pcsOn 0 = true ∧ s.spire 0 = true ∧ s.twinned 0 = false ∧ s.txActive 0 = true

theorem witness_FramesSent :
    (let s := W.frm stTRAIN phFRAME_SYNC [] id id
     W.fr s ∧ s.phase 0 = phFRAME_SYNC ∧ s.linkUp 0 = false) ∧
    (let s := W.frm stUP 0 [] (fun f => { f with upFrames := 15 }) id
     W.fr s ∧ s.linkUp 0 = true ∧ s.port[(0 : Fin 8)].fr.upFrames < 16) ∧
    (∀ k ∈ [511, 512],
     let s := W.frm stUP 0 [] (fun f => { f with upFrames := 16 }) fun r => { r with next := k }
     W.fr s ∧ s.linkUp 0 = true ∧ 16 ≤ s.port[(0 : Fin 8)].fr.upFrames ∧ s.port[(0 : Fin 8)].rtx.replay = none ∧
       s.outstanding 0 = k ∧ s.port[(0 : Fin 8)].rtx.winSize = 512 ∧ s.spilling (ownPort 0) = false ∧
       (s.takeFrame (ownPort 0) (s.rd (F.FRM_CTRL.CUT_TH 0))).1 = none) ∧
    (let s := (W.frm stUP 0 [] (fun f => { f with upFrames := 16 }) id)
     let s := { s with side := s.side.set 0 { s.side[(0 : Fin 12)] with ingress := List.replicate 52 ⟨false, 1⟩ } }
     W.fr s ∧ (s.takeFrame (ownPort 0) (s.rd (F.FRM_CTRL.CUT_TH 0))).1 = some (List.replicate 52 ⟨false, 1⟩)) ∧
    (let s := W.frm stUP 0 [] (fun f => { f with upFrames := 16 }) fun r => { r with replay := some 0, next := 1 }
     W.fr s ∧ s.linkUp 0 = true ∧ s.port[(0 : Fin 8)].rtx.replay = some 0) := by
  unfold W.fr; decide +kernel

theorem witness_FramesDecoded :
    (∀ st ∈ [stUP, stHOLD],
     let s := W.frm st 0 [7, 8] id id
     W.fr s ∧ s.linkUp 0 = true ∧ s.rd (F.LPI_STATUS.RX_LPI 0) ≠ lpiQUIET ∧ s.rd (F.LAD_STATUS.RX_STATE 0) ≠ rxDUAL ∧
       s.port[(0 : Fin 8)].fr.rxIdx ≤ 0 ∧ ∀ k < 2, s.domOn (7 + k) = true ∧ s.on (F.FRM_STATUS.HALF0_FAIL 0) = false ∧
       s.on (F.FRM_STATUS.HALF1_FAIL 0) = false) ∧
    (let s := W.regs [(F.PWC_DOM.STATE 7, domOFF), (F.FRM_STATUS.HALF1_FAIL 0, 1)] (W.frm stTRAIN phFRAME_SYNC [8] id id)
     W.fr s ∧ s.phase 0 = phFRAME_SYNC ∧ s.domOn 7 = false ∧ s.domOn 8 = true ∧ s.on (F.FRM_STATUS.HALF1_FAIL 0) = true) := by
  unfold W.fr; decide +kernel

/-- Both halves in service: frames in turn, one that drains, and one half alone. -/
theorem witness_HalvesTakeFrames :
    (∀ up1 ∈ [0, 1], ∀ k ∈ [0, 1], ∀ h ∈ [0, 1],
     let s := W.regs [(F.FRM_STATUS.HALF0_UP 0, 1), (F.FRM_STATUS.HALF1_UP 0, up1)]
       (W.frm stUP 0 [7, 8] (fun f => { f with par := some 0 }) id)
     W.fr s ∧ s.halvesUp 0 = 1 + up1 ∧ s.port[(0 : Fin 8)].fr.drain.contains 0 = false ∧ s.port[(0 : Fin 8)].fr.par = some 0 ∧
       s.halfTakes 0 h k false = (if up1 = 1 then decide ((h + k) % 2 = 0) else decide (h = 0))) ∧
    (let s := W.frm stUP 0 [7, 8] (fun f => { f with drain := [1] }) id
     W.fr s ∧ s.port[(0 : Fin 8)].fr.drain.contains 1 = true ∧ s.halfTakes 0 1 0 false = true) := by
  unfold W.fr; decide +kernel

/-- A good frame in received order with type, sequence number and lock bit, or a failed one. -/
def W.got (st ph : Nat) (typ seq : Nat) (lock : Bool) (failed : Bool) (lc : Nat) (eg : Nat) (fails : Nat) : State :=
  let d : RxDone := { result := if failed then .failed else .good ⟨seq, 0, typ, false, lock, 0, 0, idle52⟩, flagged := false, counted := false }
  let s := W.frm st ph [112] (fun f => { f with done := [(0, d)], lockCount := lc }) fun r => { r with fails := fails }
  { s with side := s.side.set 0 { s.side[(0 : Fin 12)] with egress := List.replicate eg idleBlk } }

theorem witness_FramesHandedOff :
    (let s := W.frm stUP 0 [] id id
     W.fr s ∧ s.linkUp 0 = true ∧ spFind s.port[(0 : Fin 8)].fr.done 0 = none) ∧
    (∀ failed, ∀ lock, ∀ lc ∈ [6, 7],
     let s := W.got stTRAIN phFRAME_SYNC typDATA 0 lock failed lc 0 0
     W.fr s ∧ s.linkUp 0 = false ∧ s.phase 0 = phFRAME_SYNC ∧
       (spFind s.port[(0 : Fin 8)].fr.done s.port[(0 : Fin 8)].fr.rxIdx).isSome = true ∧
       s.port[(0 : Fin 8)].fr.lockCount = lc) ∧
    (∀ typ ∈ [3, typSKIP],
     let s := W.got stTRAIN phFRAME_SYNC typ 0 false false 7 0 0
     W.fr s ∧ s.linkUp 0 = false ∧ s.phase 0 = phFRAME_SYNC ∧
       (spFind s.port[(0 : Fin 8)].fr.done s.port[(0 : Fin 8)].fr.rxIdx).isSome = true) ∧
    (let s := (W.regs [(F.LAD_STATUS.RX_STATE 0, rxDUAL)] (W.got stUP 0 typDATA 0 true true 8 0 0)).modPort 0 fun p =>
       { p with lad := { p.lad with same := true } }
     W.fr s ∧ s.link 0 = stUP ∧ s.rd (F.LAD_STATUS.RX_STATE 0) = rxDUAL ∧ s.port[(0 : Fin 8)].lad.same = true) ∧
    (let s := W.got stUP 0 typDATA 0 true true 8 0 0
     W.fr s ∧ s.link 0 = stUP ∧ s.rd (F.LAD_STATUS.RX_STATE 0) ≠ rxDUAL ∧ 0 + 1 < s.blkFails 0 ∧
       s.blkFails 0 ≤ (s.blkFails 0 - 1) + 1) ∧
    (∀ typ ∈ [typDATA, typFILLER], ∀ p ∈ [(0, (0 : Int)), (1, 1), (512, 512), (513, 513), (65535, -1)],
     let s := W.got stUP 0 typ p.1 true false 8 0 0
     W.fr s ∧ s.link 0 = stUP ∧ s.domOn (112 + 0) = true ∧ seqDist p.1 s.port[(0 : Fin 8)].rtx.expect = p.2 ∧
       (spFind s.port[(0 : Fin 8)].fr.done s.port[(0 : Fin 8)].fr.rxIdx).isSome = true) ∧
    ((W.got stUP 0 typDATA 0 true false 8 8140 0).side[ownPort 0].egress.length + 52 ≤ 8192 ∧
      8192 < (W.got stUP 0 typDATA 0 true false 8 8141 0).side[ownPort 0].egress.length + 52) := by
  unfold W.fr; decide +kernel

/-- Port 0 in Spire in UP with ladder registers and state. -/
def W.lad (r : List (Fld × Nat)) (l : Ladder → Ladder) : State :=
  (W.port [5, 6, 10] stUP 7 r).modPort 0 fun p => { p with lad := l p.lad }

theorem witness_LadderRequestsAndShifts :
    (∀ k ∈ [0, 8],
     let s := W.lad [(F.PARTNER_INFO.RES_TOP_RUNG 0, 26)] id
     s.pcsOn 0 = true ∧ s.linkUp 0 = true ∧ s.spire 0 = true ∧ s.rd (F.LAD_STATUS.RX_STATE 0) = rxIDLE ∧
       s.port[(0 : Fin 8)].lad.rxHoldoff = false ∧ s.rd (F.LAD_CTRL.LAD_MODE 0) ≠ 3 ∧
       k ≤ s.rd (F.PARTNER_INFO.RES_TOP_RUNG 0) ∧ rungTier k = rungTier (s.rd (F.LAD_STATUS.RX_RUNG 0)) ∧
       rungTier 9 ≠ rungTier (s.rd (F.LAD_STATUS.RX_RUNG 0))) ∧
    (let s := W.lad [(F.LAD_STATUS.TX_STATE 0, txCOUNTDOWN)] id
     s.pcsOn 0 = true ∧ s.rd (F.LAD_STATUS.TX_STATE 0) = txCOUNTDOWN) ∧
    (let s := W.lad [(F.LAD_STATUS.TX_STATE 0, txCOMMITTED)] fun l => { l with gotRung := some 26, gotLoad := some 47 }
     s.pcsOn 0 = true ∧ s.rd (F.LAD_STATUS.TX_STATE 0) = txCOMMITTED ∧
       s.port[(0 : Fin 8)].fr.txRungIdx = s.port[(0 : Fin 8)].lad.txBound ∧
       s.port[(0 : Fin 8)].lad.gotRung = some 26 ∧ s.port[(0 : Fin 8)].lad.gotLoad = some 47) ∧
    (let s := W.lad [(F.LAD_STATUS.RX_STATE 0, rxARMED)] id
     s.pcsOn 0 = true ∧ s.rd (F.LAD_STATUS.RX_STATE 0) = rxARMED ∧ s.domOn (filterDom (0 : Fin 8) (0, 2)) = true) ∧
    (∀ fb,
     let s := W.lad [(F.RTX_STATUS.ACK_TMR 0, 1), (F.LAD_CTRL.LAD_MODE 0, 1)] fun l => { l with fallback := fb }
     s.pcsOn 0 = true ∧ s.port[(0 : Fin 8)].lad.fallback = fb ∧ s.rd (F.LAD_STATUS.RX_STATE 0) = rxIDLE ∧
       s.rd (F.LAD_CTRL.LAD_MODE 0) < 2 ∧ s.domOn (14 * 0 + 10) = true ∧ s.on (F.RTX_STATUS.ACK_TMR 0) = true ∧
       s.twinned 0 = false ∧ s.port[(0 : Fin 8)].rtx.lastReplay = none) ∧
    (∀ r ∈ [none, some 5],
     let s := (W.lad [(F.RTX_STATUS.ACK_TMR 0, 1)] id).modPort 0 fun p =>
       { p with rtx := { p.rtx with lastReplay := some (5, 0), replay := r } }
     s.pcsOn 0 = true ∧ s.domOn (14 * 0 + 10) = true ∧ s.on (F.RTX_STATUS.ACK_TMR 0) = true ∧ s.twinned 0 = false ∧
       s.port[(0 : Fin 8)].rtx.lastReplay = some (5, s.tb) ∧ s.port[(0 : Fin 8)].rtx.replay = r) := by
  decide +kernel

/-- A tick in HOLD, one of those after it, one that wants a bit less under each mode, one at the lowest rung. -/
theorem witness_LadderTicks :
    (∀ st ∈ [stUP, stHOLD], ∀ k < 2,
     let s := (W.port [10] st 7 []).modPort 0 fun p => { p with lad := { p.lad with skipTicks := k } }
     s.pcsOn 0 = true ∧ s.linkUp 0 = true ∧ s.spire 0 = true ∧ s.link 0 = st ∧ s.port[(0 : Fin 8)].lad.skipTicks = k) ∧
    (∀ m < 4,
     let s := W.lad [(F.LAD_STATUS.RX_RUNG 0, 1), (F.LAD_CTRL.LAD_MODE 0, m)] fun l => { l with cleanFails := 256 }
     let i := s.tickIn 0
     let v := s.tickView 0 i
     s.link 0 ≠ stHOLD ∧ s.port[(0 : Fin 8)].lad.skipTicks = 0 ∧ s.ladIdle 0 = true ∧ i.ref.isNone = true ∧
       v.byFail = true ∧ v.b = 9 ∧ (s.wantDown 0 i v).map Want.rung = some 0 ∧ s.rd (F.LAD_CTRL.LAD_MODE 0) = m) ∧
    (let s := W.lad [(F.LAD_STATUS.RX_RUNG 0, 0)] fun l => { l with cleanFails := 256 }
     let i := s.tickIn 0
     let v := s.tickView 0 i
     i.ref.isNone = true ∧ v.byFail = true ∧ v.b = 8 ∧ (s.wantDown 0 i v).isNone = true ∧ (s.wantUp 0 i v).isNone = true) := by
  decide +kernel

/-! ### Witnesses: ingress, spill, twin paths, Belfry, diagnostics -/

/-- Port 0's lane ON, block lock held, the link in state `l`, its host side as `h`, and the fields `r`. -/
def W.lane (l : Nat) (r : List (Fld × Nat)) (h : HostSide → HostSide) : State :=
  let s := W.port [112] l 7 ([(F.HL_STATUS.BLOCK_LOCK 0, 1), (F.HL_STATUS.LOS 0, 0), (F.HL_STATUS.LOL 0, 0)] ++ r)
  { s with side := s.side.set 0 (h s.side[(0 : Fin 12)]) }

theorem witness_IngressBlocks :
    (∀ s ∈ [W.lane stUP [(F.HL_PRBS_CTRL.CHK_EN 0, 1)] id, W.lane stUP [(F.HL_STATUS.LB_CUR 0, 1)] id],
      s.hlOn 0 = true ∧ s.laneIdle 0 = false ∧ (s.on (F.HL_PRBS_CTRL.CHK_EN 0) = true ∨ s.rd (F.HL_STATUS.LB_CUR 0) ≠ 0)) ∧
    (let s := W.lane stUP [(F.HL_STATUS.LOS 0, 1), (F.LPI_STATUS.HOST_LPI 0, 1)] id
     s.hlOn 0 = true ∧ s.laneIdle 0 = false ∧ s.laneLost 0 = true ∧ s.on (F.LPI_STATUS.HOST_LPI 0) = true) ∧
    (∀ fr, ∀ dr, ∀ l ∈ [stSENSE, stUP],
     let s := W.lane l [] fun h => { h with inFrame := fr, dropping := dr }
     s.hlOn 0 = true ∧ s.laneIdle 0 = false ∧ s.laneLost 0 = false ∧ s.on (F.HL_PRBS_CTRL.CHK_EN 0) = false ∧
       s.rd (F.HL_STATUS.LB_CUR 0) = 0 ∧ s.ownerUp (s.ownerOf 0) = decide (l = stUP) ∧ s.side[s.ownerOf 0].inFrame = fr ∧
       s.side[s.ownerOf 0].dropping = dr) ∧
    (∀ k ∈ [6984, 6985, 8190, 8191],
     (W.lane stUP [] fun h => { h with ingress := List.replicate k idleBlk }).side[(0 : Fin 12)].ingress.length = k) ∧
    (∀ lb ∈ [1, 2, 3], ∀ los < 2,
     let s := W.lane stUP [(F.HL_STATUS.LB_CUR 0, lb), (F.HL_STATUS.LOS 0, los)] id
     s.hlOn 0 = true ∧ s.laneIdle 0 = false ∧ s.rd (F.HL_STATUS.LB_CUR 0) = lb ∧ s.on (F.HL_PRBS_CTRL.GEN_EN 0) = false ∧
       s.eiCause 0 = 0 ∧ s.laneLost 0 = decide (los = 1)) ∧
    (∀ k ∈ [0, 1, 63, 64],
     let s := (W.lane stUP [(F.HL_STATUS.LOS 0, 1)] id).modLane 0 fun x => { x with lostTimes := k }
     s.hlOn 0 = true ∧ s.laneIdle 0 = false ∧ s.laneLost 0 = true ∧ s.on (F.LPI_STATUS.HOST_LPI 0) = false ∧
       s.on (F.HL_PRBS_CTRL.CHK_EN 0) = false ∧ s.rd (F.HL_STATUS.LB_CUR 0) = 0 ∧ s.lane[(0 : Fin 8)].lostTimes = k ∧
       s.ownerUp (s.ownerOf 0) = true ∧ s.side[s.ownerOf 0].inFrame = false) ∧
    (∀ p ∈ [(0, 0x78), (3, 0x78), (2, 0)], badBlock p.1 p.2 = true) ∧ (∀ p ∈ [(1, 0), (2, 0x1E)], badBlock p.1 p.2 = false) :=
  ⟨by decide +kernel, by decide +kernel, by decide +kernel, by decide +kernel, by decide +kernel, by decide +kernel,
    by decide +kernel, by decide +kernel⟩

/-- Spilling may run: the Cupola ON, its pages ready, channel 1 in service with free pages, and owner 0's side as `h`. -/
def W.spill (sp : Nat) (free : List (List Nat)) (h : HostSide → HostSide) : State :=
  let s := W.port [124, 121] stUP 7 [(F.SPL_STATUS.SPL_RDY, 1), (F.CUP_STATUS.IN_SVC, 2), (F.SPILL_STATUS.SPILLING 0, sp),
    (F.SPILL_PAGES.SPILL_MAX 0, 4)]
  { s with side := s.side.set 0 (h s.side[(0 : Fin 12)]), cup := { s.cup with spt := { s.cup.spt with free := free, pages := 2 } } }

theorem witness_SpillAndTwin :
    (let s := W.spill 1 [[], [7, 9], [], []] fun h => { h with ingress := [⟨true, 0x78⟩] }
     s.spillRuns = true ∧ s.needPage 0 = true ∧ 0 < s.available 0 ∧ s.allocCh 0 = some 1 ∧ s.spilling 0 = true ∧
       s.side[(0 : Fin 12)].open?.isNone = true) ∧
    (let s := W.spill 1 [[], [], [7], []] fun h => { h with ingress := [⟨true, 0x78⟩] }
     s.spillRuns = true ∧ s.needPage 0 = true ∧ s.canAlloc 0 = false) ∧
    (let s := W.spill 1 [[], [], [], []] fun h => { h with
       pages := [{ page := 3, closed := true }, { page := 4, groups := 61 }],
       ingress := List.replicate 8 ⟨false, 1⟩, rbuf := List.replicate 2041 idleBlk }
     let h := s.side[(0 : Fin 12)]
     let r := pullBlocks h.coming (8 - h.wbuf.length) h.outFrame h.ingress
     s.spillRuns = true ∧ s.spilling 0 = true ∧ h.open? = some { page := 4, groups := 61 } ∧ (h.wbuf ++ r.1).length = 8 ∧
       h.mayClose = false) ∧
    (let s := W.spill 1 [[], [], [], []] fun h => { h with
       pages := [{ page := 3, groups := 63, readG := 62, closed := true }], rbuf := List.replicate 2040 idleBlk }
     let h := s.side[(0 : Fin 12)]
     s.spillRuns = true ∧ h.rbuf.length + 8 ≤ 2048 ∧
       nextRead 0 h.pages = some (0, { page := 3, groups := 63, readG := 62, closed := true }) ∧
       s.chUp (s.cup.chOf (s.cup.pageAddr 3 + 65 * 62)) = false) ∧
    (let s := W.spill 0 [[], [], [], []] id
     s.spillRuns = true ∧ s.side[(0 : Fin 12)].rbuf.length + 8 ≤ 2048 ∧ (nextRead 0 s.side[(0 : Fin 12)].pages).isNone = true ∧
       s.side[(0 : Fin 12)].open?.isNone = true ∧ s.domOn 124 = true) ∧
    (let s := W.regs [(F.PWC_DOM.STATE 10, domON)] (W.spill 0 [[], [], [], []] id)
     s.domOn (14 * 0 + 10) = true ∧ s.spillRsv (s.ownerOf 0) = 0 ∧ s.rsvPool = 2 ∧ s.rsvSum = 0) ∧
    (let s := W.on [124, 9, 65]
     let s := W.regs [(F.TW_STATUS.CFG_PEND 0, 1)] s
     s.domOn 124 = true ∧ s.on (F.TW_STATUS.CFG_PEND 0) = true ∧ s.active (portOf 0 0) = false ∧
       s.active (portOf 0 1) = false) ∧
    (∀ pe < 2,
     let s := W.regs [(F.TW_STATUS.TW_ACTIVE 0, 1), (F.TW_STATUS.M0_STATE 0, mIN), (F.LINK_STATUS.STATE 0, stUP)] (W.on [124, 9])
     let s := { s with twin := s.twin.set 0 { s.twin[(0 : Fin 4)] with m0 := { pe := pe } } }
     s.domOn 124 = true ∧ s.twActive 0 = true ∧ s.rd (memberFld 0 0) = mIN ∧ s.link (portOf 0 0) = stUP ∧
       (0 < seqDist (s.twin[(0 : Fin 4)].mem 0).pe (s.em 0) ↔ pe = 1)) := by
  decide +kernel

/-- Transceiver 0 ON with its fields and state; its TX ring lies in shared SRAM. -/
def W.bf (r : List (Fld × Nat)) (f : Bf → Bf) : State :=
  let s := W.regs ((F.CKC_OSC_STATUS.XB_STATE, 1) :: r) (W.on [125, 138])
  { s with bf := s.bf.set 0 (f { s.bf[(0 : Fin 2)] with txBase := 0x10000000 }) }
/-- A descriptor of the TX ring and its body. -/
def W.ring (w0 : Nat) : State :=
  { W.bf [(F.BF_CTRL.BF_EN 0, 1)] id with sram := Mem.ofBytes 0 (bytesLE 4 w0 ++ bytesLE 4 0x10000100 ++ bytesLE 4 0) }
/-- A transceiver that an access slot finds ready, enabled. -/
def W.acc (f : Bf → Bf) : State :=
  W.bf [(F.BF_CTRL.BF_EN 0, 1), (F.BF_CTRL.TX_EN 0, 1), (F.BF_STATUS.SERVED 0, 0), (F.BF_BCN.BCN_AUTH 0, 0)] fun x =>
    f { x with edge := some 0 }
/-- A packet of type `t`. -/
def W.hdr (t : Nat) : BfHdr := ⟨1, t, 1, 0, false, 0, false, 0, 0, 0, 0, false⟩

theorem witness_BelfrySending :
    (∀ en < 2, (W.bf [(F.BF_CTRL.BF_EN 0, en)] id).bfOn 0 = true ∧
      (W.bf [(F.BF_CTRL.BF_EN 0, en)] id).on (F.BF_CTRL.BF_EN 0) = decide (en = 1)) ∧
    (∀ s ∈ [W.acc fun f => { f with rsp := some ⟨W.hdr 2, 0, 0⟩ }, W.acc fun f => { f with dual := some ⟨.dual, W.hdr 0, 0, [], 0⟩ },
        W.acc fun f => { f with third := [true] }, W.acc fun f => { f with third := [false], rng := some { dst := 0, form := W.hdr 2 } },
        W.acc fun f => { f with ring := some { w0 := 2 ^ 31, w1 := 0, w2 := 0 } }],
      s.bfOn 0 = true ∧ s.on (F.BF_CTRL.BF_EN 0) = true ∧ s.on (F.BF_CTRL.TX_EN 0) = true ∧ s.on (F.BF_STATUS.SERVED 0) = false ∧
        s.bf[(0 : Fin 2)].edge.isSome = true ∧ s.bf[(0 : Fin 2)].energy = false ∧ s.on (F.BF_STATUS.CH_BUSY 0) = false ∧
        s.bf[(0 : Fin 2)].tx.isNone = true ∧ s.bfCanAuth 0 (s.bcnHdr 0) = true ∧ s.bfCanAuth 0 (W.hdr 0) = true) ∧
    (let s := W.acc fun f => { f with tx := some ⟨.rsp, W.hdr 3, 0, [], 0⟩ }
     s.on (F.BF_CTRL.BF_EN 0) = true ∧ s.bf[(0 : Fin 2)].tx = some ⟨.rsp, W.hdr 3, 0, [], 0⟩) ∧
    (∀ w0 ∈ [0, 2 ^ 31, 2 ^ 31 + 50],
     let s := W.ring w0
     let d0 := s.bfRead (s.bf[(0 : Fin 2)].txBase + 32 * s.rd (F.TXR_CFG.TX_HEAD 0)) 12
     let d : BfDesc := { w0 := w0, w1 := 0x10000100, w2 := 0 }
     d0.2.1 = false ∧ natOfLE ((d0.1.drop 0).take 4) = w0 ∧ natOfLE ((d0.1.drop 4).take 4) = 0x10000100 ∧
       (d.hdr 0).badDesc = false ∧ (d.hdr 0).auth = false ∧ (d0.2.2.bfRead 0x10000100 (d.hdr 0).len).2.1 = false ∧
       s.bf[(0 : Fin 2)].ring.isNone = true ∧ s.on (F.BF_STATUS.RING_ERR_TX 0) = false) ∧
    (let s := W.regs [(F.PWC_DOM.STATE 138, domOFF)] (W.ring 0)
     (s.bfRead (s.bf[(0 : Fin 2)].txBase + 32 * s.rd (F.TXR_CFG.TX_HEAD 0)) 12).2.1 = true) ∧
    (∀ len ∈ [50, 51],
     let s := W.bf [(F.BF_CTRL.BF_EN 0, 1), (F.BF_BCN.BCN_EN 0, 1), (F.BF_BCN.BCN_AUTH 0, 0), (F.BF_BCN.BCN_LEN 0, len)] id
     s.on (F.BF_BCN.BCN_EN 0) = true ∧ modeOk (s.bcnHdr 0).ncw (s.bcnHdr 0).sf (s.bcnHdr 0).qpsk = true ∧
       (bodyMax (s.bcnHdr 0).ncw < (s.bcnHdr 0).len ↔ len = 51)) := by
  decide +kernel

/-- Transceiver 0, enabled, that receives in state `st`. -/
def W.rx (st : Nat) (r : BfRx) (x : List (Fld × Nat)) : State :=
  W.bf ([(F.BF_CTRL.BF_EN 0, 1), (F.BF_STATUS.RX_STATE 0, st)] ++ x) fun f => { f with node := 5, rx := some r }

theorem witness_BelfrySendingStates :
    (∀ x ∈ [1, 2],
     (W.bf [(F.BF_CTRL.BF_EN 0, 1), (F.CKC_OSC_STATUS.XB_STATE, x)] id).bfOn 0 = true ∧
       (W.bf [(F.BF_CTRL.BF_EN 0, 1), (F.CKC_OSC_STATUS.XB_STATE, x)] id).rd F.CKC_OSC_STATUS.XB_STATE = x) ∧
    (W.acc id).rd F.CKC_OSC_STATUS.XB_STATE = 1 ∧ (W.rx 2 {} []).rd F.CKC_OSC_STATUS.XB_STATE = 1 ∧
    (∀ len ∈ [50, 51],
     let s := W.regs [(F.BF_BCN.BCN_LEN 0, len)] (W.acc fun f => { f with third := [true] })
     s.bcnBad 0 = decide (len = 51) ∧ s.bf[(0 : Fin 2)].third = [true]) ∧
    (let s := W.acc fun f => { f with energy := false }
     let s := W.regs [(F.BF_STATUS.CH_BUSY 0, 1)] s
     s.bfBusy 0 = true ∧ s.bf[(0 : Fin 2)].edge.isSome = true) ∧
    (∀ dual started : Bool,
     let s := W.acc fun f => { f with ring := some { w0 := 2 ^ 31, w1 := 0, w2 := 0, dual := dual, started := started } }
     s.bf[(0 : Fin 2)].ring.map (fun d => (d.dual, d.started)) = some (dual, started)) := by
  decide +kernel

theorem witness_BelfryReceiving :
    (let s := W.bf [(F.BF_CTRL.BF_EN 0, 1), (F.BF_CTRL.TX_EN 0, 1)] id
     s.bfOn 0 = true ∧ s.on (F.BF_CTRL.BF_EN 0) = true ∧ s.bf[(0 : Fin 2)].tx.isNone = true ∧ s.bf[(0 : Fin 2)].rx.isNone = true ∧
       s.bf[(0 : Fin 2)].rng.isNone = true) ∧
    (∀ st < 4, (W.rx st {} [(F.BF_ACCESS.CAPT_EN 0, 1)]).rd (F.BF_STATUS.RX_STATE 0) = st ∧
      (W.rx st {} [(F.BF_ACCESS.CAPT_EN 0, 1)]).bf[(0 : Fin 2)].rx = some {} ∧
      (W.rx st {} [(F.BF_ACCESS.CAPT_EN 0, 1)]).on (F.BF_ACCESS.CAPT_EN 0) = true) ∧
    (∀ p ∈ [(0, 8928386261262028865), (2, 6534723059314610249)],
     hdrBad (p.2 % 2 ^ 64) = false ∧ hdrOf p.2 = { W.hdr p.1 with dst := 5 }) ∧
    hdrBad (65 % 2 ^ 64) = true ∧
    (let s := W.rx 2 {} [(F.BF_CTRL.RNG_RESP_EN 0, 1)]
     s.on (F.BF_CTRL.RNG_RESP_EN 0) = true ∧ s.bfCanAuth 0 (W.hdr 2) = true ∧ s.on (F.BF_CTRL.RX_PROMISC 0) = false ∧
       s.bf[(0 : Fin 2)].node = 5) ∧
    (∀ p ∈ [(0, []), (0, [some 0]), (3, []), (3, [some 0])],
     let s := W.rx 3 { hdr := some { W.hdr p.1 with ncw := 1 }, words := p.2 } [(F.BF_CTRL.RX_UNAUTH 0, 0)]
     s.rd (F.BF_STATUS.RX_STATE 0) = 3 ∧ s.on (F.BF_CTRL.RX_ERR_DELIV 0) = false ∧ s.on (F.BF_CTRL.RX_UNAUTH 0) = false ∧
       s.bf[(0 : Fin 2)].rng.isNone = true ∧ (1 ≤ p.2.length ↔ p.2 ≠ [])) ∧
    (let s := W.acc fun f => { f with rsp := some ⟨W.hdr 2, 0, 0⟩ }
     s.bf[(0 : Fin 2)].rsp = some ⟨W.hdr 2, 0, 0⟩ ∧ s.bfCanAuth 0 (W.hdr 2) = true ∧ s.bf[(0 : Fin 2)].tx.isNone = true) ∧
    (let s := W.acc fun f => { f with rng := some { dst := 0, form := W.hdr 2, sent := true } }
     (s.bf[(0 : Fin 2)].rng.map fun g => (g.sent, g.heard)) = some (true, false)) := by
  decide +kernel

theorem witness_DiagnosticsAndLpi :
    (∀ busy < 2, ∀ l ∈ [stDISABLED, stDORMANT, stSENSE, stUP],
     let s := W.port [0, 1, 2, 3] l 7 [(F.DIAG_STATUS.DIAG_BUSY 0, busy), (F.DIAG_CFG.WEAR_PERIOD 0, 1)]
     s.pcsOn 0 = true ∧ s.checking 0 = decide (busy = 1) ∧ s.on (F.DIAG_STATUS.DIAG_BUSY 0) = decide (busy = 1) ∧ s.link 0 = l ∧
       s.pairsOn 0 15 = true ∧ s.linkUp 0 = decide (l = stUP) ∧ s.rd (F.LINK_STATUS.MODE 0) ≠ 1 ∧ s.spire 0 = true ∧
       s.rd (F.LPI_STATUS.RX_LPI 0) = lpiACTIVE ∧ s.port[(0 : Fin 8)].diag.scanDue = false ∧
       s.rd (F.DIAG_CFG.WEAR_PERIOD 0) ≠ 0) ∧
    (W.port [] stUP 7 [(F.DIAG_CFG.WEAR_PERIOD 0, 0)]).rd (F.DIAG_CFG.WEAR_PERIOD 0) = 0 ∧
    (∀ host < 2, (W.port [] stUP 5 [(F.LPI_STATUS.LPI_RES 0, 1), (F.LPI_STATUS.HOST_LPI 0, host)]).lpiMayEnter 0 =
      decide (host = 1)) ∧
    (∀ m ∈ [5, 7], ∀ due, ∀ tx ∈ [lpiQUIET, lpiREFRESH],
     let s := (W.port [] stUP m [(F.LPI_STATUS.TX_LPI 0, tx)]).modPort 0 fun p => { p with lpi := { p.lpi with wakeDue := due } }
     s.pcsOn 0 = true ∧ s.rd (F.LPI_STATUS.TX_LPI 0) = tx ∧ s.port[(0 : Fin 8)].lpi.wakeDue = due ∧ s.spire 0 = decide (m = 7)) ∧
    (∀ rx ∈ [lpiACTIVE, lpiQUIET, lpiREFRESH],
     let s := W.port [] stUP 5 [(F.LPI_STATUS.LPI_RES 0, 1), (F.LPI_STATUS.RX_LPI 0, rx)]
     s.pcsOn 0 = true ∧ s.linkUp 0 = true ∧ s.on (F.LPI_STATUS.LPI_RES 0) = true ∧ s.rd (F.LPI_STATUS.RX_LPI 0) = rx) := by
  decide +kernel

/-! ### Witnesses: host lanes, Cupola, fabric, host interfaces -/

/-- Both ends of every clause on the lane's registers and state. -/
theorem witness_HostLanes :
    (∀ l ∈ [stSENSE, stUP], ∀ er fr lp : Bool, ∀ eg < 2, ∀ pz < 2,
     let s := W.lane l [] fun h => { h with
       egError := er, egFrame := fr, egress := List.replicate eg idleBlk, pause := if pz = 0 then none else some 0 }
     let s := s.modLane 0 fun x => { x with lpiTx := lp }
     s.hlOn 0 = true ∧ s.ownerOf 0 = ownPort 0 ∧ s.laneIdle 0 = false ∧ s.lane[(0 : Fin 8)].protoBad = false ∧
       s.laneUnderTest 0 = false ∧ s.ownerUp 0 = decide (l = stUP) ∧ s.side[(0 : Fin 12)].egError = er ∧
       s.side[(0 : Fin 12)].egFrame = fr ∧ s.side[(0 : Fin 12)].pauseOut = [] ∧ s.side[(0 : Fin 12)].egress.length = eg ∧
       s.side[(0 : Fin 12)].pause.isSome = decide (pz = 1) ∧ s.lane[(0 : Fin 8)].lpiTx = lp) ∧
    (pauseBlks 0 0 0).isEmpty = false ∧
    ((W.lane stUP [] id).modLane 0 fun x => { x with protoBad := true }).lane[(0 : Fin 8)].protoBad = true ∧
    (∀ gen < 2, ∀ lb ∈ [1, 2],
     let s := W.lane stUP [(F.HL_PRBS_CTRL.GEN_EN 0, gen), (F.HL_STATUS.LB_CUR 0, lb), (F.HL_STATUS.FEC_ACT 0, 1)] fun h =>
       { h with egress := [idleBlk] }
     s.hlOn 0 = true ∧ s.laneIdle 0 = false ∧ s.lane[(0 : Fin 8)].protoBad = false ∧
       s.on (F.HL_PRBS_CTRL.GEN_EN 0) = decide (gen = 1) ∧ s.rd (F.HL_STATUS.LB_CUR 0) = lb ∧
       s.side[s.ownerOf 0].egress = [idleBlk] ∧ s.on (F.HL_STATUS.FEC_ACT 0) = true) ∧
    (let s := (W.lane stUP [(F.SPILL_STATUS.ICONG 0, 1), (F.SPILL_CTRL.FC_EN 0, 1), (F.HL_CTRL.LPI_EI 0, 1),
       (F.HL_STATUS.PROTO_CUR 0, 1)] id).modLane 0 fun x => { x with lpiTx := true }
     s.hlOn 0 = true ∧ s.laneIdle 0 = false ∧ s.on (F.SPILL_STATUS.ICONG 0) = true ∧ s.on (F.SPILL_CTRL.FC_EN 0) = true ∧
       s.on (F.HL_CTRL.LPI_EI 0) = true ∧ s.lane[(0 : Fin 8)].lpiTx = true ∧ s.laneUnderTest 0 = false ∧
       s.rd (F.HL_STATUS.PROTO_CUR 0) = 1 ∧ s.linkUp 0 = true ∧ s.twinned 0 = false) ∧
    (∀ k < 16,
     let s := W.lane stUP [(F.HL_STATUS.LOS 0, k % 2), (F.HL_STATUS.LOL 0, k / 2 % 2), (F.HL_STATUS.BLOCK_LOCK 0, k / 4 % 2),
       (F.LPI_STATUS.HOST_LPI 0, k / 8), (F.HL_PRBS_CTRL.CHK_EN 0, 1), (F.HL_STATUS.PRBS_LOCK 0, 1)] id
     s.hlOn 0 = true ∧ s.rd (F.HL_STATUS.LOS 0) = k % 2 ∧ s.rd (F.HL_STATUS.LOL 0) = k / 2 % 2 ∧
       s.rd (F.HL_STATUS.BLOCK_LOCK 0) = k / 4 % 2 ∧ s.rd (F.LPI_STATUS.HOST_LPI 0) = k / 8 ∧ s.on (F.HL_PRBS_CTRL.CHK_EN 0) = true ∧
       s.on (F.HL_STATUS.PRBS_LOCK 0) = true) :=
  ⟨by decide +kernel, by decide +kernel, by decide +kernel, by decide +kernel, by decide +kernel, by decide +kernel⟩

theorem witness_HostLanesRelease :
    (∀ cut ∈ [0, 1],
     let s := W.lane stUP [(F.HL_CTRL.EG_CUT 0, cut)] fun h =>
       { h with egress := [idleBlk, idleBlk, ⟨true, 0x78⟩] ++ (if cut = 1 then List.replicate 8 ⟨false, 0⟩ else [⟨true, 0x87⟩]) }
     let r := egTrim (s.lane[(0 : Fin 8)].out.any Blk.isTerm) s.side[(0 : Fin 12)].egress
     r.2 = 2 ∧ r.1.head? = some ⟨true, 0x78⟩ ∧ mayRelease (s.rd (F.HL_CTRL.EG_CUT 0)) r.1 = true) ∧
    (egTrim true [idleBlk, ⟨true, 0x78⟩]).1.head?.map Blk.isStart = some false := by
  decide +kernel

/-- Channel 0 of the Cupola in state `st`, with its state as `f`. -/
def W.chan (st : Nat) (r : List (Fld × Nat)) (f : Chan → Chan) : State :=
  let s := W.regs ([(F.CH_STATUS.CH_STATE 0, st), (F.CUP_STATUS.IN_SVC, if st = chSERVICE then 1 else 0)] ++ r) (W.on [120, 124])
  { s with cup := { s.cup with ch := s.cup.ch.set 0 (f s.cup.ch[(0 : Fin 4)]), cap := [1, 0, 0, 0] } }

theorem witness_CupolaChannels :
    (∀ st ∈ [chUNTRAINED, chSERVICE, chFAILED], ∀ en < 2, ∀ auto < 2,
     let s := W.chan st [(F.CH_CFG.CH_EN 0, en), (F.CUP_CTRL.AUTO_RET, auto)] id
     s.domOn (120 + 0) = true ∧ s.chState 0 = st ∧ s.rd (F.CH_CFG.CH_EN 0) = en ∧ s.rd F.CUP_CTRL.AUTO_RET = auto ∧
       s.domOn 124 = true) ∧
    (∀ bad : Bool, (W.chan 1 [] fun c => { c with training := true, cfgBad := bad }).cup.ch[(0 : Fin 4)].training = true ∧
      (W.chan 1 [] fun c => { c with training := true, cfgBad := bad }).cup.ch[(0 : Fin 4)].cfgBad = bad) ∧
    (∀ k ∈ [0, 14, 15],
     let s := W.chan chSERVICE [(F.CH_CFG.RETRAIN_S 0, 1), (F.PWC_MODE.MODE, 1)] fun c => { c with retries := k }
     s.chState 0 = chSERVICE ∧ s.cup.ch[(0 : Fin 4)].retries = k ∧ s.rd (F.CH_CFG.RETRAIN_S 0) ≠ 0 ∧ s.rd F.PWC_MODE.MODE = 1 ∧
       s.chUp 0 = true ∧ s.waitingAt 0 = []) := by
  decide +kernel

/-- Channel 0 in service with one unit that waits or is granted. -/
def W.unit (waiting granted : Bool) : State :=
  let u : MemUnit := ⟨0, 0, 0, 0, 64, false, []⟩
  let s := W.chan chSERVICE [(F.SCRUB_CTRL.SCRUB_EN, 1)] id
  { s with cup := { s.cup with waiting := if waiting then [u] else [], granted := if granted then [(u, 0)] else [] } }

theorem witness_CupolaRequests :
    (let s := W.chan chSERVICE [] id
     s.domOn 124 = true ∧ s.chUp 0 = true ∧ admitDdr 0 = true ∧ admitDdr 0x13 = false ∧ (∃ cl < 32, clientFits 8 cl = true) ∧
       s.cup.capacity = 4096 ∧ ddrBase + 4095 + 1 ≤ ddrBase + s.cup.capacity ∧ ¬ ddrBase + 4096 + 1 ≤ ddrBase + s.cup.capacity ∧
       s.waitingAt 0 = [] ∧ s.cup.granted = []) ∧
    ((W.unit true false).waitingAt 0 = [⟨0, 0, 0, 0, 64, false, []⟩] ∧ (W.unit true false).chUp 0 = true) ∧
    ((W.unit false true).cup.granted = [(⟨0, 0, 0, 0, 64, false, []⟩, 0)] ∧ (W.unit false true).cup.chOf 0 = 0) ∧
    ((W.unit false false).on F.SCRUB_CTRL.SCRUB_EN = true ∧ (W.unit false false).cup.chOf 4095 = 0) ∧
    (∀ en < 2, ∀ held : Bool,
     let s := W.regs [(F.SPL_CFG.SPL_EN, en), (F.SPL_CFG.SPL_PAGES, 2)] (W.chan chSERVICE [] id)
     let s := { s with cup := { s.cup with spt := { s.cup.spt with building := true, pages := 2 } },
                       side := s.side.set 0 { s.side[(0 : Fin 12)] with pages := if held then [{ page := 1 }] else [] } }
     s.domOn 124 = true ∧ s.rd F.SPL_CFG.SPL_EN = en ∧ s.rd F.SPL_CFG.SPL_PAGES = 2 ∧ s.cup.spt.building = true ∧
       s.anyHeld = held ∧ s.holder 0 = none ∧ s.holder 1 = if held then some 0 else none) := by
  decide +kernel

/-- Whether an access by identity `mid` passes every check at `ofs`, and what is then so of the place and the view. -/
def W.ok (s : State) (mid ofs : Nat) (wr : Option Nat) (f : Place → View → Bool) : Bool :=
  match s.judge mid ofs 4 wr with | .ok (pl, v) => f pl v | .error _ => false
/-- Belfry 0 ON, its clock there or not, `k` writes held at its page. -/
def W.held (clk k : Nat) : State :=
  let s := W.regs [(F.CKC_OSC_STATUS.XB_STATE, clk)] (W.on [125])
  { s with hif := { s.hif with queue := if k = 0 then [] else [(0x40000, List.replicate k ⟨0, 0, 0x40110, .normal, 1, 0⟩)] } }

theorem witness_FabricAccesses :
    (let s : State := { State.reset with pwc := { State.reset.pwc with porst := true } }
     s.fabricRuns = false) ∧
    (W.on []).fabricRuns = true ∧
    (∀ k ∈ [0, 7, 8], W.ok (W.held 1 k) 0 0x40110 (some 1) (fun pl _ => pl.posted && pl.page.pageBase == 0x40000) = true ∧
      ((W.held 1 k).held 0x40000).length = k) ∧
    W.ok (W.held 1 0) 0 0x40110 none (fun pl _ => (W.held 1 0).placeClocked pl) = true ∧
    W.ok (W.held 0 0) 0 0x40110 none (fun pl _ => !(W.held 0 0).placeClocked pl) = true ∧
    (W.held 0 0).clockGone 0x40110 = true ∧
    (W.held 1 0).clockGone 0x40110 = false ∧
    (∀ lock : Bool,
     let s := W.on []
     let s := { s with kep := { s.kep with locked := lock } }
     W.ok s 0 0x10100 (some 0x80000000) (fun pl v => !pl.posted && (s.held pl.page.pageBase).isEmpty && s.placeClocked pl &&
       s.lockHit (s.placeFields pl) v 0x80000000 == lock && !(s.regWrite 0 v 0x80000000 pl).1) = true) ∧
    W.ok (W.on []) 0 0x3000 (some 0) (fun _ _ => true) = false ∧
    W.ok (W.on []) 0 0x10100 none (fun pl _ => !((W.on []).regRead 0 pl).2.1) = true ∧
    (∀ clk < 2, (placeOf 0x40110).map (W.held clk 1).heldLive = some (decide (clk = 1))) ∧
    (placeOf 0x40110).map (fun pl => decide (0xC000 ≤ pl.page.pageBase) && decide (pl.page.info.kind ≠ .hl)) = some true := by
  decide +kernel

theorem witness_FabricAccessesThp :
    W.ok (W.on [0, 5, 6]) 0 0x225C00 (some 1) (fun pl _ => pl.isThp) = true := by
  decide +kernel

/-- Channel `c` of the mailboxes, bound from 8 to 0x10, full or not, with a message of one word or of sixteen. -/
def W.mbx (c : Fin 16) (full len1 : Nat) : State :=
  W.regs [(F.MBX_BIND.VALID c, 1), (F.MBX_BIND.SND_ID c, 8), (F.MBX_BIND.RCV_ID c, 0x10), (F.MB_STATUS.FULL c, full),
    (F.MB_STATUS.LEN_M1 c, len1)] (W.on [133])

theorem witness_MailboxCommands :
    ∀ c ∈ [(0 : Fin 16), 15], ∀ full < 2, ∀ len1 ∈ [0, 15],
      let s := W.mbx c full len1
      s.fabricRuns = true ∧ s.on F.FLT_STATUS.SAFE = false ∧ s.domOn 133 = true ∧ s.held 0x10000 = [] ∧ s.mbValid c = true ∧
        s.rd (F.MBX_BIND.SND_ID c) = 8 ∧ s.rd (F.MBX_BIND.RCV_ID c) = 0x10 ∧ s.rd (F.MB_STATUS.FULL c) = full ∧
        s.rd (F.MB_STATUS.LEN_M1 c) = len1 ∧ s.kep.locked = false ∧ epOf 8 = some 8 ∧ epOf 0x10 = some 4 := by
  decide +kernel

/-- PCIe up, function 0 as `f`. -/
def W.pcie (f : PcieFn → PcieFn) : State :=
  let s := W.on [132]
  { s with hif := { s.hif with linkUp := true, fn := s.hif.fn.set 0 (f s.hif.fn[(0 : Fin 2)]) } }

theorem witness_HostPorts :
    (let s := W.pcie id
     s.domOn 132 = true ∧ s.pwc.porst = false ∧ s.pwc.aonLow = false ∧ s.pcieRuns = true ∧ s.fabricRuns = true ∧
       s.hif.fn[(0 : Fin 2)].d3 = false ∧ s.hif.linkUp = true ∧ (s.read32 0x10 0 4).2.1 = false) ∧
    (∀ v ∈ [0, 63], bitB (W.pcie fun f => { f with due := 2 ^ 63 + 1 }).hif.fn[(0 : Fin 2)].due v = true ∧
      bitB (W.pcie id).hif.fn[(0 : Fin 2)].due v = false) ∧
    (W.pcie fun f => { f with d3 := true }).hif.fn[(0 : Fin 2)].d3 = true ∧
    (W.on [132]).pcieRuns = false ∧
    ((W.on []).mdioPort 0 = some 0 ∧ (W.on []).mdioPort 7 = some 7 ∧ (W.on []).mdioPort 8 = none) ∧
    (let s := W.on []
     let s := { s with hif := { s.hif with mdio := { s.hif.mdio with reg := [(31, 4)] } } }
     (spFind s.hif.mdio.reg (32 * 0 + 31 % 32)).getD 0 = 4 ∧ s.hif.mdio.busy = false) ∧
    (∀ wr : Bool,
     let s := W.on []
     let s := { s with hif := { s.hif with mdio := { s.hif.mdio with busy := true, write := wr } } }
     s.fabricRuns = true ∧ s.hif.mdio.busy = true ∧ s.hif.mdio.write = wr ∧ (s.read32 0x12 s.hif.mdio.ofs 4).2.2.hif.mdio = s.hif.mdio) := by
  decide +kernel

/-! ### Witnesses: clocks, power, calibration, faults, the Keep -/

/-- Reset with fields given. -/
def W.r (l : List (Fld × Nat)) : State := W.regs l State.reset
/-- Reset with state of the clock controller. -/
def W.ck (c : Ckc) (l : List (Fld × Nat)) : State := { W.r l with ckc := c }

theorem witness_ClockCommands :
    (∀ a < 4, ∀ b < 4,
     let s := W.r [(F.CKC_OSC_STATUS.XA_STATE, a), (F.CKC_OSC_STATUS.XB_STATE, b)]
     s.xtalRuns = true ∧ s.xt 0 = a ∧ s.xt 1 = b ∧ s.refReady = decide (a = xtREADY)) ∧
    (∀ sel < 2, ∀ auto < 2,
     let s := W.r [(F.CKC_REF.REF_SEL, sel), (F.CKC_REF.AUTO_REF, auto), (F.CKC_REF.AUTO_FB, 1), (F.CKC_SW_STATUS.SRC_CUR, 1)]
     s.aonWrites = true ∧ s.rd F.CKC_REF.REF_SEL = sel ∧ s.rd F.CKC_REF.AUTO_REF = auto ∧ s.on F.CKC_REF.AUTO_FB = true ∧
       s.on F.CKC_SW_STATUS.SRC_CUR = true) ∧
    (∀ p ∈ [(0 : Fin 12), 11], ∀ lock < 2,
     let s := W.r [(pllLock p, lock), (pllHold p, 1), (F.PWC_DOM.STATE (pllDom p), domON)]
     s.domOn (pllDom p) = true ∧ s.rd (pllLock p) = lock ∧ s.on (pllHold p) = true) ∧
    (pllRef 0 = true ∨ pllRef 1 = true) ∧
    (∀ k < 8,
     let s := W.r [(F.CKC_SW_STATUS.SW_BUSY, k % 2), (F.CKC_GATE_STATUS.GATE_BUSY, k / 2 % 2), (F.CKC_SW_STATUS.SRC_CUR, k / 4),
       (F.CKC_PLL_STATUS.LOCK 0, k / 4)]
     s.aonWrites = true ∧ s.rd F.CKC_SW_STATUS.SW_BUSY = k % 2 ∧ s.rd F.CKC_GATE_STATUS.GATE_BUSY = k / 2 % 2 ∧
       s.rd F.CKC_SW_STATUS.SRC_CUR = k / 4 ∧ s.rd (F.CKC_PLL_STATUS.LOCK 0) = k / 4) ∧
    (∀ ramp : Bool, (W.ck { sw := some ⟨true, ramp, false, false⟩ } []).ckc.sw = some ⟨true, ramp, false, false⟩) ∧
    (∀ m ∈ [2, 3, 4], (W.ck { sw := some ⟨true, true, false, true⟩, mult := m } []).ckc.mult = m) ∧
    State.reset.ckc.sw = none ∧ State.reset.ckc.gate = none ∧
    (∀ g ∈ [0, 25], (W.ck { gate := some (g, true) } []).ckc.gate = some (g, true)) ∧
    (W.r [(F.CKC_FCNT_RESULT.FC_BUSY, 1)]).on F.CKC_FCNT_RESULT.FC_BUSY = true ∧
    gateParent 25 = none ∧ gateParent 0 = some 16 :=
  ⟨by decide +kernel, by decide +kernel, by decide +kernel, by decide +kernel, by decide +kernel, by decide +kernel⟩

/-- Reset with state of the power controller. -/
def W.pw (p : Pwc) (l : List (Fld × Nat)) : State := { W.r l with pwc := p }
/-- A request for domain `i`. -/
def W.rq (m : Bool) (t i : Nat) : PwcReq := ⟨m, t, i, 0, 0⟩

theorem witness_PowerCommands :
    (∀ q : Bool, ∀ f : Bool,
     let s := W.pw { queued := if q = true then some (W.rq false 3 0) else none
                     inflight := if f = true then some { req := W.rq false 3 0 } else none } []
     s.aonWrites = true ∧ s.pwcRuns = true ∧ s.pwc.queued.isSome = q ∧ s.pwc.inflight.isSome = f) ∧
    (State.reset.restoreList = [] ∧
      (W.pw { recorded := [(9, domON)] } []).restoreList = [(9, domON)]) ∧
    (State.reset.rd (F.PWC_DOM.STATE 9) = domOFF ∧ State.reset.pwcRefuses (W.rq false domON 9) = none ∧
      State.reset.pwcRefuses (W.rq false domOFF 133) = some 1) ∧
    (W.r [(F.PWC_DOM.STATE 9, domON)]).pwcRefuses (W.rq false domOFF 9) = none ∧
    (domRetBanks 127 = 0 ∨ (W.r [(F.PWC_DOM.STATE 127, domRETAIN)]).rd (F.PWC_DOM.STATE 127) = domRETAIN) ∧
    (∀ d : Bool, ((W.pw { inflight := some { req := W.rq false 0 9, deciding := d } } []).pwc.inflight.map PwcRun.deciding) = some d) ∧
    (∀ n ∈ [1, 2],
     let x : Rising := ⟨9, domON, List.replicate n .reg⟩
     let s := W.pw { rising := [x] } []
     s.released = true ∧ s.pwc.rising.find? (fun y => y.dom == 9) = some x ∧ (∀ p ∈ domParents 9, s.domOn p = true) ∧
       s.xt 0 ≠ xtFAILED ∧ x.steps.head? ≠ some .osc) ∧
    (let s := W.pw { rising := [⟨0, domON, [.reg]⟩] } []
     s.released = true ∧ ∃ p ∈ domParents 0, s.domOn p = false) ∧
    (∀ en < 2, ∀ m < 3,
     let s := W.pw {} [(F.PWC_DEPOT.WAKE_N_EN, en), (F.PWC_MODE.MODE, m), (F.PWC_DEPOT.DEP_WAKE_S, m)]
     s.released = true ∧ s.on F.FLT_STATUS.SAFE = false ∧ s.rd F.PWC_DEPOT.WAKE_N_EN = en ∧ s.rd F.PWC_MODE.MODE = m ∧
       s.pwc.waking = none ∧ s.rd F.PWC_DEPOT.DEP_WAKE_S = m) ∧
    (∀ a b : Bool, (W.pw { porst := a, aonLow := b } []).released = (!a && !b)) := by
  decide +kernel

/-- Monitors ON; a calibration in progress or none. -/
def W.cal (run : Option CalRun) (l : List (Fld × Nat)) : State :=
  let s := W.r ([(F.PWC_DOM.STATE 131, domON), (F.PWC_DOM.STATE 9, domON), (F.PWC_DOM.STATE 0, domON), (F.PWC_DOM.STATE 4, domON),
    (F.CKC_GATE_STATUS.GATE_STATE, 2 ^ 26 - 1)] ++ l)
  { s with cal := { s.cal with run := run } }
/-- A calibration of slice 0 of port 0 in step `st`. -/
def W.cr (st : CalStep) (h : Bool) : CalRun := { n := 0, x := 0, handover := h, step := st, snr := 100 }

theorem witness_CalibrationCommands :
    (∀ l ∈ [stDISABLED, stTRAIN, stUP],
     let s := W.cal none [(F.LINK_STATUS.STATE 0, l), (F.LINK_STATUS.MODE 0, 7)]
     s.monWrites = true ∧ s.calRefused 0 0 = decide (l = stTRAIN) ∧ s.linkUp 0 = decide (l = stUP) ∧ s.calRefused 0 4 = false ∧
       s.calRefused 0 5 = true) ∧
    (∀ st ∈ [CalStep.converge, .swap, .measure, .trim, .handback, .check], ∀ h bad : Bool,
     let s := W.cal (some (W.cr st h)) [(F.CAL_STATUS.VREF_BAD, if bad = true then 1 else 0)]
     s.cal.run = some (W.cr st h) ∧ s.rxQuiet 0 = false ∧ s.refBad = bad) ∧
    (∀ l ∈ [stUP, stHOLD], ∀ snr ∈ [0, 100],
     let s := W.cal (some (W.cr .converge true)) [(F.EQ_STATUS.SLC_SNR 0 4, snr), (F.LINK_STATUS.STATE 0, l)]
     (100 ≤ s.rd (F.EQ_STATUS.SLC_SNR 0 4) + s.calRevert ↔ snr = 100) ∧ s.link 0 = l) ∧
    (∀ k < 4, ∀ ok : Bool,
     let s := W.cal none [(F.CAL_STATUS.SAVE_BUSY, k)]
     let s := { s with cal := { s.cal with save := if ok = true then some (k, 1) else none } }
     s.monWrites = true ∧ s.cal.save = (if ok = true then some (k, 1) else none) ∧ s.cal.bad.contains 1 = false) ∧
    (let s := W.cal none []
     s.familyRuns = true ∧ s.monOn = true ∧ s.cal.loaded = none ∧ ∀ k ∈ [0, 1, 2, 3], s.recOk k = false) ∧
    ({ State.reset.cal with loaded := some [] } : CalState).loaded.isSome = true ∧
    (∀ p < 2, (W.cal none [(F.CAL_CTRL.CAL_PERIOD, p)]).rd F.CAL_CTRL.CAL_PERIOD = p) ∧
    (let s := W.cal none [(F.MON_CTRL.MON_EN, 1)]
     let s := { s with cal := { s.cal with limit := [(0, { run := 3, crossed := false })] } }
     s.monRuns = true ∧ s.gateOn 25 = true ∧ spFind s.cal.limit 0 = some { run := 3, crossed := false } ∧ s.pwc.porst = false ∧
       s.pwc.aonLow = false) := by
  decide +kernel

/-- Reset with state of the fault collector, and the fields `l`. -/
def W.flt (f : FltState) (l : List (Fld × Nat)) : State := { W.r l with flt := f }

theorem witness_FaultCommands :
    (srcClass? 576 = some .c ∧ State.reset.wireHeld 576 = false ∧ State.reset.on (F.FLT_SRC_STAT.ACTIVE 576) = false ∧
      State.reset.on (F.FLT_SRC_STAT.WIRE 576) = false ∧ State.reset.on (F.FLT_SRC_STAT.LATCHED 576) = false ∧
      State.reset.on (F.FLT_FIRST_INFO.VALID SrcClass.c.code) = false ∧ State.reset.domOn (srcDom 576) = true) ∧
    (srcClass? 767 = some .record ∧ State.reset.wireHeld 767 = false) ∧
    (srcClass? 768 = none ∧ State.reset.wireHeld 0 = true) ∧
    ((W.r [(F.FLT_SRC_STAT.WIRE 576, 1), (F.FLT_SRC_STAT.ACTIVE 576, 1)]).on (F.FLT_SRC_STAT.WIRE 576) = true ∧
      (W.r [(F.FLT_SRC_STAT.ACTIVE 576, 1)]).on (F.FLT_SRC_STAT.ACTIVE 576) = true) ∧
    (∀ st ∈ [xbIDLE, xbSHADOW, xbSWAP], ∀ p < 2,
     let s := W.flt { repair := [(0, 0)] } [(F.PWC_DOM.STATE 4, domON), (F.XB_STATUS.XB_STATE (srcPort 0), st),
       (F.XB_STATUS.XB_CUR_PAIR (srcPort 0), p)]
     s.flt.repair.find? (fun r => srcPort r.1 == 0) = some (0, 0) ∧ s.domOn (14 * 0 + 4) = true ∧ s.cal.run = none ∧
       s.rd (F.XB_STATUS.XB_STATE 0) = st ∧ s.rd (F.XB_STATUS.XB_CUR_PAIR 0) = p) ∧
    State.reset.flt.repair = [] ∧
    (State.reset.aonWrites = true ∧ State.reset.kep.cmd = none ∧ State.reset.flt.inj = none ∧ State.reset.rd F.EVJ_SEQ.NEXT_SEQ = 0) ∧
    (addrBlock ((F.BF_CTRL.BF_EN 0).key / 32) = some 0x27 ∧ keptByBlockReset (F.BF_CTRL.BF_EN 0).key = false) ∧
    (∀ m ∈ [1, 3], (W.flt { inj := some ⟨m, 0x240⟩ } []).flt.inj = some ⟨m, 0x240⟩ ∧ State.reset.domOn (srcDom 0x240) = true) ∧
    (∀ on < 2,
     let s := W.flt { mirrorQ := [List.replicate 8 0] } [(F.EVJ_CTRL.MIRROR_EN, 1), (F.EVJ_MEM_BASE.BASE, 0x10000),
       (F.PWC_DOM.STATE 138, if on = 1 then domON else domOFF)]
     let a := 4096 * s.rd F.EVJ_MEM_BASE.BASE + 32 * (0 % 2 ^ memLog (s.rd F.EVJ_CTRL.MEM_LOG))
     let w := ({ s with flt := { s.flt with mirrorQ := [] } } : State).memWrite 0x22 30 a ((List.replicate 8 0).flatMap (bytesLE 4))
     s.familyRuns = true ∧ s.on F.EVJ_CTRL.MIRROR_EN = true ∧ s.flt.mirrorQ = [List.replicate 8 0] ∧ (w.1 = .bus ↔ on = 0)) := by
  decide +kernel

theorem witness_FaultCommandsHeld :
    (∀ b : Bool, (W.flt { inj := some ⟨3, if b then 0 else 0x240⟩ } [(F.XB_STATUS.XB_STATE 0, xbSPARE)]).wireHeld
      (if b then 0 else 0x240) = b) ∧
    (∀ k ∈ [0x21, 0x22, 0x25, 0x27, 0x28, 0x29], k < 64) := by
  decide +kernel

/-- Reset with state of the Keep and its store. -/
def W.kep (k : Keep) (m : KeepStore) : State := { W.r [(F.PWC_DOM.STATE 130, domON)] with kep := k, kepStore := m }

theorem witness_KeepAndJtagCommands :
    (let s := W.kep {} {}
     s.keepOn = true ∧ s.aonWrites = true ∧ s.keepAdmits 0 = true ∧ s.on F.KEP_CMD.BUSY = false ∧ s.kep.cmd = none ∧
       (∃ code < 11, s.keepRefuses code 0 = false) ∧ ∃ code < 11, s.keepRefuses code 0 = true) ∧
    (W.regs [(F.PWC_DOM.STATE 130, domOFF)] (W.kep {} {})).keepOn = false ∧
    (∀ code ∈ [1, 2, 3, 4, 5, 6, 7, 8, 9, 10], ∀ bad : Bool,
     let s := W.kep { cmd := some (code, 0) } { fuseBad := bad }
     s.keepOn = true ∧ s.kep.cmd = some (code, 0) ∧ s.on F.FLT_STATUS.SAFE = false ∧ s.kepStore.fuseBad = bad ∧
       s.kepStore.marker = false ∧ s.kep.nonce = none) ∧
    ((W.kep { cmd := some (9, 0), nonce := some 1 } {}).kep.nonce = some 1 ∧
      (sha256 ((W.kep { cmd := some (9, 0) } {}).argBytes 0 16) == ({ rootHash := [] } : KeepStore).rootHash) = false) ∧
    (∀ r : Bool, (W.kep { runTb := if r = true then some 0 else none } {}).kep.runTb.isSome = r) ∧
    (let s := W.kep { step := 3 } { lifecycle := lcBLANK }
     s.familyRuns = true ∧ s.kep.step = 3 ∧ s.kepStore.lifecycle = lcBLANK) ∧
    (∀ tap ∈ [none, some TapInstr.extest, some TapInstr.highz],
     let s := { W.port [] stDISABLED 7 [(F.NEG_CTRL.PORT_EN 0, 1)] with tap := tap }
     s.tap = tap ∧ s.pcsOn 0 = true ∧ s.link 0 = stDISABLED ∧ s.on (F.NEG_CTRL.PORT_EN 0) = true) := by
  decide +kernel

/-- A signature that DBG_OPEN accepts, by a key made for this test: the arguments as one number, lowest word lowest. -/
theorem witness_DebugOpens :
    let arg := (List.range 32).map fun w => 30468271587081901096554265472846449118102224023178031704621664236768521579071636251932266891665302695537471660783520689731099601374748880135124553446968358623494124571168265925496207081609341398251494963232486147095630228507683942526223185262797795306911184487749359065588440571263686313766073100381710027877 / 2 ^ (32 * w) % 2 ^ 32
    let s := W.kep { cmd := some (9, 0), nonce := some 1, arg := arg } { rootHash := (natsLE 32 30396945108973261115015325454584804865864462048022135425636210635155206531886).reverse }
    s.keepOn = true ∧ s.kep.cmd = some (9, 0) ∧ s.kep.nonce = some 1 ∧
      (sha256 (s.argBytes 0 16) == s.kepStore.rootHash &&
        sigOk (s.argBytes 0 16) (s.argBytes 16 16) ([0x4B, 0x58, 0x44, 0x42, 0x47] ++ natsLE 8 s.devId ++ natsLE 16 1)) = true := by
  decide +kernel

/-! ### Witnesses: every step -/

theorem witness_IdleAdvancesTime :
    (∀ src < 2,
     let s := W.r [(F.CKC_SW_STATUS.SRC_CUR, src)]
     s.pending = [] ∧ s.familyRuns = true ∧ s.ckc.mult = 1 ∧ s.rd F.CKC_SW_STATUS.SRC_CUR = src) ∧
    ((W.pw { porst := true } []).familyRuns = false ∧ (W.pw { porst := true } []).pending = []) := by
  decide +kernel

/-- The hypothesis of LevelsFollowEveryStep. -/
theorem witness_LevelsFollow : LevelsFollow State.reset := by
  unfold LevelsFollow; decide +kernel

/-- A command without an effect of its own ends in the state it began in, which may be quiet. -/
theorem witness_QuietEffectsEndThere :
    let s := W.kep { step := 3 } {}
    Ends .tapReset s { s with tap := none } ∧ Quiet { s with tap := none } := by
  refine ⟨rfl, ?_⟩; unfold Quiet; decide +kernel

/-- ADD g1, g2, g3. -/
theorem witness_MolxWordsRoundTrip :
    molxWord (.add 0 1 2 3) = some (0, 2234368) ∧ molxLegal 2234368 = true ∧ molxDecode 0 2234368 = some (.add 0 1 2 3) ∧
      bitsOf 2234368 31 26 ≠ 0x30 := by
  decide +kernel

/-! ### A record that is found good -/

theorem natLE_bytesLE (k : Nat) : ∀ v, natLE (bytesLE k v) = v % 256 ^ k := by
  induction k with
  | zero => intro v; simp [bytesLE, natLE, Nat.mod_one]
  | succ k ih =>
    intro v
    have h := @Nat.mod_mul 256 (256 ^ k) v
    have e : 256 ^ (k + 1) = 256 * 256 ^ k := by rw [Nat.pow_succ, Nat.mul_comm]
    simp only [bytesLE, natLE, ih, BitVec.toNat_ofNat]
    rw [e, h]
theorem natOfBits_lt (l : List Bool) : natOfBits l < 2 ^ l.length := by
  induction l with
  | nil => decide
  | cons b l ih =>
    have : b2n b ≤ 1 := by cases b <;> decide
    simp only [natOfBits, List.length_cons, Nat.pow_succ]; omega

/-- The head of a record of device `d`, with `z` bytes of settings. -/
def W.head (d z : Nat) : List Byte :=
  ([0x4B, 0x58, 0x43, 0x52, 1] ++ List.replicate 11 0) ++ (bytesLE 8 d ++ List.replicate z 0)

theorem W.head_length (d z : Nat) : (W.head d z).length = 0x18 + z := by
  simp [W.head, bytesLE]; omega

/-- Each of the four slots may hold a good record. -/
theorem witness_recOk (k : Fin 4) : ∃ m : Mem,
    ({ State.reset with cal := { State.reset.cal with mtp := m } } : State).recOk k.val = true := by
  let h := W.head State.reset.devId 0x7FE4
  let r := h ++ bytesLE 4 (byteCrc h)
  refine ⟨Mem.writeL [] (0x8000 * k.val) r, ?_⟩
  have hl : h.length = 0x7FFC := W.head_length _ _
  have hlr : r.length = 0x8000 := by
    show (h ++ bytesLE 4 (byteCrc h)).length = _
    rw [List.length_append, hl]; rfl
  have hr : (Mem.writeL [] (0x8000 * k.val) r).readN (0x8000 * k.val) 0x8000 = r := by
    have := Mem.readN_writeL r [] (0x8000 * k.val)
    rwa [hlr] at this
  have hd : State.reset.devId < 256 ^ 8 := by decide +kernel
  have ht : r.take 0x7FFC = h := List.take_left' hl
  have hu : r.drop 0x7FFC = bytesLE 4 (byteCrc h) := List.drop_left' hl
  have hv : (r.drop 0x10).take 8 = bytesLE 8 State.reset.devId := rfl
  have hc : byteCrc h < 256 ^ 4 := by
    have := natOfBits_lt (crcBits (crc32 (h.flatMap fun b => bitsLE 8 b.toNat)))
    have e : (crcBits (crc32 (h.flatMap fun b => bitsLE 8 b.toNat))).length = 32 := by simp [crcBits]
    rw [e] at this; exact this
  have h4 : r.take 4 = [0x4B, 0x58, 0x43, 0x52] := rfl
  have h5 : (r.getD 4 0).toNat = 1 := rfl
  have hb : State.reset.cal.bad.contains k.val = false := rfl
  have hdev : ∀ m : Mem, ({ State.reset with cal := { State.reset.cal with mtp := m } } : State).devId = State.reset.devId :=
    fun _ => rfl
  clear_value r
  simp only [State.recOk, hr, ht, hu, hv, h4, h5, hdev, natLE_bytesLE, Nat.mod_eq_of_lt hc, Nat.mod_eq_of_lt hd, hb]
  simp

/-! ### Single steps: the worked examples of the spec -/

/-- What a command leaves in some fields. -/
def W.after (c : Instr) (s : State) (fs : List Fld) : List Nat :=
  match exec c s with | .next t => fs.map t.rd | _ => []

/-- 02_port_modes_negotiation.md, "Example: resolving a Spire link between two cars": the second page of node 18 at node 17. -/
theorem test_resolve_spire :
    W.after (.anPageReceived 0 (.ext false 0x3D4 (18 * 2 ^ 26 + 6 * 2 ^ 23 + 0x13C * 2 ^ 13 + 9 * 2 ^ 8 + 64)) true false)
      ((W.port [] stAN 0 []).modPort 0 fun p => { p with neg := { p.neg with
        advModes := [7], partnerExtNp := true, srates := 7, topRung := 26, seed := 0x2B5, inpMs := 16, ldtMs := 10
        s1 := some (5, 0x1138A4C6) } })
      [F.LINK_STATUS.STATE 0, F.LINK_STATUS.MODE 0, F.PARTNER_INFO.P_NODE 0, F.PARTNER_INFO.P_PORT 0,
        F.PARTNER_INFO.RES_SRATES 0, F.LINK_STATUS.LDT_RES 0, F.LINK_STATUS.LDT_RAISED 0, F.LINK_STATUS.MS_MASTER 0] =
      [4, 7, 18, 6, 3, 20, 1, 1] := by decide +kernel

/-- 05_spire_framing_ldpc.md, "Example: a frame on P6 at rung 19, and loss of a half": CTL. -/
theorem test_ctl : (Frame.mk 0x8C41 0x1207 0 false true 1 22 []).ctl = 0x156 ∧
    (Frame.mk 0 0 0 false true 2 37 []).ctl = 0x1A5 := by decide

/-- 06_rate_ladder.md, "Example: a downshift from rung 24 to rung 22 on P6": the second tick. -/
theorem test_downshift :
    let s := (W.port [5, 6, 10] stUP 7 [(F.LAD_STATUS.RX_RUNG 0, 24), (F.LAD_STATUS.RX_LOAD 0, 7), (F.EQ_STATUS.SLC_SNR 0 0, 380),
      (F.EQ_STATUS.SLC_SNR 0 1, 420), (F.EQ_STATUS.SLC_SNR 0 2, 282), (F.EQ_STATUS.SLC_SNR 0 3, 330),
      (F.PARTNER_INFO.RES_TOP_RUNG 0, 26), (F.PARTNER_INFO.RES_SRATES 0, 7)]).modPort 0 fun p => { p with
        eq := { p.eq with snrValid := [true, true, true, true] }, lad := { p.lad with dnRun := 1 } }
    (match exec (.ladderTick 0) s with
     | .next t => [t.rd (F.LAD_STATUS.RX_STATE 0), t.rd (F.LAD_PROPOSE.CUR_MARGIN 0), t.port[(0 : Fin 8)].lad.reqRung,
         t.port[(0 : Fin 8)].lad.reqLoad]
     | _ => []) = [rxREQUESTING, 11, 22, 31] := by decide +kernel

/-- 09_belfry.md, "Example: node 17 ranges node 18": DELAY. -/
theorem test_delay : rngDelay (16 * 3635462 + 1) 58165960 2266 = 873 := by decide +kernel

/-- 10_diagnostics_lpi.md, "Example: a coupler wearing on P2": RL_CUR on the four days. -/
theorem test_loss : [215, 279, 329, 334].map (fun v => rlOf v 8192) = [506, 470, 447, 445] := by decide +kernel

/-- 14_cupola.md, "Example: spill guarantees on four and on three channels": the budgets of the eight ports, then the Lantern's. -/
theorem test_admission :
    let s := W.regs (((List.range 16).flatMap fun i => [(F.BWR_CLIENT.CLASS i, 0), (F.BWR_CLIENT.BUDGET i, if i < 8 then 50 else 52)]) ++
      [(F.CUP_STATUS.IN_SVC, 15)]) (W.on [120, 121, 122, 123, 124])
    W.after (.bwrClientWrite 16 8) { s with cup := { s.cup with ch := Vector.replicate 4 { cfg := { speed := 4 } } } }
      [F.BWR_ADM.LIMIT, F.BWR_ADM.G_SUM] = [3360, 3296] := by decide +kernel

/-- 15_host_access_mailboxes.md, "Example: a request from the host driver to the Lantern": the SEND word of PF0. -/
theorem test_send :
    W.after (.registerWrite 0x10 0x11440 4 0x86820000)
      (W.regs [(F.MBX_BIND.VALID 4, 1), (F.MBX_BIND.SND_ID 4, 0x10), (F.MBX_BIND.RCV_ID 4, 1), (F.MB_STATUS.MSEQ 4, 0x3F)] (W.on [133]))
      [F.MB_STATUS.FULL 4, F.MB_STATUS.MSEQ 4, F.MB_STATUS.LEN_M1 4, F.DB_PEND.DB 1] = [1, 0x40, 2, 0x40] := by decide +kernel

/-- 16_clocks.md, "Example: the offset of a partner's clock": the count. -/
theorem test_count :
    W.after (.fcWindowEnd 2000070) (W.r [(F.CKC_FCNT_RESULT.FC_BUSY, 1)]) [F.CKC_FCNT_RESULT.FC_COUNT] = [0x1E84C6] := by decide +kernel

/-- 18_calibration_monitors.md, "Example: a temperature trigger on P2": the shadow converges at 401 against 406 - 8, not at 397. -/
theorem test_converge : (List.map (fun snr =>
      match exec .calConverged (W.cal (some { W.cr .converge true with snr := 406 }) [(F.EQ_STATUS.SLC_SNR 0 4, snr),
        (F.CAL_CTRL.CAL_REVERT, 8), (F.LINK_STATUS.STATE 0, stUP), (F.LINK_STATUS.MODE 0, 7), (F.XB_STATUS.XB_STATE 0, xbSHADOW)]) with
      | .next t => t.cal.run.map CalRun.step
      | _ => none) [401, 397]) = [some .swap, some .converge] := by decide +kernel

end

end Sys2Proof.Tests
end

/-! SUPPORT. Accesses to the register space (15_host_access_mailboxes.md R532-R538, R746): what each check, a hold queue and
each kind of command makes of an access, then the statement about them. -/

namespace Sys2Proof.Machine

section FabricAccesses
variable {s u : State} {mid ofs len data : Nat} {pl : Place} {v : View} {f : Fail}

/-! ### Hold queues (R535-R538) -/

/-- A page's queue reads back as it was set, the empty queue too. -/
theorem State.held_setHeld_same (s : State) (pb : Nat) (l : List Held) : (s.setHeld pb l).held pb = l := by
  cases l <;> simp [State.held, State.setHeld]

theorem State.enqueue_room {p : PageRef} {h : Held} (room : (s.held p.pageBase).length < 8) :
    s.enqueue p h = s.setHeld p.pageBase (s.held p.pageBase ++ [h]) := if_neg (Nat.not_le.mpr room)

theorem State.enqueue_full {p : PageRef} {h : Held} (full : 8 ≤ (s.held p.pageBase).length) :
    s.enqueue p h = s.wdrop p h.mid h.addr := if_pos full

/-- An access finds nothing to deliver first where its page's queue is empty. -/
theorem State.drain_empty {pb : Nat} (p : Held → Bool) (n : Nat) (empty : s.held pb = []) : s.drain pb p n = s :=
  s.drain_none pb p n (by simp [empty])

theorem State.deliver_empty {pb : Nat} (empty : s.held pb = []) : s.deliver pb = s := by
  simp [State.deliver, empty]

theorem State.discard_empty {pb : Nat} (empty : s.held pb = []) (bound : Bool) : s.discard pb bound = s := by
  simp [State.discard, empty]

section Oldest
variable {pb : Nat} {h : Held} {rest : List Held} (hq : s.held pb = h :: rest) (hp : placeOf h.addr = some pl)
include hq hp

theorem State.deliver_live (live : s.heldLive pl = true) :
    s.deliver pb = ((s.setHeld pb rest).takeEffect h.mid h.addr h.view h.data pl true).2 := by
  simp [State.deliver, hq, hp, live]

theorem State.deliver_dead (dead : s.heldLive pl = false) : s.deliver pb = (s.setHeld pb rest).wdrop pl.page h.mid h.addr := by
  simp [State.deliver, hq, hp, dead]

/-- A write that can still take effect is not discarded before its bound. -/
theorem State.discard_live (live : s.heldLive pl = true) : s.discard pb false = s := by
  simp [State.discard, hq, hp, live]

theorem State.discard_dead {bound : Bool} (out : bound = true ∨ s.heldLive pl = false) :
    s.discard pb bound = (s.setHeld pb rest).wdrop pl.page h.mid h.addr := by
  simp [State.discard, hq, hp, out]

end Oldest

/-! ### A dropped write (R12) -/

/-- Outside the host lanes a drop is the page's WDROP and its source alone. -/
theorem State.wdrop_of_not_lane {p : PageRef} (lane : p.info.kind ≠ .hl) (mid ofs : Nat) :
    s.wdrop p mid ofs = (s.wrB (F.BUSY.WDROP p.pageBase) true).rise p.dropSrc [mid, ofs, 1] := if_neg lane

/-- The source's report reaches no BUSY register outside 0x3000 to 0xBFFF, so WDROP stands after it. -/
theorem State.wdrop_sets_WDROP {p : PageRef} (lane : p.info.kind ≠ .hl) (page : p.pageBase < 0x3000 ∨ 0xC000 ≤ p.pageBase)
    (mid ofs : Nat) : (s.wdrop p mid ofs).on (F.BUSY.WDROP p.pageBase) = true := by
  rw [State.wdrop_of_not_lane lane, State.on,
    (State.rise_flt _ _ _ _ _).2 (F.BUSY.WDROP p.pageBase) (by simp only [Fld.key]; omega)]
  exact State.on_wrB_same _ _ true rfl

theorem State.wdrop_keeps_queue {p : PageRef} (lane : p.info.kind ≠ .hl) (mid ofs : Nat) :
    (s.wdrop p mid ofs).hif.queue = s.hif.queue := by
  rw [State.wdrop_of_not_lane lane, (State.rise_flt _ _ _ _ _).1]
  rfl

/-! ### A write at its register: checks 7 and 8 (R746) -/

theorem State.takeEffect_unclocked {posted : Bool} (stopped : s.placeClocked pl = false) :
    s.takeEffect mid ofs v data pl posted = (true, s.refuse mid ofs true failClock) := by
  simp [State.takeEffect, stopped]

/-- The boot lock ends the write with a bus error. -/
theorem State.takeEffect_locked {posted : Bool} (clocked : s.placeClocked pl = true)
    (hit : s.lockHit (s.placeFields pl) v data = true) : (s.takeEffect mid ofs v data pl posted).1 = true := by
  simp [State.takeEffect, clocked, hit]

theorem State.takeEffect_done {posted : Bool} (clocked : s.placeClocked pl = true)
    (free : s.lockHit (s.placeFields pl) v data = false) (hw : s.regWrite mid v data pl = (false, u)) :
    s.takeEffect mid ofs v data pl posted = (false, u) := by
  simp [State.takeEffect, clocked, free, hw]

/-! ### One access of at most 32 bits (R532, R534-R536) -/

theorem State.write32_refused {tag : Nat} (hj : s.judge mid ofs len (some data) = .error f) :
    s.write32 mid tag ofs len data = (true, s.refuse mid ofs true f) := by
  simp [State.write32, hj]

theorem State.write32_thp {tag : Nat} (hj : s.judge mid ofs len (some data) = .ok (pl, v)) (thp : pl.isThp = true) :
    s.write32 mid tag ofs len data = (true, s.hostErr mid ofs true failBlock) := by
  simp [State.write32, hj, thp]

theorem State.write32_posted {tag : Nat} (hj : s.judge mid ofs len (some data) = .ok (pl, v)) (thp : pl.isThp = false)
    (posted : pl.posted = true) : s.write32 mid tag ofs len data = (false, s.enqueue pl.page
      { mid := mid, tag := tag, addr := ofs % 2 ^ 26, view := v, data := data % 2 ^ 32, tb := s.tb }) := by
  simp [State.write32, hj, thp, posted]

theorem State.write32_direct {tag : Nat} (hj : s.judge mid ofs len (some data) = .ok (pl, v)) (thp : pl.isThp = false)
    (posted : pl.posted = false) (empty : s.held pl.page.pageBase = []) :
    s.write32 mid tag ofs len data = s.takeEffect mid ofs v (data % 2 ^ 32) pl false := by
  simp [State.write32, hj, thp, posted, State.drain_empty _ _ empty]

theorem State.read32_refused (hj : s.judge mid ofs len none = .error f) :
    s.read32 mid ofs len = (0, true, s.refuse mid ofs false f) := by
  simp [State.read32, hj]

/-- A read behind an empty queue is judged by its clock, then by its register, on the state as it is. -/
theorem State.read32_direct (hj : s.judge mid ofs len none = .ok (pl, v)) (empty : s.held pl.page.pageBase = []) :
    s.read32 mid ofs len =
      if s.placeClocked pl = false then (0, true, s.refuse mid ofs false failClock)
      else if (s.regRead mid pl).2.1 = true then (0, true, (s.regRead mid pl).2.2.hostErr mid ofs false failBlock)
      else ((s.regRead mid pl).1 / 2 ^ (8 * (ofs % 4)) % 2 ^ (8 * len), false, (s.regRead mid pl).2.2) := by
  have drained := State.drain_empty (fun h => h.mid == mid) 8 empty
  cases pl <;> simp only [State.read32, hj, drained, Bool.not_eq_true']

/-! ### Commands and their completions -/

theorem State.busWrite_stopped (stopped : s.fabricRuns = false) : s.busWrite mid ofs len data = s := by
  simp [State.busWrite, State.iff, stopped]

theorem State.busRead_stopped (stopped : s.fabricRuns = false) : s.busRead mid ofs len = s := by
  simp [State.busRead, State.iff, stopped]

/-- An access that is not of 64 bits is one access of 32 bits or less (R533). -/
theorem State.busWrite_narrow {e : Bool} (runs : s.fabricRuns = true) (narrow : ¬ (len = 8 ∧ ofs % 8 = 0))
    (hw : s.write32 mid 0 ofs len data = (e, u)) : s.busWrite mid ofs len data = u.reply mid e false 0 := by
  simp only [State.busWrite, State.iff, runs, if_true, State.accessWrite, if_neg narrow, hw]

theorem State.busRead_narrow {w : Nat} {e : Bool} (runs : s.fabricRuns = true) (narrow : ¬ (len = 8 ∧ ofs % 8 = 0))
    (hr : s.read32 mid ofs len = (w, e, u)) :
    s.busRead mid ofs len = u.reply mid e false (if e then 0 else w) := by
  simp only [State.busRead, State.iff, runs, if_true, State.accessRead, if_neg narrow, hr]

/-- A write of 64 bits is two of 32, the low word first (R533). -/
theorem State.busWrite_wide (runs : s.fabricRuns = true) (aligned : ofs % 8 = 0) :
    s.busWrite mid ofs 8 data =
      let a := s.write32 mid 0 ofs 4 (data % 2 ^ 32)
      let b := a.2.write32 mid 0 (ofs + 4) 4 (data / 2 ^ 32)
      b.2.reply mid (a.1 || b.1) false 0 := by
  simp only [State.busWrite, State.iff, runs, if_true, State.accessWrite, aligned, and_self]

theorem Ends.registerWrite (h : s.busWrite mid ofs len data = u) : Ends (.registerWrite mid ofs len data) s u :=
  Ends.of_done rfl h

/-- The command reads `len` bytes at `ofs` for `mid`; the timeout does where the register's clock is gone (R37). -/
def State.ReadsAt (s : State) (mid ofs len : Nat) (i : Instr) : Prop :=
  i = .rclRead mid ofs len ∨ i = .counterLowRead mid ofs len ∨
    (s.clockGone ofs = true ∧ i = .registerReadTimeout mid ofs len)

theorem Ends.read {i : Instr} (hi : s.ReadsAt mid ofs len i) (h : s.busRead mid ofs len = u) : Ends i s u := by
  obtain rfl | rfl | ⟨gone, rfl⟩ := hi
  · exact Ends.of_done rfl h
  · exact Ends.of_done rfl h
  · exact Ends.of_done rfl ((State.iff_true gone).trans h)

theorem Ends.readTimeout_clocked (gone : s.clockGone ofs = false) : Ends (.registerReadTimeout mid ofs len) s s :=
  Ends.of_done rfl (by simp [State.iff, gone])

theorem Ends.delivery {page : Nat} (runs : s.fabricRuns = true) (h : s.deliver page = u) : Ends (.postedWriteDelivery page) s u :=
  Ends.of_done rfl ((State.iff_true runs).trans h)

theorem Ends.discard {page : Nat} {bound : Bool} (runs : s.fabricRuns = true) (h : s.discard page bound = u) :
    Ends (.postedWriteDiscard page bound) s u :=
  Ends.of_done rfl ((State.iff_true runs).trans h)

theorem Ends.delivery_stopped {page : Nat} (stopped : s.fabricRuns = false) : Ends (.postedWriteDelivery page) s s :=
  Ends.of_done rfl (by simp [State.iff, stopped])

theorem Ends.discard_stopped {page : Nat} {bound : Bool} (stopped : s.fabricRuns = false) :
    Ends (.postedWriteDiscard page bound) s s :=
  Ends.of_done rfl (by simp [State.iff, stopped])

/-! ### Writes and reads that the fabric serves -/

section Served
variable (runs : s.fabricRuns = true) (narrow : ¬ (len = 8 ∧ ofs % 8 = 0))
include runs narrow

theorem Ends.write_narrow {e : Bool} (hw : s.write32 mid 0 ofs len data = (e, u)) :
    Ends (.registerWrite mid ofs len data) s (u.reply mid e false 0) :=
  Ends.registerWrite (State.busWrite_narrow runs narrow hw)

/-- A posted write that finds room is held, and its master has its completion at once (R535). -/
theorem Ends.write_held (hj : s.judge mid ofs len (some data) = .ok (pl, v)) (thp : pl.isThp = false)
    (posted : pl.posted = true) (room : (s.held pl.page.pageBase).length < 8) :
    ∃ t, Ends (.registerWrite mid ofs len data) s t ∧ t.bus = { master := mid, err := false, unc := false, data := 0 } ∧
      t.regs = s.regs ∧ t.held pl.page.pageBase = s.held pl.page.pageBase ++
        [{ mid := mid, tag := 0, addr := ofs % 2 ^ 26, view := v, data := data % 2 ^ 32, tb := s.tb }] := by
  have hw := State.write32_posted (tag := 0) hj thp posted
  rw [State.enqueue_room room] at hw
  exact ⟨_, Ends.write_narrow runs narrow hw, rfl, rfl, State.held_setHeld_same _ _ _⟩

/-- A posted write that finds the queue full is dropped, and its master has its completion all the same (R535). -/
theorem Ends.write_dropped (hj : s.judge mid ofs len (some data) = .ok (pl, v)) (thp : pl.isThp = false)
    (posted : pl.posted = true) (full : 8 ≤ (s.held pl.page.pageBase).length) :
    Ends (.registerWrite mid ofs len data) s ((s.wdrop pl.page mid (ofs % 2 ^ 26)).reply mid false false 0) := by
  have hw := State.write32_posted (tag := 0) hj thp posted
  rw [State.enqueue_full full] at hw
  exact Ends.write_narrow runs narrow hw

/-- A write that is not posted, behind an empty queue, completes as checks 7 and 8 and its register have it (R536, R746). -/
theorem Ends.write_direct (hj : s.judge mid ofs len (some data) = .ok (pl, v)) (thp : pl.isThp = false)
    (posted : pl.posted = false) (empty : s.held pl.page.pageBase = []) {e : Bool}
    (he : s.takeEffect mid ofs v (data % 2 ^ 32) pl false = (e, u)) :
    Ends (.registerWrite mid ofs len data) s (u.reply mid e false 0) :=
  Ends.write_narrow runs narrow ((State.write32_direct hj thp posted empty).trans he)

/-- A write of an RWL field after the boot lock ends with a bus error (R8, R539). -/
theorem Ends.write_locked (hj : s.judge mid ofs len (some data) = .ok (pl, v)) (thp : pl.isThp = false)
    (posted : pl.posted = false) (empty : s.held pl.page.pageBase = []) (clocked : s.placeClocked pl = true)
    (hit : s.lockHit (s.placeFields pl) v (data % 2 ^ 32) = true) :
    ∃ t, Ends (.registerWrite mid ofs len data) s t ∧ t.bus = { master := mid, err := true, unc := false, data := 0 } := by
  have err := State.takeEffect_locked (mid := mid) (ofs := ofs) (posted := false) clocked hit
  exact ⟨_, Ends.write_direct runs narrow hj thp posted empty (Prod.ext err rfl), rfl⟩

variable {i : Instr} (hi : s.ReadsAt mid ofs len i)
include hi

theorem Ends.read_refused (hj : s.judge mid ofs len none = .error f) :
    Ends i s ((s.refuse mid ofs false f).reply mid true false 0) :=
  Ends.read hi (State.busRead_narrow runs narrow (State.read32_refused hj))

/-- A read of a register whose clock has stopped ends in the register access bound (R37, R746). -/
theorem Ends.read_unclocked (hj : s.judge mid ofs len none = .ok (pl, v)) (empty : s.held pl.page.pageBase = [])
    (stopped : s.placeClocked pl = false) : Ends i s ((s.refuse mid ofs false failClock).reply mid true false 0) :=
  Ends.read hi (State.busRead_narrow runs narrow ((State.read32_direct hj empty).trans (if_pos stopped)))

/-- A read that its register serves returns the addressed bytes of the word. -/
theorem Ends.read_done (hj : s.judge mid ofs len none = .ok (pl, v)) (empty : s.held pl.page.pageBase = [])
    (clocked : s.placeClocked pl = true) {w : Nat} (hr : s.regRead mid pl = (w, false, u)) :
    Ends i s (u.reply mid false false (w / 2 ^ (8 * (ofs % 4)) % 2 ^ (8 * len))) :=
  Ends.read hi (State.busRead_narrow runs narrow ((State.read32_direct hj empty).trans (by simp [clocked, hr])))

end Served

end FabricAccesses

/-- Settles O48: one case for each way an access or a queue's turn can end, each by a rule above. -/
theorem fabricAccesses : Obligations.FabricAccesses := by
  unfold Obligations.FabricAccesses
  intro s mid ofs len data
  refine ⟨fun stopped => ⟨?_, ?_, ?_⟩, Ends.readTimeout_clocked, fun runs narrow => ⟨?_, ?_, ?_, ?_, ?_⟩, ?_,
    fun runs page => ⟨?_, ?_⟩⟩
  · exact Ends.registerWrite (State.busWrite_stopped stopped)
  · exact fun i hi => Ends.read hi (State.busRead_stopped stopped)
  · exact fun page b => ⟨Ends.delivery_stopped stopped, Ends.discard_stopped stopped⟩
  · exact fun f hj => Ends.write_narrow runs narrow (State.write32_refused hj)
  · exact fun f hj i hi => Ends.read_refused runs narrow hi hj
  · exact fun pl v hj thp => Ends.write_narrow runs narrow (State.write32_thp hj thp)
  · intro pl v hj thp
    refine ⟨Ends.write_held runs narrow hj thp, Ends.write_dropped runs narrow hj thp, fun posted empty => ⟨?_, ?_, ?_⟩⟩
    · exact fun stopped => Ends.write_direct runs narrow hj thp posted empty (State.takeEffect_unclocked stopped)
    · exact fun clocked free u hw =>
        Ends.write_direct runs narrow hj thp posted empty (State.takeEffect_done clocked free hw)
    · exact Ends.write_locked runs narrow hj thp posted empty
  · exact fun pl v hj empty i hi => ⟨Ends.read_unclocked runs narrow hi hj empty,
      fun clocked w u hr => Ends.read_done runs narrow hi hj empty clocked hr⟩
  · rintro runs rfl aligned
    exact Ends.registerWrite (State.busWrite_wide runs aligned)
  · exact fun empty b => ⟨Ends.delivery runs (State.deliver_empty empty), Ends.discard runs (State.discard_empty empty b)⟩
  · intro h rest pl hq hp
    refine ⟨fun live => ⟨?_, ?_⟩, fun dead => ⟨?_, ?_⟩, ?_, fun page lane => ⟨?_, ?_⟩⟩
    · exact Ends.delivery runs (State.deliver_live hq hp live)
    · exact Ends.discard runs (State.discard_live hq hp live)
    · exact Ends.delivery runs (State.deliver_dead hq hp dead)
    · exact Ends.discard runs (State.discard_dead hq hp (.inr dead))
    · exact Ends.discard runs (State.discard_dead hq hp (.inl rfl))
    · exact State.wdrop_sets_WDROP lane page _ _
    · exact State.wdrop_keeps_queue lane _ _

end Sys2Proof.Machine

/-! SUPPORT. The Cupola's requests, regulation, patrol and pool (14_cupola.md R491-R506, R511, R516, R528): what each of its
operations leaves in the state, then the statement about them. -/

namespace Sys2Proof.Machine

section CupolaRequests
variable {s u : State} {c : Fin 4}

/-! ### Commands under a condition, and fields read through other updates -/

/-- A command that acts under a condition ends with its effect where the condition holds. -/
theorem Ends.of_iff {i : Instr} {b : Bool} {f : State → State} (hi : exec i s = done (s.iff b f)) (hb : b = true)
    (hf : f s = u) : Ends i s u :=
  Ends.of_done hi ((State.iff_true hb).trans hf)

theorem State.on_of_rd {s t : State} {f : Fld} (h : t.rd f = s.rd f) : t.on f = s.on f := congrArg (· == 1) h

theorem State.on_wrB_other (s : State) {f g : Fld} (b : Bool) (h : f.key ≠ g.key) : (s.wrB f b).on g = s.on g :=
  State.on_of_rd (State.rd_wrB_other s b h)

theorem State.rise_cup (s : State) (i : Nat) (d : List Nat) (inj quiet : Bool) : (s.rise i d inj quiet).cup = s.cup := by
  rw [(s.rise_flt i d inj quiet).1]

/-! ### Requests to DDR4 and their completion (R32, R491) -/

section Requests
variable {mid cl a len : Nat} {wr : Bool} {data : List Nat}

theorem State.rangeCheck_cup (s : State) (mid a : Nat) (wr : Bool) : (s.rangeCheck mid a wr).cup = s.cup := by
  unfold State.rangeCheck
  split
  · rfl
  · exact s.rise_cup _ _ _ _

/-- An address within the configured capacity is one of DDR4 (R32, R33). -/
theorem physTarget_ddr {cap a : Nat} (lower : ddrBase ≤ a) (upper : a < ddrBase + cap) (bits : a < 2 ^ 40) :
    physTarget cap a = .ddr (a - ddrBase) := by
  have base : 0x28000000 ≤ a := Nat.le_trans (by decide) lower
  unfold physTarget
  rw [if_neg (by omega), if_neg (by omega), if_neg (by omega), if_pos ⟨lower, upper, bits⟩]

/-- An identity that DDR4 refuses raises the register-fabric access source at an address of DDR4. -/
theorem State.rangeCheck_ddr_refused (refused : admitDdr mid = false) (lower : ddrBase ≤ a)
    (upper : a < ddrBase + s.cup.capacity) (bits : a < 2 ^ 40) :
    s.rangeCheck mid a wr = s.rise 0x200 [mid + 2 ^ 8 * (a / 2 ^ 32), a % 2 ^ 32, b2n wr] := by
  have admits : rangeAdmits s.cup.capacity mid a = false := by
    rw [rangeAdmits, physTarget_ddr lower upper bits]
    exact refused
  simp [State.rangeCheck, admits]

theorem State.memRequest_taken (admitted : admitDdr mid = true) (fits : clientFits mid cl = true)
    (inside : ddrBase ≤ a ∧ a + len ≤ ddrBase + s.cup.capacity) :
    s.memRequest mid cl a len wr data = { s with cup := { s.cup with
      waiting := s.cup.waiting ++ splitUnits mid cl wr (len / 64 + 2) (a - ddrBase) len data } } := by
  simp [State.memRequest, admitted, fits, inside]

theorem State.memRequest_refused
    (h : admitDdr mid = false ∨ ¬ (ddrBase ≤ a ∧ a + len ≤ ddrBase + s.cup.capacity)) :
    s.memRequest mid cl a len wr data = (s.rangeCheck mid a wr).reply mid true false 0 := by
  unfold State.memRequest
  refine if_neg ?_
  rcases h with refused | outside
  · simp [refused]
  · simp [outside]

/-- A served unit's completion carries its identity; only a write's can end in a bus error. -/
theorem State.unitServe_bus (s : State) (w : MemUnit) (errs : List Ecc) :
    (s.unitServe w errs).bus.master = w.mid ∧ (w.write = false → (s.unitServe w errs).bus.err = false) := by
  unfold State.unitServe
  cases w.write
  · exact ⟨rfl, fun _ => rfl⟩
  · exact ⟨rfl, nofun⟩

theorem State.unitDone_idle (none_granted : s.cup.granted = []) (service : s.chUp c = true) (errs : List Ecc) :
    s.unitDone c errs = s := by
  simp [State.unitDone, none_granted, service]

/-- A channel completes the unit granted first, where that unit is one of its own. -/
theorem State.unitDone_first {p : MemUnit × Nat} {l : List (MemUnit × Nat)} (granted : s.cup.granted = p :: l)
    (own : s.cup.chOf p.1.addr = c.val) (errs : List Ecc) :
    s.unitDone c errs = ({ s with cup := { s.cup with granted := l } }).unitServe p.1 errs := by
  simp [State.unitDone, granted, own]

end Requests

/-! ### Grants (R502, R503) -/

/-- The turn comes round to every client. -/
theorem nextClient_single (last : Nat) {i : Nat} (hi : i < 32) : nextClient last [i] = some i := by
  have turn : i ∈ (List.range 32).map fun k => (last + 1 + k) % 32 :=
    List.mem_map.mpr ⟨(i + 32 - (last + 1) % 32) % 32, List.mem_range.mpr (Nat.mod_lt _ (by decide)), by omega⟩
  unfold nextClient
  cases h : ((List.range 32).map fun k => (last + 1 + k) % 32).find? (· ∈ [i]) with
  | none => simpa using List.find?_eq_none.mp h i turn
  | some j => simpa using List.find?_some h

theorem State.bwrGrant_none (idle : s.waitingAt c = []) : s.bwrGrant c = s := by simp [State.bwrGrant, idle]

/-- The one unit that waits is granted in the class that its client's next grant takes. -/
theorem State.bwrGrant_single {w : MemUnit} (waits : s.waitingAt c = [w]) (client : w.client < 32) :
    (s.bwrGrant c).cup.waiting = s.cup.waiting.erase w ∧
      (s.bwrGrant c).cup.granted = s.cup.granted ++ [(w, s.grantClass w.client)] ∧
      (s.bwrGrant c).cup.winBytes = spPut s.cup.winBytes w.client ((spFind s.cup.winBytes w.client).getD 0 + 64) := by
  simp [State.bwrGrant, waits, nextClient_single _ client, State.modCh, State.countGrant, State.count64]

/-! ### Windows (R502) -/

/-- Counting once in the field of each number of a list that `p` selects, where the fields are distinct. -/
theorem State.rd_countWhere (f : Nat → Fld) (p : Nat → Bool) {j : Nat} (distinct : ∀ i, i ≠ j → (f i).key ≠ (f j).key) :
    ∀ (l : List Nat) (s : State), l.Nodup →
      (l.foldl (fun (s : State) i => if p i then s.count (f i) else s) s).rd (f j) =
        if j ∈ l ∧ p j = true then (s.rd (f j) + 1) % 2 ^ (f j).width else s.rd (f j)
  | [], s, _ => by simp
  | i :: l, s, nodup => by
    obtain ⟨fresh, nodup⟩ := List.nodup_cons.mp nodup
    rw [List.foldl_cons, State.rd_countWhere f p distinct l _ nodup]
    by_cases hij : i = j
    · subst hij
      by_cases hp : p i = true <;> simp [hp, fresh, State.rd_count_same]
    · have keep : (if p i then s.count (f i) else s).rd (f j) = s.rd (f j) := by
        split
        · exact State.rd_count_other _ _ (distinct i hij)
        · rfl
      simp [keep, Ne.symm hij]

/-- The window's end counts at each client that was granted more than its budget. -/
theorem State.windowEnd_OVER_WIN (s : State) (i : Fin 32) :
    s.windowEnd.rd (F.BWR_OVER.OVER_WIN i) =
      if s.rd (F.BWR_CLIENT.BUDGET i) ≠ 0 ∧ 64 * s.rd (F.BWR_CLIENT.BUDGET i) < (spFind s.cup.winBytes i).getD 0 then
        (s.rd (F.BWR_OVER.OVER_WIN i) + 1) % 2 ^ 32
      else s.rd (F.BWR_OVER.OVER_WIN i) := by
  have counted := State.rd_countWhere F.BWR_OVER.OVER_WIN
    (fun i => s.rd (F.BWR_CLIENT.BUDGET i) != 0 &&
      decide (64 * s.rd (F.BWR_CLIENT.BUDGET i) < (spFind s.cup.winBytes i).getD 0))
    (j := i) (fun k hk => by simp only [Fld.key]; omega) (List.range 32) s List.nodup_range
  refine Eq.trans counted ?_
  simp

/-! ### Admission (R504-R506) -/

/-- The addresses at which LIMIT, G_SUM, ADM_OVER and what follows them stand. -/
def AdmA (a : Nat) : Prop := a = 0xB104 ∨ a = 0xB108 ∨ 0x100000 ≤ a

theorem Touch.setDemoted (s : State) (b : Bool) : Touch AdmA s (s.setDemoted b) := by
  unfold State.setDemoted
  refine Touch.trans (.fold _ _ (fun t n _ => .ite (.wrB _ _ _ ?_) (.refl _)) _) (.fold _ _ (fun t k _ => .wrB _ _ _ ?_) _)
  all_goals simp only [AdmA, Fld.key]; omega

theorem Touch.syncAdm (s : State) : Touch AdmA s s.syncAdm := by
  unfold State.syncAdm
  have shown : Touch AdmA s ((s.wr F.BWR_ADM.LIMIT (s.limit10 / 160)).wr F.BWR_ADM.G_SUM
      ((16 * s.gBudget + s.winNow - 1) / s.winNow)) := .endWr (.wr _ _ _ (.inl rfl)) (.inl rfl)
  refine (Touch.endWrB ?_ (.inr (.inl rfl))).trans (.setDemoted _ _)
  exact .ite (.endWrB shown (.inr (.inr (by decide)))) shown

/-- A change of budgets or window that raises G_SUM leaves it above LIMIT (R505). -/
def State.TurnsAway (s u : State) : Prop :=
  s.gBudget * u.winNow < u.gBudget * s.winNow ∧ overLimit u.limit10 u.gBudget u.winNow = true

variable {f : State → State}

theorem State.admitChange_refused (turned : s.TurnsAway (f s)) : s.admitChange f = s.wrB F.BWR_FLAGS.ADM_REFUSED true := by
  obtain ⟨raises, above⟩ := turned
  simp [State.admitChange, raises, above]

theorem State.admitChange_admitted (admitted : ¬ s.TurnsAway (f s)) :
    s.admitChange f = (f s).syncAdm.wrB F.BWR_FLAGS.ADM_REFUSED false := by
  unfold State.admitChange
  refine if_neg ?_
  simpa [State.TurnsAway] using admitted

theorem State.admitChange_on_REFUSED (admitted : ¬ s.TurnsAway (f s)) :
    (s.admitChange f).on F.BWR_FLAGS.ADM_REFUSED = false := by
  rw [State.admitChange_admitted admitted, State.on_wrB_same _ _ _ rfl]

/-- An admitted change stands: what it wrote outside the admission's own fields reads back. -/
theorem State.admitChange_rd (admitted : ¬ s.TurnsAway (f s)) {g : Fld} (hg : ¬ AdmA (g.key / 32)) :
    (s.admitChange f).rd g = (f s).rd g := by
  rw [State.admitChange_admitted admitted, State.rd_wrB_other _ _ fun e => hg (e ▸ .inr (.inl rfl))]
  exact Touch.syncAdm _ g hg

/-- What BWR_CLIENT(i) written with `v` gives before admission (R528). -/
def State.clientFields (i : Fin 32) (v : Nat) (s : State) : State :=
  ((s.wr (F.BWR_CLIENT.CLASS i) (v / 2 ^ 30)).wr (F.BWR_CLIENT.BUDGET i) v).wr (F.BWR_CLIENT.RSV29 i) (v / 2 ^ 16)

/-- What BWR_CTRL written with `v` gives before admission (R525). -/
def State.ctrlFields (v : Nat) (s : State) : State :=
  (((s.wr F.BWR_CTRL.WIN (v / 2 ^ 26)).wr F.BWR_CTRL.URG_WR (v / 2 ^ 22)).wr F.BWR_CTRL.URG_RD (v / 2 ^ 18)).wr
    F.BWR_CTRL.RSV17 v

theorem State.clientWrite_eq (s : State) (i : Fin 32) (v : Nat) : s.clientWrite i v = s.admitChange (State.clientFields i v) := rfl

theorem State.bwrCtrlWrite_eq (s : State) (v : Nat) : s.bwrCtrlWrite v = s.admitChange (State.ctrlFields v) := rfl

theorem State.clientFields_CLASS (s : State) (i : Fin 32) (v : Nat) :
    (State.clientFields i v s).rd (F.BWR_CLIENT.CLASS i) = v / 2 ^ 30 % 4 := by
  unfold State.clientFields
  rw [State.rd_wr_other _ _ (by simp only [Fld.key]; omega), State.rd_wr_other _ _ (by simp only [Fld.key]; omega)]
  exact State.rd_wr_same _ _ _

theorem State.clientFields_BUDGET (s : State) (i : Fin 32) (v : Nat) :
    (State.clientFields i v s).rd (F.BWR_CLIENT.BUDGET i) = v % 2 ^ 16 := by
  unfold State.clientFields
  rw [State.rd_wr_other _ _ (by simp only [Fld.key]; omega), State.rd_wr_same]

theorem State.ctrlFields_WIN (s : State) (v : Nat) : (State.ctrlFields v s).rd F.BWR_CTRL.WIN = v / 2 ^ 26 % 64 := by
  unfold State.ctrlFields
  rw [State.rd_wr_other _ _ (by decide), State.rd_wr_other _ _ (by decide), State.rd_wr_other _ _ (by decide)]
  exact State.rd_wr_same _ _ _

/-! ### The patrol (R492, R516) -/

theorem State.grantUnits_scrubbed (cl : Nat) : ∀ (k : Nat) (s : State), (s.grantUnits cl k).cup.scrubbed = s.cup.scrubbed
  | 0, _ => rfl
  | k + 1, s => State.grantUnits_scrubbed cl k (s.countGrant cl (s.grantClass cl) 64)

theorem State.errCapture_cup (s : State) (c addr type src mid rank dev cw : Nat) :
    (s.errCapture c addr type src mid rank dev cw).cup = s.cup := by
  unfold State.errCapture
  split <;> rfl

theorem State.ueCount_scrubbed (s : State) (c : Nat) : (s.ueCount c).cup.scrubbed = s.cup.scrubbed := by
  unfold State.ueCount
  dsimp only
  split <;> rfl

theorem State.eccReport_scrubbed (s : State) (a : Nat) (e : Ecc) (src mid : Nat) :
    (s.eccReport a e src mid).cup.scrubbed = s.cup.scrubbed := by
  unfold State.eccReport
  cases e with
  | ok => rfl
  | ce d =>
    dsimp only
    rw [State.rise_cup, State.errCapture_cup]
    split
    · split <;> rfl
    · rfl
  | ue =>
    dsimp only
    rw [State.ueCount_scrubbed, State.rise_cup, State.errCapture_cup]
    rfl
  | poison =>
    dsimp only
    rw [State.rise_cup, State.errCapture_cup]
    rfl

/-- Reading a codeword leaves the patrol where it is. -/
theorem State.cwRead_scrubbed (s : State) (q : Nat) (env : Ecc) (src mid : Nat) (wb : Bool) :
    (s.cwRead q env src mid wb).2.cup.scrubbed = s.cup.scrubbed := by
  unfold State.cwRead
  dsimp only
  split
  · exact s.eccReport_scrubbed _ _ _ _
  · exact s.eccReport_scrubbed _ _ _ _

/-- The patrol's read at offset `a`, its request's grant with it, before the patrol goes on. -/
def State.patrolRead (s : State) (a : Nat) (e : Ecc) : State :=
  ((if a % 64 < 16 then s.grantUnits 31 1 else s).cwRead (a / 16) e 1 0x3F true).2

theorem State.scrub_eq (s : State) (a : Nat) (e : Ecc) : s.scrub a e = (s.patrolRead a e).patrolNext := rfl

theorem State.patrolRead_scrubbed (s : State) (a : Nat) (e : Ecc) : (s.patrolRead a e).cup.scrubbed = s.cup.scrubbed := by
  rw [State.patrolRead, State.cwRead_scrubbed]
  split
  · exact State.grantUnits_scrubbed 31 1 s
  · rfl

theorem State.syncBehind_cup (s : State) : s.syncBehind.cup = s.cup := by
  unfold State.syncBehind
  dsimp only
  split
  · rfl
  · split <;> rfl

/-- The pass's last codeword ends it, and the next pass begins now. -/
theorem State.patrolNext_last (last : s.patrolTotal ≤ s.cup.scrubbed + 1) :
    s.patrolNext.cup.scrubbed = 0 ∧ s.patrolNext.cup.passTb = s.tb := by
  simp [State.patrolNext, last, State.syncBehind_cup]

theorem State.patrolNext_more (more : s.cup.scrubbed + 1 < s.patrolTotal) :
    s.patrolNext.cup.scrubbed = s.cup.scrubbed + 1 := by
  simp [State.patrolNext, Nat.not_le.mpr more, State.syncBehind_cup]

/-! ### The pool (R497, R500, R511) -/

/-- The fields that follow the pool (R499). -/
def poolFields : List Fld := [F.CUP_EVENT.RSV_SHORT, F.SPL_STATUS.SPL_FREE, F.SPL_BAD.BAD_PAGES, F.CUP_STATUS.RSV_SHORT]

theorem State.syncPool_rd_other (s : State) {g : Fld} (h : g.key ∉ poolFields.map Fld.key) : s.syncPool.rd g = s.rd g := by
  simp only [poolFields, List.map_cons, List.map_nil, List.mem_cons, List.not_mem_nil, or_false, not_or] at h
  obtain ⟨event, free, bad, short⟩ := h
  unfold State.syncPool
  dsimp only
  rw [State.rd_wrB_other _ _ (Ne.symm short), State.rd_wr_other _ _ (Ne.symm bad), State.rd_wr_other _ _ (Ne.symm free)]
  split
  · exact State.rd_wrB_other _ _ (Ne.symm event)
  · rfl

/-- Congestion is shown in port pages alone. -/
theorem State.icongAll_rd_low (s : State) {g : Fld} (h : g.key / 32 < 0x200000) : s.icongAll.rd g = s.rd g :=
  icongAll_rd s g (fun o => by simp only [Fld.key] at h ⊢; omega) (fun o => by simp only [Fld.key] at h ⊢; omega)
    (fun n => by simp only [Fld.key] at h ⊢; omega)

theorem State.syncPool_icongAll_SPL_EN (s : State) : s.syncPool.icongAll.on F.SPL_CFG.SPL_EN = s.on F.SPL_CFG.SPL_EN :=
  State.on_of_rd ((State.icongAll_rd_low _ (by decide)).trans (State.syncPool_rd_other _ (by decide)))

theorem State.syncPool_icongAll_SPL_RDY (s : State) :
    s.syncPool.icongAll.on F.SPL_STATUS.SPL_RDY = s.on F.SPL_STATUS.SPL_RDY :=
  State.on_of_rd ((State.icongAll_rd_low _ (by decide)).trans (State.syncPool_rd_other _ (by decide)))

/-- A change of every host side leaves registers and Cupola. -/
theorem State.foldl_modSide (g : HostSide → HostSide) : ∀ (l : List (Fin 12)) (s : State),
    (l.foldl (fun (s : State) o => s.modSide o g) s).regs = s.regs ∧
      (l.foldl (fun (s : State) o => s.modSide o g) s).cup = s.cup
  | [], _ => ⟨rfl, rfl⟩
  | o :: l, s => State.foldl_modSide g l (s.modSide o g)

/-- The table is being built over the pages that SPL_PAGES gives, and of the registers only the pool's counts follow. -/
theorem State.buildTable_facts (s : State) :
    s.buildTable.cup.spt.building = true ∧ s.buildTable.cup.spt.pages = min (s.rd F.SPL_CFG.SPL_PAGES) 131072 ∧
      ∀ g : Fld, g.key ∉ poolFields.map Fld.key → s.buildTable.rd g = s.rd g := by
  unfold State.buildTable
  refine ⟨?_, ?_, fun g hg => ?_⟩
  · rw [syncPool_cup, (State.foldl_modSide _ _ _).2]
  · rw [syncPool_cup, (State.foldl_modSide _ _ _).2]
    rfl
  · rw [State.syncPool_rd_other _ hg]
    exact State.rd_congr g (State.foldl_modSide _ _ _).1

/-- A write of SPL_CFG while SPL_EN is set is refused where it would change the size, or free a pool that is in use. -/
theorem State.splWrite_refused {en : Bool} {pages : Nat} (enabled : s.on F.SPL_CFG.SPL_EN = true)
    (h : pages % 2 ^ 18 ≠ s.rd F.SPL_CFG.SPL_PAGES ∨ (!en && s.anyHeld) = true) :
    s.splWrite en pages = s.wrB F.SPL_STATUS.CFG_REFUSED true := by
  simp only [State.splWrite, enabled, if_true, if_pos h]

/-- A refused write of SPL_CFG sets CFG_REFUSED and leaves SPL_CFG and the pool. -/
theorem Ends.splRefused {i : Instr} (h : Ends i s (s.wrB F.SPL_STATUS.CFG_REFUSED true)) :
    ∃ t, Ends i s t ∧ t.on F.SPL_STATUS.CFG_REFUSED = true ∧ t.rd F.SPL_CFG.SPL_EN = s.rd F.SPL_CFG.SPL_EN ∧
      t.rd F.SPL_CFG.SPL_PAGES = s.rd F.SPL_CFG.SPL_PAGES ∧ t.cup = s.cup :=
  ⟨_, h, State.on_wrB_same _ _ _ rfl, State.rd_wrB_other _ _ (by decide), State.rd_wrB_other _ _ (by decide), rfl⟩

/-- SPL_CFG and SPL_STATUS as SPL_EN set with a size writes them, before the table is built. -/
def State.splEnabled (s : State) (pages : Nat) : State :=
  (((s.wr F.SPL_CFG.SPL_PAGES (pages % 2 ^ 18)).wrB F.SPL_CFG.SPL_EN true).wrB F.SPL_STATUS.CFG_REFUSED false).wrB
    F.SPL_STATUS.SPL_RDY false

theorem State.splWrite_enable (disabled : s.on F.SPL_CFG.SPL_EN = false) (pages : Nat) :
    s.splWrite true pages = (s.splEnabled pages).buildTable := by
  simp [State.splWrite, State.splEnabled, disabled]

theorem State.splEnabled_SPL_PAGES {pages : Nat} (h : pages < 2 ^ 18) : (s.splEnabled pages).rd F.SPL_CFG.SPL_PAGES = pages := by
  unfold State.splEnabled
  rw [State.rd_wrB_other _ _ (by decide), State.rd_wrB_other _ _ (by decide), State.rd_wrB_other _ _ (by decide),
    State.rd_wr_same, Nat.mod_mod, Nat.mod_eq_of_lt h]

theorem State.splEnabled_SPL_EN (s : State) (pages : Nat) : (s.splEnabled pages).on F.SPL_CFG.SPL_EN = true := by
  unfold State.splEnabled
  rw [State.on_wrB_other _ _ (by decide), State.on_wrB_other _ _ (by decide), State.on_wrB_same _ _ _ rfl]

/-- SPL_CFG and SPL_STATUS as SPL_EN cleared writes them. -/
def State.splCleared (s : State) : State :=
  ((s.wrB F.SPL_CFG.SPL_EN false).wrB F.SPL_STATUS.SPL_RDY false).wrB F.SPL_STATUS.CFG_REFUSED false

/-- The pool disabled, no table being built. -/
def State.splDisabled (s : State) : State :=
  { s.splCleared with cup := { s.cup with spt := { s.cup.spt with building := false } } }

theorem State.splWrite_disable {pages : Nat} (enabled : s.on F.SPL_CFG.SPL_EN = true)
    (same : pages % 2 ^ 18 = s.rd F.SPL_CFG.SPL_PAGES) (unheld : s.anyHeld = false) :
    s.splWrite false pages = s.splDisabled.syncPool.icongAll := by
  simp only [State.splWrite, enabled, if_true]
  rw [if_neg (not_or.mpr ⟨not_not.mpr same, by simp [unheld]⟩)]
  rfl

theorem State.splDisabled_SPL_EN (s : State) : s.splDisabled.on F.SPL_CFG.SPL_EN = false := by
  change s.splCleared.on F.SPL_CFG.SPL_EN = false
  rw [State.splCleared, State.on_wrB_other _ _ (by decide), State.on_wrB_other _ _ (by decide), State.on_wrB_same _ _ _ rfl]

theorem State.splDisabled_SPL_RDY (s : State) : s.splDisabled.on F.SPL_STATUS.SPL_RDY = false := by
  change s.splCleared.on F.SPL_STATUS.SPL_RDY = false
  rw [State.splCleared, State.on_wrB_other _ _ (by decide), State.on_wrB_same _ _ _ rfl]

/-- An entry of no owner that reads uncorrectable is BAD, and on no free list (R500). -/
theorem State.sptLost_unheld {k : Nat} (unheld : s.holder k = none) :
    k ∈ (s.sptLost k).cup.spt.bad ∧ ∀ l ∈ (s.sptLost k).cup.spt.free, k ∉ l := by
  simp only [State.sptLost, unheld, syncPool_cup]
  refine ⟨?_, fun l hl => ?_⟩
  · split
    · assumption
    · exact List.mem_cons_self
  · obtain ⟨l', -, rfl⟩ := List.mem_map.mp hl
    simp

end CupolaRequests

/-! ### The commands -/

section CupolaCommands
variable {s u : State} {c : Fin 4}

theorem Ends.memoryRequest {mid cl a len : Nat} {wr : Bool} {data : List Nat} (h : s.memRequest mid cl a len wr data = u) :
    Ends (.memoryRequest mid cl a len wr data) s u :=
  Ends.of_done rfl h

theorem Ends.memoryRequestDone {errs : List Ecc} (h : s.unitDone c errs = u) : Ends (.memoryRequestDone c errs) s u :=
  Ends.of_done rfl h

theorem Ends.bwrGrant (up : s.domOn 124 = true) (service : s.chUp c = true) (h : s.bwrGrant c = u) :
    Ends (.bwrGrant c) s u :=
  Ends.of_iff rfl (by simp [up, service]) h

/-- A written BWR_CLIENT is refused, or stands with ADM_REFUSED clear (R505, R528). -/
theorem Ends.clientWrite (up : s.domOn 124 = true) (i : Fin 32) (v : Nat) :
    (s.TurnsAway (State.clientFields i v s) → Ends (.bwrClientWrite i v) s (s.wrB F.BWR_FLAGS.ADM_REFUSED true)) ∧
      (¬ s.TurnsAway (State.clientFields i v s) → ∃ t, Ends (.bwrClientWrite i v) s t ∧
        t.on F.BWR_FLAGS.ADM_REFUSED = false ∧ t.rd (F.BWR_CLIENT.CLASS i) = v / 2 ^ 30 % 4 ∧
        t.rd (F.BWR_CLIENT.BUDGET i) = v % 2 ^ 16) := by
  refine ⟨fun turned => Ends.of_iff rfl up (State.admitChange_refused turned), fun admitted =>
    ⟨_, Ends.of_iff rfl up (s.clientWrite_eq i v), State.admitChange_on_REFUSED admitted, ?_, ?_⟩⟩
  · rw [State.admitChange_rd admitted (by simp only [AdmA, Fld.key]; omega), State.clientFields_CLASS]
  · rw [State.admitChange_rd admitted (by simp only [AdmA, Fld.key]; omega), State.clientFields_BUDGET]

/-- A written BWR_CTRL is refused, or stands with ADM_REFUSED clear (R505). -/
theorem Ends.ctrlWrite (up : s.domOn 124 = true) (v : Nat) :
    (s.TurnsAway (State.ctrlFields v s) → Ends (.bwrCtrlWrite v) s (s.wrB F.BWR_FLAGS.ADM_REFUSED true)) ∧
      (¬ s.TurnsAway (State.ctrlFields v s) → ∃ t, Ends (.bwrCtrlWrite v) s t ∧
        t.on F.BWR_FLAGS.ADM_REFUSED = false ∧ t.rd F.BWR_CTRL.WIN = v / 2 ^ 26 % 64) := by
  refine ⟨fun turned => Ends.of_iff rfl up (State.admitChange_refused turned), fun admitted =>
    ⟨_, Ends.of_iff rfl up (s.bwrCtrlWrite_eq v), State.admitChange_on_REFUSED admitted, ?_⟩⟩
  rw [State.admitChange_rd admitted (by simp only [AdmA, Fld.key]; omega), State.ctrlFields_WIN]

theorem Ends.scrubRead {a : Nat} {e : Ecc} (up : s.domOn 124 = true) (enabled : s.on F.SCRUB_CTRL.SCRUB_EN = true)
    (inside : a < s.cup.capacity) (service : s.chUp (s.cup.chOf a) = true) :
    Ends (.scrubRead a e) s (s.patrolRead a e).patrolNext :=
  Ends.of_iff rfl (by simp [up, enabled, inside, service]) (s.scrub_eq a e)

theorem Ends.splEnable {pages : Nat} (up : s.domOn 124 = true) (h : s.splWrite true pages = u) : Ends (.splEnable pages) s u :=
  Ends.of_iff rfl up h

/-- SPL_EN set with a size begins the build of a table of that size (R497, R511). -/
theorem Ends.splEnable_builds {pages : Nat} (up : s.domOn 124 = true) (width : pages < 2 ^ 18)
    (disabled : s.on F.SPL_CFG.SPL_EN = false) :
    ∃ t, Ends (.splEnable pages) s t ∧ t.on F.SPL_CFG.SPL_EN = true ∧ t.rd F.SPL_CFG.SPL_PAGES = pages ∧
      t.on F.SPL_STATUS.SPL_RDY = false ∧ t.cup.spt.building = true ∧ t.cup.spt.pages = min pages 131072 := by
  obtain ⟨building, size, other⟩ := (s.splEnabled pages).buildTable_facts
  rw [State.splEnabled_SPL_PAGES width] at size
  refine ⟨_, Ends.splEnable up (State.splWrite_enable disabled pages), ?_, ?_, ?_, building, size⟩
  · exact (State.on_of_rd (other _ (by decide))).trans (s.splEnabled_SPL_EN pages)
  · exact (other _ (by decide)).trans (State.splEnabled_SPL_PAGES width)
  · exact (State.on_of_rd (other _ (by decide))).trans (State.on_wrB_same _ _ _ rfl)

/-- The table is ready, and the build is over (R497). -/
theorem Ends.splTableReady (up : s.domOn 124 = true) (building : s.cup.spt.building = true) :
    ∃ t, Ends .splTableReady s t ∧ t.on F.SPL_STATUS.SPL_RDY = true ∧ t.cup.spt.building = false := by
  refine ⟨_, Ends.of_iff rfl (by simp [up, building]) rfl, ?_, ?_⟩
  · rw [State.syncPool_icongAll_SPL_RDY, State.on_wrB_same _ _ _ rfl]
  · rw [rdcup_icongAll, syncPool_cup]
    rfl

theorem Ends.splDisable (up : s.domOn 124 = true) (h : s.splWrite false (s.rd F.SPL_CFG.SPL_PAGES) = u) :
    Ends .splDisable s u :=
  Ends.of_iff rfl up h

/-- A pool of which no page is held is disabled (R497). -/
theorem Ends.splDisable_disables (up : s.domOn 124 = true) (enabled : s.on F.SPL_CFG.SPL_EN = true)
    (width : s.rd F.SPL_CFG.SPL_PAGES < 2 ^ 18) (unheld : s.anyHeld = false) :
    ∃ t, Ends .splDisable s t ∧ t.on F.SPL_CFG.SPL_EN = false ∧ t.on F.SPL_STATUS.SPL_RDY = false :=
  ⟨_, Ends.splDisable up (State.splWrite_disable enabled (Nat.mod_eq_of_lt width) unheld),
    s.splDisabled.syncPool_icongAll_SPL_EN.trans s.splDisabled_SPL_EN,
    s.splDisabled.syncPool_icongAll_SPL_RDY.trans s.splDisabled_SPL_RDY⟩

theorem Ends.sptOwnerScan {k : Nat} (up : s.domOn 124 = true) (enabled : s.on F.SPL_CFG.SPL_EN = true)
    (inside : k < s.cup.spt.pages) : Ends (.sptOwnerScan k) s (s.sptLost k) :=
  Ends.of_iff rfl (by simp [up, enabled, inside]) rfl

end CupolaCommands

/-- Settles O47: one case for each command, each by the rule above for its operation. -/
theorem cupolaRequests : Obligations.CupolaRequests := by
  unfold Obligations.CupolaRequests
  intro s c
  refine ⟨fun mid cl a len wr data => ⟨?_, ?_, ?_⟩, fun errs => ⟨?_, ?_⟩, fun up service => ⟨?_, ?_⟩, fun up => ?_,
    fun up i v => Ends.clientWrite up i v, fun up v => Ends.ctrlWrite up v, fun up enabled a e inside service => ?_,
    fun up pages width => ⟨?_, ?_⟩, Ends.splTableReady, fun up enabled width => ⟨?_, ?_⟩,
    fun up enabled k inside => ⟨?_, ?_⟩⟩
  · exact fun admitted fits inside => ⟨_, Ends.memoryRequest (State.memRequest_taken admitted fits inside), rfl, rfl⟩
  · exact fun h => ⟨_, Ends.memoryRequest (State.memRequest_refused h), s.rangeCheck_cup mid a wr, rfl⟩
  · rintro refused ⟨lower, upper⟩ bits
    have raised := State.rangeCheck_ddr_refused (s := s) (wr := wr) refused lower (by omega) bits
    exact ⟨_, Ends.memoryRequest (State.memRequest_refused (.inl refused)), by rw [raised]⟩
  · exact fun none_granted service => Ends.memoryRequestDone (State.unitDone_idle none_granted service errs)
  · exact fun p l granted own =>
      ⟨_, Ends.memoryRequestDone (State.unitDone_first granted own errs), State.unitServe_bus _ p.1 errs⟩
  · exact fun idle => Ends.bwrGrant up service (State.bwrGrant_none idle)
  · intro w waits client
    obtain ⟨waiting, granted, bytes⟩ := State.bwrGrant_single waits client
    exact ⟨_, Ends.bwrGrant up service rfl, waiting, granted, by rw [bytes, spFind_spPut_same]; rfl⟩
  · exact ⟨_, Ends.of_iff rfl up rfl, rfl, s.windowEnd_OVER_WIN⟩
  · have kept := s.patrolRead_scrubbed a e
    refine ⟨_, Ends.scrubRead up enabled inside service, kept, ?_, ?_⟩
    · rw [← kept]
      exact State.patrolNext_last
    · rw [← kept]
      exact State.patrolNext_more
  · exact Ends.splEnable_builds up width
  · intro enabled differs
    refine Ends.splRefused (Ends.splEnable up (State.splWrite_refused enabled (.inl ?_)))
    rwa [Nat.mod_eq_of_lt width]
  · exact fun held => Ends.splRefused (Ends.splDisable up (State.splWrite_refused enabled (.inr (by simp [held]))))
  · exact Ends.splDisable_disables up enabled width
  · exact fun unheld => ⟨_, Ends.sptOwnerScan up enabled inside, State.sptLost_unheld unheld⟩
  · exact fun o _ => Ends.sptOwnerScan up enabled inside

end Sys2Proof.Machine

/-! SUPPORT. Trims and the slice crossbar (03_line_signal_path.md R75, R85, R87, R89-R91): what a copy, a request and a switch
point leave in the state, then the statement about them. -/

namespace Sys2Proof.Machine

section TrimsAndCrossbar
variable {s : State} {n : Fin 8} {x : Fin 5} {p : Fin 4} {st p' swaps : Nat}

/-! ### Boundaries (R75, R363) -/

/-- A boundary lets a copy or a switch take place outside quiet periods, in Spire in UP where it is symbol aligned. -/
theorem State.aligned_iff (s : State) (n : Fin 8) :
    s.aligned n = true ↔ s.rd (F.LPI_STATUS.TX_LPI n) ≠ lpiQUIET ∧ (s.spire n = true → s.link n = stUP →
      s.port[n].fr.txRungIdx % alignFrames (rungBits (s.rd (F.LAD_STATUS.TX_RUNG n))) = 0) := by
  cases hs : s.spire n <;> by_cases hl : s.link n = stUP <;> simp [State.aligned, hs, hl]

/-! ### Trims (R85) -/

theorem State.trimApply_TRIM_PEND (s : State) (n : Fin 8) (x : Fin 5) :
    (s.trimApply n x).on (F.SLICE_CTRL.TRIM_PEND n x) = true := by
  unfold State.trimApply
  rw [State.on_of_rd (State.rd_lpiTrigger _ n _), State.on_wrB_same _ _ _ rfl]

/-- The guard event of a copy touches no slice register. -/
theorem State.trimCopy_rd (s : State) (n : Fin 8) (x : Fin 5) {g : Fld} (hg : ¬ LowA (g.key / 32)) :
    (s.trimCopy n x).rd g =
      (((trimFields n x).foldl (fun s f => s.wr f.hidden (s.rd f)) s).wrB (F.SLICE_CTRL.TRIM_PEND n x) false).rd g :=
  State.guard_low lowA_id (.refl _) g hg

theorem State.trimCopy_TRIM_PEND (s : State) (n : Fin 8) (x : Fin 5) :
    (s.trimCopy n x).on (F.SLICE_CTRL.TRIM_PEND n x) = false := by
  rw [State.on_of_rd (s.trimCopy_rd n x (by simp only [LowA, Fld.key]; omega)), State.on_wrB_same _ _ _ rfl]

/-- After a copy each active trim has its shadow's value, and the shadow set stands. -/
theorem State.trimCopy_active (s : State) (n : Fin 8) (x : Fin 5) {f : Fld} (hf : f ∈ trimFields n x) :
    (s.trimCopy n x).rd f.hidden = s.rd f % 2 ^ f.width ∧ (s.trimCopy n x).rd f = s.rd f := by
  obtain ⟨lower, upper, slice, page, bit, pend⟩ := trimF n x f hf
  obtain ⟨active, shadow⟩ := fold_hidden (trimFields n x) (trimNodup n x)
    (fun f hf => ⟨(trimF n x f hf).2.1, (trimF n x f hf).2.2.2.2.1⟩) s f hf
  constructor
  · rw [s.trimCopy_rd n x (by simp only [LowA, Fld.key, Fld.hidden]; omega), State.rd_wrB_other, active]
    simp only [Fld.key, Fld.hidden] at pend ⊢
    omega
  · rw [s.trimCopy_rd n x (by simp only [LowA, Fld.key]; omega), State.rd_wrB_other _ _ (Ne.symm pend), shadow]

/-! ### Requests (R89-R91) -/

/-- The crossbar of port `n` has taken state `st` with pair `p'`, and its request is done. -/
def State.XbTook (t : State) (n : Fin 8) (st p' swaps : Nat) : Prop :=
  t.rd (F.XB_STATUS.XB_STATE n) = st ∧ t.rd (F.XB_STATUS.XB_CUR_PAIR n) = p' ∧ t.rd (F.XB_STATUS.XB_RESULT n) = 1 ∧
    t.on (F.XB_STATUS.XB_BUSY n) = false ∧ t.port[n].sl.xbPend = none ∧ t.rd (F.XB_STATUS.XB_SWAPS n) = swaps

/-- The request is refused: the crossbar of `s` stands. -/
def State.XbRefused (s t : State) (n : Fin 8) : Prop :=
  t.rd (F.XB_STATUS.XB_STATE n) = s.rd (F.XB_STATUS.XB_STATE n) ∧
    t.rd (F.XB_STATUS.XB_CUR_PAIR n) = s.rd (F.XB_STATUS.XB_CUR_PAIR n) ∧ t.rd (F.XB_STATUS.XB_RESULT n) = 2 ∧
    t.on (F.XB_STATUS.XB_BUSY n) = s.on (F.XB_STATUS.XB_BUSY n)

/-- SPARE and SWAP count in XB_SWAPS. -/
theorem State.xbDone_took (s : State) (n : Fin 8) {st p : Nat} (hst : st < 4) (hp : p < 4) :
    (s.xbDone n st p).XbTook n st (if st = xbIDLE then 0 else p)
      (if st = xbSWAP ∨ st = xbSPARE then (s.rd (F.XB_STATUS.XB_SWAPS n) + 1) % 2 ^ 16 else s.rd (F.XB_STATUS.XB_SWAPS n)) :=
  xbDone_facts s n st p hst hp

theorem State.XbTook.lpiTrigger (h : s.XbTook n st p' swaps) : (s.lpiTrigger n).XbTook n st p' swaps := by
  simpa only [State.XbTook, State.on, State.rd_lpiTrigger, State.rd_lpiTrigger_sl] using h

theorem State.XbRefused.lpiTrigger {t : State} (h : s.XbRefused t n) : s.XbRefused (t.lpiTrigger n) n := by
  simpa only [State.XbRefused, State.on, State.rd_lpiTrigger] using h

/-- A request is its write of XB_CTRL, then XB_GO where no handover stands against it. -/
theorem State.xbRequest_go {req : Nat} (free : s.handover n = false ∨ req = xbSPARE) :
    s.xbRequest n req p = ((xbw s n req p).xbGo n req p).lpiTrigger n := by
  unfold State.xbRequest
  refine if_neg ?_
  rcases free with h | h <;> simp [h]

theorem State.xbRequest_handover {req : Nat} (held : s.handover n = true) (other : req ≠ xbSPARE) :
    s.xbRequest n req p = (xbw s n req p).xbRefuse n := by
  unfold State.xbRequest
  exact if_pos (by simp [held, other])

/-- XB_GO reads the link, the mode and XB_STATUS, none of which XB_CTRL's write changes. -/
theorem xbw_status (s : State) (n : Fin 8) (req p : Nat) :
    (xbw s n req p).rd (F.XB_STATUS.XB_STATE n) = s.rd (F.XB_STATUS.XB_STATE n) ∧
      (xbw s n req p).rd (F.XB_STATUS.XB_CUR_PAIR n) = s.rd (F.XB_STATUS.XB_CUR_PAIR n) ∧
      (xbw s n req p).rd (F.XB_STATUS.XB_SWAPS n) = s.rd (F.XB_STATUS.XB_SWAPS n) ∧
      (xbw s n req p).on (F.XB_STATUS.XB_BUSY n) = s.on (F.XB_STATUS.XB_BUSY n) ∧ (xbw s n req p).link n = s.link n := by
  refine ⟨xbw_rd _ _ _ _ _ ?_, xbw_rd _ _ _ _ _ ?_, xbw_rd _ _ _ _ _ ?_, State.on_of_rd (xbw_rd _ _ _ _ _ ?_),
    xbw_rd _ _ _ _ _ ?_⟩ <;> (simp only [Fld.key]; omega)

/-- A request whose XB_GO is done at once has been taken. -/
theorem State.xbRequest_took {u : State} {req q : Nat} (free : s.handover n = false ∨ req = xbSPARE)
    (go : (xbw s n req p).xbGo n req p = u.xbDone n st q) (hst : st < 4) (hq : q < 4)
    (same : u.rd (F.XB_STATUS.XB_SWAPS n) = s.rd (F.XB_STATUS.XB_SWAPS n)) :
    (s.xbRequest n req p).XbTook n st (if st = xbIDLE then 0 else q)
      (if st = xbSWAP ∨ st = xbSPARE then (s.rd (F.XB_STATUS.XB_SWAPS n) + 1) % 2 ^ 16
        else s.rd (F.XB_STATUS.XB_SWAPS n)) := by
  rw [State.xbRequest_go free, go, ← same]
  exact (u.xbDone_took n hst hq).lpiTrigger

/-! What XB_GO does with the requests that R89 and R91 grant. -/

theorem State.xbGo_shadow (ready : s.on (F.XB_STATUS.XB_BUSY n) = false)
    (h : s.rd (F.XB_STATUS.XB_STATE n) = xbIDLE ∨
      (s.rd (F.XB_STATUS.XB_STATE n) = xbSHADOW ∧ s.rd (F.XB_STATUS.XB_CUR_PAIR n) ≠ p)) :
    s.xbGo n xbSHADOW p = s.xbDone n xbSHADOW p := by
  unfold State.xbGo
  rcases h with idle | ⟨shadow, other⟩
  · simp [ready, idle]
  · simp [ready, shadow, Ne.symm other]

theorem State.xbGo_idle (ready : s.on (F.XB_STATUS.XB_BUSY n) = false)
    (h : s.rd (F.XB_STATUS.XB_STATE n) = xbSHADOW ∨ (s.rd (F.XB_STATUS.XB_STATE n) = xbSPARE ∧ s.link n ≤ stSENSE)) :
    s.xbGo n xbIDLE p = s.xbDone n xbIDLE 0 := by
  unfold State.xbGo
  rcases h with shadow | ⟨spare, low⟩
  · simp [ready, shadow]
  · have down : s.link n = stDISABLED ∨ s.link n = stDORMANT ∨ s.link n = stSENSE := by
      change s.link n ≤ 2 at low
      change _ = 0 ∨ _ = 1 ∨ _ = 2
      omega
    simp [ready, spare, down]

/-- SPARE cancels a request that waits (R91). -/
theorem State.xbGo_spare (h : s.rd (F.XB_STATUS.XB_STATE n) = xbIDLE ∨ s.rd (F.XB_STATUS.XB_STATE n) = xbSHADOW ∨
      (s.rd (F.XB_STATUS.XB_STATE n) = xbSWAP ∧ s.rd (F.XB_STATUS.XB_CUR_PAIR n) = p)) :
    s.xbGo n xbSPARE p = ((s.wrB (F.XB_STATUS.XB_BUSY n) false).modPort n fun q =>
      { q with sl := { q.sl with xbPend := none } }).xbDone n xbSPARE p := by
  unfold State.xbGo
  simp [h]

theorem State.xbGo_swap (ready : s.on (F.XB_STATUS.XB_BUSY n) = false) (shadow : s.rd (F.XB_STATUS.XB_STATE n) = xbSHADOW)
    (same : s.rd (F.XB_STATUS.XB_CUR_PAIR n) = p) : s.xbGo n xbSWAP p = s.xbSwitch n xbSWAP p (.swap p) := by
  unfold State.xbGo
  simp [ready, shadow, same, show ¬ 4 ≤ xbSWAP by decide]

theorem State.xbGo_handback (ready : s.on (F.XB_STATUS.XB_BUSY n) = false) (swapped : s.rd (F.XB_STATUS.XB_STATE n) = xbSWAP)
    (same : s.rd (F.XB_STATUS.XB_CUR_PAIR n) = p) : s.xbGo n xbSHADOW p = s.xbSwitch n xbSHADOW p (.handback p) := by
  unfold State.xbGo
  simp [ready, swapped, same]

theorem State.xbGo_busy {req : Nat} (busy : s.on (F.XB_STATUS.XB_BUSY n) = true) (other : req ≠ xbSPARE) :
    s.xbGo n req p = s.xbRefuse n := by
  unfold State.xbGo
  simp [busy, other]

/-- While a request waits, every request but SPARE is refused, handover or not. -/
theorem State.xbRequest_busy {req : Nat} (busy : s.on (F.XB_STATUS.XB_BUSY n) = true) (other : req ≠ xbSPARE) :
    s.XbRefused (s.xbRequest n req p) n := by
  have refused : s.XbRefused ((xbw s n req p).xbRefuse n) n := rff s n req p
  cases held : s.handover n with
  | true => rwa [State.xbRequest_handover held other]
  | false =>
    obtain ⟨-, -, -, sameBusy, -⟩ := xbw_status s n req p
    rw [State.xbRequest_go (.inl held), State.xbGo_busy (sameBusy.trans busy) other]
    exact refused.lpiTrigger

theorem State.xbDone_tookPair (s : State) (n : Fin 8) (st : Nat) (p : Fin 4) (hst : st < 4) (h0 : st ≠ xbIDLE) :
    (s.xbDone n st p).XbTook n st p
      (if st = xbSWAP ∨ st = xbSPARE then (s.rd (F.XB_STATUS.XB_SWAPS n) + 1) % 2 ^ 16 else s.rd (F.XB_STATUS.XB_SWAPS n)) := by
  simpa only [if_neg h0] using s.xbDone_took n hst p.isLt

/-! ### The commands -/

/-- A copy at no boundary, and a switch point at none, do nothing (R75, R363). -/
theorem Ends.unaligned (off : s.aligned n = false) : Ends (.trimCopy n x) s s ∧ Ends (.xbSwitchPoint n) s s :=
  ⟨Ends.of_done rfl (by simp [State.iff, off]), Ends.of_done rfl (by simp [State.iff, off])⟩

theorem Ends.trimCopy (on : s.sliceOn n x = true) (pend : s.on (F.SLICE_CTRL.TRIM_PEND n x) = true)
    (running : s.link n ≠ stHOLD) (aligned : s.aligned n = true) : Ends (.trimCopy n x) s (s.trimCopy n x) :=
  Ends.of_iff rfl (by simp [on, pend, running, aligned]) rfl

/-- The state and the pair that a request which waits asks for. -/
def XbPend.takes : XbPend → Nat × Nat
  | .swap p => (xbSWAP, p)
  | .handback p => (xbSHADOW, p)

theorem Ends.xbSwitchPoint {w : XbPend} (on : s.xbOn n = true) (running : s.link n ≠ stHOLD) (aligned : s.aligned n = true)
    (clear : s.shiftHere n = false) (pend : s.port[n].sl.xbPend = some w) :
    Ends (.xbSwitchPoint n) s (s.xbDone n w.takes.1 w.takes.2) := by
  refine Ends.of_iff rfl (by simp [on, running, aligned, clear]) ?_
  cases w <;> rw [pend] <;> rfl

end TrimsAndCrossbar

/-- Settles O33: one case for each command and each answer to a request, each by the rule above for it. -/
theorem trimsAndCrossbar : Obligations.TrimsAndCrossbar := by
  unfold Obligations.TrimsAndCrossbar
  intro s n x p
  refine ⟨fun on => ⟨_, Ends.of_iff rfl on rfl, s.trimApply_TRIM_PEND n x⟩, fun off => ?_, fun on pend running aligned => ?_,
    fun on => ?_⟩
  · exact Ends.unaligned (Bool.eq_false_iff.mpr fun h => off ((s.aligned_iff n).mp h))
  · exact ⟨_, Ends.trimCopy on pend running ((s.aligned_iff n).mpr aligned), s.trimCopy_TRIM_PEND n x,
      fun f hf => s.trimCopy_active n x hf⟩
  refine ⟨?_, ?_, ?_, ?_, ?_, ?_, ?_⟩
  · rintro ⟨free, ready⟩ h
    obtain ⟨st, cur, sw, busy, -⟩ := xbw_status s n xbSHADOW p
    exact ⟨_, Ends.of_iff rfl on rfl, State.xbRequest_took (.inl free)
      (State.xbGo_shadow (busy.trans ready) (by rwa [st, cur])) (by decide) p.isLt sw⟩
  · rintro ⟨free, ready⟩ h
    obtain ⟨st, -, sw, busy, link⟩ := xbw_status s n xbIDLE p
    exact ⟨_, Ends.of_iff rfl on rfl, State.xbRequest_took (.inl free)
      (State.xbGo_idle (busy.trans ready) (by rwa [st, link])) (by decide) (by decide) sw⟩
  · intro h
    obtain ⟨st, cur, sw, -, -⟩ := xbw_status s n xbSPARE p
    refine ⟨_, Ends.of_iff rfl on rfl, State.xbRequest_took (.inr rfl)
      (State.xbGo_spare (by rwa [st, cur])) (by decide) p.isLt ?_⟩
    rw [State.rd_modPort, State.rd_wrB_other _ _ (by simp only [Fld.key]; omega), sw]
  · rintro ⟨free, ready⟩ shadow same
    obtain ⟨st, cur, -, busy, -⟩ := xbw_status s n xbSWAP p
    refine ⟨_, Ends.of_iff rfl on rfl, ?_⟩
    rw [State.xbRequest_go (.inl free), State.xbGo_swap (busy.trans ready) (st.trans shadow) (cur.trans same)]
    exact swf s n xbSWAP p xbSWAP (.swap p) (by decide) (by decide)
  · rintro ⟨free, ready⟩ swapped same
    obtain ⟨st, cur, -, busy, -⟩ := xbw_status s n xbSHADOW p
    refine ⟨_, Ends.of_iff rfl on rfl, ?_⟩
    rw [State.xbRequest_go (.inl free), State.xbGo_handback (busy.trans ready) (st.trans swapped) (cur.trans same)]
    exact swf s n xbSHADOW p xbSHADOW (.handback p) (by decide) (by decide)
  · exact fun busy => ⟨_, Ends.of_iff rfl on rfl, State.xbRequest_busy busy (by decide)⟩
  · intro running aligned clear
    have boundary := (s.aligned_iff n).mpr aligned
    exact ⟨
      fun pend => ⟨_, Ends.xbSwitchPoint on running boundary clear pend,
        s.xbDone_tookPair n xbSWAP p (by decide) (by decide)⟩,
      fun pend => ⟨_, Ends.xbSwitchPoint on running boundary clear pend,
        s.xbDone_tookPair n xbSHADOW p (by decide) (by decide)⟩⟩

end Sys2Proof.Machine

/-! SUPPORT. Impulse detectors, coefficient updates and freezes (03_line_signal_path.md R92, R93, R100, R101,
04_equalisation_cancellation.md R104, R111-R113, R117, R123, R126): what a detector's command, an update, a freeze and an SNR
block leave in the state, then the statement about them. -/

namespace Sys2Proof.Machine

section ImpulsesAndAdaptation
variable {s : State} {n : Fin 8} {x : Fin 5}

/-! ### Operations on ports -/

theorem spPut_spPut_same {α : Type} (k : Nat) (v w : α) : ∀ m : Sparse α, spPut (spPut m k v) k w = spPut m k w
  | [] => by simp [spPut]
  | (a, u) :: m => by
    rcases Nat.lt_trichotomy a k with below | rfl | above
    · have apart : a ≠ k := Nat.ne_of_lt below
      simp [spPut, apart, Nat.lt_asymm below, spPut_spPut_same k v w m]
    · simp [spPut]
    · have apart : a ≠ k := Nat.ne_of_gt above
      simp [spPut, apart, above]

theorem State.port_modPort_same (s : State) (n : Fin 8) (f : Port → Port) : (s.modPort n f).port[n] = f s.port[n] := by
  simp [State.modPort]

theorem State.modPort_modPort (s : State) (n : Fin 8) (f g : Port → Port) :
    (s.modPort n f).modPort n g = s.modPort n fun p => g (f p) := by
  simp [State.modPort]

/-! ### The long-term mean (R92) -/

/-- The mean of slice `x` after the windows of `sums`. -/
def State.meanAfter (s : State) (n : Fin 8) (x : Nat) (sums : List Nat) : Nat :=
  sums.foldl (fun m v => Config.meanStep (10 + min 10 (s.rd (F.IMP_CTRL.IMP_TAU n x))) m (v * 2 ^ 20)) (s.impMean n x)

theorem State.impTrack_eq (s : State) (n : Fin 8) (x : Nat) (sums : List Nat) :
    s.impTrack n x sums = s.modPort n fun p =>
      { p with sl := { p.sl with impMean := spPut p.sl.impMean x (s.meanAfter n x sums) } } :=
  rfl

theorem State.impMean_impTrack (s : State) (n : Fin 8) (x : Nat) (sums : List Nat) :
    (s.impTrack n x sums).impMean n x = s.meanAfter n x sums := by
  rw [State.impMean, State.impTrack_eq, State.port_modPort_same, spFind_spPut_same]
  rfl

/-- Tracking over some windows and then over more is tracking over all of them. -/
theorem State.impTrack_impTrack (s : State) (n : Fin 8) (x : Nat) (older newer : List Nat) :
    (s.impTrack n x older).impTrack n x newer = s.impTrack n x (older ++ newer) := by
  have mean : (s.impTrack n x older).meanAfter n x newer = s.meanAfter n x (older ++ newer) := by
    rw [State.meanAfter, State.impMean_impTrack, State.meanAfter, State.meanAfter, List.foldl_append]
    rfl
  rw [State.impTrack_eq _ n x newer, mean, State.impTrack_eq, State.impTrack_eq, State.modPort_modPort]
  simp only [spPut_spPut_same]

/-! ### The flag (R92, R93, R100, R101) -/

/-- A flag that rises stands, and its rise is counted. -/
theorem State.impSet_rises (s : State) (n : Fin 8) (x : Fin 5) :
    (s.impSet n x).on (F.IMP_STATUS.IMP_FLAG n x) = true ∧
      (s.impSet n x).rd (F.IMP_EVENTS.IMP_EVENTS n x) = (s.rd (F.IMP_EVENTS.IMP_EVENTS n x) + 1) % 2 ^ 32 := by
  unfold State.impSet
  constructor
  · rw [State.on_of_rd (State.withFlag_rd (by simp only [LinkA, LowT, LowA, Fld.key]; omega)),
      State.on_of_rd (State.rd_modPort _ _ _ _), State.on_of_rd (State.rd_count_other _ _ (by simp only [Fld.key]; omega)),
      State.on_wrB_same _ _ _ rfl]
  · rw [State.withFlag_rd (by simp only [LinkA, LowT, LowA, Fld.key]; omega), State.rd_modPort, State.rd_count_same,
      State.rd_wrB_other _ _ (by simp only [Fld.key]; omega)]

/-- What the detector has on the windows `sums` and the last 16 magnitudes: it is enabled, and a criterion holds (R92). -/
def State.ImpRises (s : State) (n : Fin 8) (x : Fin 5) (last sums : List Nat) : Prop :=
  s.on (F.IMP_CTRL.IMP_EN n x) = true ∧
    (s.critA n x last = true ∨ s.critB n x last (s.meanAfter n x sums.dropLast) = true)

section Detector
variable {past newest : List Nat} (on : s.sliceOn n x = true) (awake : s.rd (F.LPI_STATUS.RX_LPI n) ≠ lpiQUIET)
  (low : s.on (F.IMP_STATUS.IMP_FLAG n x) = false)
include on awake low

/-- A detector whose flag is down raises it, or tracks the mean over every window. -/
theorem Ends.impulseFlagRise :
    let ms := adcMags (past ++ newest)
    let last := ms.drop (ms.length - 16)
    (s.ImpRises n x last (sums16 ms) → Ends (.impulseFlagRise n x past newest) s
      ((s.impTrack n x (sums16 ms).dropLast).impSet n x)) ∧
    (¬ s.ImpRises n x last (sums16 ms) → Ends (.impulseFlagRise n x past newest) s (s.impTrack n x (sums16 ms))) := by
  intro ms last
  have acts : (s.sliceOn n x && s.rd (F.LPI_STATUS.RX_LPI n) != lpiQUIET && !s.on (F.IMP_STATUS.IMP_FLAG n x)) = true := by
    simp [on, awake, low]
  have criteria : (s.on (F.IMP_CTRL.IMP_EN n x) && (s.critA n x last ||
      s.critB n x last ((s.impTrack n x (sums16 ms).dropLast).impMean n x))) = true ↔ s.ImpRises n x last (sums16 ms) := by
    rw [State.impMean_impTrack]
    simp [State.ImpRises]
  refine ⟨fun rises => Ends.of_iff rfl acts (if_pos (criteria.mpr rises)), fun quiet => ?_⟩
  refine Ends.of_iff rfl acts ((if_neg (mt criteria.mp quiet)).trans ?_)
  rw [State.impTrack_impTrack, List.dropLast_eq_take, List.take_append_drop]

end Detector

/-- Clearing a flag that stands, IMP_EN cleared with it or not. -/
theorem State.impEnClear_facts (h : s.on (F.IMP_STATUS.IMP_FLAG n x) = true) :
    let t := (s.wrB (F.IMP_CTRL.IMP_EN n x) false).impClr n x
    t.on (F.IMP_STATUS.IMP_FLAG n x) = false ∧ t.on (F.IMP_CTRL.IMP_EN n x) = false := by
  obtain ⟨clear, -, enable⟩ := impClr_facts _ n x (fmem s n x false h)
  exact ⟨clear, (State.on_of_rd enable).trans (State.on_wrB_same _ _ _ rfl)⟩

/-! ### Coefficient updates (R104, R111-R113, R117) -/

/-- Outside a training phase the law is that of the register's word (R111, R130). -/
theorem State.lawFor_register {y f : Nat} {half2 : Bool} (h : s.phase n < 2) :
    s.lawFor n y f half2 false = lawOf (s.adaptWord n y f) := by
  unfold State.lawFor
  exact if_neg fun training => by omega

/-- In a training phase the schedule gives the step (R117). -/
theorem State.lawFor_training {y f : Nat} {half2 early : Bool} (h : 2 ≤ s.phase n) (framed : s.phase n ≠ phFRAME_SYNC)
    (schedule : s.port[n].trn.muOvr = false) : s.lawFor n y f half2 early = ⟨0, trnMu (s.phase n) half2 f, 0, 0⟩ := by
  unfold State.lawFor
  exact if_pos ⟨h, framed, by rw [schedule]; rfl⟩

/-- A coefficient is updated at symbol `k`: its filter is not frozen and not off in the mode, a DFE tap is in use, and the
decimation picks its position (R109, R110, R113, R123). -/
def State.UpdatesAt (s : State) (n : Fin 8) (c : CoefPlace) (k dec : Nat) : Prop :=
  s.frozen n c.x c.f = false ∧ filterOff (s.rd (F.LINK_STATUS.MODE n)) c = false ∧
    (c.f = 4 → c.j ≤ s.rd (F.EQ_STATUS.DFE_LEN n c.x)) ∧ (k + 2 ^ dec * c.j - c.j) % 2 ^ dec = 0

theorem State.updatesAt_iff (s : State) (n : Fin 8) (c : CoefPlace) (k dec : Nat) :
    (!s.frozen n c.x c.f && !(filterOff (s.rd (F.LINK_STATUS.MODE n)) c ||
      (c.f == 4 && decide (s.rd (F.EQ_STATUS.DFE_LEN n c.x) < c.j))) && updatesAt dec k c.j) = true ↔
      s.UpdatesAt n c k dec := by
  simp [State.UpdatesAt, updatesAt, and_assoc, imp_iff_not_or]

section Commit
variable {w k : Nat} {half2 early : Bool} {win : RxWin} {c : CoefPlace} (place : coefPlace w = some c)
  (active : s.active n = true) (cancellers : s.domOn (filterDom n (c.x, 0)) = true) (equaliser : s.domOn (filterDom n (c.x, 3)) = true)
include place active cancellers equaliser

/-- The chain's symbol is noted, and the coefficient stands where no update is due. -/
theorem State.adaptCommit_holds (h : ¬ s.UpdatesAt n c k (s.lawFor n c.x c.f half2 early).dec) :
    s.adaptCommit n w k half2 early win = s.modPort n fun p => { p with eq := { p.eq with
      chain := spPut p.eq.chain c.x (rxChain (s.rxFilters n c.x) (s.rxWindow n c.x win)) } } := by
  simp only [State.adaptCommit, place, active, cancellers, equaliser, Bool.and_self, if_true,
    if_neg (mt (s.updatesAt_iff n c k _).mp h)]

theorem State.adaptCommit_updates (h : s.UpdatesAt n c k (s.lawFor n c.x c.f half2 early).dec) :
    s.adaptCommit n w k half2 early win =
      let sy := rxChain (s.rxFilters n c.x) (s.rxWindow n c.x win)
      let l := s.lawFor n c.x c.f half2 early
      let er := coefInput (s.rxFilters n c.x) (s.rxWindow n c.x win) sy c (w / 4 % 2)
      s.modPort n fun p => { p with eq := { p.eq with
        chain := spPut p.eq.chain c.x sy
        coef := putCoef p.eq.coef (w / 4) (unsignedOf 24 (adaptStep l.law l.mu l.leak (accFrac c.f) er.1 er.2
          (signedOf 24 ((spFind p.eq.coef (w / 4)).getD 0)))) } } := by
  simp only [State.adaptCommit, place, active, cancellers, equaliser, Bool.and_self, if_true,
    if_pos ((s.updatesAt_iff n c k _).mpr h)]

end Commit

/-! ### Freezes (R123) -/

theorem bitB_eq_testBit (v i : Nat) : bitB v i = v.testBit i := by
  rw [Nat.testBit_eq_decide_div_mod_eq, bitB, beq_eq_decide]

theorem frzUpd_bit (c : Nat) {bit : Nat} (h : bit < 8) : bitB (frzUpd c bit true % 2 ^ 8) bit = true := by
  rw [bitB_eq_testBit, Nat.testBit_mod_two_pow, decide_eq_true h, Bool.true_and, frzUpd, ← bitB_eq_testBit]
  split
  · assumption
  · next clear => simpa [Nat.add_comm c, bitB_eq_testBit, Nat.testBit_two_pow_add_eq] using clear

/-- A cause that is set shows in every filter that it names and that is powered. -/
theorem State.freeze_sets {q : Nat × Nat → Bool} {bit : Nat} {f : Nat × Nat} (hf : f ∈ filters) (named : q f = true)
    (on : s.domOn (filterDom n f) = true) (hbit : bit < 8) :
    bitB ((s.freeze n q bit true).rd (F.ADAPT.FRZ_CAUSE n f.1 f.2)) bit = true := by
  rw [State.freeze_cause _ _ _ _ _ _ hf, if_pos ⟨named, on⟩]
  exact frzUpd_bit _ hbit

/-- A change of the gain is a guard event on the pair that the slice carries, in TRAIN and UP (R121, R123). -/
theorem Ends.pgaGainWrite (on : s.sliceOn n x = true) (gain : Nat) :
    ∃ t, Ends (.pgaGainWrite n x gain) s t ∧ t.rd (F.SLICE_CTRL.PGA_GAIN n x) = gain % 64 ∧
      (s.link n = stTRAIN ∨ s.link n = stUP → ∀ f ∈ filters, 2 ≤ f.2 → s.carriedPair n x = some f.1 →
        s.domOn (filterDom n f) = true → bitB (t.rd (F.ADAPT.FRZ_CAUSE n f.1 f.2)) 3 = true) := by
  refine ⟨_, Ends.of_iff rfl on rfl, ?_, fun adapts f hf dd carried dom => ?_⟩
  · have written : (s.wr (F.SLICE_CTRL.PGA_GAIN n x) gain).rd (F.SLICE_CTRL.PGA_GAIN n x) = gain % 64 := State.rd_wr_same _ _ _
    split
    · exact (State.freeze_rd (by simp only [LowA, Fld.key]; omega)).trans written
    · exact written
  · have kept : (s.wr (F.SLICE_CTRL.PGA_GAIN n x) gain).domOn (filterDom n f) = true := by
      have low : filterDom n f < 200 := by
        unfold filterDom
        split <;> omega
      rw [State.domOn, State.rd_wr_other _ _ (by simp only [Fld.key]; omega)]
      exact dom
    rw [if_pos adapts]
    exact State.freeze_sets hf (by simp [isDD, dd, carried]) kept (by decide)

theorem Ends.guardEnd (s : State) (n : Fin 8) (x : Fin 5) :
    Ends (.guardEnd n x) s (s.freeze n (fun f => decide (2 ≤ f.2 ∧ f.1 = x.val)) 3 false) :=
  Ends.of_done rfl (by simp only [isDD, Bool.decide_and, beq_eq_decide])

/-- When a hang time ends, its cause goes from every filter (R123). -/
theorem Ends.hangHoldExpiry (hang : s.port[n].eq.hangHold = true) : Ends (.freezeHangExpiry n true) s
    ((s.freeze n (fun _ => true) frzHOLD false).modPort n fun p => { p with eq := { p.eq with hangHold := false } }) :=
  Ends.of_done rfl ((if_pos rfl).trans (State.iff_true hang))

theorem Ends.hangImpExpiry (hang : s.port[n].eq.hangImp = true) : Ends (.freezeHangExpiry n false) s
    ((s.freeze n (fun _ => true) frzIMPULSE false).modPort n fun p => { p with eq := { p.eq with hangImp := false } }) :=
  Ends.of_done rfl ((if_neg Bool.false_ne_true).trans (State.iff_true hang))

/-! ### SNR blocks (R126) -/

/-- The symbols of a block that count, and their squared errors. -/
theorem errTotals_eq (errs : List ErrRun) :
    errTotals errs = (((errs.filter fun r => !r.flagged).map (·.count)).sum,
      ((errs.filter fun r => !r.flagged).map fun r => r.count * (r.eps * r.eps).toNat).sum) := by
  have step (a b : Nat) : errs.foldl (fun a r => if r.flagged then a else
      (a.1 + r.count, a.2 + r.count * (r.eps * r.eps).toNat)) (a, b) =
      (a + ((errs.filter fun r => !r.flagged).map (·.count)).sum,
        b + ((errs.filter fun r => !r.flagged).map fun r => r.count * (r.eps * r.eps).toNat).sum) := by
    induction errs generalizing a b with
    | nil => rfl
    | cons r errs ih => cases h : r.flagged <;> simp [h, ih, Nat.add_assoc]
  simpa [errTotals] using step 0 0

/-- A block is complete with 2^16 symbols that count, and gives its pair's SLC_SNR then alone. -/
theorem Ends.snrBlockDone (on : s.domOn (14 * n.val + 6) = true)
    (shown : x.val = 4 → s.rd (F.XB_STATUS.XB_STATE n) = xbSHADOW) (errs : List ErrRun) (ps : Nat) :
    let used := errs.filter fun (r : ErrRun) => !r.flagged
    let sq := (used.map fun r => r.count * (r.eps * r.eps).toNat).sum
    let v := slcSnr (if s.spire n then .inl (s.slicerOrder n (s.chainPair n x)) else .inr ps) sq
    ((used.map (·.count)).sum ≠ 2 ^ 16 → Ends (.snrBlockDone n x ⟨errs, ps⟩) s s) ∧
      ((used.map (·.count)).sum = 2 ^ 16 → Ends (.snrBlockDone n x ⟨errs, ps⟩) s
        ((s.wr (F.EQ_STATUS.SLC_SNR n x) v).modPort n fun p => { p with eq := { p.eq with
          snrValid := p.eq.snrValid.set x true, errSq := spPut p.eq.errSq x sq } })) := by
  intro used sq v
  have shownB : (x.val != 4 || s.rd (F.XB_STATUS.XB_STATE n) == xbSHADOW) = true := by
    by_cases h : x.val = 4
    · simp [shown h]
    · simp [h]
  have totals : errTotals errs = ((used.map (·.count)).sum, sq) := errTotals_eq errs
  constructor
  · intro short
    refine Ends.of_done rfl (if_neg ?_)
    simp only [totals, decide_eq_false short, Bool.and_false, Bool.false_and, Bool.false_eq_true, not_false_eq_true]
  · intro full
    refine Ends.of_iff rfl (by simp [totals, on, shownB, full]) ?_
    rw [totals]

end ImpulsesAndAdaptation

/-- Settles O34: one case for each command and each way it ends, each by a rule above. -/
theorem impulsesAndAdaptation : Obligations.ImpulsesAndAdaptation := by
  unfold Obligations.ImpulsesAndAdaptation
  intro s n x
  refine ⟨fun on awake low past newest => ⟨fun rises => ?_, fun quiet => ?_⟩, fun on up => ⟨?_, ?_⟩,
    fun on => Ends.of_iff rfl on rfl, fun w k half2 early win c place active cancellers equaliser => ⟨?_, ?_, ?_, ?_⟩, ?_, ?_,
    ?_, fun on gain => Ends.pgaGainWrite on gain, fun on shadow errs ps => ?_⟩
  · exact ⟨_, (Ends.impulseFlagRise on awake low).1 rises, State.impSet_rises _ n x⟩
  · exact (Ends.impulseFlagRise on awake low).2 quiet
  · obtain ⟨clear, longest, -⟩ := impClr_facts s n x up
    exact ⟨_, Ends.of_iff rfl on rfl, clear, longest⟩
  · exact ⟨_, Ends.of_iff rfl on rfl, State.impEnClear_facts up⟩
  · rintro h rfl
    exact State.lawFor_register h
  · exact State.lawFor_training
  · exact fun h => Ends.of_done rfl (State.adaptCommit_holds place active cancellers equaliser h)
  · exact fun h => Ends.of_done rfl (State.adaptCommit_updates place active cancellers equaliser h)
  · exact ⟨_, Ends.guardEnd s n x, freed_of s n _ 3⟩
  · refine fun hang => ⟨_, Ends.hangHoldExpiry hang, fun f hf => ?_, congrArg (·.eq.hangHold) (s.freeze_hang n _ _ _ _)⟩
    rw [State.rd_modPort]
    exact freed_of s n _ frzHOLD f hf
  · refine fun hang => ⟨_, Ends.hangImpExpiry hang, fun f hf => ?_, congrArg (·.eq.hangImp) (s.freeze_hang n _ _ _ _)⟩
    rw [State.rd_modPort]
    exact freed_of s n _ frzIMPULSE f hf
  · exact Ends.snrBlockDone on shadow errs ps

end Sys2Proof.Machine

/-! SUPPORT. What a frame start sends (03_line_signal_path.md R71, R76, R77, 05_spire_framing_ldpc.md R137-R143, R150,
07_retransmission_spill.md R206, R209, R228): the frame on the line, what a replay and a new frame do before it, then the
statement about them. -/

namespace Sys2Proof.Machine

section FramesSent
variable {s u : State} {n : Fin 8} {ue : Bool}

/-! ### A frame on the line (R137, R143, R150) -/

/-- The frame and its scrambler state reach the mapper. -/
theorem sendFrame_line (s : State) (n : Fin 8) (typ seq : Nat) (blks : List Blk) {g : Frame}
    (hg : (s.sendFrame n typ seq blks).port[n].fr.txFrame = some g) :
    let scr := if s.port[n].fr.txIdx = 0 then scrOnes else scrAdvance 3456 s.port[n].fr.txScr
    (s.sendFrame n typ seq blks).port[n].fr.tx = s.lineSend n scr g ∧ (s.sendFrame n typ seq blks).port[n].fr.txScr = scr := by
  have kept := (ladderMsg_port s n).1
  unfold State.sendFrame at hg ⊢
  dsimp only at hg ⊢
  cases up : s.linkUp n <;>
    · simp only [up, Bool.false_eq_true, if_true, if_false, State.modPort, Fin.getElem_fin, Vector.getElem_set_self]
        at hg kept ⊢
      rw [← Option.some.inj hg]
      simp only [kept, and_self]

/-- Where a frame start can write before its frame begins: the fault hardware, the counts and events of the ingress stream, and
the count of frames sent from the window. -/
def SendA (a : Nat) : Prop := FltA a ∨ TakeA a ∨ (0x200000 ≤ a ∧ a % 0x100000 = 0x18010)

/-- What a frame of port `n` is made from is in `u` as it is in `s`. -/
structure SameSource (s u : State) (n : Fin 8) : Prop where
  regs : Touch SendA s u
  fr : u.port[n].fr = s.port[n].fr
  eq : u.port[n].eq = s.port[n].eq
  gap : u.port[n].rtx.gap = s.port[n].rtx.gap
  expect : u.port[n].rtx.expect = s.port[n].rtx.expect

namespace SameSource

theorem refl (s : State) (n : Fin 8) : SameSource s s n := ⟨.refl _, rfl, rfl, rfl, rfl⟩

theorem of_port (regs : Touch SendA s u) (port : u.port = s.port) : SameSource s u n := by
  constructor
  · exact regs
  all_goals rw [port]

theorem trans {t : State} (h : SameSource s t n) (g : SameSource t u n) : SameSource s u n :=
  ⟨h.regs.trans g.regs, g.fr.trans h.fr, g.eq.trans h.eq, g.gap.trans h.gap, g.expect.trans h.expect⟩

/-- A change of the port that leaves framer, filters, gap and the number expected. -/
theorem modPort (s : State) (n : Fin 8) (f : Port → Port) (fr : ∀ p, (f p).fr = p.fr) (eq : ∀ p, (f p).eq = p.eq)
    (gap : ∀ p, (f p).rtx.gap = p.rtx.gap) (expect : ∀ p, (f p).rtx.expect = p.rtx.expect) :
    SameSource s (s.modPort n f) n := by
  refine ⟨.refl _, ?_, ?_, ?_, ?_⟩ <;> simp [State.modPort, fr, eq, gap, expect]

variable (h : SameSource s u n)
include h

theorem on {g : Fld} (hg : ¬ SendA (g.key / 32)) : u.on g = s.on g := State.on_of_rd (h.regs g hg)

theorem twinned : u.twinned n = s.twinned n :=
  h.on (by simp only [SendA, FltA, TakeA, Fld.key, pairOf]; omega)

theorem link : u.link n = s.link n := h.regs _ (by simp only [SendA, FltA, TakeA, Fld.key]; omega)

theorem linkUp : u.linkUp n = s.linkUp n := by rw [State.linkUp, h.link]; rfl

theorem lineSend (scr : BitVec 58) (g : Frame) : u.lineSend n scr g = s.lineSend n scr g := by
  have reads (f : Fld) (hf : ¬ SendA (f.key / 32)) : u.rd f = s.rd f := h.regs f hf
  simp only [State.lineSend, h.fr, h.eq, List.map_cons, List.map_nil]
  simp (disch := simp only [SendA, FltA, TakeA, Fld.key]; omega) only [reads]

theorem nakBit (own : s.twinned n = false) :
    u.nakBit n = (s.port[n].rtx.gap && s.on (F.RTX_CTRL.NAK_EN n) && s.link n != stHOLD) := by
  have alone := h.twinned.trans own
  simp only [State.nakBit, State.gapOf, alone, h.gap, h.link, Bool.false_eq_true, if_false, Bool.and_true,
    h.on (g := F.RTX_CTRL.NAK_EN n) (by simp only [SendA, FltA, TakeA, Fld.key]; omega)]

end SameSource

/-- The framer `f` of port `n` has begun a frame with this type, SEQ, ACK and blocks, as `s` has it send: scrambled and encoded,
the frame goes through the mapper and the precoders. -/
def State.Sends (s : State) (n : Fin 8) (f : Framer) (typ seq ack : Nat) (blks : List Blk) : Prop :=
  let rung := s.rd (F.LAD_STATUS.TX_RUNG n)
  let thp := [0, 1, 2, 3].map fun x => coefsAt s.port[n].eq.coef (thpOff x 1) (s.rd (F.EQ_STATUS.THP_LEN n x))
  let scr := if s.port[n].fr.txIdx = 0 then scrOnes else scrAdvance 3456 s.port[n].fr.txScr
  f.txIdx = s.port[n].fr.txIdx + 1 ∧ f.txRungIdx = s.port[n].fr.txRungIdx + 1 ∧
  ∃ g, f.txFrame = some g ∧ g.typ = typ ∧ g.seq = seq ∧ g.ack = ack ∧ g.blks = blks ∧
    g.lock = s.on (F.FRM_STATUS.LOCK_RX n) ∧
    f.tx = s.port[n].fr.tx.send (tierRate (rungTier rung)) (rungBits rung) (s.rd (F.LAD_STATUS.TX_LOAD n)) thp
      ((List.range 4096).map (g.codeword scr)) ∧
    f.txScr = scr ∧
    (s.linkUp n = false → g.nak = false ∧ g.lcmd = lcNONE ∧ g.larg = 0) ∧
    (s.linkUp n = true → g.nak = (s.port[n].rtx.gap && s.on (F.RTX_CTRL.NAK_EN n) && s.link n != stHOLD))

/-- A frame that begins is the one that `s` gives, whatever the frame start has written before it. -/
theorem SameSource.sendFrame (h : SameSource s u n) (own : s.twinned n = false) (typ seq : Nat) (blks : List Blk) :
    s.Sends n (u.sendFrame n typ seq blks).port[n].fr typ (if s.linkUp n then seq else 0)
      (if s.linkUp n then s.port[n].rtx.expect else 0) blks := by
  obtain ⟨⟨g, frame, htyp, hseq, hack, hblks, hlock, idle, nak⟩, idx, rungIdx, -, -⟩ := sendFrame_facts u n typ seq blks
  obtain ⟨line, scr⟩ := sendFrame_line u n typ seq blks frame
  have expect : u.expectOf n = s.port[n].rtx.expect := by
    rw [State.expectOf, h.twinned, own, if_neg Bool.false_ne_true, h.expect]
  rw [h.linkUp] at hseq hack idle nak
  rw [expect] at hack
  rw [h.fr] at idx rungIdx line scr
  rw [h.lineSend] at line
  rw [h.nakBit own] at nak
  rw [h.on (by simp only [SendA, FltA, TakeA, Fld.key]; omega)] at hlock
  exact ⟨idx, rungIdx, g, frame, htyp, hseq, hack, hblks, hlock, line, scr, idle, nak⟩

/-! ### What comes before the frame (R206, R209, R228) -/

/-- The count of a frame sent from the window. -/
theorem SameSource.counted (s : State) (n : Fin 8) : SameSource s (s.count (F.RTX_FRAMES.RTX_FRAMES n)) n :=
  .of_port (.count _ _ _ (by simp only [SendA, Fld.key]; omega)) rfl

theorem SameSource.winUe (s : State) (n : Fin 8) : SameSource s (s.winUe n) n :=
  .of_port (Touch.endRise (.wrB _ _ _ (by simp only [SendA, TakeA, Fld.key]; omega)) fun _ h => .inl h)
    ((State.rise_port _ _ _ _ _).trans rfl)

/-- An uncorrectable slot sets WIN_UE, and its report reaches no register of a port. -/
theorem State.winUe_regs (s : State) (n : Fin 8) :
    (s.winUe n).on (F.RTX_EVENT.WIN_UE n) = true ∧
      (s.winUe n).rd (F.RTX_FRAMES.RTX_FRAMES n) = s.rd (F.RTX_FRAMES.RTX_FRAMES n) := by
  unfold State.winUe
  constructor
  · rw [State.on_of_rd ((State.rise_flt _ _ _ _ _).2 _ (by simp only [Fld.key]; omega)), State.on_wrB_same _ _ _ rfl]
  · rw [(State.rise_flt _ _ _ _ _).2 _ (by simp only [Fld.key]; omega), State.rd_wrB_other _ _ (by simp only [Fld.key]; omega)]

/-- The retransmission engine with the replay pointer past slot `a`: a pointer at NEXT is no replay (R209). -/
def Retrans.pastSlot (r : Retrans) (a : Nat) : Retrans :=
  { r with replay := if 0 ≤ seqDist (seqNext a) r.next then none else some (seqNext a) }

/-- The state in which the frame of a replay begins: the pointer past slot `a`, the frame counted, and an uncorrectable slot
reported. -/
def State.replayed (s : State) (n : Fin 8) (a : Nat) (ue : Bool) : State :=
  (if ue then (s.setReplay n (seqNext a)).winUe n else s.setReplay n (seqNext a)).count (F.RTX_FRAMES.RTX_FRAMES n)

theorem State.sendReplay_own (own : s.twinned n = false) (a : Nat) :
    s.sendReplay n a ue =
      (s.replayed n a ue).sendFrame n typDATA a (if ue then List.replicate 52 errorBlk else s.slot n a) := by
  cases ue <;> simp only [State.sendReplay, State.replayed, own, Bool.false_and, Bool.false_eq_true, if_true, if_false]

theorem SameSource.replayed (s : State) (n : Fin 8) (a : Nat) (ue : Bool) : SameSource s (s.replayed n a ue) n := by
  have pointed : SameSource s (s.setReplay n (seqNext a)) n := by
    unfold State.setReplay
    exact SameSource.modPort s n _ (fun _ => rfl) (fun _ => rfl) (fun _ => rfl) fun _ => rfl
  refine SameSource.trans ?_ (.counted _ n)
  cases ue
  · exact pointed
  · exact pointed.trans (.winUe _ n)

theorem State.setReplay_rtx (own : s.twinned n = false) (a : Nat) :
    (s.setReplay n (seqNext a)).port[n].rtx = s.port[n].rtx.pastSlot a := by
  simp [State.setReplay, State.replayEnd, State.seqNextOf, own, State.modPort, Retrans.pastSlot]

theorem State.replayed_rtx (own : s.twinned n = false) (a : Nat) (ue : Bool) :
    (s.replayed n a ue).port[n].rtx = s.port[n].rtx.pastSlot a := by
  rw [← State.setReplay_rtx own]
  cases ue
  · rfl
  · exact congrArg (·[n].rtx) ((State.rise_port _ _ _ _ _).trans rfl)

theorem State.replayed_RTX_FRAMES (s : State) (n : Fin 8) (a : Nat) (ue : Bool) :
    (s.replayed n a ue).rd (F.RTX_FRAMES.RTX_FRAMES n) = (s.rd (F.RTX_FRAMES.RTX_FRAMES n) + 1) % 2 ^ 32 := by
  rw [State.replayed, State.rd_count_same]
  cases ue
  · rfl
  · rw [if_pos rfl, (State.winUe_regs _ n).2]
    rfl

theorem State.replayed_WIN_UE (s : State) (n : Fin 8) (a : Nat) :
    (s.replayed n a true).on (F.RTX_EVENT.WIN_UE n) = true := by
  rw [State.replayed, State.on_of_rd (State.rd_count_other _ _ (by simp only [Fld.key]; omega))]
  exact (State.winUe_regs _ n).1

/-! ### New frames (R140, R146, R206) -/

/-- Taking blocks from an ingress FIFO that does not spill leaves what a frame is made from, and every port. -/
theorem SameSource.taken (quiet : s.spilling (ownPort n) = false) (c : Nat) :
    SameSource s (s.takeFrame (ownPort n) c).2 n :=
  .of_port ((takeFrame_take s _ c quiet).mono fun _ h => .inr (.inl h)) (takeFrame_port s _ c quiet)

/-- The retransmission engine with `bs` in its window under the next sequence number. -/
def Retrans.stored (r : Retrans) (bs : List Blk) : Retrans := { r with win := spPut r.win r.next bs, next := seqNext r.next }

/-- The state in which a new frame begins: its blocks taken from `u`'s stream and put into the window of `s`. -/
def State.inWindow (s u : State) (n : Fin 8) (bs : List Blk) : State :=
  u.modPort n fun p => { p with rtx := { p.rtx with
    win := spPut p.rtx.win s.port[n].rtx.next bs, next := seqNext s.port[n].rtx.next } }

theorem SameSource.inWindow (h : SameSource s u n) (bs : List Blk) : SameSource s (s.inWindow u n bs) n :=
  h.trans (SameSource.modPort u n _ (fun _ => rfl) (fun _ => rfl) (fun _ => rfl) fun _ => rfl)

theorem State.inWindow_rtx (same : u.port = s.port) (bs : List Blk) :
    (s.inWindow u n bs).port[n].rtx = s.port[n].rtx.stored bs := by
  simp [State.inWindow, State.modPort, same, Retrans.stored]

/-! ### The frame of a port in UP or HOLD (R209) -/

/-- A FILLER names the next sequence number. -/
theorem SameSource.sendFiller (h : SameSource s u n) (own : s.twinned n = false) :
    u.sendFiller n = u.sendFrame n typFILLER u.port[n].rtx.next idle52 := by
  rw [State.sendFiller, State.seqNextOf, h.twinned, own, if_neg Bool.false_ne_true]

theorem State.txOwn_first (first : s.port[n].fr.upFrames < 16) : s.txOwn n ue = s.sendFiller n := if_pos first

section Settled
variable (settled : 16 ≤ s.port[n].fr.upFrames)
include settled

theorem State.txOwn_replay {a : Nat} (replay : s.port[n].rtx.replay = some a) : s.txOwn n ue = s.sendReplay n a ue := by
  rw [State.txOwn, if_neg (Nat.not_lt.mpr settled), replay]

variable (none_due : s.port[n].rtx.replay = none)
include none_due

theorem State.txOwn_full (full : s.port[n].rtx.winSize ≤ s.outstanding n) : s.txOwn n ue = s.sendFiller n := by
  rw [State.txOwn, if_neg (Nat.not_lt.mpr settled), none_due]
  exact if_neg (Nat.not_lt.mpr full)

variable (room : s.outstanding n < s.port[n].rtx.winSize)
include room

theorem State.txOwn_new {bs : List Blk} (h : (s.takeFrame (ownPort n) (s.rd (F.FRM_CTRL.CUT_TH n))).1 = some bs) :
    s.txOwn n ue = (s.inWindow (s.takeFrame (ownPort n) (s.rd (F.FRM_CTRL.CUT_TH n))).2 n bs).sendFrame n typDATA
      s.port[n].rtx.next bs := by
  rw [State.txOwn, if_neg (Nat.not_lt.mpr settled), none_due]
  dsimp only
  rw [if_pos room, h]
  rfl

theorem State.txOwn_nothing (h : (s.takeFrame (ownPort n) (s.rd (F.FRM_CTRL.CUT_TH n))).1 = none) :
    s.txOwn n ue = (s.takeFrame (ownPort n) (s.rd (F.FRM_CTRL.CUT_TH n))).2.sendFiller n := by
  rw [State.txOwn, if_neg (Nat.not_lt.mpr settled), none_due]
  dsimp only
  rw [if_pos room, h]

end Settled

/-! ### The command -/

section Start
variable (pcs : s.pcsOn n = true) (spire : s.spire n = true) (own : s.twinned n = false) (active : s.txActive n = true)
include pcs spire own active

/-- In FRAME_SYNC a FILLER without numbers goes out. -/
theorem Ends.txFrameStart_sync (sync : s.phase n = phFRAME_SYNC) (down : s.linkUp n = false) :
    ∃ t, Ends (.txFrameStart n ue) s t ∧ s.Sends n t.port[n].fr typFILLER 0 0 idle52 := by
  have runs : s.txRuns n = true := by
    simp [State.txRuns, show s.domOn (14 * n.val + 9) = true from pcs, spire, active, sync]
  have here := SameSource.refl s n
  refine ⟨(s.sendFiller n).syncRtx n, Ends.of_done rfl ((if_pos runs).trans ?_), ?_⟩
  · simp [State.txFrameStart, own, down]
  · rw [State.syncRtx_port, here.sendFiller own]
    simpa only [down, Bool.false_eq_true, if_false] using here.sendFrame own typFILLER s.port[n].rtx.next idle52

theorem Ends.txFrameStart_up (up : s.linkUp n = true) : Ends (.txFrameStart n ue) s ((s.txOwn n ue).syncRtx n) := by
  have runs : s.txRuns n = true := by
    simp [State.txRuns, show s.domOn (14 * n.val + 9) = true from pcs, spire, active, up]
  refine Ends.of_done rfl ((if_pos runs).trans ?_)
  simp [State.txFrameStart, own, up, active]

/-- In UP or HOLD the frame that begins in a state `u` with the same source is the one sent. The engine stands as `u` has it,
and so do the port's registers above the engine's status (R235, R236). -/
theorem Ends.txFrameStart_sends {typ seq : Nat} {blks : List Blk} (up : s.linkUp n = true) (same : SameSource s u n)
    (h : s.txOwn n ue = u.sendFrame n typ seq blks) :
    ∃ t, Ends (.txFrameStart n ue) s t ∧ s.Sends n t.port[n].fr typ seq s.port[n].rtx.expect blks ∧
      t.port[n].rtx = u.port[n].rtx ∧
      t.port[n].fr.upFrames = s.port[n].fr.upFrames + (if s.port[n].fr.upFrames < 16 then 1 else 0) ∧
      ∀ g : Fld, 0x218008 + 0x100000 * n.val < g.key / 32 → t.rd g = u.rd g := by
  obtain ⟨-, -, -, upFrames, rtx⟩ := sendFrame_facts u n typ seq blks
  refine ⟨_, h ▸ Ends.txFrameStart_up pcs spire own active up, ?_, ?_, ?_, fun g hg => ?_⟩
  · rw [State.syncRtx_port]
    simpa only [up, if_true] using same.sendFrame own typ seq blks
  · rw [State.syncRtx_port, rtx]
  · rw [State.syncRtx_port, upFrames, same.fr]
    simp only [same.linkUp, up, true_and]
  · exact (State.syncRtx_rd' _ n g (by omega)).trans (sendFrame_rd u n typ seq blks g (by omega))

end Start

end FramesSent

/-- Settles O35: one case for each frame that a start can send, each by the rule above for it. -/
theorem framesSent : Obligations.FramesSent := by
  unfold Obligations.FramesSent
  intro s n ue pcs spire own active
  have here := SameSource.refl s n
  have filler := here.sendFiller own
  refine ⟨fun sync down => ?_, fun up first => ?_, ?_, ?_, ?_⟩
  · exact Ends.txFrameStart_sync pcs spire own active sync down
  · obtain ⟨t, ends, sends, rtx, upFrames, -⟩ := Ends.txFrameStart_sends (ue := ue) pcs spire own active up here
      ((State.txOwn_first first).trans filler)
    rw [if_pos first] at upFrames
    exact ⟨t, ends, sends, rtx, upFrames⟩
  · rintro ⟨up, settled⟩ none_due full
    obtain ⟨t, ends, sends, rtx, -⟩ := Ends.txFrameStart_sends (ue := ue) pcs spire own active up here
      ((State.txOwn_full settled none_due full).trans filler)
    exact ⟨t, ends, sends, rtx⟩
  · rintro ⟨up, settled⟩ a replay
    obtain ⟨t, ends, sends, rtx, -, regs⟩ := Ends.txFrameStart_sends pcs spire own active up (.replayed s n a ue)
      ((State.txOwn_replay settled replay).trans (State.sendReplay_own own a))
    refine ⟨t, ends, sends, rtx.trans (State.replayed_rtx own a ue), ?_, ?_⟩
    · rw [regs _ (by simp only [Fld.key]; omega), State.replayed_RTX_FRAMES]
    · rintro rfl
      rw [State.on_of_rd (regs _ (by simp only [Fld.key]; omega)), State.replayed_WIN_UE]
  · rintro ⟨up, settled⟩ none_due room quiet
    have taken := SameSource.taken (n := n) quiet (s.rd (F.FRM_CTRL.CUT_TH n))
    have port := takeFrame_port s (ownPort n) (s.rd (F.FRM_CTRL.CUT_TH n)) quiet
    obtain nothing | ⟨bs, found⟩ :=
      Option.eq_none_or_eq_some (s.takeFrame (ownPort n) (s.rd (F.FRM_CTRL.CUT_TH n))).1
    · have idle := (State.txOwn_nothing (ue := ue) settled none_due room nothing).trans (taken.sendFiller own)
      rw [port] at idle
      obtain ⟨t, ends, sends, rtx, -⟩ := Ends.txFrameStart_sends pcs spire own active up taken idle
      rw [port] at rtx
      exact ⟨t, ends, fun bs h => absurd (nothing.symm.trans h) (Option.some_ne_none bs).symm, fun _ => ⟨sends, rtx⟩⟩
    · obtain ⟨t, ends, sends, rtx, -⟩ := Ends.txFrameStart_sends (ue := ue) pcs spire own active up (taken.inWindow bs)
        (State.txOwn_new settled none_due room found)
      refine ⟨t, ends, fun bs' h => ?_, fun h => absurd (found.symm.trans h) (Option.some_ne_none bs)⟩
      obtain rfl : bs = bs' := Option.some.inj (found.symm.trans h)
      exact ⟨sends, rtx.trans (State.inWindow_rtx port bs)⟩

end Sys2Proof.Machine

/-! SUPPORT. CLD, CST, VCLD and VCST on a core that has the unit and on one that has not (04_equalisation_cancellation.md R128,
12_molx_isa.md R413, R430): what each reads and writes, then the statement about them. -/

namespace Sys2Proof.Machine

section CoefficientAccess
variable {s u : State} {i : Fin 11} {c : Fin 4} {n : Fin 8} {rd rs2 rs1 : Fin 32} {vd vs : Fin 8} {imm : Half}

/-! ### The context goes on -/

theorem State.modCtx_setG_next (u : State) (i : Fin 11) (c : Fin 4) (rd : Fin 32) (v : Word) :
    (u.modCtx i c fun x => (x.setG rd v).next) = gdPut u i c rd v := by
  have put : ((u.ctx i c).setG rd v).next =
      { u.ctx i c with g := if rd = 0 then (u.ctx i c).g else (u.ctx i c).g.set rd v, pc := (u.ctx i c).pc4 } := by
    unfold Ctx.setG
    split <;> rfl
  exact congrArg (ctxPut u i c) put

/-! ### Words of the window (R128) -/

theorem State.coefRead_kept {w v : Nat} (kept : spFind u.port[n].eq.coef (w / 4) = some v) :
    u.coefRead n w = (v * 2 ^ 8, u) := by
  rw [State.coefRead, kept]
  rfl

theorem State.coefRead_blank {w : Nat} (blank : spFind u.port[n].eq.coef (w / 4) = none)
    (known : u.port[n].trn.coefKnown = true) : u.coefRead n w = (0, u) := by
  rw [State.coefRead, blank]
  exact if_pos known

/-- Bits [31:16] of consecutive words are the high half-words of their coefficients. -/
theorem State.coefReads_lanes {w : Nat} (known : u.port[n].trn.coefKnown = true) (aligned : w % 4 = 0) (l : Fin 16) :
    (u.coefReads n w 16).1.getD l.val 0 / 2 ^ 16 = (spFind u.port[n].eq.coef (w / 4 + l.val)).getD 0 / 2 ^ 8 := by
  have index : (w + 4 * l.val) / 4 = w / 4 + l.val := by omega
  rw [State.coefReads_eq u n known]
  simp only [List.getD_eq_getElem?_getD, List.getElem?_map, List.getElem?_range l.isLt, Option.map_some, Option.getD_some, index]
  omega

/-- The state with the coefficients `co` in port `n`'s window. -/
def State.withCoef (u : State) (n : Fin 8) (co : Sparse Nat) : State :=
  { u with port := u.port.set n { u.port[n] with eq := { u.port[n].eq with coef := co } } }

/-! ### On a core with the unit (R413, R430) -/

section Unit
variable (fetched : Fetched s u i c) (port : u.coefPort i = some n)
include fetched port

/-- Past its checks a coefficient instruction acts at its address. -/
theorem State.coefOp_passes {wr : Bool} {count : Nat} (pass : u.coefCheck n wr ((u.ctx i c).addr rs1 imm) count = none)
    (f : State → Fin 4 → Fin 8 → Nat → State) :
    s.coefOp i rs1 imm wr count f = f u c n ((u.ctx i c).addr rs1 imm) := by
  rw [Ctx.addr_eq] at pass ⊢
  exact State.coefOp_fetched fetched rs1 imm wr count f port pass

theorem Ends.cld {v : Nat} (pass : u.coefCheck n false ((u.ctx i c).addr rs1 imm) 1 = none)
    (read : u.coefRead n ((u.ctx i c).addr rs1 imm) = (v, u)) :
    Ends (.cld i rd rs1 imm) s (gdPut u i c rd (BitVec.ofNat 32 v)) := by
  refine Ends.of_done rfl ((State.coefOp_passes fetched port pass _).trans ?_)
  rw [read]
  exact State.modCtx_setG_next u i c rd _

theorem Ends.vcld (pass : u.coefCheck n false ((u.ctx i c).addr rs1 imm) 16 = none)
    (known : u.port[n].trn.coefKnown = true) :
    Ends (.vcld i vd rs1 imm) s (vdPut u i c vd (Vector.ofFn fun l => BitVec.ofNat 16
      ((spFind u.port[n].eq.coef ((u.ctx i c).addr rs1 imm / 4 + l.val)).getD 0 / 2 ^ 8))) := by
  have aligned := (State.coefCheck_none pass).1
  refine Ends.of_done rfl ((State.coefOp_passes fetched port pass _).trans ?_)
  dsimp only
  simp only [State.coefReads_lanes known aligned]
  rw [State.coefReads_eq u n known]
  rfl

/-- A store that writes the words `ws` keeps bits [31:8] of each, changes no other word, and goes on. -/
theorem State.coefOp_writes (ws : List Nat) (f : State → Fin 4 → Fin 8 → Nat → State)
    (pass : u.coefCheck n true ((u.ctx i c).addr rs1 imm) ws.length = none)
    (writes : ∀ a, f u c n a = (u.coefWrites n a ws).modCtx i c Ctx.next) :
    let a := (u.ctx i c).addr rs1 imm
    ∃ co, s.coefOp i rs1 imm true ws.length f = ctxPut (u.withCoef n co) i c { u.ctx i c with pc := (u.ctx i c).pc4 } ∧
      (∀ j < ws.length, (spFind co (a / 4 + j)).getD 0 = ws.getD j 0 / 2 ^ 8 % 2 ^ 24) ∧
      ∀ w, (w < a / 4 ∨ a / 4 + ws.length ≤ w) → spFind co w = spFind u.port[n].eq.coef w := by
  intro a
  obtain ⟨co, state, written, others⟩ := State.coefWrites_eq n ws u a (State.coefCheck_none pass).1
  refine ⟨co, ?_, written, others⟩
  rw [State.coefOp_passes fetched port pass, writes, state]
  rfl

theorem Ends.cst (pass : u.coefCheck n true ((u.ctx i c).addr rs1 imm) 1 = none) :
    let a := (u.ctx i c).addr rs1 imm
    ∃ co, Ends (.cst i rs2 rs1 imm) s (ctxPut (u.withCoef n co) i c { u.ctx i c with pc := (u.ctx i c).pc4 }) ∧
      (spFind co (a / 4)).getD 0 = ((u.ctx i c).rg rs2).toNat / 2 ^ 8 ∧
      ∀ w, w ≠ a / 4 → spFind co w = spFind u.port[n].eq.coef w := by
  intro a
  obtain ⟨co, ends, written, others⟩ := State.coefOp_writes fetched port [((u.ctx i c).rg rs2).toNat]
    (fun s c n a => (s.coefWrite n a ((s.ctx i c).rg rs2).toNat).modCtx i c Ctx.next) pass fun _ => rfl
  refine ⟨co, Ends.of_done rfl ends, (written 0 Nat.zero_lt_one).trans ?_, fun w other => others w ?_⟩
  · exact Nat.mod_eq_of_lt (Nat.div_lt_of_lt_mul ((u.ctx i c).rg rs2).isLt)
  · simp only [List.length_cons, List.length_nil]
    omega

theorem Ends.vcst (pass : u.coefCheck n true ((u.ctx i c).addr rs1 imm) 16 = none) :
    let a := (u.ctx i c).addr rs1 imm
    ∃ co, Ends (.vcst i vs rs1 imm) s (ctxPut (u.withCoef n co) i c { u.ctx i c with pc := (u.ctx i c).pc4 }) ∧
      (∀ l : Fin 16, (spFind co (a / 4 + l.val)).getD 0 = ((u.ctx i c).v[vs])[l].toNat * 2 ^ 8) ∧
      ∀ w, (w < a / 4 ∨ a / 4 + 16 ≤ w) → spFind co w = spFind u.port[n].eq.coef w := by
  intro a
  have count : (((u.ctx i c).rv vs).toList.map fun x : Half => x.toNat * 2 ^ 16).length = 16 := by simp
  obtain ⟨co, ends, written, others⟩ := State.coefOp_writes fetched port
    (((u.ctx i c).rv vs).toList.map fun x : Half => x.toNat * 2 ^ 16)
    (fun s c n a => (s.coefWrites n a (((s.ctx i c).rv vs).toList.map fun x : Half => x.toNat * 2 ^ 16)).modCtx i c Ctx.next)
    (by rw [count]; exact pass) fun _ => rfl
  rw [count] at ends written others
  refine ⟨co, Ends.of_done rfl ends, fun l => (written l.val l.isLt).trans ?_, others⟩
  have lane := ((u.ctx i c).v[vs])[l].isLt
  have word : (((u.ctx i c).rv vs).toList.map fun x : Half => x.toNat * 2 ^ 16).getD l.val 0 =
      ((u.ctx i c).v[vs])[l].toNat * 2 ^ 16 := by
    simp [List.getD_eq_getElem?_getD, Ctx.rv]
  rw [word]
  omega

end Unit

/-! ### On a core without the unit (R413) -/

theorem State.coefOp_illegal (fetched : Fetched s u i c) (none_here : u.coefPort i = none) (wr : Bool) (count : Nat)
    (f : State → Fin 4 → Fin 8 → Nat → State) : s.coefOp i rs1 imm wr count f = u.raiseOpen i c exILLEGAL := by
  rw [State.coefOp, State.instr_fetched fetched]
  simp only [none_here]

end CoefficientAccess

/-- Settles O20: each instruction by the rule above for it. -/
theorem coefficientAccess : Obligations.CoefficientAccess := by
  unfold Obligations.CoefficientAccess
  intro s u i c rd rs2 rs1 vd vs imm n fetched x a co
  have addr : a = (u.ctx i c).addr rs1 imm := (Ctx.addr_eq _ _ _).symm
  rw [addr]
  refine ⟨fun port => ⟨?_, ?_, ?_, ?_, ?_⟩, fun none_here exl => ?_⟩
  · exact fun pass v kept => Ends.cld fetched port pass (State.coefRead_kept kept)
  · exact fun pass blank known => Ends.cld fetched port pass (State.coefRead_blank blank known)
  · exact Ends.cst fetched port
  · exact Ends.vcld fetched port
  · exact Ends.vcst fetched port
  · have enters := State.raiseOpen_enters u i c exILLEGAL exl
    have illegal {wr count f} := (State.coefOp_illegal (rs1 := rs1) (imm := imm) fetched none_here wr count f).trans enters
    exact ⟨Config.free u.freeCtr % 2 ^ 32, Nat.mod_lt _ (by decide), Ends.of_done rfl illegal, Ends.of_done rfl illegal,
      Ends.of_done rfl illegal, Ends.of_done rfl illegal⟩

end Sys2Proof.Machine

/-! SUPPORT. Ladder requests, shift boundaries and the ends of shifts (04_equalisation_cancellation.md R123, 06_rate_ladder.md
R178-R183, R195, R200-R205), and the acknowledgement timer (07_retransmission_spill.md R211, R212): what each command leaves in
the registers and the ladder state, then the statement about them. -/

namespace Sys2Proof.Machine

section LadderRequestsAndShifts
variable {s : State} {n : Fin 8}

/-! ### Requests by software (R179, R180, R195) -/

/-- A request that software may make and the resolved rung set admits (R179, R180, R195). -/
def State.MayRequest (s : State) (n : Fin 8) (r ld : Nat) : Prop :=
  s.linkUp n = true ∧ s.spire n = true ∧ s.rd (F.LAD_STATUS.RX_STATE n) = rxIDLE ∧ s.port[n].lad.rxHoldoff = false ∧
    s.rd (F.LAD_CTRL.LAD_MODE n) ≠ 3 ∧ r ≤ s.rd (F.PARTNER_INFO.RES_TOP_RUNG n) ∧ r ≤ 26 ∧
    rungTier r = rungTier (s.rd (F.LAD_STATUS.RX_RUNG n)) ∧ ld ≤ 47

/-- The state with LREQ_RUNG and LREQ_LOAD written. -/
def State.lreqWritten (s : State) (n : Fin 8) (r ld : Nat) : State :=
  (s.wr (F.LAD_REQ.LREQ_RUNG n) r).wr (F.LAD_REQ.LREQ_LOAD n) ld

section Request
variable {r ld : Nat} (hr : r < 32) (hld : ld < 64)

theorem State.lreqWritten_rd {g : Fld} (h : g.key / 32 ≠ 0x20300C + 0x100000 * n.val) :
    (s.lreqWritten n r ld).rd g = s.rd g := by
  rw [State.lreqWritten, State.rd_wr_other _ _ (by simp only [Fld.key] at h ⊢; omega),
    State.rd_wr_other _ _ (by simp only [Fld.key] at h ⊢; omega)]

include hr in
theorem State.lreqWritten_LREQ_RUNG : (s.lreqWritten n r ld).rd (F.LAD_REQ.LREQ_RUNG n) = r := by
  rw [State.lreqWritten, State.rd_wr_other _ _ (by simp only [Fld.key]; omega), State.rd_wr_same]
  exact Nat.mod_eq_of_lt hr

include hld in
theorem State.lreqWritten_LREQ_LOAD : (s.lreqWritten n r ld).rd (F.LAD_REQ.LREQ_LOAD n) = ld := by
  rw [State.lreqWritten, State.rd_wr_same]
  exact Nat.mod_eq_of_lt hld

/-- LREQ_GO asks its condition of the state before LREQ_RUNG and LREQ_LOAD were written. -/
theorem State.lreqWritten_mayRequest : (s.lreqWritten n r ld).MayRequest n r ld ↔ s.MayRequest n r ld := by
  have reads (g : Fld) (h : g.key / 32 ≠ 0x20300C + 0x100000 * n.val) : (s.lreqWritten n r ld).rd g = s.rd g :=
    State.lreqWritten_rd h
  unfold State.MayRequest State.linkUp State.spire State.link
  simp (disch := simp only [Fld.key]; omega) only [reads]
  exact Iff.rfl

include hr hld in
/-- LREQ_GO makes the request where it may be made, and else says that it is refused. -/
theorem State.lreqWritten_lreqGo :
    (s.MayRequest n r ld → (s.lreqWritten n r ld).lreqGo n =
      ((s.lreqWritten n r ld).wr (F.LAD_REQ.LREQ_RESULT n) 1).ladRequest n r ld) ∧
    (¬ s.MayRequest n r ld → (s.lreqWritten n r ld).lreqGo n = (s.lreqWritten n r ld).wr (F.LAD_REQ.LREQ_RESULT n) 2) := by
  set w := s.lreqWritten n r ld with hw
  have rung : w.rd (F.LAD_REQ.LREQ_RUNG n) = r := State.lreqWritten_LREQ_RUNG hr
  have load : w.rd (F.LAD_REQ.LREQ_LOAD n) = ld := State.lreqWritten_LREQ_LOAD hld
  have may : (w.linkUp n && w.spire n && w.ladIdle n && w.rd (F.LAD_CTRL.LAD_MODE n) != 3 &&
      w.rungOk n (w.rd (F.LAD_STATUS.RX_RUNG n)) r && decide (ld ≤ 47)) = true ↔ s.MayRequest n r ld := by
    rw [← State.lreqWritten_mayRequest]
    simp [State.MayRequest, State.ladIdle, State.rungOk, ← hw, and_assoc, and_left_comm]
  unfold State.lreqGo
  rw [rung, load]
  exact ⟨fun h => if_pos (may.mpr h), fun h => if_neg (mt may.mp h)⟩

end Request

/-! ### What a shift leaves (R181, R182, R213) -/

/-- TX_STATE is IDLE and no request is held; every other register stands. -/
theorem State.txForget_facts (s : State) (n : Fin 8) (ignore : Bool) :
    (s.txForget n ignore).rd (F.LAD_STATUS.TX_STATE n) = txIDLE ∧
      (s.txForget n ignore).port[n] =
        { s.port[n] with lad := { s.port[n].lad with gotRung := none, gotLoad := none, txIgnore := ignore } } ∧
      ∀ g : Fld, g.key ≠ (F.LAD_STATUS.TX_STATE n).key → (s.txForget n ignore).rd g = s.rd g := by
  unfold State.txForget
  refine ⟨?_, State.port_modPort_same _ _ _, fun g h => ?_⟩
  · rw [State.rd_modPort, State.rd_wr_same]
    rfl
  · rw [State.rd_modPort, State.rd_wr_other _ _ h.symm]

/-- The state in which rung `r` and loading `ld` have taken effect. -/
def State.shifted (s : State) (n : Fin 8) (r ld : Nat) : State :=
  (((s.wr (F.LAD_STATUS.TX_RUNG n) r).wr (F.LAD_STATUS.TX_LOAD n) ld).wrB (F.LAD_EVENT.TX_SHIFT n) true).modPort n fun p =>
    { p with fr := { p.fr with txRungIdx := 0 } }

theorem State.shifted_facts (s : State) (n : Fin 8) {r ld : Nat} (hr : r < 32) (hld : ld < 64) :
    (s.shifted n r ld).rd (F.LAD_STATUS.TX_RUNG n) = r ∧ (s.shifted n r ld).rd (F.LAD_STATUS.TX_LOAD n) = ld ∧
      (s.shifted n r ld).on (F.LAD_EVENT.TX_SHIFT n) = true ∧
      (s.shifted n r ld).rd (F.LAD_STATUS.RX_RUNG n) = s.rd (F.LAD_STATUS.RX_RUNG n) ∧
      (s.shifted n r ld).rd (F.RTX_RTT.CABLE_DLY n) = s.rd (F.RTX_RTT.CABLE_DLY n) := by
  unfold State.shifted
  refine ⟨?_, ?_, ?_, ?_, ?_⟩
  · rw [State.rd_modPort, State.rd_wrB_other _ _ (by simp only [Fld.key]; omega),
      State.rd_wr_other _ _ (by simp only [Fld.key]; omega), State.rd_wr_same]
    exact Nat.mod_eq_of_lt hr
  · rw [State.rd_modPort, State.rd_wrB_other _ _ (by simp only [Fld.key]; omega), State.rd_wr_same]
    exact Nat.mod_eq_of_lt hld
  · rw [State.on_of_rd (State.rd_modPort _ _ _ _), State.on_wrB_same _ _ _ rfl]
  all_goals
    rw [State.rd_modPort, State.rd_wrB_other _ _ (by simp only [Fld.key]; omega),
      State.rd_wr_other _ _ (by simp only [Fld.key]; omega), State.rd_wr_other _ _ (by simp only [Fld.key]; omega)]

theorem State.shifted_port (s : State) (n : Fin 8) (r ld : Nat) :
    (s.shifted n r ld).port[n] = { s.port[n] with fr := { s.port[n].fr with txRungIdx := 0 } } :=
  State.port_modPort_same _ _ _

theorem State.syncBound_RT_BOUND (s : State) (n : Fin 8) :
    (s.syncBound n).rd (F.RTX_RTT.RT_BOUND n) = min 65535
      (rtBound (s.rd (F.LAD_STATUS.TX_RUNG n)) (s.rd (F.LAD_STATUS.RX_RUNG n)) (s.rd (F.RTX_RTT.CABLE_DLY n))) :=
  (State.rd_wr_same _ _ _).trans (Nat.mod_eq_of_lt (Nat.lt_succ_of_le (Nat.min_le_left _ _)))

/-- RT_BOUND and the engine's registers follow a shift; the ladder's registers stand. -/
theorem State.followed_rd (s : State) (n : Fin 8) {g : Fld} (h : g.key / 32 < 0x218004 + 0x100000 * n.val) :
    ((s.syncBound n).syncRtx n).rd g = s.rd g := by
  rw [State.syncRtx_rd' _ _ _ (by omega), State.syncBound, State.rd_wr_other _ _ (by simp only [Fld.key] at h ⊢; omega)]

/-! ### Dual tracking (R123, R183) -/

/-- The state in which dual tracking has begun: no failure is held back on either path, and the paths coincide where the request
was for the present rung and loading. -/
def State.dualTracked (s : State) (n : Fin 8) : State :=
  let l := s.port[n].lad
  let same := l.reqRung == s.rd (F.LAD_STATUS.RX_RUNG n) && l.reqLoad == s.rd (F.LAD_STATUS.RX_LOAD n)
  (s.wr (F.LAD_STATUS.RX_STATE n) rxDUAL).modPort n fun p => { p with
    lad := { p.lad with same := same, oldHeld := [], newHeld := [] } }

theorem State.dualTracked_lad (s : State) (n : Fin 8) :
    (s.dualTracked n).port[n].lad = { s.port[n].lad with
      same := s.port[n].lad.reqRung == s.rd (F.LAD_STATUS.RX_RUNG n) &&
        s.port[n].lad.reqLoad == s.rd (F.LAD_STATUS.RX_LOAD n)
      oldHeld := [], newHeld := [] } :=
  congrArg Port.lad (State.port_modPort_same _ _ _)

theorem State.dualTracked_eq (s : State) (n : Fin 8) : (s.dualTracked n).port[n].eq = s.port[n].eq := by
  rw [State.dualTracked, State.port_modPort_same]
  rfl

theorem State.dualTracked_RX_STATE (s : State) (n : Fin 8) :
    (s.dualTracked n).rd (F.LAD_STATUS.RX_STATE n) = rxDUAL := by
  rw [State.dualTracked, State.rd_modPort, State.rd_wr_same]
  rfl

theorem State.dualTracked_domOn (s : State) (n : Fin 8) (f : Nat × Nat) :
    (s.dualTracked n).domOn (filterDom n f) = s.domOn (filterDom n f) := by
  have low : filterDom n f < 200 := by
    unfold filterDom
    split <;> omega
  rw [State.domOn, State.dualTracked, State.rd_modPort, State.rd_wr_other _ _ (by simp only [Fld.key]; omega)]
  rfl

/-! ### The receiver may request again (R183, R191) -/

/-- The state in which the receiver's hold-off has ended. -/
def State.holdoffEnded (s : State) (n : Fin 8) : State :=
  s.modPort n fun p => { p with lad := { p.lad with rxHoldoff := false } }

theorem State.holdoffEnded_lad (s : State) (n : Fin 8) :
    (s.holdoffEnded n).port[n].lad = { s.port[n].lad with rxHoldoff := false } :=
  congrArg Port.lad (State.port_modPort_same _ _ _)

/-! ### The acknowledgement timer (R211, R212) -/

theorem State.replayNow_iff :
    s.replayNow n = true ↔ ∃ a, s.port[n].rtx.lastReplay = some (a, s.tb) ∧ s.port[n].rtx.replay ≠ none := by
  unfold State.replayNow
  cases s.port[n].rtx.lastReplay with
  | none => simp
  | some e =>
    obtain ⟨a, t⟩ := e
    simp [Option.isSome_iff_ne_none]

/-- Outside twin operation the timer's replay begins at OLDEST. -/
theorem State.timeoutReplay_rtx (own : s.twinned n = false) :
    (s.timeoutReplay n).port[n].rtx = { s.port[n].rtx with
      replay := if 0 ≤ seqDist s.port[n].rtx.oldest s.port[n].rtx.next then none else some s.port[n].rtx.oldest
      lastReplay := some (s.port[n].rtx.oldest, s.tb) } := by
  simp [State.timeoutReplay, State.setReplay, State.replayFrom, State.replayEnd, State.oldestOf, State.seqNextOf, own,
    State.count, State.modPort]

theorem State.timeoutReplay_GB_TIMEOUT (s : State) (n : Fin 8) :
    (s.timeoutReplay n).rd (F.RTX_GOBACK.GB_TIMEOUT n) = (s.rd (F.RTX_GOBACK.GB_TIMEOUT n) + 1) % 2 ^ 16 := by
  rw [State.timeoutReplay, State.rd_count_same]
  rfl

/-- A NAK's replay that has just begun is the one that runs. -/
theorem Ends.ackTimerExpiry_replays {a : Nat} (last : s.port[n].rtx.lastReplay = some (a, s.tb))
    (replay : s.port[n].rtx.replay ≠ none) : Ends (.ackTimerExpiry n) s s := by
  have now : s.replayNow n = true := State.replayNow_iff.mpr ⟨a, last, replay⟩
  exact Ends.of_done rfl (if_neg (by simp [now]))

theorem Ends.ackTimerExpiry_starts (powered : s.domOn (14 * n.val + 10) = true)
    (running : s.on (F.RTX_STATUS.ACK_TMR n) = true) (own : s.twinned n = false)
    (settled : ∀ a, s.port[n].rtx.lastReplay = some (a, s.tb) → s.port[n].rtx.replay = none) :
    ∃ t, Ends (.ackTimerExpiry n) s t ∧
      t.port[n].rtx.replay =
        (if 0 ≤ seqDist s.port[n].rtx.oldest s.port[n].rtx.next then none else some s.port[n].rtx.oldest) ∧
      t.port[n].rtx.lastReplay = some (s.port[n].rtx.oldest, s.tb) ∧
      t.rd (F.RTX_GOBACK.GB_TIMEOUT n) = (s.rd (F.RTX_GOBACK.GB_TIMEOUT n) + 1) % 2 ^ 16 := by
  have not_now : s.replayNow n = false := by
    refine Bool.eq_false_iff.mpr fun now => ?_
    obtain ⟨a, last, replay⟩ := State.replayNow_iff.mp now
    exact replay (settled a last)
  have rtx := State.timeoutReplay_rtx own
  rw [← State.syncRtx_port] at rtx
  refine ⟨_, Ends.of_iff rfl (by simp [powered, running, not_now]) (if_neg (by simp [own])), ?_, ?_, ?_⟩
  · rw [rtx]
  · rw [rtx]
  · rw [State.syncRtx_rd' _ _ _ (by simp only [Fld.key]; omega), State.timeoutReplay_GB_TIMEOUT]

/-! ### The commands of a port that is on -/

section PortOn
variable (pcs : s.pcsOn n = true)
include pcs

theorem Ends.lreqGo_requests {r ld : Nat} (hr : r < 32) (hld : ld < 64) (may : s.MayRequest n r ld) :
    ∃ t, Ends (.lreqGo n r ld) s t ∧ t.rd (F.LAD_REQ.LREQ_RESULT n) = 1 ∧
      t.rd (F.LAD_STATUS.RX_STATE n) = rxREQUESTING ∧ t.port[n].lad.reqRung = r ∧ t.port[n].lad.reqLoad = actLoad r ld := by
  obtain ⟨state, lad, regs⟩ := ladRequest_facts ((s.lreqWritten n r ld).wr (F.LAD_REQ.LREQ_RESULT n) 1) n r ld
  refine ⟨_, Ends.of_iff rfl pcs ((State.lreqWritten_lreqGo hr hld).1 may), ?_, state, ?_, ?_⟩
  · rw [regs _ (by simp only [Fld.key]; omega), State.rd_wr_same]
    rfl
  · rw [lad]
  · rw [lad]

theorem Ends.lreqGo_refused {r ld : Nat} (hr : r < 32) (hld : ld < 64) (may_not : ¬ s.MayRequest n r ld) :
    ∃ t, Ends (.lreqGo n r ld) s t ∧ t.rd (F.LAD_REQ.LREQ_RESULT n) = 2 ∧
      t.rd (F.LAD_STATUS.RX_STATE n) = s.rd (F.LAD_STATUS.RX_STATE n) ∧ t.port[n].lad = s.port[n].lad := by
  refine ⟨_, Ends.of_iff rfl pcs ((State.lreqWritten_lreqGo hr hld).2 may_not), ?_, ?_, rfl⟩
  · rw [State.rd_wr_same]
    rfl
  · rw [State.rd_wr_other _ _ (by simp only [Fld.key]; omega), State.lreqWritten_rd (by simp only [Fld.key]; omega)]

theorem Ends.shiftAbort (counting : s.rd (F.LAD_STATUS.TX_STATE n) = txCOUNTDOWN) :
    ∃ t, Ends (.shiftAbort n) s t ∧ t.rd (F.LAD_STATUS.TX_STATE n) = txIDLE ∧
      t.rd (F.LAD_ABORT.TX_ABORT n) = (s.rd (F.LAD_ABORT.TX_ABORT n) + 1) % 2 ^ 12 ∧
      t.on (F.LAD_EVENT.TX_ABORTED n) = true ∧ t.rd (F.LAD_STATUS.TX_RUNG n) = s.rd (F.LAD_STATUS.TX_RUNG n) ∧
      t.port[n].lad = { s.port[n].lad with gotRung := none, gotLoad := none, txIgnore := true } := by
  obtain ⟨state, port, regs⟩ := State.txForget_facts
    ((s.count (F.LAD_ABORT.TX_ABORT n)).wrB (F.LAD_EVENT.TX_ABORTED n) true) n true
  refine ⟨_, Ends.of_iff rfl (by simp [pcs, counting]) rfl, state, ?_, ?_, ?_, congrArg Port.lad port⟩
  · rw [regs _ (by simp only [Fld.key]; omega), State.rd_wrB_other _ _ (by simp only [Fld.key]; omega), State.rd_count_same]
  · rw [State.on_of_rd (regs _ (by simp only [Fld.key]; omega)), State.on_wrB_same _ _ _ rfl]
  · rw [regs _ (by simp only [Fld.key]; omega), State.rd_wrB_other _ _ (by simp only [Fld.key]; omega),
      State.rd_count_other _ _ (by simp only [Fld.key]; omega)]

theorem Ends.shiftBoundary {r ld : Nat} (committed : s.rd (F.LAD_STATUS.TX_STATE n) = txCOMMITTED)
    (boundary : s.port[n].fr.txRungIdx = s.port[n].lad.txBound) (hr : r < 32) (hld : ld < 64)
    (rung : s.port[n].lad.gotRung = some r) (load : s.port[n].lad.gotLoad = some ld) :
    ∃ t, Ends (.shiftBoundary n) s t ∧ t.rd (F.LAD_STATUS.TX_STATE n) = txIDLE ∧ t.rd (F.LAD_STATUS.TX_RUNG n) = r ∧
      t.rd (F.LAD_STATUS.TX_LOAD n) = actLoad r ld ∧ t.on (F.LAD_EVENT.TX_SHIFT n) = true ∧
      t.port[n].fr.txRungIdx = 0 ∧
      t.port[n].lad = { s.port[n].lad with gotRung := none, gotLoad := none, txIgnore := false } ∧
      t.rd (F.RTX_RTT.RT_BOUND n) =
        min 65535 (rtBound r (s.rd (F.LAD_STATUS.RX_RUNG n)) (s.rd (F.RTX_RTT.CABLE_DLY n))) := by
  obtain ⟨newRung, newLoad, event, rxRung, delay⟩ := State.shifted_facts s n hr (actLoad_lt r ld hld)
  obtain ⟨state, port, regs⟩ := State.txForget_facts (s.shifted n r (actLoad r ld)) n false
  rw [State.shifted_port] at port
  refine ⟨(((s.shifted n r (actLoad r ld)).txForget n false).syncBound n).syncRtx n, ?_, ?_, ?_, ?_, ?_, ?_, ?_, ?_⟩
  · refine Ends.of_iff rfl (by simp only [pcs, committed, boundary, beq_self_eq_true, Bool.and_self]) ?_
    dsimp only
    rw [rung, load]
    rfl
  · rw [State.followed_rd _ _ (by simp only [Fld.key]; omega), state]
  · rw [State.followed_rd _ _ (by simp only [Fld.key]; omega), regs _ (by simp only [Fld.key]; omega), newRung]
  · rw [State.followed_rd _ _ (by simp only [Fld.key]; omega), regs _ (by simp only [Fld.key]; omega), newLoad]
  · rw [State.on_of_rd (State.followed_rd _ _ (by simp only [Fld.key]; omega)),
      State.on_of_rd (regs _ (by simp only [Fld.key]; omega)), event]
  · rw [State.syncRtx_port, State.syncBound, State.wr_port, port]
  · rw [State.syncRtx_port, State.syncBound, State.wr_port, port]
  · rw [State.syncRtx_rd' _ _ _ (by simp only [Fld.key]; omega), State.syncBound_RT_BOUND,
      regs _ (by simp only [Fld.key]; omega), regs _ (by simp only [Fld.key]; omega), regs _ (by simp only [Fld.key]; omega),
      newRung, rxRung, delay]

/-- Dual tracking begins with no failure held back, and is a guard event on every pair. -/
theorem Ends.dualTrackStart (armed : s.rd (F.LAD_STATUS.RX_STATE n) = rxARMED) :
    ∃ t, Ends (.dualTrackStart n) s t ∧ t.rd (F.LAD_STATUS.RX_STATE n) = rxDUAL ∧
      t.port[n].lad.same = (s.port[n].lad.reqRung == s.rd (F.LAD_STATUS.RX_RUNG n) &&
        s.port[n].lad.reqLoad == s.rd (F.LAD_STATUS.RX_LOAD n)) ∧
      t.port[n].lad.oldHeld = [] ∧ t.port[n].lad.newHeld = [] ∧ t.port[n].eq = s.port[n].eq ∧
      ∀ f ∈ filters, 2 ≤ f.2 → s.domOn (filterDom n f) = true → bitB (t.rd (F.ADAPT.FRZ_CAUSE n f.1 f.2)) 3 = true := by
  have lad : ((s.dualTracked n).guard n fun _ => true).port[n].lad = _ :=
    (congrArg (·[n].lad) (State.freeze_port _ _ _ _ _)).trans (s.dualTracked_lad n)
  refine ⟨(s.dualTracked n).guard n fun _ => true, Ends.of_iff rfl (by simp [pcs, armed]) rfl, ?_, ?_, ?_, ?_, ?_,
    fun f hf dd dom => ?_⟩
  · rw [State.guard, freeze_rd' _ _ _ _ _ _ (by simp only [Fld.key]; omega), State.dualTracked_RX_STATE]
  · rw [lad]
  · rw [lad]
  · rw [lad]
  · rw [State.guard, State.freeze_port, State.dualTracked_eq]
  · exact State.freeze_sets hf (by simp [isDD, dd]) ((s.dualTracked_domOn n f).trans dom) (by decide)

theorem Ends.rxRequestHoldoffEnd :
    ∃ t, Ends (.rxRequestHoldoffEnd n) s t ∧ t.port[n].lad.rxHoldoff = false ∧
      (s.port[n].lad.fallback = true → s.rd (F.LAD_STATUS.RX_STATE n) = rxIDLE → s.rd (F.LAD_CTRL.LAD_MODE n) < 2 →
        t.rd (F.LAD_STATUS.RX_STATE n) = rxREQUESTING ∧ t.port[n].lad.reqRung = s.port[n].lad.prevRung ∧
        t.on (F.LAD_EVENT.FALLBACK n) = true ∧ t.port[n].lad.fallback = false) ∧
      (s.port[n].lad.fallback = false → t.rd (F.LAD_STATUS.RX_STATE n) = s.rd (F.LAD_STATUS.RX_STATE n)) := by
  obtain ⟨falls, stays⟩ := ladFallback_facts (s.holdoffEnded n) n
  rw [State.holdoffEnded_lad] at falls stays
  refine ⟨(s.holdoffEnded n).ladFallback n, Ends.of_iff rfl pcs rfl, ?_, fun due idle mode => ?_, fun none_due => ?_⟩
  · by_cases acts : s.port[n].lad.fallback = true ∧ s.rd (F.LAD_STATUS.RX_STATE n) = rxIDLE ∧
        s.rd (F.LAD_CTRL.LAD_MODE n) < 2
    · obtain ⟨due, idle, mode⟩ := acts
      obtain ⟨-, -, -, -, ended⟩ := falls due idle rfl mode
      exact ended
    · rw [stays acts, State.holdoffEnded_lad]
  · obtain ⟨state, rung, event, cleared, -⟩ := falls due idle rfl mode
    exact ⟨state, rung, event, cleared⟩
  · rw [stays fun acts => Bool.false_ne_true (none_due.symm.trans acts.1)]
    rfl

end PortOn

end LadderRequestsAndShifts

/-- Settles O38: one case for each command, by the rule above for it. -/
theorem ladderRequestsAndShifts : Obligations.LadderRequestsAndShifts := by
  unfold Obligations.LadderRequestsAndShifts
  intro s n pcs tx rx l
  refine ⟨fun r hr ld hld => ⟨?_, ?_⟩, ?_, ?_, ?_, ?_, ?_, ?_, ?_⟩
  · exact Ends.lreqGo_requests pcs hr hld
  · exact Ends.lreqGo_refused pcs hr hld
  · exact Ends.shiftAbort pcs
  · exact fun committed boundary r hr ld hld rung load =>
      Ends.shiftBoundary pcs committed boundary (hr.trans (by decide)) (hld.trans (by decide)) rung load
  · exact Ends.dualTrackStart pcs
  · exact Ends.rxRequestHoldoffEnd pcs
  · exact Ends.of_iff rfl pcs rfl
  · exact fun a => Ends.ackTimerExpiry_replays
  · exact Ends.ackTimerExpiry_starts

end Sys2Proof.Machine

/-! SUPPORT. The decoder halves and what a decoded frame leaves (05_spire_framing_ldpc.md R151-R156, R162, R163, R165-R175):
which half takes a frame, where its result goes and which counters advance, then the statement about them. -/

namespace Sys2Proof.Machine

section FramesDecoded
variable {s : State} {n : Fin 8} {h : Fin 2} {k : Nat} {newPath : Bool} {c : DecCtx} {w : RxWord}

/-! ### Halves in service (R162, R163, R165, R166) -/

/-- The field that says that half `h` has failed. -/
def halfFailFld (n : Fin 8) (h : Nat) : Fld := if h = 0 then F.FRM_STATUS.HALF0_FAIL n else F.FRM_STATUS.HALF1_FAIL n

theorem State.halfUp_syncHalves (u : State) (n : Fin 8) (h : Fin 2) : (u.syncHalves n).halfUp n h = u.halfIn n h := by
  obtain ⟨first, second⟩ := Machine.halfUp u n
  match h with
  | 0 => exact first
  | 1 => exact second

/-- A half can no longer serve once it has failed. -/
theorem State.halfOk_failed (s : State) (n : Fin 8) (h : Fin 2) :
    (s.wrB (halfFailFld n h) true).halfOk n h = false := by
  have failed : (s.wrB (halfFailFld n h) true).on (halfFailFld n h) = true :=
    State.on_wrB_same _ _ _ (by unfold halfFailFld; split <;> rfl)
  exact Bool.and_eq_false_imp.mpr fun _ => congrArg (!·) failed

/-- The failure of a half leaves the other able to serve or not, as it was. -/
theorem State.halfOk_otherFailed (s : State) (n : Fin 8) (h : Fin 2) :
    (s.wrB (halfFailFld n h) true).halfOk n (1 - h) = s.halfOk n (1 - h) := by
  have domain : (s.wrB (halfFailFld n h) true).domOn (14 * n.val + 7 + (1 - h)) = s.domOn (14 * n.val + 7 + (1 - h)) :=
    congrArg (· == domON) (State.rd_wrB_other _ _ (by unfold halfFailFld; split <;> simp only [Fld.key] <;> omega))
  have mark : (s.wrB (halfFailFld n h) true).on (halfFailFld n (1 - h)) = s.on (halfFailFld n (1 - h)) :=
    State.on_wrB_other _ _ (by fin_cases h <;> simp [halfFailFld, Fld.key])
  exact congrArg₂ (fun on failed => on && !failed) domain mark

/-- A half that cannot serve is not in service. -/
theorem State.halfIn_of_not_ok (bad : s.halfOk n h = false) : s.halfIn n h = false := by rw [State.halfIn, bad, Bool.false_and]

/-- A half whose partner cannot serve is in service where it can serve itself, whatever HALF_SEL says (R162). -/
theorem State.halfIn_alone (bad : s.halfOk n (1 - h) = false) : s.halfIn n h = s.halfOk n h := by
  rw [halfIn_eq s n h _ rfl, bad, Bool.not_false, Bool.or_true, Bool.and_true]

/-- The half that fails goes out of service, and the other serves if it can. -/
theorem Ends.decoderHalfFail (pcs : s.pcsOn n = true) (dom : s.domOn (14 * n.val + 7 + h.val) = true) (np fl : Bool) :
    ∃ t, Ends (.decoderHalfFail n h ⟨none, np, fl⟩) s t ∧ t.on (halfFailFld n h) = true ∧ t.halfUp n h = false ∧
      t.halfUp n (1 - h.val) = s.halfOk n (1 - h.val) := by
  have other : ((1 - h : Fin 2) : Nat) = 1 - h.val := by fin_cases h <;> rfl
  have back : 1 - (1 - h.val) = h.val := by omega
  have failed := State.halfOk_failed s n h
  refine ⟨(s.wrB (halfFailFld n h) true).syncHalves n, Ends.of_iff rfl (by rw [dom, pcs]; rfl) rfl, ?_, ?_, ?_⟩
  · rw [State.on_of_rd (syncHalves_rd _ _ _ (by unfold halfFailFld; split <;> simp only [Fld.key] <;> omega))]
    exact State.on_wrB_same _ _ _ (by unfold halfFailFld; split <;> rfl)
  · rw [State.halfUp_syncHalves, State.halfIn_of_not_ok failed]
  · rw [← other, State.halfUp_syncHalves, State.halfIn_alone (by rw [other, back, failed]), other, State.halfOk_otherFailed]

/-- The value of HALF_SEL takes effect. -/
def State.selectHalf (s : State) (n : Fin 8) : State :=
  s.modPort n fun p => { p with fr := { p.fr with halfSel := s.rd (F.FRM_CTRL.HALF_SEL n) } }

theorem State.selectHalf_halfSel (s : State) (n : Fin 8) :
    (s.selectHalf n).port[n].fr.halfSel = s.rd (F.FRM_CTRL.HALF_SEL n) :=
  congrArg (·.fr.halfSel) (State.port_modPort_same _ _ _)

/-- A change of HALF_SEL: a half that can serve is in service unless the other is selected alone and can serve. -/
theorem Ends.halfSelChange (pcs : s.pcsOn n = true) :
    let sel := s.rd (F.FRM_CTRL.HALF_SEL n)
    ∃ t, Ends (.halfSelChange n) s t ∧ t.port[n].fr.halfSel = sel ∧
      t.halfUp n 0 = (s.halfOk n 0 && (sel != 2 || !s.halfOk n 1)) ∧
      t.halfUp n 1 = (s.halfOk n 1 && (sel != 1 || !s.halfOk n 0)) := by
  intro sel
  have serves (h : Fin 2) := (State.halfUp_syncHalves (s.selectHalf n) n h).trans (halfIn_eq _ n h sel (s.selectHalf_halfSel n))
  refine ⟨_, Ends.of_iff rfl pcs rfl, ?_, serves 0, serves 1⟩
  rw [State.port_modPort_same, State.syncHalves, State.syncLimit, State.wr_port, State.port_modPort_same]
  exact s.selectHalf_halfSel n

/-! ### Which half takes a frame, and its limit (R153, R163) -/

/-- Half `h` takes frame `k` outside dual tracking: it holds the frame and is deselected, or its turn in the alternation of both
halves has come, or it is not one of two in service and serves, or none does. -/
def State.Takes (s : State) (n : Fin 8) (h k : Nat) : Prop :=
  h ∈ s.port[n].fr.drain ∨ (s.halvesUp n = 2 ∧ ∀ p, s.port[n].fr.par = some p → (h + k) % 2 = p) ∨
    (s.halvesUp n ≠ 2 ∧ (s.halvesUp n = 0 ∨ s.halfUp n h = true))

theorem State.onPath_single (single : s.rd (F.LAD_STATUS.RX_STATE n) ≠ rxDUAL) (k : Nat) : s.onPath n k = false :=
  Bool.and_eq_false_imp.mpr fun dual => absurd (beq_iff_eq.mp dual) single

theorem State.halfTakes_iff (single : s.onPath n k = false) : s.halfTakes n h k newPath = true ↔ s.Takes n h k := by
  unfold State.halfTakes State.Takes
  rw [single, Bool.false_and]
  generalize s.port[n].fr = f
  by_cases drains : h.val ∈ f.drain
  · simp [drains]
  · by_cases both : s.halvesUp n = 2
    · cases turn : f.par <;> simp [drains, both, turn]
    · simp [drains, both]

theorem State.limitAt_single {v : Nat} (single : s.onPath n k = false) (kept : h.val ∉ s.port[n].fr.drain) :
    s.limitAt n h k newPath none v = min (iterMaxOf v) (s.rxFramePs n / (if s.halvesUp n = 2 then 8000 else 16000)) := by
  simp only [State.limitAt, single, Bool.false_and, Bool.false_eq_true, if_false, List.contains_eq_mem, kept, decide_false,
    limitOf]
  split <;> rfl

/-! ### A frame of a half that can serve (R155, R156, R173-R175) -/

/-- Where a half's own counters stand. -/
def DecA (a : Nat) : Prop := 0x200000 ≤ a ∧ 0x10000 ≤ a % 0x100000 ∧ a % 0x100000 < 0x18000

theorem State.rd_peak_other (s : State) {f g : Fld} (v : Nat) (apart : f.key ≠ g.key) : (s.peak f v).rd g = s.rd g := by
  unfold State.peak
  split
  · exact State.rd_wr_other _ _ apart
  · rfl

/-- The state in which the result of frame `k` reaches the framer: half `h` has taken the frame and counted its iterations. -/
def State.decoded (s : State) (n : Fin 8) (h k iters : Nat) : State := (s.halfTaken n h k).halfCount n h iters

theorem State.decoded_touch (s : State) (n : Fin 8) (h : Fin 2) (k iters : Nat) : Touch DecA s (s.decoded n h k iters) :=
  (((Touch.refl (A := DecA) (s.halfTaken n h k)).endCount (by simp only [DecA, Fld.key]; omega)).endCount
    (by simp only [DecA, Fld.key]; omega)).endPeak (by simp only [DecA, Fld.key]; omega)

theorem State.decoded_spire (s : State) (n : Fin 8) (h : Fin 2) (k iters : Nat) :
    (s.decoded n h k iters).spire n = s.spire n :=
  congrArg (· == 7) (s.decoded_touch n h k iters _ (by simp only [DecA, Fld.key]; omega))

theorem State.decoded_domOn (s : State) (n : Fin 8) (h : Fin 2) (k iters : Nat) :
    (s.decoded n h k iters).domOn (14 * n.val + 7 + h) = s.domOn (14 * n.val + 7 + h) :=
  congrArg (· == domON) (s.decoded_touch n h k iters _ (by simp only [DecA, Fld.key]; omega))

theorem State.decoded_onPath (single : s.rd (F.LAD_STATUS.RX_STATE n) ≠ rxDUAL) (h : Fin 2) (k iters : Nat) :
    (s.decoded n h k iters).onPath n k = false :=
  State.onPath_single ((s.decoded_touch n h k iters _ (by simp only [DecA, Fld.key]; omega)).trans_ne single) k

theorem State.decoded_counters (s : State) (n : Fin 8) (h : Fin 2) (k iters : Nat) :
    (s.decoded n h k iters).rd (F.DEC_FRAMES.H_FRAMES n h) = (s.rd (F.DEC_FRAMES.H_FRAMES n h) + 1) % 2 ^ 32 ∧
      (s.decoded n h k iters).rd (F.DEC_ITER_SUM.H_ITER_SUM n h) = (s.rd (F.DEC_ITER_SUM.H_ITER_SUM n h) + iters) % 2 ^ 32 ∧
      (s.decoded n h k iters).rd (F.DEC_STAT.H_FAIL n h) = s.rd (F.DEC_STAT.H_FAIL n h) := by
  unfold State.decoded State.halfCount
  refine ⟨?_, ?_, ?_⟩
  · rw [State.rd_peak_other _ _ (by simp only [Fld.key]; omega), State.rd_count_other _ _ (by simp only [Fld.key]; omega),
      State.rd_count_same]
    rfl
  · rw [State.rd_peak_other _ _ (by simp only [Fld.key]; omega), State.rd_count_same,
      State.rd_count_other _ _ (by simp only [Fld.key]; omega)]
    rfl
  · rw [State.rd_peak_other _ _ (by simp only [Fld.key]; omega), State.rd_count_other _ _ (by simp only [Fld.key]; omega),
      State.rd_count_other _ _ (by simp only [Fld.key]; omega)]
    rfl

/-! ### A result reaches the framer outside dual tracking (R155, R156) -/

/-- In `t` frame `k` has its place in received order, with result `r`. -/
def State.Holds (t : State) (n : Fin 8) (k : Nat) (r : RxResult) : Prop :=
  (spFind t.port[n].fr.done k).map (·.result) = some r

theorem State.holds_putDone (u : State) (n : Fin 8) (k : Nat) (d : RxDone) : (u.putDone n k d).Holds n k d.result := by
  simp only [State.Holds, State.putDone, State.port_modPort_same, spFind_spPut_same, Option.map_some]

section Result
variable {d : RxDone} {fl : Bool} (single : s.onPath n k = false) (spire : s.spire n = true)
include single spire

/-- A good frame takes its place, GOOD advances, and no counter of a half does. -/
theorem State.decodeResult_good {g : Frame} (good : d.result = .good g) :
    let t := s.decodeResult n k newPath fl d
    t.Holds n k (.good g) ∧
      t.rd (F.FRM_GOOD_LO.GOOD_LO n) =
        (s.rd (F.FRM_GOOD_LO.GOOD_LO n) + 2 ^ 32 * s.rd (F.FRM_GOOD_HI.GOOD_HI n).hidden + 1) % 2 ^ 32 ∧
      ∀ f : Fld, DecA (f.key / 32) → t.rd f = s.rd f := by
  have result : s.decodeResult n k newPath fl d =
      ((s.count64 (F.FRM_GOOD_LO.GOOD_LO n) (F.FRM_GOOD_HI.GOOD_HI n)).decodedOne n).putDone n k d := by
    simp only [State.decodeResult, good, single, spire, Bool.false_eq_true, if_false, if_true]
  have reads (f : Fld) (hf : f.key / 32 % 0x100000 < 0xC000 ∨ 0xC800 ≤ f.key / 32 % 0x100000) :
      (s.decodeResult n k newPath fl d).rd f = (s.count64 (F.FRM_GOOD_LO.GOOD_LO n) (F.FRM_GOOD_HI.GOOD_HI n)).rd f := by
    rw [result]
    exact decodedOne_rd _ _ _ hf
  refine ⟨?_, ?_, fun f hf => ?_⟩
  · rw [result, ← good]
    exact State.holds_putDone _ n k d
  · rw [reads _ (by simp only [Fld.key]; omega), State.count64,
      State.rd_wr_other _ _ (by simp only [Fld.key, Fld.hidden]; omega), State.rd_wr_same]
    exact Nat.mod_mod _ _
  · simp only [DecA, Fld.key] at hf
    rw [reads _ (by simp only [Fld.key]; omega), State.count64, State.rd_wr_other _ _ (by simp only [Fld.key, Fld.hidden]; omega),
      State.rd_wr_other _ _ (by simp only [Fld.key]; omega)]

/-- A frame that failed takes its place, its cause and its half count it, and no other counter of a half advances. -/
theorem State.decodeResult_failed (failed : d.result = .failed) :
    let t := s.decodeResult n k newPath fl d
    let cause := if d.crc then F.FRM_CRC_FAIL.CRC_FAIL n else F.FRM_DEC_FAIL.DEC_FAIL n
    t.Holds n k .failed ∧ t.rd cause = (s.rd cause + 1) % 2 ^ 32 ∧
      (d.half < 2 → s.domOn (14 * n.val + 7 + d.half) = true →
        t.rd (F.DEC_STAT.H_FAIL n d.half) = (s.rd (F.DEC_STAT.H_FAIL n d.half) + 1) % 2 ^ 16) ∧
      ∀ f : Fld, DecA (f.key / 32) → (∀ j < 2, f.key ≠ (F.DEC_STAT.H_FAIL n j).key) → t.rd f = s.rd f := by
  obtain ⟨clean, result⟩ : ∃ clean, s.decodeResult n k newPath fl d = (s.failReport n d clean).putDone n k d := by
    simp only [State.decodeResult, failed, single, spire, Bool.false_and, Bool.false_eq_true, if_false, if_true]
    exact ⟨_, rfl⟩
  obtain ⟨counted, halfCounted⟩ := failReport_count s n d clean
  rw [result, ← failed]
  refine ⟨State.holds_putDone _ n k d, counted, halfCounted, fun f hf mark => ?_⟩
  simp only [DecA, Fld.key] at hf
  exact failReport_rd s n d clean f (by simp only [Fld.key]; omega) (by simp only [Fld.key]; omega)
    (by simp only [Fld.key]; omega) mark

end Result

/-! ### What a word comes to (R151-R153, R165) -/

/-- From `s` to `t` half `h` has counted a frame of `iters` iterations. -/
def State.Counted (s t : State) (n : Fin 8) (h iters : Nat) : Prop :=
  t.rd (F.DEC_FRAMES.H_FRAMES n h) = (s.rd (F.DEC_FRAMES.H_FRAMES n h) + 1) % 2 ^ 32 ∧
    t.rd (F.DEC_ITER_SUM.H_ITER_SUM n h) = (s.rd (F.DEC_ITER_SUM.H_ITER_SUM n h) + iters) % 2 ^ 32

/-- A half's counters stand after the result as the half has left them. -/
theorem State.Counted.of_decoded {t : State} {iters : Nat} (kept : ∀ f : Fld, DecA (f.key / 32) →
    (∀ j < 2, f.key ≠ (F.DEC_STAT.H_FAIL n j).key) → t.rd f = (s.decoded n h k iters).rd f) : s.Counted t n h iters := by
  obtain ⟨frames, iterations, -⟩ := s.decoded_counters n h k iters
  exact ⟨(kept _ (by simp only [DecA, Fld.key]; omega) fun j _ => by simp only [Fld.key]; omega).trans frames,
    (kept _ (by simp only [DecA, Fld.key]; omega) fun j _ => by simp only [Fld.key]; omega).trans iterations⟩

/-- What decoding frame `k` at half `h` comes to: the frame if it is good, whether it decoded, and its iterations. -/
def State.outcome (s : State) (n : Fin 8) (h k : Nat) (newPath : Bool) (c : DecCtx) (w : RxWord) :
    Option Frame × Bool × Nat :=
  let ctl := s.frmUsed n c.early
  decodeWord (max 8 (bitsOf ctl 19 16)) (s.limitAt n h k newPath c.ran (bitsOf ctl 4 0)) (bitB ctl 7)
    (scrAdvance (3456 * (k - s.port[n].fr.rxIdx)) s.port[n].fr.rxScr) (s.llrs n newPath (bitB ctl 20) w) w

/-- The result of half `h` for a word that comes to `out`. -/
def RxDone.ofOutcome (out : Option Frame × Bool × Nat) (flagged : Bool) (h : Nat) : RxDone :=
  match out.1 with
  | some g => { result := .good g, flagged, counted := false, half := h }
  | none => { result := .failed, flagged, counted := false, crc := out.2.1, half := h }

theorem RxDone.ofOutcome_good {out : Option Frame × Bool × Nat} {g : Frame} (good : out.1 = some g) (flagged : Bool) (h : Nat) :
    (RxDone.ofOutcome out flagged h).result = .good g := by
  rw [RxDone.ofOutcome, good]

theorem RxDone.ofOutcome_failed {out : Option Frame × Bool × Nat} (bad : out.1 = none) (flagged : Bool) (h : Nat) :
    (RxDone.ofOutcome out flagged h).result = .failed ∧ (RxDone.ofOutcome out flagged h).crc = out.2.1 ∧
      (RxDone.ofOutcome out flagged h).half = h := by
  rw [RxDone.ofOutcome, bad]
  exact ⟨rfl, rfl, rfl⟩

/-- The result of a frame that no half decodes. -/
def RxDone.unserved (flagged : Bool) : RxDone := { result := .failed, flagged, counted := false, half := 2 }

theorem State.frameDecode_served (spire : s.spire n = true) (ok : s.halfOk n h = true) (flagged : Bool) :
    s.frameDecode n h k newPath flagged c w =
      (s.decoded n h k (s.outcome n h k newPath c w).2.2).decodeResult n k newPath (flagged || w.flagged)
        (.ofOutcome (s.outcome n h k newPath c w) (flagged || w.flagged) h) := by
  obtain ⟨on, sound⟩ := Bool.and_eq_true_iff.mp ok
  unfold State.frameDecode RxDone.ofOutcome
  dsimp only
  rw [if_neg (by rw [on, Bool.not_eq_eq_eq_not.mp sound]; decide), if_pos spire, ← State.outcome]
  obtain ⟨_ | g, decodes, iters⟩ := s.outcome n h k newPath c w
  · rfl
  · rfl

theorem State.frameDecode_unserved (bad : s.halfOk n h = false) (flagged : Bool) :
    s.frameDecode n h k newPath flagged c w =
      (s.halfTaken n h k).decodeResult n k newPath (flagged || w.flagged) (.unserved (flagged || w.flagged)) := by
  refine if_pos ?_
  have bad : (s.domOn (14 * n.val + 7 + h) && !s.on (halfFailFld n h)) = false := bad
  calc (!s.domOn (14 * n.val + 7 + h) || s.on (halfFailFld n h))
      = !(s.domOn (14 * n.val + 7 + h) && !s.on (halfFailFld n h)) := by rw [Bool.not_and, Bool.not_not]
    _ = true := by rw [bad, Bool.not_false]

/-! ### The command (R155-R157) -/

theorem State.rxRuns_spire (pcs : s.pcsOn n = true) (spire : s.spire n = true)
    (runs : s.linkUp n = true ∨ s.phase n = phFRAME_SYNC) : s.rxRuns n = true := by
  simpa [State.rxRuns, show s.domOn (14 * n.val + 9) = true from pcs, spire] using runs

/-- A Spire port takes in frames, does not rest, tracks one path, and `k` is a frame that still comes. -/
structure State.Receives (s : State) (n : Fin 8) (k : Nat) : Prop where
  pcs : s.pcsOn n = true
  spire : s.spire n = true
  runs : s.linkUp n = true ∨ s.phase n = phFRAME_SYNC
  awake : s.rd (F.LPI_STATUS.RX_LPI n) ≠ lpiQUIET
  single : s.rd (F.LAD_STATUS.RX_STATE n) ≠ rxDUAL
  comes : s.port[n].fr.rxIdx ≤ k

variable (rx : s.Receives n k)
include rx

theorem State.Receives.rxRuns : s.rxRuns n = true := State.rxRuns_spire rx.pcs rx.spire rx.runs

theorem Ends.frameDecode (takes : s.Takes n h k) :
    Ends (.frameDecode n h k newPath c w) s (s.frameDecode n h k newPath c.flagged c w) := by
  have half := (State.halfTakes_iff (newPath := newPath) (State.onPath_single rx.single k)).mpr takes
  refine Ends.of_iff rfl ?_ rfl
  rw [rx.rxRuns, half, decide_eq_true rx.comes, bne_iff_ne.mpr rx.awake, Bool.or_true]
  rfl

theorem Ends.frameDecode_other (other : ¬ s.Takes n h k) : Ends (.frameDecode n h k newPath c w) s s := by
  have half := mt (State.halfTakes_iff (newPath := newPath) (State.onPath_single rx.single k)).mp other
  refine Ends.of_done rfl (if_neg ?_)
  simp [half]

variable (takes : s.Takes n h k)
include takes

section Serves
variable (ok : s.halfOk n h = true)
include ok

/-- A half that can serve delivers a good frame, and counts it (R155, R167, R173, R174). -/
theorem Ends.frameDecode_good {g : Frame} (good : (s.outcome n h k newPath c w).1 = some g) :
    ∃ t, Ends (.frameDecode n h k newPath c w) s t ∧ t.Holds n k (.good g) ∧
      s.Counted t n h (s.outcome n h k newPath c w).2.2 ∧
      t.rd (F.FRM_GOOD_LO.GOOD_LO n) =
        (s.rd (F.FRM_GOOD_LO.GOOD_LO n) + 2 ^ 32 * s.rd (F.FRM_GOOD_HI.GOOD_HI n).hidden + 1) % 2 ^ 32 := by
  have ends := Ends.frameDecode (newPath := newPath) (c := c) (w := w) rx takes
  rw [State.frameDecode_served rx.spire ok] at ends
  have touch := s.decoded_touch n h k (s.outcome n h k newPath c w).2.2
  obtain ⟨holds, count, kept⟩ := State.decodeResult_good (newPath := newPath) (fl := c.flagged || w.flagged)
    (State.decoded_onPath rx.single h k (s.outcome n h k newPath c w).2.2) ((State.decoded_spire s n h k _).trans rx.spire)
    (RxDone.ofOutcome_good good (c.flagged || w.flagged) h)
  refine ⟨_, ends, holds, .of_decoded fun f hf _ => kept f hf, count.trans ?_⟩
  rw [touch _ (by simp only [DecA, Fld.key]; omega), touch _ (by simp only [DecA, Fld.key, Fld.hidden]; omega)]

/-- A half that can serve counts a frame that fails, as does the counter of its cause (R155, R169, R170, R173-R175). -/
theorem Ends.frameDecode_failed (bad : (s.outcome n h k newPath c w).1 = none) :
    let cause := if (s.outcome n h k newPath c w).2.1 then F.FRM_CRC_FAIL.CRC_FAIL n else F.FRM_DEC_FAIL.DEC_FAIL n
    ∃ t, Ends (.frameDecode n h k newPath c w) s t ∧ t.Holds n k .failed ∧
      s.Counted t n h (s.outcome n h k newPath c w).2.2 ∧ t.rd cause = (s.rd cause + 1) % 2 ^ 32 ∧
      t.rd (F.DEC_STAT.H_FAIL n h) = (s.rd (F.DEC_STAT.H_FAIL n h) + 1) % 2 ^ 16 := by
  intro cause
  have ends := Ends.frameDecode (newPath := newPath) (c := c) (w := w) rx takes
  rw [State.frameDecode_served rx.spire ok] at ends
  obtain ⟨failed, crc, half⟩ := RxDone.ofOutcome_failed bad (c.flagged || w.flagged) h
  obtain ⟨-, -, failures⟩ := s.decoded_counters n h k (s.outcome n h k newPath c w).2.2
  have before : (s.decoded n h k (s.outcome n h k newPath c w).2.2).rd cause = s.rd cause :=
    s.decoded_touch n h k _ _ (by simp only [cause]; split <;> simp only [DecA, Fld.key] <;> omega)
  obtain ⟨holds, count, halfCount, kept⟩ := State.decodeResult_failed (newPath := newPath) (fl := c.flagged || w.flagged)
    (State.decoded_onPath rx.single h k (s.outcome n h k newPath c w).2.2) ((State.decoded_spire s n h k _).trans rx.spire)
    failed
  rw [crc] at count
  rw [half] at halfCount
  have on := (State.decoded_domOn s n h k (s.outcome n h k newPath c w).2.2).trans (Bool.and_eq_true_iff.mp ok).1
  refine ⟨_, ends, holds, .of_decoded kept, count.trans ?_, (halfCount h.isLt on).trans ?_⟩
  · exact congrArg (fun v => (v + 1) % 2 ^ 32) before
  · rw [failures]

end Serves

/-- A half that cannot serve fails its frame as one that does not decode, and counts nothing of its own (R162). -/
theorem Ends.frameDecode_unserved (bad : s.halfOk n h = false) :
    ∃ t, Ends (.frameDecode n h k newPath c w) s t ∧ t.Holds n k .failed ∧
      t.rd (F.FRM_DEC_FAIL.DEC_FAIL n) = (s.rd (F.FRM_DEC_FAIL.DEC_FAIL n) + 1) % 2 ^ 32 ∧
      t.rd (F.DEC_FRAMES.H_FRAMES n h) = s.rd (F.DEC_FRAMES.H_FRAMES n h) := by
  have ends := Ends.frameDecode (newPath := newPath) (c := c) (w := w) rx takes
  rw [State.frameDecode_unserved bad] at ends
  obtain ⟨holds, count, -, kept⟩ := State.decodeResult_failed (s := s.halfTaken n h k) (newPath := newPath)
    (fl := c.flagged || w.flagged) (d := .unserved (c.flagged || w.flagged))
    (State.onPath_single (s := s.halfTaken n h k) rx.single k) rx.spire rfl
  exact ⟨_, ends, holds, count, kept _ (by simp only [DecA, Fld.key]; omega) fun j _ => by simp only [Fld.key]; omega⟩

end FramesDecoded

/-- Settles O36: the two commands of the halves, then a decoded frame by whether its half takes it, can serve, and what the word
comes to, each by the rule above for it. -/
theorem framesDecoded : Obligations.FramesDecoded := by
  unfold Obligations.FramesDecoded
  intro s n h pcs fail up ok sel
  refine ⟨Ends.decoderHalfFail pcs, Ends.halfSelChange pcs, ?_⟩
  intro k newPath c spire runs awake single comes f cmd takes ctl lim put done
  have rx : s.Receives n k := ⟨pcs, spire, runs, awake, single, comes⟩
  refine ⟨fun other w => Ends.frameDecode_other rx other, fun fresh kept => ?_,
    fun tk serves => ⟨fun w => ?_, fun it => ?_⟩, fun tk bad w => Ends.frameDecode_unserved rx tk bad⟩
  · exact (congrArg (s.limitAt n h k newPath · (bitsOf ctl 4 0)) fresh).trans
      (State.limitAt_single (State.onPath_single single k) kept)
  · intro r
    cases out : r.1 with
    | some g =>
      obtain ⟨t, ends, holds, counted, -⟩ := Ends.frameDecode_good (newPath := newPath) (c := c) (w := w) rx tk serves out
      exact ⟨t, ends, counted, holds⟩
    | none =>
      obtain ⟨t, ends, holds, counted, -⟩ := Ends.frameDecode_failed (newPath := newPath) (c := c) (w := w) rx tk serves out
      exact ⟨t, ends, counted, holds⟩
  · exact ⟨fun g => Ends.frameDecode_good (w := .decided g it) rx tk serves rfl,
      Ends.frameDecode_failed (w := .crcBad it) rx tk serves rfl, Ends.frameDecode_failed (w := .lost it) rx tk serves rfl⟩

end Sys2Proof.Machine

/-! SUPPORT. The hand-off of decoded frames in received order (05_spire_framing_ldpc.md R139, R159, R171,
07_retransmission_spill.md R210-R217): what a failed frame and a good one leave in FRAME_SYNC and in UP, then the statement about them. -/

namespace Sys2Proof.Machine

section FramesHandedOff
variable {s : State} {n : Fin 8} {bad : List Nat} {d : RxDone} {g : Frame}

/-! ### The frame leaves its place (R156) -/

/-- The state in which the frame next in received order reaches the engines: its place is free, and the next frame is due. -/
def State.handedOff (s : State) (n : Fin 8) : State :=
  s.modPort n fun p => { p with
    fr := { p.fr with
      done := spDel p.fr.done s.port[n].fr.rxIdx, rxIdx := s.port[n].fr.rxIdx + 1,
      rxScr := scrAdvance 3456 s.port[n].fr.rxScr },
    lad := { p.lad with sinceUp := p.lad.sinceUp.map (· + 1) } }

theorem State.handedOff_facts (s : State) (n : Fin 8) :
    (s.handedOff n).port[n].rtx = s.port[n].rtx ∧ (s.handedOff n).port[n].fr.rxIdx = s.port[n].fr.rxIdx + 1 ∧
      (s.handedOff n).port[n].fr.lockCount = s.port[n].fr.lockCount ∧
      (s.handedOff n).port[n].lad.same = s.port[n].lad.same := by
  unfold State.handedOff
  rw [State.port_modPort_same]
  exact ⟨rfl, rfl, rfl, rfl⟩

theorem State.frameHandoff_none (empty : spFind s.port[n].fr.done s.port[n].fr.rxIdx = none) : s.frameHandoff n bad = s := by
  unfold State.frameHandoff
  dsimp only
  rw [empty]

theorem State.frameHandoff_failed (own : s.twinned n = false) (next : spFind s.port[n].fr.done s.port[n].fr.rxIdx = some d)
    (failed : d.result = .failed) : s.frameHandoff n bad = ((s.handedOff n).handFailed n d).syncRtx n := by
  unfold State.frameHandoff
  dsimp only
  rw [next]
  dsimp only
  rw [failed, own]
  rfl

theorem State.frameHandoff_good (next : spFind s.port[n].fr.done s.port[n].fr.rxIdx = some d) (good : d.result = .good g) :
    s.frameHandoff n bad = if s.linkUp n then (s.handedOff n).handGood n s.port[n].fr.rxIdx d g bad
      else (s.handedOff n).handSync n s.port[n].fr.rxIdx g := by
  unfold State.frameHandoff
  dsimp only
  rw [next]
  dsimp only
  rw [good]
  rfl

theorem Ends.frameHandoff (pcs : s.pcsOn n = true) (spire : s.spire n = true)
    (runs : s.linkUp n = true ∨ s.phase n = phFRAME_SYNC) {t : State} (hand : s.frameHandoff n bad = t) :
    Ends (.frameHandoff n bad) s t :=
  Ends.of_iff rfl (by rw [State.rxRuns_spire pcs spire runs, spire]; rfl) hand

/-! ### Fields that a frame's header reaches (R139, R141, R178-R182) -/

/-- From `s` to `u` no register field but those of `ks` changes. -/
def Writes (ks : List Fld) (s u : State) : Prop := ∀ f : Fld, f.key ∉ ks.map Fld.key → u.rd f = s.rd f

theorem Writes.refl (ks : List Fld) (s : State) : Writes ks s s := fun _ _ => rfl

theorem Writes.trans {ks : List Fld} {s t u : State} (h : Writes ks s t) (h' : Writes ks t u) : Writes ks s u :=
  fun f hf => (h' f hf).trans (h f hf)

theorem Writes.wr {ks : List Fld} {f : Fld} (s : State) (v : Nat) (mem : f ∈ ks) : Writes ks s (s.wr f v) :=
  fun _ hg => State.rd_wr_other s v fun same => hg (same ▸ List.mem_map_of_mem mem)

theorem Writes.count {ks : List Fld} {f : Fld} (s : State) (mem : f ∈ ks) : Writes ks s (s.count f) := .wr s _ mem

theorem Writes.modPort {ks : List Fld} {s t : State} (h : Writes ks s t) (n : Fin 8) (f : Port → Port) :
    Writes ks s (t.modPort n f) := h

theorem Writes.ite {ks : List Fld} {s t u : State} {c : Prop} [Decidable c] (h : Writes ks s t) (h' : Writes ks s u) :
    Writes ks s (if c then t else u) := by
  split
  · exact h
  · exact h'

/-- The fields that ACK and the ladder message of a received frame can reach. -/
def headerFlds (n : Fin 8) : List Fld :=
  [F.RTX_RX_CNT.ACK_BAD n, F.FIELD_ERR.CTL_BAD n, F.LAD_STATUS.TX_STATE n, F.LAD_STATUS.RX_STATE n, F.LAD_ABORT.TX_REQ_BAD n]

theorem Writes.txArm (s : State) (n : Fin 8) : Writes (headerFlds n) s (s.txArm n) := by
  unfold State.txArm
  exact .ite (.wr _ _ (by simp [headerFlds])) (.refl _ _)

theorem Writes.rxAnnounce (s : State) (n : Fin 8) (j c : Nat) : Writes (headerFlds n) s (s.rxAnnounce n j c) := by
  unfold State.rxAnnounce
  dsimp only
  exact .ite (.modPort (.wr _ _ (by simp [headerFlds])) _ _) (.ite (.refl _ _) (.count _ (by simp [headerFlds])))

theorem Writes.rxLadder (s : State) (n : Fin 8) (i j : Nat) (g : Frame) : Writes (headerFlds n) s (s.rxLadder n i j g) := by
  have badControl : Writes (headerFlds n) s (s.count (F.FIELD_ERR.CTL_BAD n)) := .count _ (by simp [headerFlds])
  have committed : Writes (headerFlds n) s (s.wr (F.LAD_STATUS.TX_STATE n) txCOMMITTED) := .wr _ _ (by simp [headerFlds])
  have badRequest : Writes (headerFlds n) s (s.count (F.LAD_ABORT.TX_REQ_BAD n)) := .count _ (by simp [headerFlds])
  have armed (f : Port → Port) : Writes (headerFlds n) s ((s.modPort n f).txArm n) := Writes.txArm (s.modPort n f) n
  unfold State.rxLadder
  exact .ite (.ite committed (.refl _ _)) (.ite badControl (.ite (.rxAnnounce _ _ _ _)
    (.ite (.ite badControl (.ite (.refl _ _) (.ite (armed _) badRequest))) (.ite badControl (.ite (.refl _ _) (armed _))))))

/-- What ACK and the ladder message of a good frame `i` in FRAME_SYNC leave, outside twin operation. -/
def State.headerTaken (s : State) (n : Fin 8) (i : Nat) (g : Frame) : State :=
  (if g.ack = 0 then s else s.count (F.RTX_RX_CNT.ACK_BAD n)).rxLadder n i (i - s.port[n].fr.rxStart) g

theorem State.headerTaken_writes (s : State) (n : Fin 8) (i : Nat) (g : Frame) :
    Writes (headerFlds n) s (s.headerTaken n i g) :=
  Writes.trans (.ite (.refl _ _) (.count _ (by simp [headerFlds]))) (.rxLadder _ _ _ _ _)

theorem State.headerTaken_hg (s : State) (n : Fin 8) (i : Nat) (g : Frame) : HG n s (s.headerTaken n i g) :=
  HG.trans (.ite (.refl _ _) (.count _ _ _ (by simp only [FrameA, Fld.key]; omega))) (.rxLadder _ _ _ _)

theorem State.syncFields_own (own : s.twinned n = false) (i : Nat) :
    s.syncFields n i g = if g.typ = 3 ∨ g.typ = typSKIP then (s.headerTaken n i g).count (F.FIELD_ERR.TYPE_BAD n)
      else s.headerTaken n i g := by
  simp only [State.syncFields, State.headerTaken, own, Bool.false_eq_true, if_false, Bool.not_false, and_true]

theorem State.syncFields_hg (own : s.twinned n = false) (i : Nat) : HG n s (s.syncFields n i g) := by
  rw [State.syncFields_own own]
  exact .ite ((s.headerTaken_hg n i g).trans (.count _ _ _ (by simp only [FrameA, Fld.key]; omega))) (s.headerTaken_hg n i g)

/-- The lock bits of FRM_STATUS are no field of a header, and a reserved TYPE is counted once (R139, R171). -/
theorem State.syncFields_rd (own : s.twinned n = false) (i : Nat) :
    (s.syncFields n i g).on (F.FRM_STATUS.LOCK_RX n) = s.on (F.FRM_STATUS.LOCK_RX n) ∧
      (s.syncFields n i g).on (F.FRM_STATUS.LOCK_PARTNER n) = s.on (F.FRM_STATUS.LOCK_PARTNER n) ∧
      (g.typ = 3 ∨ g.typ = typSKIP →
        (s.syncFields n i g).rd (F.FIELD_ERR.TYPE_BAD n) = (s.rd (F.FIELD_ERR.TYPE_BAD n) + 1) % 2 ^ 16) := by
  have writes := s.headerTaken_writes n i g
  have lock {f : Fld} (hf : f.key ∉ (F.FIELD_ERR.TYPE_BAD n :: headerFlds n).map Fld.key) :
      (s.syncFields n i g).on f = s.on f := by
    rw [List.map_cons, List.mem_cons, not_or] at hf
    rw [State.syncFields_own own]
    refine State.on_of_rd ?_
    split
    · rw [State.rd_count_other _ _ (Ne.symm hf.1), writes f hf.2]
    · exact writes f hf.2
  refine ⟨lock (by simp [headerFlds, Fld.key]; omega), lock (by simp [headerFlds, Fld.key]; omega), fun reserved => ?_⟩
  rw [State.syncFields_own own, if_pos reserved, State.rd_count_same,
    writes _ (by simp [headerFlds, Fld.key]; omega)]

/-! ### A good frame in FRAME_SYNC (R159) -/

/-- A good frame counts toward frame lock, and LOCK_PARTNER shows its bit. -/
def State.lockSeen (s : State) (n : Fin 8) (g : Frame) : State :=
  (s.wrB (F.FRM_STATUS.LOCK_PARTNER n) g.lock).modPort n fun p =>
    { p with fr := { p.fr with lockCount := min 8 (s.port[n].fr.lockCount + 1) } }

/-- The eighth good frame in a row sets LOCK_RX. -/
def State.lockCounted (s : State) (n : Fin 8) (g : Frame) : State :=
  if 8 ≤ s.port[n].fr.lockCount + 1 then (s.lockSeen n g).wrB (F.FRM_STATUS.LOCK_RX n) true else s.lockSeen n g

theorem State.handSync_eq (s : State) (n : Fin 8) (i : Nat) (g : Frame) :
    s.handSync n i g =
      let v := (s.lockCounted n g).syncFields n i g
      if v.on (F.FRM_STATUS.LOCK_RX n) && g.lock then
        (v.enterUp n (s.port[n].neg.advEee && s.port[n].neg.partnerEee)).syncHalves n
      else v :=
  rfl

theorem State.lockCounted_fr (s : State) (n : Fin 8) (g : Frame) :
    (s.lockCounted n g).port[n].fr = { s.port[n].fr with lockCount := min 8 (s.port[n].fr.lockCount + 1) } := by
  have seen : (s.lockSeen n g).port[n].fr = { s.port[n].fr with lockCount := min 8 (s.port[n].fr.lockCount + 1) } :=
    congrArg Port.fr (State.port_modPort_same _ _ _)
  unfold State.lockCounted
  split <;> exact seen

theorem State.lockCounted_LOCK_RX (s : State) (n : Fin 8) (g : Frame) :
    (s.lockCounted n g).on (F.FRM_STATUS.LOCK_RX n) =
      (s.on (F.FRM_STATUS.LOCK_RX n) || decide (7 ≤ s.port[n].fr.lockCount)) := by
  unfold State.lockCounted
  split
  next eighth => rw [State.on_wrB_same _ _ _ rfl, decide_eq_true (Nat.le_of_succ_le_succ eighth), Bool.or_true]
  next fewer =>
    rw [decide_eq_false (by omega), Bool.or_false]
    exact State.on_wrB_other s (f := F.FRM_STATUS.LOCK_PARTNER n) g.lock (by simp only [Fld.key]; omega)

theorem State.lockCounted_LOCK_PARTNER (s : State) (n : Fin 8) (g : Frame) :
    (s.lockCounted n g).on (F.FRM_STATUS.LOCK_PARTNER n) = g.lock := by
  have seen : (s.lockSeen n g).on (F.FRM_STATUS.LOCK_PARTNER n) = g.lock := State.on_wrB_same s _ _ rfl
  unfold State.lockCounted
  split
  · exact (State.on_wrB_other _ _ (by simp only [Fld.key]; omega)).trans seen
  · exact seen

theorem State.lockCounted_writes (s : State) (n : Fin 8) (g : Frame) :
    Writes [F.FRM_STATUS.LOCK_PARTNER n, F.FRM_STATUS.LOCK_RX n] s (s.lockCounted n g) := by
  have seen : Writes [F.FRM_STATUS.LOCK_PARTNER n, F.FRM_STATUS.LOCK_RX n] s (s.lockSeen n g) :=
    .modPort (.wr _ _ (by simp)) _ _
  exact .ite (seen.trans (.wr _ _ (by simp))) seen

theorem State.lockCounted_twinned (own : s.twinned n = false) (g : Frame) : (s.lockCounted n g).twinned n = false := by
  have kept := s.lockCounted_writes n g (F.TW_STATUS.TW_ACTIVE (pairOf n)) (by simp [Fld.key]; omega)
  exact (State.on_of_rd kept).trans own

/-- A good frame whose sender is not locked: the lock counts it, and the link stays where it is. -/
theorem State.handSync_unlocked (own : s.twinned n = false) (i : Nat) (unlocked : g.lock = false) :
    let t := s.handSync n i g
    t.port[n].fr = { s.port[n].fr with lockCount := min 8 (s.port[n].fr.lockCount + 1) } ∧ t.link n = s.link n ∧
      t.on (F.FRM_STATUS.LOCK_PARTNER n) = false ∧
      t.on (F.FRM_STATUS.LOCK_RX n) = (s.on (F.FRM_STATUS.LOCK_RX n) || decide (7 ≤ s.port[n].fr.lockCount)) ∧
      (g.typ = 3 ∨ g.typ = typSKIP → t.rd (F.FIELD_ERR.TYPE_BAD n) = (s.rd (F.FIELD_ERR.TYPE_BAD n) + 1) % 2 ^ 16) := by
  have alone := State.lockCounted_twinned own g
  have fields := State.syncFields_hg (g := g) alone i
  have written := s.lockCounted_writes n g
  obtain ⟨lockRx, lockPartner, typeBad⟩ := State.syncFields_rd (g := g) alone i
  have stays : s.handSync n i g = (s.lockCounted n g).syncFields n i g := by
    rw [State.handSync_eq, unlocked]
    simp only [Bool.and_false, Bool.false_eq_true, if_false]
  rw [stays]
  refine ⟨fields.fr.trans (s.lockCounted_fr n g), fields.link.trans (written _ (by simp [Fld.key]; omega)),
    (lockPartner.trans (s.lockCounted_LOCK_PARTNER n g)).trans unlocked, lockRx.trans (s.lockCounted_LOCK_RX n g),
    fun reserved => (typeBad reserved).trans ?_⟩
  rw [written _ (by simp [Fld.key]; omega)]

/-- The frame with which both ends are locked completes FRAME_SYNC. -/
theorem State.handSync_completes (own : s.twinned n = false) (i : Nat) (locked : g.lock = true)
    (eighth : 7 ≤ s.port[n].fr.lockCount) :
    let t := s.handSync n i g
    t.link n = stUP ∧ t.on (F.LINK_EVENT.LINK_UP n) = true ∧ t.port[n].rtx.expect = 0 ∧ t.port[n].rtx.next = 0 := by
  obtain ⟨lockRx, -, -⟩ := State.syncFields_rd (g := g) (State.lockCounted_twinned own g) i
  have both : (((s.lockCounted n g).syncFields n i g).on (F.FRM_STATUS.LOCK_RX n) && g.lock) = true := by
    rw [lockRx, s.lockCounted_LOCK_RX, decide_eq_true eighth, Bool.or_true, locked, Bool.and_true]
  have completes : s.handSync n i g = (((s.lockCounted n g).syncFields n i g).enterUp n
      (s.port[n].neg.advEee && s.port[n].neg.partnerEee)).syncHalves n := by
    rw [State.handSync_eq]
    exact if_pos both
  rw [completes]
  obtain ⟨up, event, -⟩ := State.enterUp_facts ((s.lockCounted n g).syncFields n i g) n
    (s.port[n].neg.advEee && s.port[n].neg.partnerEee)
  exact ⟨up, event, State.enterUp_rtx _ n _⟩

/-! ### A failed frame (R214, R216) -/

theorem State.handFailed_down (down : s.linkUp n = false) :
    s.handFailed n d = s.modPort n fun p => { p with fr := { p.fr with lockCount := 0 } } :=
  if_neg (Bool.not_eq_true _ ▸ down)

/-- Outside dual tracking, and where its two paths are the same, there is one path (R183). -/
theorem State.dual_single (single : s.rd (F.LAD_STATUS.RX_STATE n) ≠ rxDUAL ∨ s.port[n].lad.same = true) :
    s.dual n = false := by
  unfold State.dual
  obtain off | same := single
  · rw [beq_false_of_ne off, Bool.false_and]
  · rw [same, Bool.not_true, Bool.and_false]

/-- A failed frame has set the gap and ended the run of good frames. -/
def State.gapped (s : State) (n : Fin 8) : State :=
  (s.setGap n true).modPort n fun p => { p with rtx := { p.rtx with goods := 0 } }

theorem State.gapped_facts (s : State) (n : Fin 8) :
    (s.gapped n).port[n].rtx.gap = true ∧ (s.gapped n).port[n].rtx.expect = s.port[n].rtx.expect ∧
      (s.gapped n).port[n].rtx.fails = s.port[n].rtx.fails ∧ ∀ f, (s.gapped n).rd f = s.rd f := by
  obtain ⟨gap, expect, fails, -, -, regs⟩ := setGap_hg s n true
  unfold State.gapped
  rw [State.port_modPort_same]
  exact ⟨gap, expect, fails, regs⟩

/-- A failure of the only path counts toward a blackout. -/
theorem State.handFailed_up (up : s.linkUp n = true) (own : s.twinned n = false) (fresh : d.counted = false)
    (single : s.dual n = false) : s.handFailed n d = (s.gapped n).blackoutCount n := by
  simp only [State.handFailed, State.gapped, up, own, fresh, single, Bool.or_false, Bool.false_eq_true, if_false, if_true]

/-- A failure that counts: HOLD begins with the one that makes a blackout. -/
theorem State.blackoutCount_facts (up : s.link n = stUP) (own : s.twinned n = false) :
    let t := s.blackoutCount n
    t.port[n].rtx.gap = s.port[n].rtx.gap ∧ t.port[n].rtx.expect = s.port[n].rtx.expect ∧
      (s.port[n].rtx.fails + 1 < s.blkFails n → t.port[n].rtx.fails = s.port[n].rtx.fails + 1 ∧ t.link n = stUP) ∧
      (s.blkFails n ≤ s.port[n].rtx.fails + 1 → t.link n = stHOLD ∧ t.on (F.LINK_EVENT.HOLD_ENTER n) = true) := by
  intro t
  have port : (s.modPort n fun p => { p with rtx := { p.rtx with fails := p.rtx.fails + 1 } }).port[n] =
      { s.port[n] with rtx := { s.port[n].rtx with fails := s.port[n].rtx.fails + 1 } } := State.port_modPort_same _ _ _
  obtain ⟨hold, event, gap, expect, -⟩ := State.enterHold_facts
    (s.modPort n fun p => { p with rtx := { p.rtx with fails := p.rtx.fails + 1 } }) n up own
  have counts : t = if s.blkFails n ≤ s.port[n].rtx.fails + 1 then
      (s.modPort n fun p => { p with rtx := { p.rtx with fails := p.rtx.fails + 1 } }).enterHold n
      else s.modPort n fun p => { p with rtx := { p.rtx with fails := p.rtx.fails + 1 } } := by
    simp only [t, State.blackoutCount, port]
  rw [port] at gap expect
  rw [counts]
  split
  next blackout => exact ⟨gap, expect, fun fewer => absurd fewer (Nat.not_lt.mpr blackout), fun _ => ⟨hold, event⟩⟩
  next fewer =>
    rw [port]
    exact ⟨rfl, rfl, fun _ => ⟨rfl, up⟩, fun blackout => absurd blackout fewer⟩

/-- A failed frame in UP sets the gap, and HOLD begins with the one that makes a blackout. -/
theorem State.handFailed_facts (up : s.link n = stUP) (own : s.twinned n = false) (fresh : d.counted = false)
    (single : s.dual n = false) :
    let t := (s.handFailed n d).syncRtx n
    t.port[n].rtx.gap = true ∧ t.port[n].rtx.expect = s.port[n].rtx.expect ∧
      (s.port[n].rtx.fails + 1 < s.blkFails n → t.port[n].rtx.fails = s.port[n].rtx.fails + 1 ∧ t.link n = stUP) ∧
      (s.blkFails n ≤ s.port[n].rtx.fails + 1 → t.link n = stHOLD ∧ t.on (F.LINK_EVENT.HOLD_ENTER n) = true) := by
  have linkUp : s.linkUp n = true := by rw [State.linkUp, up]; rfl
  obtain ⟨gap, expect, fails, regs⟩ := s.gapped_facts n
  have limit : (s.gapped n).blkFails n = s.blkFails n := congrArg (max 1) (regs _)
  obtain ⟨gap', expect', fewer, blackout⟩ := State.blackoutCount_facts (s := s.gapped n) (n := n) ((regs _).trans up)
    ((State.on_of_rd (regs _)).trans own)
  rw [fails, limit] at fewer blackout
  have link : (((s.gapped n).blackoutCount n).syncRtx n).link n = ((s.gapped n).blackoutCount n).link n :=
    State.syncRtx_rd' _ n _ (by simp only [Fld.key]; omega)
  have event : (((s.gapped n).blackoutCount n).syncRtx n).on (F.LINK_EVENT.HOLD_ENTER n) =
      ((s.gapped n).blackoutCount n).on (F.LINK_EVENT.HOLD_ENTER n) :=
    State.on_of_rd (State.syncRtx_rd' _ n _ (by simp only [Fld.key]; omega))
  dsimp only
  rw [State.handFailed_up linkUp own fresh single, State.syncRtx_port, link, event]
  exact ⟨gap'.trans gap, expect'.trans expect, fewer, blackout⟩

/-! ### A good frame in UP (R214) -/

theorem State.syncRtx_side (s : State) (n : Fin 8) : (s.syncRtx n).side = s.side := by
  unfold State.syncRtx
  dsimp only
  split <;> rfl

/-- In `u` port `n` stands before the TYPE row of R214 with what `s` has received. -/
structure State.Receiving (s u : State) (n : Fin 8) : Prop where
  expect : u.port[n].rtx.expect = s.port[n].rtx.expect
  gap : u.port[n].rtx.gap = s.port[n].rtx.gap
  fails : u.port[n].rtx.fails = 0
  rxIdx : u.port[n].fr.rxIdx = s.port[n].fr.rxIdx + 1
  side : u.side = s.side
  link : u.link n = stUP
  host : u.domOn (112 + n.val) = s.domOn (112 + n.val)
  duplicates : u.rd (F.RTX_DUP.RX_DUP n) = s.rd (F.RTX_DUP.RX_DUP n)
  ahead : u.rd (F.RTX_RX_CNT.RX_AHEAD n) = s.rd (F.RTX_RX_CNT.RX_AHEAD n)
  backoff : u.rd (F.HL_CNT_EG.EG_BACKOFF n) = s.rd (F.HL_CNT_EG.EG_BACKOFF n)

/-- A good frame in UP reaches its TYPE row with what the port has received so far. -/
theorem State.handGood_receiving (own : s.twinned n = false) (up : s.link n = stUP) (i : Nat) :
    ∃ u, s.Receiving u n ∧ (s.handedOff n).handGood n i d g bad = (u.rxOwn n g).syncRtx n := by
  obtain ⟨u, same, hand, link⟩ := handGood_own (s.handedOff n) n i d g bad own up
  obtain ⟨rtx, rxIdx, -, -⟩ := s.handedOff_facts n
  have reads (f : Fld) (apart : (F.FRM_STATUS.LOCK_PARTNER n).key ≠ f.key) :
      ((s.handedOff n).wrB (F.FRM_STATUS.LOCK_PARTNER n) g.lock).rd f = s.rd f := State.rd_wrB_other _ _ apart
  have domain := (same.touch (F.PWC_DOM.STATE (112 + n.val)) (by simp only [FrameA, Fld.key]; omega)).trans
    (reads _ (by simp only [Fld.key]; omega))
  obtain ⟨duplicates, ahead, backoff⟩ := same.cnt
  have expect := same.exp
  have gap := same.gap
  have fails := same.fails
  have fr := same.fr
  rw [State.port_modPort_same] at expect gap fails fr
  refine ⟨u, ⟨?_, ?_, fails, ?_, same.side, link, congrArg (· == domON) domain, ?_, ?_, ?_⟩, hand⟩
  · exact expect.trans (congrArg Retrans.expect rtx : (s.handedOff n).port[n].rtx.expect = _)
  · exact gap.trans (congrArg Retrans.gap rtx : (s.handedOff n).port[n].rtx.gap = _)
  · exact (congrArg Framer.rxIdx fr).trans rxIdx
  · exact duplicates.trans (reads _ (by simp only [Fld.key]; omega))
  · exact ahead.trans (reads _ (by simp only [Fld.key]; omega))
  · exact backoff.trans (reads _ (by simp only [Fld.key]; omega))

/-- The registers that show the engine's state follow, and nothing else (R235, R236). -/
theorem State.rxOwn_syncRtx (u : State) (n : Fin 8) (g : Frame) :
    ((u.rxOwn n g).syncRtx n).port = (u.rxOwn n g).port ∧ ((u.rxOwn n g).syncRtx n).side = (u.rxOwn n g).side :=
  ⟨State.syncRtx_port _ n, State.syncRtx_side _ n⟩

section Row
variable {u : State} (rcv : s.Receiving u n)
include rcv

/-- Every TYPE row leaves the port in UP with no failure counted, due for the next frame. -/
theorem State.Receiving.stays :
    let t := (u.rxOwn n g).syncRtx n
    t.link n = stUP ∧ t.port[n].rtx.fails = 0 ∧ t.port[n].fr.rxIdx = s.port[n].fr.rxIdx + 1 := by
  obtain ⟨kept, -⟩ := rxOwn_facts u n g
  obtain ⟨port, -⟩ := State.rxOwn_syncRtx u n g
  dsimp only
  rw [port, kept.fails, kept.fr]
  refine ⟨?_, rcv.fails, rcv.rxIdx⟩
  exact ((State.syncRtx_rd' _ n _ (by simp only [Fld.key]; omega)).trans
    (kept.touch _ (by simp only [FrameA, Fld.key]; omega))).trans rcv.link

/-- The DATA frame that is expected is delivered where the egress FIFO has room for it. -/
theorem State.Receiving.delivered (data : g.typ = typDATA) (expected : seqDist g.seq s.port[n].rtx.expect = 0)
    (room : s.domOn (112 + n.val) = true ∧ s.side[ownPort n].egress.length + 52 ≤ 8192) :
    let t := (u.rxOwn n g).syncRtx n
    t.port[n].rtx.expect = seqNext s.port[n].rtx.expect ∧ t.port[n].rtx.gap = false ∧
      t.side[ownPort n].egress = s.side[ownPort n].egress ++ g.blks := by
  obtain ⟨-, delivers, -⟩ := rxOwn_facts u n g
  obtain ⟨port, side⟩ := State.rxOwn_syncRtx u n g
  rw [rcv.expect, rcv.host, rcv.side] at delivers
  dsimp only
  rw [port, side]
  exact delivers data expected room

/-- It waits to be sent again where the egress FIFO has none (R383). -/
theorem State.Receiving.backsOff (data : g.typ = typDATA) (expected : seqDist g.seq s.port[n].rtx.expect = 0)
    (on : s.domOn (112 + n.val) = true) (full : 8192 < s.side[ownPort n].egress.length + 52) :
    let t := (u.rxOwn n g).syncRtx n
    (t.port[n].rtx.expect = s.port[n].rtx.expect ∧ t.side[ownPort n].egress = s.side[ownPort n].egress) ∧
      t.rd (F.HL_CNT_EG.EG_BACKOFF n) = (s.rd (F.HL_CNT_EG.EG_BACKOFF n) + 1) % 2 ^ 16 := by
  obtain ⟨-, -, backs, -⟩ := rxOwn_facts u n g
  obtain ⟨port, side⟩ := State.rxOwn_syncRtx u n g
  rw [rcv.expect, rcv.host, rcv.side] at backs
  have row := backs data expected on full
  dsimp only
  rw [port, side, State.syncRtx_rd' _ n _ (by simp only [Fld.key]; omega), row, State.rd_count_same, rcv.backoff]
  exact ⟨⟨rcv.expect, congrArg (·[ownPort n].egress) rcv.side⟩, rfl⟩

/-- A DATA frame that has been delivered is dropped. -/
theorem State.Receiving.dropped (data : g.typ = typDATA) (past : seqDist g.seq s.port[n].rtx.expect < 0) :
    let t := (u.rxOwn n g).syncRtx n
    (t.port[n].rtx.expect = s.port[n].rtx.expect ∧ t.side[ownPort n].egress = s.side[ownPort n].egress) ∧
      t.port[n].rtx.gap = s.port[n].rtx.gap ∧
      t.rd (F.RTX_DUP.RX_DUP n) = (s.rd (F.RTX_DUP.RX_DUP n) + 1) % 2 ^ 32 := by
  obtain ⟨-, -, -, drops, -⟩ := rxOwn_facts u n g
  obtain ⟨port, side⟩ := State.rxOwn_syncRtx u n g
  rw [rcv.expect] at drops
  have row := drops data past
  dsimp only
  rw [port, side, State.syncRtx_rd' _ n _ (by simp only [Fld.key]; omega), row, State.rd_count_same, rcv.duplicates]
  exact ⟨⟨rcv.expect, congrArg (·[ownPort n].egress) rcv.side⟩, rcv.gap, rfl⟩

/-- A DATA frame past the one expected shows that frames are missing. -/
theorem State.Receiving.leavesGap (data : g.typ = typDATA) (later : 0 < seqDist g.seq s.port[n].rtx.expect) :
    let t := (u.rxOwn n g).syncRtx n
    (t.port[n].rtx.expect = s.port[n].rtx.expect ∧ t.side[ownPort n].egress = s.side[ownPort n].egress) ∧
      t.port[n].rtx.gap = true ∧ (seqDist g.seq s.port[n].rtx.expect ≤ 512 →
        t.rd (F.RTX_RX_CNT.RX_AHEAD n) = (s.rd (F.RTX_RX_CNT.RX_AHEAD n) + 1) % 2 ^ 16) := by
  obtain ⟨-, -, -, -, gaps, -⟩ := rxOwn_facts u n g
  obtain ⟨port, side⟩ := State.rxOwn_syncRtx u n g
  rw [rcv.expect] at gaps
  obtain ⟨gap, expect, -, -, egress, regs⟩ := setGap_hg (if seqDist g.seq s.port[n].rtx.expect ≤ 512
    then u.count (F.RTX_RX_CNT.RX_AHEAD n) else u.count (F.RTX_RX_CNT.SEQ_FAR n)) n true
  dsimp only
  rw [port, side, State.syncRtx_rd' _ n _ (by simp only [Fld.key]; omega), gaps data later, gap, expect, egress, regs]
  refine ⟨?_, rfl, fun near => ?_⟩
  · split <;> exact ⟨rcv.expect, congrArg (·[ownPort n].egress) rcv.side⟩
  · rw [if_pos near, State.rd_count_same, rcv.ahead]

/-- A FILLER delivers nothing; the number it names shows whether frames are missing. -/
theorem State.Receiving.filled (filler : g.typ = typFILLER) :
    let t := (u.rxOwn n g).syncRtx n
    let dist := seqDist g.seq s.port[n].rtx.expect
    (t.port[n].rtx.expect = s.port[n].rtx.expect ∧ t.side[ownPort n].egress = s.side[ownPort n].egress) ∧
      t.port[n].rtx.gap = if dist = 0 then false else if 0 < dist then true else s.port[n].rtx.gap := by
  obtain ⟨-, -, -, -, -, fills⟩ := rxOwn_facts u n g
  obtain ⟨port, side⟩ := State.rxOwn_syncRtx u n g
  rw [rcv.expect] at fills
  have same : u.port[n].rtx.expect = s.port[n].rtx.expect ∧ u.side[ownPort n].egress = s.side[ownPort n].egress :=
    ⟨rcv.expect, congrArg (·[ownPort n].egress) rcv.side⟩
  have set (v : Bool) : ((u.setGap n v).port[n].rtx.expect = s.port[n].rtx.expect ∧
      (u.setGap n v).side[ownPort n].egress = s.side[ownPort n].egress) ∧ (u.setGap n v).port[n].rtx.gap = v := by
    obtain ⟨gap, expect, -, -, egress, -⟩ := setGap_hg u n v
    rw [egress, expect]
    exact ⟨same, gap⟩
  dsimp only
  rw [port, side, fills filler]
  split
  · exact set false
  · split
    · exact set true
    · exact ⟨same, rcv.gap⟩

end Row

end FramesHandedOff

/-- Settles O37: nothing to hand off, then a failed and a good frame in FRAME_SYNC and in UP, each by the rule above for it. -/
theorem framesHandedOff : Obligations.FramesHandedOff := by
  unfold Obligations.FramesHandedOff
  intro s n bad pcs spire own f r e runs
  obtain ⟨rtx, rxIdx, lockCount, same⟩ := s.handedOff_facts n
  refine ⟨fun run empty => Ends.frameHandoff pcs spire run (State.frameHandoff_none empty), fun down sync d next => ?_,
    fun up d next => ?_⟩
  · refine ⟨fun failed => ?_, fun g good => ?_⟩
    · refine ⟨_, Ends.frameHandoff pcs spire (.inr sync) (State.frameHandoff_failed own next failed), ?_⟩
      rw [State.syncRtx_port, State.handFailed_down (s := s.handedOff n) down, State.port_modPort_same]
      exact ⟨rfl, rxIdx⟩
    · have ends := Ends.frameHandoff pcs spire (.inr sync) ((State.frameHandoff_good (bad := bad) next good).trans
        (if_neg (Bool.not_eq_true _ ▸ down)))
      refine ⟨fun unlocked => ?_, fun locked eighth => ?_⟩
      · obtain ⟨fr, rest⟩ := State.handSync_unlocked (s := s.handedOff n) own f.rxIdx unlocked
        rw [lockCount] at fr rest
        exact ⟨_, ends, congrArg Framer.lockCount fr, (congrArg Framer.rxIdx fr).trans rxIdx, rest⟩
      · exact ⟨_, ends, State.handSync_completes (s := s.handedOff n) own f.rxIdx locked (lockCount ▸ eighth)⟩
  · have linkUp : s.linkUp n = true := by rw [State.linkUp, up]; rfl
    refine ⟨fun failed fresh single => ?_, fun g good => ?_⟩
    · have facts := State.handFailed_facts (s := s.handedOff n) up own fresh (State.dual_single (same ▸ single))
      rw [rtx] at facts
      exact ⟨_, Ends.frameHandoff pcs spire (.inl linkUp) (State.frameHandoff_failed own next failed), facts⟩
    · obtain ⟨u, rcv, row⟩ := State.handGood_receiving (d := d) (g := g) (bad := bad) own up f.rxIdx
      have hand := ((State.frameHandoff_good (bad := bad) next good).trans (if_pos linkUp)).trans row
      obtain ⟨link, fails, idx⟩ := rcv.stays (g := g)
      exact ⟨_, Ends.frameHandoff pcs spire (.inl linkUp) hand, link, fails, idx, rcv.delivered, rcv.backsOff, rcv.dropped,
        rcv.leavesGap, rcv.filled⟩

end Sys2Proof.Machine

/-! SUPPORT. A tick of the default policy (06_rate_ladder.md R186-R194, R201): what the policy asks for, what LAD_MODE makes of it
and what the tick leaves in the registers and the ladder state, then the statement about it. -/

namespace Sys2Proof.Machine

section LadderTicks
variable {s : State} {n : Fin 8}

/-! ### What the policy asks for (R189, R190) -/

/-- The policy wants `w` at this tick: the downshift of R189, or the upshift of R190 where nothing triggers a downshift. -/
def State.Wants (s : State) (n : Fin 8) (w : Want) : Prop :=
  let i := s.tickIn n
  let v := s.tickView n i
  s.wantDown n i v = some w ∨
    (s.wantDown n i v = none ∧ v.bySnr = false ∧ v.byIter = false ∧ v.byFail = false ∧ s.wantUp n i v = some w)

/-- What the policy asks for at this tick, if the receiver may make a request. -/
def State.policyWant (s : State) (n : Fin 8) : Option Want :=
  let i := s.tickIn n
  let v := s.tickView n i
  if s.ladIdle n then (s.wantDown n i v).or (if v.bySnr || v.byIter || v.byFail then none else s.wantUp n i v) else none

theorem State.policyWant_busy (busy : s.ladIdle n = false) : s.policyWant n = none :=
  if_neg (Bool.not_eq_true _ ▸ busy)

theorem State.policyWant_eq_some_iff (idle : s.ladIdle n = true) {w : Want} : s.policyWant n = some w ↔ s.Wants n w := by
  simp only [State.policyWant, State.Wants, idle, if_true, Option.or_eq_some_iff, Option.ite_none_left_eq_some,
    Bool.or_eq_true, not_or, Bool.not_eq_true, and_assoc]

theorem State.policyWant_none (nothing : ∀ w, ¬ s.Wants n w) : s.policyWant n = none := by
  cases idle : s.ladIdle n with
  | false => exact State.policyWant_busy idle
  | true => exact Option.eq_none_iff_forall_ne_some.mpr fun w asks => nothing w ((State.policyWant_eq_some_iff idle).mp asks)

section WithoutMargin
variable {i : TickIn} {v : TickView} (unknown : i.ref = none)
include unknown

/-- Without a margin a trigger asks for one bit less, where there is one (R189). -/
theorem State.wantDown_unknown (trigger : v.byIter = true ∨ v.byFail = true) :
    s.wantDown n i v = if 8 < v.b then some
      { rung := 9 * v.tier + (v.b - 9), load := actLoad (9 * v.tier + (v.b - 9)) v.load, margin := none } else none := by
  have triggered : (v.byIter || v.byFail) = true := (Bool.or_eq_true _ _).mpr trigger
  simp only [State.wantDown, unknown, triggered, Bool.true_and, decide_eq_true_eq, Nat.sub_sub]

theorem State.wantUp_unknown : s.wantUp n i v = none := by
  simp only [State.wantUp, unknown]

/-- Without a margin no tick lies below DN_MARGIN, so the run of such ticks is over. -/
theorem State.tickView_bySnr_unknown : (s.tickView n i).bySnr = false := by
  simp [State.tickView, unknown, runOn]

end WithoutMargin

/-! ### What LAD_MODE makes of it (R194, R201) -/

/-- LAD_PROPOSE shows `w`, with its margin where that is known. -/
def State.Proposes (t : State) (n : Fin 8) (w : Want) : Prop :=
  t.on (F.LAD_PROPOSE.P_VALID n) = true ∧ t.rd (F.LAD_PROPOSE.P_RUNG n) = w.rung % 32 ∧
    t.rd (F.LAD_PROPOSE.P_LOAD n) = w.load % 64 ∧
    ∀ m, w.margin = some m → t.rd (F.LAD_PROPOSE.P_MARGIN n) = marginField m % 1024

theorem State.propose_proposes (s : State) (n : Fin 8) (w : Want) : (s.propose n w).Proposes n w := by
  obtain ⟨valid, rung, load, margin, -⟩ := propose_facts s n w
  exact ⟨valid, rung, load, margin⟩

/-- The event of a proposal leaves LAD_PROPOSE as it is. -/
theorem State.Proposes.event {t : State} {w : Want} (h : t.Proposes n w) :
    (t.wrB (F.LAD_EVENT.PROPOSAL n) true).Proposes n w := by
  have reads (g : Fld) (page : g.key / 32 = 0x203014 + 0x100000 * n.val) :
      (t.wrB (F.LAD_EVENT.PROPOSAL n) true).rd g = t.rd g :=
    State.rd_wrB_other _ _ (by simp only [Fld.key] at page ⊢; omega)
  obtain ⟨valid, rung, load, margin⟩ := h
  refine ⟨(State.on_of_rd (reads _ ?_)).trans valid, (reads _ ?_).trans rung, (reads _ ?_).trans load,
    fun m known => (reads _ ?_).trans (margin m known)⟩ <;> simp only [Fld.key] <;> omega

section Target
variable {w : Want}

theorem State.policyTarget_auto (mode : s.rd (F.LAD_CTRL.LAD_MODE n) = 0) :
    s.policyTarget n w = s.ladRequest n w.rung w.load := by
  simp only [State.policyTarget, mode]

theorem State.policyTarget_advise (mode : s.rd (F.LAD_CTRL.LAD_MODE n) = 1) :
    s.policyTarget n w = (s.propose n w).wrB (F.LAD_EVENT.PROPOSAL n) true := by
  simp only [State.policyTarget, mode]

theorem State.policyTarget_manual (mode : s.rd (F.LAD_CTRL.LAD_MODE n) = 2) : s.policyTarget n w = s.propose n w := by
  simp only [State.policyTarget, mode]

theorem State.policyTarget_fixed (mode : 3 ≤ s.rd (F.LAD_CTRL.LAD_MODE n)) : s.policyTarget n w = s := by
  unfold State.policyTarget
  split
  case h_4 => rfl
  all_goals omega

/-- Beside RX_STATE, which a request alone changes, a target reaches the proposal and its event only. -/
theorem State.policyTarget_rd {g : Fld} (request : s.rd (F.LAD_CTRL.LAD_MODE n) = 0 → g.key ≠ (F.LAD_STATUS.RX_STATE n).key)
    (event : g.key ≠ (F.LAD_EVENT.PROPOSAL n).key)
    (proposal : g.key / 32 ≠ 0x203014 + 0x100000 * n.val ∨ g.key = (F.LAD_PROPOSE.CUR_MARGIN n).key) :
    (s.policyTarget n w).rd g = s.rd g := by
  obtain ⟨-, -, -, -, -, proposes⟩ := propose_facts s n w
  obtain mode | mode | mode | mode : s.rd (F.LAD_CTRL.LAD_MODE n) = 0 ∨ s.rd (F.LAD_CTRL.LAD_MODE n) = 1 ∨
      s.rd (F.LAD_CTRL.LAD_MODE n) = 2 ∨ 3 ≤ s.rd (F.LAD_CTRL.LAD_MODE n) := by omega
  · obtain ⟨-, -, requests⟩ := ladRequest_facts s n w.rung w.load
    rw [State.policyTarget_auto mode, requests g (request mode)]
  · rw [State.policyTarget_advise mode, State.rd_wrB_other _ _ event.symm, proposes g proposal]
  · rw [State.policyTarget_manual mode, proposes g proposal]
  · rw [State.policyTarget_fixed mode]

end Target

/-! ### The policy's evaluation (R186-R194) -/

/-- The policy applies its target, if any, to a state `u` in which the tick's margin is shown and only it and TIER_HINT with its
event differ from `s`. -/
theorem State.policy_targets (s : State) (n : Fin 8) : ∃ u : State,
    (∀ g : Fld, g.key ≠ (F.LAD_STATUS.TIER_HINT n).key → g.key ≠ (F.LAD_EVENT.TIER n).key →
      g.key ≠ (F.LAD_PROPOSE.CUR_MARGIN n).key → u.rd g = s.rd g) ∧
    (∀ m, (s.tickView n (s.tickIn n)).margin = some m → u.rd (F.LAD_PROPOSE.CUR_MARGIN n) = marginField m % 1024) ∧
    s.policy n = (s.policyWant n).elim u (u.policyTarget n) := by
  obtain ⟨u, kept, margin, evaluates⟩ := policy_base s n
  refine ⟨u, kept, margin, evaluates.trans ?_⟩
  dsimp only [State.policyWant]
  cases s.ladIdle n with
  | false => rfl
  | true =>
    cases s.wantDown n (s.tickIn n) (s.tickView n (s.tickIn n)) with
    | some w => rfl
    | none =>
      simp only [if_true, Option.none_or]
      split
      · rfl
      · cases s.wantUp n (s.tickIn n) (s.tickView n (s.tickIn n)) <;> rfl

theorem State.policy_CUR_MARGIN {m : Int} (known : (s.tickView n (s.tickIn n)).margin = some m) :
    (s.policy n).rd (F.LAD_PROPOSE.CUR_MARGIN n) = marginField m % 1024 := by
  obtain ⟨u, -, margin, evaluates⟩ := s.policy_targets n
  rw [evaluates]
  cases s.policyWant n with
  | none => exact margin m known
  | some w =>
    refine Eq.trans (State.policyTarget_rd ?_ ?_ (.inr rfl)) (margin m known)
    all_goals simp only [Fld.key]; omega

/-- Beside TIER_HINT, the proposal, the events and the RX_STATE of a request, the policy leaves every register as it is. -/
theorem State.policy_rd {g : Fld} (hint : g.key ≠ (F.LAD_STATUS.TIER_HINT n).key)
    (request : s.policyWant n ≠ none → s.rd (F.LAD_CTRL.LAD_MODE n) = 0 → g.key ≠ (F.LAD_STATUS.RX_STATE n).key)
    (proposal : g.key / 32 ≠ 0x203014 + 0x100000 * n.val) (event : g.key / 32 ≠ 0x203018 + 0x100000 * n.val) :
    (s.policy n).rd g = s.rd g := by
  obtain ⟨u, kept, -, evaluates⟩ := s.policy_targets n
  have same : u.rd g = s.rd g :=
    kept g hint (by simp only [Fld.key] at event ⊢; omega) (by simp only [Fld.key] at proposal ⊢; omega)
  have mode : u.rd (F.LAD_CTRL.LAD_MODE n) = s.rd (F.LAD_CTRL.LAD_MODE n) :=
    kept _ (by simp only [Fld.key]; omega) (by simp only [Fld.key]; omega) (by simp only [Fld.key]; omega)
  rw [evaluates]
  cases asks : s.policyWant n with
  | none => exact same
  | some w =>
    refine (State.policyTarget_rd (mode ▸ request (by simp [asks])) ?_ (.inl proposal)).trans same
    simp only [Fld.key] at event ⊢
    omega

/-- The receiver stays where it was unless a target meets AUTO. -/
theorem State.policy_RX_STATE (quiet : s.policyWant n = none ∨ s.rd (F.LAD_CTRL.LAD_MODE n) ≠ 0) :
    (s.policy n).rd (F.LAD_STATUS.RX_STATE n) = s.rd (F.LAD_STATUS.RX_STATE n) := by
  have no_request (asks : s.policyWant n ≠ none) (auto : s.rd (F.LAD_CTRL.LAD_MODE n) = 0) : False :=
    quiet.elim asks (absurd auto)
  refine State.policy_rd ?_ (fun asks auto => (no_request asks auto).elim) ?_ ?_ <;> simp only [Fld.key] <;> omega

theorem State.policy_frames_iters (s : State) (n : Fin 8) :
    (s.policy n).decFrames n = s.decFrames n ∧ (s.policy n).decIters n = s.decIters n := by
  have kept {g : Fld} (decoder : 0x210000 + 0x100000 * n.val ≤ g.key / 32) : (s.policy n).rd g = s.rd g := by
    refine State.policy_rd ?_ (fun _ _ => ?_) (by omega) (by omega) <;> simp only [Fld.key] at decoder ⊢ <;> omega
  unfold State.decFrames State.decIters
  constructor
  all_goals rw [kept (by simp only [Fld.key]; omega), kept (by simp only [Fld.key]; omega)]

section Asks
variable {w : Want} (asks : s.policyWant n = some w)
include asks

/-- The target is applied to a state under the same LAD_MODE. -/
theorem State.policy_asks : ∃ u : State, u.rd (F.LAD_CTRL.LAD_MODE n) = s.rd (F.LAD_CTRL.LAD_MODE n) ∧
    s.policy n = u.policyTarget n w := by
  obtain ⟨u, kept, -, evaluates⟩ := s.policy_targets n
  rw [asks] at evaluates
  exact ⟨u, kept _ (by simp only [Fld.key]; omega) (by simp only [Fld.key]; omega) (by simp only [Fld.key]; omega), evaluates⟩

theorem State.policy_auto (mode : s.rd (F.LAD_CTRL.LAD_MODE n) = 0) :
    (s.policy n).rd (F.LAD_STATUS.RX_STATE n) = rxREQUESTING ∧ (s.policy n).port[n].lad.reqRung = w.rung ∧
      (s.policy n).port[n].lad.reqLoad = actLoad w.rung w.load := by
  obtain ⟨u, same, evaluates⟩ := State.policy_asks asks
  obtain ⟨state, lad, -⟩ := ladRequest_facts u n w.rung w.load
  rw [evaluates, State.policyTarget_auto (same.trans mode), lad]
  exact ⟨state, rfl, rfl⟩

theorem State.policy_advise (mode : s.rd (F.LAD_CTRL.LAD_MODE n) = 1) :
    (s.policy n).Proposes n w ∧ (s.policy n).on (F.LAD_EVENT.PROPOSAL n) = true := by
  obtain ⟨u, same, evaluates⟩ := State.policy_asks asks
  rw [evaluates, State.policyTarget_advise (same.trans mode)]
  exact ⟨(u.propose_proposes n w).event, State.on_wrB_same _ _ _ rfl⟩

theorem State.policy_manual (mode : s.rd (F.LAD_CTRL.LAD_MODE n) = 2) : (s.policy n).Proposes n w := by
  obtain ⟨u, same, evaluates⟩ := State.policy_asks asks
  rw [evaluates, State.policyTarget_manual (same.trans mode)]
  exact u.propose_proposes n w

end Asks

/-! ### The command (R186, R191) -/

/-- The inputs count afresh from what they stand at; no register changes. -/
theorem State.tickTaken_lad (t : State) (n : Fin 8) : (t.tickTaken n).port[n].lad =
    { t.port[n].lad with lastFrames := t.decFrames n, lastIter := t.decIters n, cleanFails := 0 } :=
  congrArg Port.lad (State.port_modPort_same _ _ _)

theorem State.tickTaken_rd (t : State) (n : Fin 8) (g : Fld) : (t.tickTaken n).rd g = t.rd g := State.rd_modPort _ _ _ _

theorem State.Proposes.tickTaken {t : State} {w : Want} (h : t.Proposes n w) : (t.tickTaken n).Proposes n w := h

section Runs
variable (pcs : s.pcsOn n = true) (up : s.linkUp n = true) (spire : s.spire n = true)
include pcs up spire

theorem Ends.ladderTick_hold (hold : s.link n = stHOLD) : Ends (.ladderTick n) s (s.tickTaken n) :=
  Ends.of_iff rfl (by rw [pcs, up, spire]; rfl) (by rw [if_pos hold])

theorem Ends.ladderTick_skips (running : s.link n ≠ stHOLD) (skips : 0 < s.port[n].lad.skipTicks) :
    Ends (.ladderTick n) s
      ((s.modPort n fun p => { p with lad := { p.lad with skipTicks := p.lad.skipTicks - 1 } }).tickTaken n) :=
  Ends.of_iff rfl (by rw [pcs, up, spire]; rfl) (by rw [if_neg running, if_pos skips])

theorem Ends.ladderTick_evaluates (running : s.link n ≠ stHOLD) (due : s.port[n].lad.skipTicks = 0) :
    Ends (.ladderTick n) s ((s.policy n).tickTaken n) :=
  Ends.of_iff rfl (by rw [pcs, up, spire]; rfl) (by rw [if_neg running, if_neg (Nat.not_lt.mpr due.le)])

end Runs

end LadderTicks

/-- Settles O39: in HOLD, in the ticks after it and at an evaluation, by the rule above for each; then what a tick asks for
without a margin. -/
theorem ladderTicks : Obligations.LadderTicks := by
  unfold Obligations.LadderTicks
  intro s n pcs up spire i v l runs wants fresh proposes quiet
  refine ⟨Ends.ladderTick_hold pcs up spire, Ends.ladderTick_skips pcs up spire, fun ⟨running, due⟩ => ?_,
    fun unknown trigger => ?_, fun unknown => ?_, decide_eq_true_iff⟩
  · obtain ⟨frames, iters⟩ := s.policy_frames_iters n
    have lad := (s.policy n).tickTaken_lad n
    have stays (h : s.policyWant n = none ∨ s.rd (F.LAD_CTRL.LAD_MODE n) ≠ 0) : quiet ((s.policy n).tickTaken n) :=
      ((s.policy n).tickTaken_rd n _).trans (State.policy_RX_STATE h)
    refine ⟨(s.policy n).tickTaken n, Ends.ladderTick_evaluates pcs up spire running due, ?_, fun m known => ?_, fun busy => ?_,
      fun idle w want => ?_, fun idle nothing => stays (.inl (State.policyWant_none nothing))⟩
    · simp only [fresh, lad, frames, iters, and_self]
    · exact (State.tickTaken_rd _ _ _).trans (State.policy_CUR_MARGIN known)
    · exact stays (.inl (State.policyWant_busy busy))
    · have asks : s.policyWant n = some w := (State.policyWant_eq_some_iff idle).mpr want
      refine ⟨fun auto => ?_, fun advise => ?_, fun manual => ?_, fun fixed => stays (.inr (by omega))⟩
      · rw [State.tickTaken_rd, lad]
        exact State.policy_auto asks auto
      · obtain ⟨proposed, event⟩ := State.policy_advise asks advise
        exact ⟨stays (.inr (by omega)), proposed.tickTaken, (State.on_of_rd (State.tickTaken_rd _ _ _)).trans event⟩
      · exact ⟨stays (.inr (by omega)), (State.policy_manual asks manual).tickTaken⟩
  · rw [State.wantDown_unknown unknown trigger]
    exact ⟨fun lowest => if_neg (by omega), fun above => if_pos above⟩
  · exact ⟨State.tickView_bySnr_unknown unknown, State.wantUp_unknown unknown⟩

end Sys2Proof.Machine

/-! SUPPORT. A block from the host (07_retransmission_spill.md R226, R232, 11_host_lanes.md R381, R389, R391): what the lane's
receive PCS lets through, what rate matching does to it and how it enters the ingress FIFO, then the statement about them. -/

namespace Sys2Proof.Machine

section IngressBlocks
variable {s u : State} {n : Fin 8} {o : Fin 12} {sync pay fill : Nat} {nextStart : Bool} {b : Blk}

/-! ### The ingress stream of an owner -/

/-- Where a block from the host can write before it enters the ingress FIFO, and the FIFO's level check after it: EYE_W and
QF_EYE, the counts of bad blocks, HOST_LPI, and what the level check writes. -/
def BlockA (a : Nat) : Prop :=
  TakeA a ∨ (0x9300 ≤ a ∧ a < 0x9320) ∨ (0x80000 ≤ a ∧ a < 0x90000 ∧ (a % 0x2000 = 0x110 ∨ a % 0x2000 = 0x138)) ∨
    (0x200000 ≤ a ∧ a % 0x100000 = 0x81004)

/-- What decides how a block enters owner `o`'s ingress FIFO is in `u` as it is in `s`. -/
structure SameIngress (s u : State) (o : Fin 12) : Prop where
  regs : Touch BlockA s u
  twin : u.twin = s.twin
  ingress : u.side[o].ingress = s.side[o].ingress
  inFrame : u.side[o].inFrame = s.side[o].inFrame
  dropping : u.side[o].dropping = s.side[o].dropping

namespace SameIngress

theorem of_side (regs : Touch BlockA s u) (twin : u.twin = s.twin) (side : u.side = s.side) : SameIngress s u o :=
  ⟨regs, twin, by rw [side], by rw [side], by rw [side]⟩

variable (h : SameIngress s u o)
include h

/-- Rate matching keeps the last block in the host side; the stream is as it was. -/
theorem rmPrev (b : Blk) : SameIngress s (u.modSide o fun x => { x with rmPrev := some b }) o := by
  obtain ⟨regs, twin, ingress, inFrame, dropping⟩ := h
  refine ⟨regs, twin, ?_, ?_, ?_⟩ <;> simpa [State.modSide]

theorem ownerOf : u.ownerOf n = s.ownerOf n := by
  unfold State.ownerOf State.twActive
  rw [State.on_of_rd (h.regs _ (by simp only [BlockA, TakeA, Fld.key]; omega))]

theorem ownerUp : u.ownerUp o = s.ownerUp o :=
  ownerUp_congr _ _ _ h.twin fun g hg => h.regs g (by simp only [BlockA, TakeA]; omega)

theorem spillRegs : u.spillRegs o = s.spillRegs o := by
  unfold State.spillRegs State.domOn
  rw [h.regs _ (by simp only [BlockA, TakeA, Fld.key]; split <;> omega)]

theorem counting : u.counting o = s.counting o := by
  have link (m : Fin 8) : u.link m = s.link m := h.regs _ (by simp only [BlockA, TakeA, Fld.key]; omega)
  have mode (m : Fin 8) : u.rd (F.LINK_STATUS.MODE m) = s.rd (F.LINK_STATUS.MODE m) :=
    h.regs _ (by simp only [BlockA, TakeA, Fld.key]; omega)
  unfold State.counting State.ownerSpire
  simp only [h.spillRegs, link, mode]

end SameIngress

/-! ### A block enters the ingress FIFO (R226) -/

/-- Counter `f` of owner `o`'s host side stands in `t` one further than in `s` where it counts: in Spire mode or for a twin
engine (R253). -/
def State.Counts (s : State) (o : Fin 12) (t : State) (f : Fld) : Prop :=
  (s.spillRegs o = true → s.ownerSpire o = true ∨ 8 ≤ o.val → t.rd f = (s.rd f + 1) % 2 ^ f.width) ∧
    (s.ownerSpire o = false → o.val < 8 → t.rd f = s.rd f)

theorem State.counts_of_counting {t : State} {f : Fld}
    (h : t.rd f = if s.counting o then (s.rd f + 1) % 2 ^ f.width else s.rd f) : s.Counts o t f := by
  unfold State.counting at h
  constructor
  · intro powered runs
    rw [h, if_pos (by simpa [powered] using runs)]
  · intro standard own
    rw [h, if_neg (by simp [standard, own])]

/-- Outside a frame a block that starts none enters where there is room. -/
theorem State.ingressPush_outside (outside : u.side[o].inFrame = false) (start : b.isStart = false)
    (room : u.side[o].ingress.length + 1 < 8192) :
    u.ingressPush o b = u.modSide o fun x => { x with ingress := x.ingress ++ [b] } := by
  unfold State.ingressPush
  simp only [outside, start, room, if_true, if_false, Bool.false_eq_true]

/-- The level check after a block leaves the stream as the block has made it. -/
theorem State.ingressBlk_stream (n : Fin 8) (b : Blk) (up : u.ownerUp o = true) :
    (u.ingressBlk n o b).side[o].ingress = (u.ingressPush o b).side[o].ingress ∧
      (u.ingressBlk n o b).side[o].inFrame = (u.ingressPush o b).side[o].inFrame ∧
      (u.ingressBlk n o b).side[o].dropping = (u.ingressPush o b).side[o].dropping :=
  have side := (ingressBlk_up u n o b up).1
  ⟨(congrArg HostSide.ingress side :), (congrArg HostSide.inFrame side :), (congrArg HostSide.dropping side :)⟩

theorem State.lpiTrigger_twin (u : State) (n : Fin 8) : (u.lpiTrigger n).twin = u.twin := by
  unfold State.lpiTrigger
  dsimp only
  split <;> rfl

/-- A block outside a frame that starts none enters, and the owner's traffic still reaches the line. -/
theorem State.ingressBlk_outside (n : Fin 8) (up : u.ownerUp o = true) (outside : u.side[o].inFrame = false)
    (start : b.isStart = false) (room : u.side[o].ingress.length + 1 < 8192) :
    (u.ingressBlk n o b).side[o].ingress = u.side[o].ingress ++ [b] ∧ (u.ingressBlk n o b).side[o].inFrame = false ∧
      (u.ingressBlk n o b).ownerUp o = true ∧ Touch TakeA u (u.ingressBlk n o b) := by
  have push := State.ingressPush_outside outside start room
  obtain ⟨ingress, inFrame, -⟩ := State.ingressBlk_stream n b up
  have regs : Touch TakeA u (u.ingressBlk n o b) := fun g hg => by
    rw [(ingressBlk_up u n o b up).2 g hg, push, State.rd_modSide]
  have twin : (u.ingressBlk n o b).twin = u.twin := by
    have checked := (KeptP.spillCheck (u.ingressPush o b) o).twin
    rw [push] at checked
    simp only [State.ingressBlk, up, if_true, push]
    split
    · exact checked
    · exact (State.lpiTrigger_twin _ _).trans checked
  rw [push] at ingress inFrame
  refine ⟨?_, ?_, ?_, regs⟩
  · simpa [State.modSide] using ingress
  · exact inFrame.trans (by simpa [State.modSide] using outside)
  · rwa [ownerUp_congr u _ o twin fun g hg => regs g (by simp only [TakeA]; omega)]

namespace SameIngress
variable (h : SameIngress s u o) (up : s.ownerUp o = true)
include h up

/-- What a block counts as it enters still stands after the level check. -/
theorem counts {f : Fld} (clear : ¬ BlockA (f.key / 32)) (count : (u.ingressPush o b).rd f =
      if u.counting o then (u.rd f + 1) % 2 ^ f.width else u.rd f) :
    s.Counts o (u.ingressBlk n o b) f := by
  rw [h.counting, h.regs f clear] at count
  exact State.counts_of_counting (((ingressBlk_up u n o b (h.ownerUp.trans up)).2 f (mt .inl clear)).trans count)

section Open
variable (frame : s.side[o].inFrame = true)
include frame

/-- The rest of a dropped frame is dropped with it. -/
theorem data_dropped (drops : s.side[o].dropping = true) :
    (u.ingressBlk n o ⟨false, pay⟩).side[o].ingress = s.side[o].ingress ∧
      (u.ingressBlk n o ⟨false, pay⟩).side[o].dropping = true := by
  obtain ⟨side, -⟩ := (push_in u o pay (h.inFrame.trans frame)).1 (h.dropping.trans drops)
  obtain ⟨ingress, -, dropping⟩ := State.ingressBlk_stream n ⟨false, pay⟩ (h.ownerUp.trans up)
  rw [side] at ingress dropping
  exact ⟨ingress.trans h.ingress, dropping⟩

/-- A data block extends the frame that is open. -/
theorem data_extends (stored : s.side[o].dropping = false) (room : s.side[o].ingress.length + 1 < 8192) :
    (u.ingressBlk n o ⟨false, pay⟩).side[o].ingress = s.side[o].ingress ++ [⟨false, pay⟩] ∧
      (u.ingressBlk n o ⟨false, pay⟩).side[o].inFrame = true := by
  have side := (push_in u o pay (h.inFrame.trans frame)).2.1 (h.dropping.trans stored) (h.ingress ▸ room)
  obtain ⟨ingress, inFrame, -⟩ := State.ingressBlk_stream n ⟨false, pay⟩ (h.ownerUp.trans up)
  rw [side] at ingress inFrame
  exact ⟨h.ingress ▸ ingress, inFrame⟩

/-- A data block that finds no room truncates its frame, and ING_LOSS counts it. -/
theorem data_truncates (stored : s.side[o].dropping = false) (full : ¬ s.side[o].ingress.length + 1 < 8192) :
    (u.ingressBlk n o ⟨false, pay⟩).side[o].ingress = s.side[o].ingress ++ [errorBlk] ∧
      (u.ingressBlk n o ⟨false, pay⟩).side[o].dropping = true ∧
      s.Counts o (u.ingressBlk n o ⟨false, pay⟩) (F.ING_LOSS.TRUNC (spillPort o)) := by
  obtain ⟨side, count⟩ := (push_in u o pay (h.inFrame.trans frame)).2.2 (h.dropping.trans stored) (h.ingress ▸ full)
  obtain ⟨ingress, -, dropping⟩ := State.ingressBlk_stream n ⟨false, pay⟩ (h.ownerUp.trans up)
  rw [side] at ingress dropping
  exact ⟨h.ingress ▸ ingress, dropping, h.counts up (by simp only [BlockA, TakeA, Fld.key]; omega) count⟩

end Open

section Start
variable (outside : s.side[o].inFrame = false) (start : b.isStart = true)
include outside start

/-- A start block enters where a whole frame has room. -/
theorem start_enters (room : s.side[o].ingress.length + 1208 ≤ 8192) :
    (u.ingressBlk n o b).side[o].ingress = s.side[o].ingress ++ [b] ∧ (u.ingressBlk n o b).side[o].inFrame = true ∧
      (u.ingressBlk n o b).side[o].dropping = false := by
  have side := (push_start u o b (h.inFrame.trans outside) start).1 (h.ingress ▸ room)
  obtain ⟨ingress, inFrame, dropping⟩ := State.ingressBlk_stream n b (h.ownerUp.trans up)
  rw [side] at ingress inFrame dropping
  exact ⟨h.ingress ▸ ingress, inFrame, dropping⟩

/-- A start block without room for a frame drops it, and ING_DROP counts it. -/
theorem start_drops (full : 8192 < s.side[o].ingress.length + 1208) :
    (u.ingressBlk n o b).side[o].ingress = s.side[o].ingress ∧ (u.ingressBlk n o b).side[o].inFrame = true ∧
      (u.ingressBlk n o b).side[o].dropping = true ∧
      s.Counts o (u.ingressBlk n o b) (F.ING_DROP.DROP_FRAMES (spillPort o)) := by
  obtain ⟨side, count⟩ := (push_start u o b (h.inFrame.trans outside) start).2 (h.ingress ▸ full)
  obtain ⟨ingress, inFrame, dropping⟩ := State.ingressBlk_stream n b (h.ownerUp.trans up)
  rw [side] at ingress inFrame dropping
  exact ⟨ingress.trans h.ingress, inFrame, dropping, h.counts up (by simp only [BlockA, TakeA, Fld.key]; omega) count⟩

end Start

end SameIngress

/-- A block that goes by leaves the FIFO as it is. -/
theorem State.passBy_ingress (u : State) (o : Fin 12) (b : Blk) : (u.passBy o b).side[o].ingress = u.side[o].ingress := by
  simp only [State.passBy, State.modSide, Fin.getElem_fin, Vector.getElem_set_self]
  split_ifs <;> rfl

/-- While the link is down a data block goes by, and DOWN_DISCARD counts it (R232). -/
theorem SameIngress.data_discarded (h : SameIngress s u o) (down : s.ownerUp o = false) :
    (u.ingressBlk n o ⟨false, pay⟩).side[o].ingress = s.side[o].ingress ∧
      (s.spillRegs o = true → (u.ingressBlk n o ⟨false, pay⟩).rd (F.DOWN_DISCARD.DOWN_DISCARD (spillPort o)) =
        (s.rd (F.DOWN_DISCARD.DOWN_DISCARD (spillPort o)) + 1) % 2 ^ 32) := by
  have discards : u.ingressBlk n o ⟨false, pay⟩ = u.downDiscard o ⟨false, pay⟩ := by
    simp [State.ingressBlk, h.ownerUp, down]
  have data : Blk.isIdle ⟨false, pay⟩ = false := by simp [Blk.isIdle, idleBlk]
  rw [discards]
  unfold State.downDiscard
  refine ⟨(State.passBy_ingress _ _ _).trans ?_, fun powered => ?_⟩
  · split <;> exact h.ingress
  · rw [data, h.spillRegs, powered, ← h.regs _ (by simp only [BlockA, TakeA, Fld.key]; omega)]
    exact State.rd_count_same _ _ _

/-! ### Rate matching (R381) -/

/-- Neither a start block nor a data block is of the kinds that rate matching acts on. -/
theorem Blk.isStart_kind (start : b.isStart = true) : b.isIdle = false ∧ b.isOrdered = false ∧ b.isTerm = false := by
  have not_idle : b.isIdle = false := beq_eq_false_iff_ne.mpr (by rintro rfl; exact absurd start (by decide))
  have type : b.type = 0x78 ∨ b.type = 0x33 ∨ b.type = 0x66 := by
    simp only [Blk.isStart, Bool.and_eq_true, Bool.or_eq_true, beq_iff_eq, or_assoc] at start
    exact start.2
  refine ⟨not_idle, ?_, ?_⟩
  all_goals obtain is | is | is := type <;> simp [Blk.isOrdered, Blk.isTerm, is]

theorem Blk.data_kind (data : b.ctl = false) : b.isIdle = false ∧ b.isOrdered = false ∧ b.isTerm = false := by
  have not_idle : b.isIdle = false := beq_eq_false_iff_ne.mpr (by rintro rfl; exact absurd data (by decide))
  simp [not_idle, Blk.isOrdered, Blk.isTerm, data]

/-- Rate matching acts on Idle, ordered-set and terminate blocks only. -/
theorem State.rateMatch_passes (own : u.ownerOf n = o) (fill : Nat) (nextStart : Bool)
    (kind : b.isIdle = false ∧ b.isOrdered = false ∧ b.isTerm = false) :
    u.rateMatch n b fill nextStart = (u.modSide o fun x => { x with rmPrev := some b }).ingressBlk n o b := by
  obtain ⟨idle, ordered, term⟩ := kind
  rw [rateMatch_eq u n b fill nextStart o own]
  simp [rmDeletes, rmInserts, idle, ordered, term]

/-- An Idle block that meets a full FIFO, and precedes no start block, is deleted. -/
theorem State.rateMatch_deletes (own : u.ownerOf n = o) (full : 48 ≤ fill) :
    u.rateMatch n idleBlk fill false =
      (u.modSide o fun x => { x with rmPrev := some idleBlk }).count (F.HL_CNT_RM.IDLE_DEL n) := by
  have idle : idleBlk.isIdle = true := by decide
  rw [rateMatch_eq u n idleBlk fill false o own]
  simp [rmDeletes, full, idle]

/-- An Idle block outside a frame that meets an empty FIFO is followed by an inserted one. -/
theorem State.rateMatch_inserts (own : u.ownerOf n = o) (nextStart : Bool) (empty : fill ≤ 16)
    (outside : u.side[o].inFrame = false) :
    u.rateMatch n idleBlk fill nextStart =
      (((u.modSide o fun x => { x with rmPrev := some idleBlk }).ingressBlk n o idleBlk).ingressBlk n o idleBlk).count
        (F.HL_CNT_RM.IDLE_INS n) := by
  have idle : idleBlk.isIdle = true := by decide
  have part_full : ¬ 48 ≤ fill := by omega
  rw [rateMatch_eq u n idleBlk fill nextStart o own]
  simp only [rmDeletes, rmInserts, part_full, empty, idle, outside, decide_true, decide_false, Bool.false_and, Bool.true_or,
    Bool.not_false, Bool.and_self, Bool.or_true, Bool.false_eq_true, if_true, if_false]

namespace SameIngress
variable (h : SameIngress s u o)
include h

theorem idle_deleted (own : s.ownerOf n = o) (full : 48 ≤ fill) :
    (u.rateMatch n idleBlk fill false).side[o].ingress = s.side[o].ingress ∧
      (u.rateMatch n idleBlk fill false).rd (F.HL_CNT_RM.IDLE_DEL n) =
        (s.rd (F.HL_CNT_RM.IDLE_DEL n) + 1) % 2 ^ 16 := by
  rw [State.rateMatch_deletes (h.ownerOf.trans own) full, ← h.regs _ (by simp only [BlockA, TakeA, Fld.key]; omega)]
  exact ⟨(h.rmPrev idleBlk).ingress, State.rd_count_same _ _ _⟩

theorem idle_inserted (own : s.ownerOf n = o) (empty : fill ≤ 16) (up : s.ownerUp o = true)
    (outside : s.side[o].inFrame = false) (room : s.side[o].ingress.length + 2 < 8192) :
    (u.rateMatch n idleBlk fill nextStart).side[o].ingress = s.side[o].ingress ++ [idleBlk, idleBlk] ∧
      (u.rateMatch n idleBlk fill nextStart).rd (F.HL_CNT_RM.IDLE_INS n) =
        (s.rd (F.HL_CNT_RM.IDLE_INS n) + 1) % 2 ^ 16 := by
  have start : idleBlk.isStart = false := by decide
  have prev := h.rmPrev idleBlk
  rw [State.rateMatch_inserts (h.ownerOf.trans own) nextStart empty (h.inFrame.trans outside)]
  generalize u.modSide o _ = w at prev ⊢
  obtain ⟨ingress, outside1, up1, regs1⟩ := State.ingressBlk_outside n (prev.ownerUp.trans up) (prev.inFrame.trans outside)
    start (by rw [prev.ingress]; omega)
  obtain ⟨ingress2, -, -, regs2⟩ := State.ingressBlk_outside n up1 outside1 start
    (by rw [ingress, prev.ingress, List.length_append]; simp only [List.length_singleton]; omega)
  constructor
  · show ((w.ingressBlk n o idleBlk).ingressBlk n o idleBlk).side[o].ingress = _
    rw [ingress2, ingress, prev.ingress, List.append_assoc]
    rfl
  · have regs : Touch BlockA s ((w.ingressBlk n o idleBlk).ingressBlk n o idleBlk) :=
      prev.regs.trans ((regs1.trans regs2).mono fun _ => .inl)
    rw [← regs _ (by simp only [BlockA, TakeA, Fld.key]; omega)]
    exact State.rd_count_same _ _ _

end SameIngress

/-! ### The lane's receive PCS (R388-R391) -/

/-- The lane's blocks do not reach the port: the PRBS checker runs, or a loopback is in effect (R389, R390). -/
def State.Deaf (s : State) (n : Fin 8) : Prop := s.on (F.HL_PRBS_CTRL.CHK_EN n) = true ∨ s.rd (F.HL_STATUS.LB_CUR n) ≠ 0

theorem State.nearEnd_iff (s : State) (n : Fin 8) :
    s.nearEnd n = true ↔ s.rd (F.HL_STATUS.LB_CUR n) = 1 ∨ s.rd (F.HL_STATUS.LB_CUR n) = 2 := by
  simp [State.nearEnd]

theorem State.far_of_hears (hears : ¬ s.Deaf n) : ¬ s.nearEnd n = true := by
  intro near
  rw [State.nearEnd_iff] at near
  exact hears (.inr (by omega))

theorem State.hostBack_far (far : ¬ s.nearEnd n = true) : s.hostBack n b = s := by
  simp [State.hostBack, State.iff, far]

/-- What a near-end loopback sends back changes nothing but the lane. -/
theorem State.hostBack_lane (s : State) (n : Fin 8) (b : Blk) : ∃ lane, s.hostBack n b = { s with lane := lane } := by
  unfold State.hostBack State.iff
  split
  · exact ⟨_, rfl⟩
  · exact ⟨s.lane, rfl⟩

theorem State.hostBack_out (near : s.nearEnd n = true) (gen : s.on (F.HL_PRBS_CTRL.GEN_EN n) = false) (awake : s.eiCause n = 0) :
    (s.hostBack n b).lane[n].out =
      some (if s.rd (F.HL_STATUS.LB_CUR n) = 2 ∧ s.laneLost n = true then localFaultBlk else b) := by
  simp [State.hostBack, State.iff, near, gen, awake, State.modLane]

/-- The lane after a block that is not lost: no loss is being timed, and a bad block is counted (R404). -/
def State.blockCounted (s : State) (n : Fin 8) (sync pay : Nat) : State :=
  (s.modLane n fun l => { l with lostTimes := 0 }).iff (badBlock sync pay) fun s => s.count (F.HL_CNT_ERR.ERR_BLK n)

/-- A block that the lane hands to rate matching: counted as it comes, a bad sync header in the port's BLK_ERR, HOST_LPI as it
says, the eye unknown once the host sleeps. -/
def State.pcsTaken (s : State) (n : Fin 8) (sync pay : Nat) : State :=
  let t := transcodeIn sync pay
  let s1 := if t.2 then (s.blockCounted n sync pay).blkErr (s.ownerOf n) F.BLK_ERR.SYNC_BAD 1 else s.blockCounted n sync pay
  let lpi := t.1 == lpiBlk
  let s2 := if s.domOn (14 * n.val + 9) then s1.wrB (F.LPI_STATUS.HOST_LPI n) lpi else s1
  s2.iff (lpi && s.rd (F.HL_STATUS.EYE_W n) != 0) fun s => s.setEye n 0

theorem State.hostBlock_lost (lost : s.laneLost n = true) (lpi : s.on (F.LPI_STATUS.HOST_LPI n) = false) (hears : ¬ s.Deaf n) :
    s.hostBlock n sync pay fill nextStart = s.lostBlock n := by
  have checker : (s.on (F.HL_PRBS_CTRL.CHK_EN n) || s.rd (F.HL_STATUS.LB_CUR n) != 0) = false := by
    simpa [State.Deaf] using hears
  simp only [State.hostBlock, lost, lpi, checker, Bool.or_self, Bool.false_eq_true, if_true, if_false]

theorem State.hostBlock_idle (lost : s.laneLost n = true) (quiet : s.on (F.LPI_STATUS.HOST_LPI n) = true ∨ s.Deaf n) :
    s.hostBlock n sync pay fill nextStart = s := by
  have none_taken : (s.on (F.LPI_STATUS.HOST_LPI n) ||
      (s.on (F.HL_PRBS_CTRL.CHK_EN n) || s.rd (F.HL_STATUS.LB_CUR n) != 0)) = true := by
    simpa [State.Deaf] using quiet
  simp only [State.hostBlock, lost, none_taken, if_true]

theorem State.hostBlock_checked (checker : s.on (F.HL_PRBS_CTRL.CHK_EN n) = true) (kept : s.laneLost n = false) :
    s.hostBlock n sync pay fill nextStart = s := by
  simp only [State.hostBlock, kept, checker, Bool.false_eq_true, if_true, if_false]

theorem State.hostBlock_looped (checker : s.on (F.HL_PRBS_CTRL.CHK_EN n) = false) (kept : s.laneLost n = false)
    (looped : s.rd (F.HL_STATUS.LB_CUR n) ≠ 0) :
    s.hostBlock n sync pay fill nextStart =
      (s.blockCounted n sync pay).iff (s.nearEnd n) fun u => u.passBy (u.ownerOf n) (transcodeIn sync pay).1 := by
  have loop : (s.rd (F.HL_STATUS.LB_CUR n) != 0) = true := bne_iff_ne.mpr looped
  simp only [State.hostBlock, kept, checker, loop, Bool.false_eq_true, Bool.false_or, if_true, if_false]
  rfl

theorem State.hostBlock_open (kept : s.laneLost n = false) (hears : ¬ s.Deaf n) :
    s.hostBlock n sync pay fill nextStart = (s.pcsTaken n sync pay).rateMatch n (transcodeIn sync pay).1 fill nextStart := by
  obtain ⟨checker, loop⟩ : s.on (F.HL_PRBS_CTRL.CHK_EN n) = false ∧ (s.rd (F.HL_STATUS.LB_CUR n) != 0) = false := by
    simpa [State.Deaf] using hears
  simp only [State.hostBlock, kept, checker, loop, Bool.false_eq_true, Bool.or_self, if_false]
  rfl

theorem SameIngress.blockCounted (s : State) (n : Fin 8) (sync pay : Nat) (o : Fin 12) :
    SameIngress s (s.blockCounted n sync pay) o := by
  unfold State.blockCounted
  refine .of_side (Touch.iff (Touch.modLane (.refl _)) (.count _ _ _ (by simp only [BlockA, Fld.key]; omega))) ?_ ?_
  all_goals
    unfold State.iff
    split <;> rfl

theorem State.blockCounted_out (s : State) (n : Fin 8) (sync pay : Nat) :
    (s.blockCounted n sync pay).lane[n].out = s.lane[n].out := by
  unfold State.blockCounted State.iff
  split <;> simp [State.count, State.modLane]

/-- A block under a test or a loopback enters no FIFO, and what the lane sends stays as it was. -/
theorem State.hostBlock_deaf (sync pay fill : Nat) (nextStart : Bool) (deaf : s.Deaf n) (own : s.ownerOf n = o) :
    (s.hostBlock n sync pay fill nextStart).side[o].ingress = s.side[o].ingress ∧
      (s.hostBlock n sync pay fill nextStart).lane[n].out = s.lane[n].out := by
  cases kept : s.laneLost n with
  | true => rw [State.hostBlock_idle kept (.inr deaf)]; exact ⟨rfl, rfl⟩
  | false =>
    cases checker : s.on (F.HL_PRBS_CTRL.CHK_EN n) with
    | true => rw [State.hostBlock_checked checker kept]; exact ⟨rfl, rfl⟩
    | false =>
      have looped : s.rd (F.HL_STATUS.LB_CUR n) ≠ 0 := deaf.resolve_left (by simp [checker])
      have counted := SameIngress.blockCounted s n sync pay o
      have out := s.blockCounted_out n sync pay
      rw [State.hostBlock_looped checker kept looped]
      cases s.nearEnd n with
      | true =>
        simp only [State.iff, if_true, counted.ownerOf, own]
        exact ⟨(State.passBy_ingress _ _ _).trans counted.ingress, out⟩
      | false => exact ⟨counted.ingress, out⟩

/-- What the PCS writes beside the count of a bad block. -/
def PcsA (a : Nat) : Prop := BlockA a ∧ a % 0x2000 ≠ 0x138

theorem State.setEye_facts (u : State) (n : Fin 8) (v : Nat) : Kept u (u.setEye n v) ∧ Touch PcsA u (u.setEye n v) := by
  have eye : PcsA ((F.HL_STATUS.EYE_W n).key / 32) := by simp only [PcsA, BlockA, Fld.key]; omega
  have monitor : PcsA ((F.QF_EYE.EYE_CUR n).key / 32) ∧ PcsA ((F.QF_EYE.EYE_MIN n).key / 32) := by
    constructor <;> simp only [PcsA, BlockA, Fld.key] <;> omega
  unfold State.setEye
  constructor
  · unfold State.iff
    split <;> exact ⟨rfl, rfl, rfl, rfl⟩
  · exact Touch.iff (.wr _ _ _ eye) (.endWr (.wr _ _ _ monitor.1) monitor.2)

theorem State.pcsTaken_facts (s : State) (n : Fin 8) (sync pay : Nat) :
    Kept (s.blockCounted n sync pay) (s.pcsTaken n sync pay) ∧
      Touch PcsA (s.blockCounted n sync pay) (s.pcsTaken n sync pay) := by
  have lpi : PcsA ((F.LPI_STATUS.HOST_LPI n).key / 32) := by simp only [PcsA, BlockA, Fld.key]; omega
  have bad (m : Fin 8) : PcsA ((F.BLK_ERR.SYNC_BAD m).key / 32) := by simp only [PcsA, BlockA, TakeA, Fld.key]; omega
  have bads (u : State) (p : Fin 12) : Touch PcsA u (u.blkErr p F.BLK_ERR.SYNC_BAD 1) :=
    Touch.fold _ _ (fun u m _ => .ite (.count _ _ _ (bad m)) (.refl _)) _
  unfold State.pcsTaken State.iff
  constructor
  · refine Kept.trans ?_ (.ite (State.setEye_facts _ _ _).1 (.refl _))
    refine Kept.trans ?_ (.ite (.wr _ _ _) (.refl _))
    exact .ite (.blkErr _ _ _ _) (.refl _)
  · refine Touch.trans ?_ (.ite (State.setEye_facts _ _ _).2 (.refl _))
    refine Touch.trans ?_ (.ite (.wrB _ _ _ lpi) (.refl _))
    exact .ite (bads _ _) (.refl _)

theorem SameIngress.pcsTaken (s : State) (n : Fin 8) (sync pay : Nat) (o : Fin 12) :
    SameIngress s (s.pcsTaken n sync pay) o := by
  obtain ⟨regs, twin, ingress, inFrame, dropping⟩ := SameIngress.blockCounted s n sync pay o
  obtain ⟨kept, pcs⟩ := s.pcsTaken_facts n sync pay
  exact ⟨regs.trans (pcs.mono fun _ => And.left), kept.twin.trans twin, kept.side ▸ ingress, kept.side ▸ inFrame,
    kept.side ▸ dropping⟩

/-- A block that Clause 49 gives no meaning counts in ERR_BLK. -/
theorem State.pcsTaken_ERR_BLK (s : State) (n : Fin 8) (bad : badBlock sync pay = true) :
    (s.pcsTaken n sync pay).rd (F.HL_CNT_ERR.ERR_BLK n) = (s.rd (F.HL_CNT_ERR.ERR_BLK n) + 1) % 2 ^ 16 := by
  rw [(s.pcsTaken_facts n sync pay).2 _ (by simp only [PcsA, Fld.key]; omega), State.blockCounted, State.iff, bad]
  exact State.rd_count_same _ _ _

/-! ### The command -/

section Command
variable (on : s.hlOn n = true) (carries : s.laneIdle n = false)
include on carries

theorem Ends.ingressBlock (h : (s.hostBack n (transcodeIn sync pay).1).hostBlock n sync pay fill nextStart = u) :
    Ends (.ingressBlock n sync pay fill nextStart) s u := by
  refine Ends.of_iff rfl on ?_
  rw [State.iff, carries]
  exact h

theorem Ends.ingressBlock_far (far : ¬ s.nearEnd n = true) (h : s.hostBlock n sync pay fill nextStart = u) :
    Ends (.ingressBlock n sync pay fill nextStart) s u :=
  Ends.ingressBlock on carries (by rwa [State.hostBack_far far])

/-- Under a test or a loopback no block enters the FIFO; a near-end loopback sends it back. -/
theorem Ends.ingressBlock_deaf (deaf : s.Deaf n) (own : s.ownerOf n = o) :
    ∃ t, Ends (.ingressBlock n sync pay fill nextStart) s t ∧ t.side[o].ingress = s.side[o].ingress ∧
      (s.nearEnd n = true → s.on (F.HL_PRBS_CTRL.GEN_EN n) = false → s.eiCause n = 0 → t.lane[n].out =
        some (if s.rd (F.HL_STATUS.LB_CUR n) = 2 ∧ s.laneLost n = true then localFaultBlk else (transcodeIn sync pay).1)) := by
  have sent (near gen awake) := State.hostBack_out (s := s) (n := n) (b := (transcodeIn sync pay).1) near gen awake
  obtain ⟨lane, back⟩ := s.hostBack_lane n (transcodeIn sync pay).1
  simp only [back] at sent
  obtain ⟨ingress, out⟩ := State.hostBlock_deaf (s := { s with lane := lane }) sync pay fill nextStart deaf own
  refine ⟨_, Ends.ingressBlock on carries rfl, ?_⟩
  rw [back]
  exact ⟨ingress, fun near gen awake => out.trans (sent near gen awake)⟩

section Hears
variable (hears : ¬ s.Deaf n)
include hears

theorem Ends.ingressBlock_lost (lost : s.laneLost n = true) (lpi : s.on (F.LPI_STATUS.HOST_LPI n) = false) :
    Ends (.ingressBlock n sync pay fill nextStart) s (s.lostBlock n) :=
  Ends.ingressBlock_far on carries (State.far_of_hears hears) (State.hostBlock_lost lost lpi hears)

variable (kept : s.laneLost n = false)
include kept

/-- A lane that hears the host hands the block to rate matching. -/
theorem Ends.ingressBlock_open : Ends (.ingressBlock n sync pay fill nextStart) s
    ((s.pcsTaken n sync pay).rateMatch n (transcodeIn sync pay).1 fill nextStart) :=
  Ends.ingressBlock_far on carries (State.far_of_hears hears) (State.hostBlock_open kept hears)

/-- A block that rate matching passes enters the FIFO of the lane's owner. -/
theorem Ends.ingressBlock_passes (own : s.ownerOf n = o) (block : (transcodeIn sync pay).1 = b)
    (kind : b.isIdle = false ∧ b.isOrdered = false ∧ b.isTerm = false) :
    ∃ u, SameIngress s u o ∧ Ends (.ingressBlock n sync pay fill nextStart) s (u.ingressBlk n o b) := by
  have taken := SameIngress.pcsTaken s n sync pay o
  refine ⟨_, taken.rmPrev b, ?_⟩
  rw [← State.rateMatch_passes (taken.ownerOf.trans own) fill nextStart kind, ← block]
  exact Ends.ingressBlock_open on carries hears kept

end Hears
end Command

/-- The first block time of a lost lane, and every 64th after it, gives a Local Fault (R391, log entry 101). -/
theorem State.lostBlock_fault (due : s.lane[n].lostTimes % 64 = 0) (own : s.ownerOf n = o) (up : s.ownerUp o = true)
    (outside : s.side[o].inFrame = false) (room : s.side[o].ingress.length + 1 < 8192) :
    (s.lostBlock n).side[o].ingress = s.side[o].ingress ++ [localFaultBlk] := by
  have enters := (State.ingressBlk_outside n up outside (b := localFaultBlk) (by decide) room).1
  simpa only [State.lostBlock, State.iff, due, beq_self_eq_true, if_true, own, State.modLane_side] using enters

theorem State.lostBlock_silent (between : s.lane[n].lostTimes % 64 ≠ 0) :
    (s.lostBlock n).side = s.side ∧ (s.lostBlock n).lane[n].lostTimes = s.lane[n].lostTimes + 1 := by
  have none_due : (s.lane[n].lostTimes % 64 == 0) = false := beq_eq_false_iff_ne.mpr between
  rw [State.lostBlock, none_due]
  simp [State.iff, State.modLane]

end IngressBlocks

/-- Settles O40: what keeps a block from the port, then what each kind of block does to the stream of the lane's owner, by the
rules above. -/
theorem ingressBlocks : Obligations.IngressBlocks := by
  unfold Obligations.IngressBlocks
  intro s n sync pay fill nextStart on carries o q h c deaf open' room counts near blk
  have isNear : s.nearEnd n = true ↔ near := s.nearEnd_iff n
  have data : sync = 1 → (transcodeIn sync pay).1 = ⟨false, pay⟩ := fun h => by rw [h]; rfl
  have control : sync = 2 → (transcodeIn sync pay).1 = ⟨true, pay⟩ := fun h => by rw [h]; rfl
  have passes (is_open : open') {b : Blk} := Ends.ingressBlock_passes (sync := sync) (pay := pay) (fill := fill)
    (nextStart := nextStart) (b := b) on carries is_open.2 is_open.1 (o := o) rfl
  refine ⟨fun test far silent => ?_, fun test => ?_, fun lost lpi far => ?_, fun lost lpi hears => ?_,
    fun ⟨kept, hears⟩ bad => ?_, fun is_open up is_data frame => ?_, fun is_open up is_ctl type outside => ?_,
    fun ⟨kept, hears⟩ is_ctl is_idle => ?_, fun is_open down is_data frame => ?_⟩
  · refine Ends.ingressBlock_far on carries (mt isNear.mp far) ?_
    cases lost : s.laneLost n with
    | true => exact State.hostBlock_idle lost (.inr test)
    | false => exact State.hostBlock_checked (silent.resolve_left (by simp [lost])) lost
  · obtain ⟨t, ends, ingress, back⟩ := Ends.ingressBlock_deaf (sync := sync) (pay := pay) (fill := fill)
      (nextStart := nextStart) on carries test (o := o) rfl
    exact ⟨t, ends, ingress, fun is_near => back (isNear.mpr is_near)⟩
  · exact Ends.ingressBlock_far on carries (mt isNear.mp far) (State.hostBlock_idle lost (.inl lpi))
  · have ends : Ends c s (s.lostBlock n) := Ends.ingressBlock_lost on carries hears lost lpi
    exact ⟨fun between => ⟨_, ends, State.lostBlock_silent between⟩,
      fun due up outside has_room => ⟨_, ends, State.lostBlock_fault due rfl up outside has_room⟩⟩
  · exact ⟨_, Ends.ingressBlock_open on carries hears kept, s.pcsTaken_ERR_BLK n bad⟩
  · obtain ⟨u, same, ends⟩ := passes is_open (data is_data) (Blk.data_kind rfl)
    exact ⟨fun drops => ⟨_, ends, same.data_dropped up frame drops⟩,
      fun stored has_room => ⟨_, ends, same.data_extends up frame stored has_room⟩,
      fun stored full => ⟨_, ends, same.data_truncates up frame stored full⟩⟩
  · have start : Blk.isStart ⟨true, pay⟩ = true := by
      simpa [Blk.isStart, Blk.type, or_assoc] using type
    obtain ⟨u, same, ends⟩ := passes is_open (control is_ctl) (Blk.isStart_kind start)
    exact ⟨fun has_room => ⟨_, ends, same.start_enters up outside start has_room⟩,
      fun full => ⟨_, ends, same.start_drops up outside start full⟩⟩
  · have idle : (transcodeIn sync pay).1 = idleBlk := by rw [control is_ctl, is_idle]; rfl
    have same := SameIngress.pcsTaken s n sync pay o
    have ends : Ends c s ((s.pcsTaken n sync pay).rateMatch n idleBlk fill nextStart) :=
      idle ▸ Ends.ingressBlock_open on carries hears kept
    constructor
    · rintro full rfl
      exact ⟨_, ends, same.idle_deleted rfl full⟩
    · exact fun empty up outside has_room => ⟨_, ends, same.idle_inserted rfl empty up outside has_room⟩
  · obtain ⟨u, same, ends⟩ := passes is_open (data is_data) (Blk.data_kind rfl)
    exact ⟨_, ends, same.data_discarded down⟩

end Sys2Proof.Machine

/-! SUPPORT. What the commands of a Belfry transceiver that sends do (09_belfry.md R286-R290, R301, R302, R305, R311, R315,
R316, R318): its fields, its packet on the line, the descriptor in action and the packet that takes an access slot, then the
statement about them. -/

namespace Sys2Proof.Machine

section BelfrySending
variable {s u : State} {b l : Fin 2}

/-! ### Transceivers and their fields -/

theorem State.bf_modBf_same (s : State) (b : Fin 2) (f : Bf → Bf) : (s.modBf b f).bf[b] = f s.bf[b] := by
  simp [State.modBf]

theorem State.bf_modBf_other (s : State) (f : Bf → Bf) (other : l ≠ b) : (s.modBf b f).bf[l] = s.bf[l] := by
  simp [State.modBf, Fin.val_inj, other.symm]

theorem State.rd_modBf (s : State) (b : Fin 2) (f : Bf → Bf) (g : Fld) : (s.modBf b f).rd g = s.rd g := rfl

theorem State.modBf_self {f : Bf → Bf} (same : f s.bf[b] = s.bf[b]) : s.modBf b f = s := by
  unfold State.modBf
  rw [same]
  simp

theorem bfOther_ne (b : Fin 2) : b ≠ bfOther b := by
  have := b.isLt
  simp only [bfOther, ne_eq, Fin.ext_iff]
  omega

/-- A transceiver runs: its domain is ON, BF_EN is set and XTAL_B is READY (R318). -/
theorem State.bfEn_iff : s.bfEn b = true ↔
    s.bfOn b = true ∧ s.on (F.BF_CTRL.BF_EN b) = true ∧ s.rd F.CKC_OSC_STATUS.XB_STATE = 1 := by
  simp [State.bfEn, State.bfSet, State.bfClock, and_assoc]

theorem State.bfEn_stopped (off : s.on (F.BF_CTRL.BF_EN b) = false) : s.bfEn b = false := by
  simp [State.bfEn, State.bfSet, off]

/-- A command whose condition does not hold has no effect (log entry 2). -/
theorem Ends.of_not_iff {i : Instr} {c : Bool} {f : State → State} (hi : exec i s = done (s.iff c f)) (hc : c = false) :
    Ends i s s :=
  Ends.of_done hi (by rw [hc]; rfl)

/-! ### What ring accesses leave (R315-R317) -/

/-- A ring access changes at most the descriptor in action. -/
theorem RingKept.bf_eq (h : RingKept s u) (b : Fin 2) : u.bf[b] = { s.bf[b] with ring := u.bf[b].ring } :=
  congrArg (fun f : Bf => { f with ring := u.bf[b].ring }) (h.bf b)

theorem RingKept.on (h : RingKept s u) {g : Fld} (clear : ¬ RingK g.key) : u.on g = s.on g := State.on_of_rd (h.rd g clear)

theorem State.ringGo_rd {g : Fld} (clear : ¬ RingK g.key) : (s.ringGo b).rd g = s.rd g := (RingKept.ringGo s b).rd g clear

/-- From `s` to `u` no transceiver but `b` changes. -/
def OnlyBf (b : Fin 2) (s u : State) : Prop := ∀ l, l ≠ b → u.bf[l] = s.bf[l]

namespace OnlyBf

theorem of_bf (h : u.bf = s.bf) : OnlyBf b s u := fun _ _ => by rw [h]

theorem refl (s : State) : OnlyBf b s s := fun _ _ => rfl

theorem trans {t : State} (h : OnlyBf b s t) (h' : OnlyBf b t u) : OnlyBf b s u := fun l other => (h' l other).trans (h l other)

theorem ite {t : State} {c : Prop} [Decidable c] (h : OnlyBf b s t) (h' : OnlyBf b s u) : OnlyBf b s (if c then t else u) := by
  split
  · exact h
  · exact h'

theorem modBf (s : State) (f : Bf → Bf) : OnlyBf b s (s.modBf b f) := fun _ => s.bf_modBf_other f

theorem bfRead (s : State) (a len : Nat) : OnlyBf b s (s.bfRead a len).2.2 := .of_bf (Stored.memRead s 0x20 29 a len noEcc).bf

theorem bfWrite (s : State) (a : Nat) (bs : List Nat) : OnlyBf b s (s.bfWrite a bs).2 :=
  .of_bf (Stored.memWrite s 0x20 29 a (bs.map fun v => BitVec.ofNat 8 v) noEcc).bf

end OnlyBf

/-- The error of a ring is all in registers (R315). -/
theorem State.ringErr_bf (s : State) (b : Fin 2) (f : Nat → Fld) : (s.ringErr b f).bf = s.bf := by
  unfold State.ringErr
  exact (Stored.rise _ _ _ _ _).bf

theorem State.txComplete_bf (s : State) (b : Fin 2) (d : BfDesc) (r : Nat) :
    OnlyBf b s (s.txComplete b d r) ∧ (s.txComplete b d r).bf[b].ring = none := by
  unfold State.txComplete
  extract_lets f a w3 r1 r2 s1 head s2
  have only : OnlyBf b s s1 := ((OnlyBf.bfWrite _ _ _).trans (.bfWrite _ _ _)).trans (.modBf _ _)
  have ring : s1.bf[b].ring = none := congrArg Bf.ring (State.bf_modBf_same _ _ _)
  have bf : (if r1.1 || r2.1 then s1.ringErr b F.BF_STATUS.RING_ERR_TX
      else if r = 1 then s2 else s2.count (F.BF_CNT_TX.TX_FAIL b)).bf = s1.bf := by
    split
    · exact State.ringErr_bf _ _ _
    · split <;> rfl
  exact ⟨only.trans (.of_bf bf), by rw [bf, ring]⟩

namespace OnlyBf

theorem txComplete (s : State) (b : Fin 2) (d : BfDesc) (r : Nat) : OnlyBf b s (s.txComplete b d r) := (s.txComplete_bf b d r).1

theorem ringRead (b : Fin 2) : ∀ (k : Nat) (s : State), OnlyBf b s (s.ringRead b k)
  | 0, s => .refl s
  | k + 1, s => by
    unfold State.ringRead
    dsimp only
    have read := OnlyBf.bfRead (b := b) s (s.bf[b].txBase + 32 * s.rd (F.TXR_CFG.TX_HEAD b)) 12
    have next (u : State) (d : BfDesc) (r : Nat) : OnlyBf b u ((u.txComplete b d r).ringRead b k) :=
      (OnlyBf.txComplete u b d r).trans (OnlyBf.ringRead b k _)
    refine .ite (.ite (read.trans (.of_bf (State.ringErr_bf _ _ _))) (.ite read (.ite (read.trans (next _ _ _))
      (.ite (read.trans (next _ _ _)) (.ite (read.trans (next _ _ _)) (.ite ?_ ?_)))))) (.refl s)
    · exact (read.trans (.bfRead _ _ _)).trans ((OnlyBf.txComplete _ _ _ _).trans (.of_bf (State.ringErr_bf _ _ _)))
    · exact (read.trans (.bfRead _ _ _)).trans (.modBf _ _)

theorem descCheck (s : State) (b : Fin 2) : OnlyBf b s (s.descCheck b) := by
  unfold State.descCheck
  split
  · exact .ite (.refl s) ((OnlyBf.txComplete _ _ _ _).trans (.ringRead _ _ _))
  · exact .refl s

theorem copyEnd (s : State) (b l : Fin 2) (sent : Bool) (tb : Nat) : OnlyBf b s (s.copyEnd b l sent tb) :=
  (OnlyBf.modBf s _).trans (.descCheck _ _)

end OnlyBf

/-- The ring is read while the transceiver runs, has no descriptor in action and no error of the ring (R315). -/
theorem State.ringRead_idle (idle : s.bfEn b = false ∨ s.bf[b].ring.isSome = true ∨ s.on (F.BF_STATUS.RING_ERR_TX b) = true)
    (k : Nat) : s.ringRead b k = s := by
  cases k with
  | zero => rfl
  | succ k =>
    refine if_neg ?_
    obtain off | busy | error := idle
    · simp [off]
    · simp [-Fin.getElem_fin, Option.isSome_iff_ne_none.mp busy]
    · simp [error]

/-- A descriptor whose own copy ends on a transceiver that is disabled stays only for the other's copy (R315, R318). -/
theorem State.copyEnd_ring_stopped (off : s.on (F.BF_CTRL.BF_EN b) = false) :
    (s.copyEnd b b false 0).bf[b].ring = (s.bf[b].ring.map fun d => { d with own := false }).filter fun d => d.dual := by
  unfold State.copyEnd
  generalize hu : s.modBf b _ = u
  have ring : u.bf[b].ring = s.bf[b].ring.map fun d => { d with own := false } := by
    rw [← hu, State.bf_modBf_same]
    simp only [if_true, Bool.false_eq_true, if_false]
  rw [← ring]
  unfold State.descCheck
  cases waiting : u.bf[b].ring with
  | none => exact waiting
  | some d =>
    have own : d.own = false := by
      obtain ⟨e, -, rfl⟩ := Option.map_eq_some_iff.mp (ring.symm.trans waiting)
      rfl
    cases dual : d.dual with
    | true => simpa [dual, Option.filter_some, -Fin.getElem_fin] using waiting
    | false =>
      have still : (u.txComplete b d (if d.lines = 0 then 5 else 1)).on (F.BF_CTRL.BF_EN b) = false := by
        rw [(RingKept.txComplete u b d _).on (by simp only [RingK, MemA, FltA, Fin.exists_fin_two, Fld.key]; omega), ← hu]
        exact off
      have done : (u.txComplete b d (if d.lines = 0 then 5 else 1)).ringGo b = _ :=
        State.ringRead_idle (.inl (State.bfEn_stopped still)) _
      simpa [own, dual, done, Option.filter_some, -Fin.getElem_fin] using (u.txComplete_bf b d _).2

/-! ### A packet on the line (R287, R288, R302) -/

/-- Packet `p` is on the line of `b`, symbol by symbol. -/
def State.OnLine (t : State) (b : Fin 2) (p : BfTx) : Prop :=
  t.on (F.BF_STATUS.TX_ACTIVE b) = true ∧ t.on (F.BF_STATUS.CH_BUSY b) = true ∧
    t.on (F.BF_STATUS.SERVED b) = true ∧ t.bf[b].edge = none ∧ t.bf[b].tx = some p ∧ t.bf[b].line = bfLine p.hdr p.area

theorem State.bfStart_bf (s : State) (b : Fin 2) (p : BfTx) (contended : Bool) :
    (s.bfStart b p contended).bf[b] =
      { s.bf[b] with tx := some p, line := bfLine p.hdr p.area, edge := none, rx := none } := by
  unfold State.bfStart
  extract_lets s1 s2
  have same : s2.bf = s.bf := by
    simp only [s2]
    split <;> rfl
  rw [State.bf_modBf_same, same]

theorem State.bfStart_TX_ACTIVE (s : State) (b : Fin 2) (p : BfTx) (contended : Bool) :
    (s.bfStart b p contended).on (F.BF_STATUS.TX_ACTIVE b) = true := by
  cases contended
  all_goals
    simp (disch := (simp only [Fld.key]; omega)) only [State.bfStart, Bool.false_eq_true, if_false, if_true, State.on,
      State.rd_modBf, State.rd_wr_other, State.rd_wrB_other, State.rd_wrB_same]
    rfl

/-- A packet of the contended access is on the line, and its node has been served in this round (R302). -/
theorem State.bfStart_onLine (s : State) (b : Fin 2) (p : BfTx) : (s.bfStart b p true).OnLine b p := by
  refine ⟨s.bfStart_TX_ACTIVE b p true, ?_, ?_, ?_⟩
  · simp (disch := (simp only [Fld.key]; omega)) only [State.bfStart, if_true, State.on, State.rd_modBf, State.rd_wr_other,
      State.rd_wrB_other, State.rd_wrB_same]
    rfl
  · exact State.on_wrB_same _ (F.BF_STATUS.SERVED b) true rfl
  · rw [State.bfStart_bf]
    exact ⟨rfl, rfl, rfl⟩

/-- A packet takes the next PSEQ (R307). -/
theorem State.bfMake_facts (s : State) (b : Fin 2) (src : BfSrc) (h : BfHdr) (body : List Nat) (tb : Nat) :
    (s.bfMake b src h body tb).1.hdr = { h with pseq := s.bfPseq } ∧ (s.bfMake b src h body tb).2.bf = s.bf ∧
      (s.bfMake b src h body tb).2.bfPseq = (s.bfPseq + 1) % 4096 := by
  unfold State.bfMake State.fcTake
  cases h.auth <;> exact ⟨rfl, rfl, rfl⟩

/-- The beacon or RANGE_REQ that has waited longest is taken up (R305). -/
def State.thirdTaken (s : State) (b : Fin 2) : State := s.modBf b fun f => { f with third := f.third.drop 1 }

theorem State.thirdTaken_bf {c : Bool} {rest : List Bool} (third : s.bf[b].third = c :: rest) :
    (s.thirdTaken b).bf[b] = { s.bf[b] with third := rest } := by
  rw [State.thirdTaken, State.bf_modBf_same, third]
  rfl

/-! ### The packet leaves the line (R316, R318) -/

/-- The line of `b` is free of its packet. -/
def State.lineFreed (s : State) (b : Fin 2) : State :=
  (((s.wrB (F.BF_STATUS.TX_ACTIVE b) false).wrB (F.BF_STATUS.CH_BUSY b) false).wr (F.BF_STATUS.RX_STATE b) 0).modBf b
    fun f => { f with tx := none, line := [] }

theorem State.lineFreed_bf (s : State) (b : Fin 2) : (s.lineFreed b).bf[b] = { s.bf[b] with tx := none, line := [] } :=
  State.bf_modBf_same _ _ _

theorem State.lineFreed_rd {g : Fld} (active : g.key ≠ (F.BF_STATUS.TX_ACTIVE b).key)
    (busy : g.key ≠ (F.BF_STATUS.CH_BUSY b).key) (state : g.key ≠ (F.BF_STATUS.RX_STATE b).key) :
    (s.lineFreed b).rd g = s.rd g := by
  unfold State.lineFreed
  rw [State.rd_modBf, State.rd_wr_other _ _ state.symm, State.rd_wrB_other _ _ busy.symm, State.rd_wrB_other _ _ active.symm]

theorem State.lineFreed_status (s : State) (b : Fin 2) :
    (s.lineFreed b).on (F.BF_STATUS.TX_ACTIVE b) = false ∧ (s.lineFreed b).on (F.BF_STATUS.CH_BUSY b) = false ∧
      (s.lineFreed b).rd (F.BF_STATUS.RX_STATE b) = 0 := by
  refine ⟨?_, ?_, State.rd_wr_same _ (F.BF_STATUS.RX_STATE b) 0⟩
  all_goals
    simp (disch := (simp only [Fld.key]; omega)) only [State.lineFreed, State.on, State.rd_modBf, State.rd_wr_other,
      State.rd_wrB_other, State.rd_wrB_same]
    rfl

/-- The copy that a packet of source `src` carried has ended: the descriptor is that of `b`, or in DUAL the other's (R315). -/
def State.copyDone (s : State) (b : Fin 2) (src : BfSrc) (sent : Bool) (tb : Nat) : State :=
  match src with
  | .ring => s.copyEnd b b sent tb
  | .dual => s.copyEnd (bfOther b) b sent tb
  | _ => s

theorem RingKept.copyDone (s : State) (b : Fin 2) (src : BfSrc) (sent : Bool) (tb : Nat) :
    RingKept s (s.copyDone b src sent tb) := by
  cases src with
  | ring => exact .copyEnd _ _ _ _ _
  | dual => exact .copyEnd _ _ _ _ _
  | beacon | rangeReq | rsp => exact .refl s

theorem State.bfCut_none (idle : s.bf[b].tx = none) : s.bfCut b = s := by
  unfold State.bfCut
  rw [idle]

theorem State.bfCut_some {p : BfTx} (sends : s.bf[b].tx = some p) :
    s.bfCut b = (s.lineFreed b).copyDone b p.src false 0 := by
  unfold State.bfCut
  rw [sends]
  obtain ⟨src⟩ := p
  cases src <;> rfl

theorem State.bfSent_eq (s : State) (b : Fin 2) (p : BfTx) : s.bfSent b p =
    if p.src = .rsp then ((s.lineFreed b).count (F.BF_CNT_TX.TX_PKTS b)).count (F.BF_CNT_TX.RNG_RESP b)
    else ((s.lineFreed b).count (F.BF_CNT_TX.TX_PKTS b)).copyDone b p.src true p.sfdTb := by
  obtain ⟨src⟩ := p
  cases src <;> rfl

theorem State.bfSent_rd (p : BfTx) {g : Fld} (clear : ¬ RingK g.key) (answers : g.key ≠ (F.BF_CNT_TX.RNG_RESP b).key) :
    (s.bfSent b p).rd g = ((s.lineFreed b).count (F.BF_CNT_TX.TX_PKTS b)).rd g := by
  rw [State.bfSent_eq]
  split
  · exact State.rd_count_other _ _ answers.symm
  · exact (RingKept.copyDone _ _ _ _ _).rd g clear

theorem State.bfSent_tx (s : State) (b : Fin 2) (p : BfTx) : (s.bfSent b p).bf[b].tx = none := by
  have free : ((s.lineFreed b).count (F.BF_CNT_TX.TX_PKTS b)).bf[b].tx = none := congrArg Bf.tx (s.lineFreed_bf b)
  rw [State.bfSent_eq]
  split
  · exact free
  · rw [(RingKept.copyDone _ _ _ _ _).bf_eq b]
    exact free

/-- A cut changes no field but those of a packet on the line and those of the ring. -/
theorem State.bfCut_rd {g : Fld} (clear : ¬ RingK g.key) (active : g.key ≠ (F.BF_STATUS.TX_ACTIVE b).key)
    (busy : g.key ≠ (F.BF_STATUS.CH_BUSY b).key) (state : g.key ≠ (F.BF_STATUS.RX_STATE b).key) :
    (s.bfCut b).rd g = s.rd g := by
  cases tx : s.bf[b].tx with
  | none => rw [State.bfCut_none tx]
  | some p => rw [State.bfCut_some tx, (RingKept.copyDone _ _ _ _ _).rd g clear, State.lineFreed_rd active busy state]

theorem State.bfCut_tx (s : State) (b : Fin 2) : (s.bfCut b).bf[b].tx = none := by
  cases tx : s.bf[b].tx with
  | none => rw [State.bfCut_none tx, tx]
  | some p => rw [State.bfCut_some tx, (RingKept.copyDone _ _ _ _ _).bf_eq b, State.lineFreed_bf]

theorem State.bfCut_frees (sends : s.bf[b].tx.isSome = true) :
    (s.bfCut b).on (F.BF_STATUS.TX_ACTIVE b) = false ∧ (s.bfCut b).on (F.BF_STATUS.CH_BUSY b) = false := by
  obtain ⟨p, tx⟩ := Option.isSome_iff_exists.mp sends
  obtain ⟨active, busy, -⟩ := s.lineFreed_status b
  have kept := RingKept.copyDone (s.lineFreed b) b p.src false 0
  rw [State.bfCut_some tx, kept.on (by simp only [RingK, MemA, FltA, Fin.exists_fin_two, Fld.key]; omega),
    kept.on (by simp only [RingK, MemA, FltA, Fin.exists_fin_two, Fld.key]; omega)]
  exact ⟨active, busy⟩

/-- The descriptors of `b` that outlive its disabling (R315, R318). -/
def Bf.pending (f : Bf) : Option BfDesc := f.ring.filter fun d => d.started && d.dual

theorem Bf.pending_none {f : Bf} (alone : ∀ d, f.ring = some d → d.started = false ∨ d.dual = false) :
    f.pending = none := by
  refine Option.filter_eq_none_iff.mpr fun d ring => ?_
  obtain fresh | single := alone d ring
  · simp [fresh]
  · simp [single]

theorem Bf.pending_some {f : Bf} {d : BfDesc} (ring : f.ring = some d) (started : d.started = true) (dual : d.dual = true) :
    f.pending = some d := by
  simp [Bf.pending, ring, Option.filter_some, started, dual]

/-- What outlives the disabling is what did so before the cut, its own copy perhaps ended. -/
theorem State.bfCut_pending (off : s.on (F.BF_CTRL.BF_EN b) = false) :
    ∃ own : BfDesc → Bool, (s.bfCut b).bf[b].pending = s.bf[b].pending.map fun d => { d with own := own d } := by
  have same (f : Option BfDesc) : f = f.map fun d => { d with own := d.own } := Option.map_id.symm ▸ rfl
  cases tx : s.bf[b].tx with
  | none => exact ⟨BfDesc.own, by rw [State.bfCut_none tx]; exact same _⟩
  | some p =>
    rw [State.bfCut_some tx]
    have ring : (s.lineFreed b).bf[b].ring = s.bf[b].ring := by rw [State.lineFreed_bf]
    have other : ((s.lineFreed b).copyEnd (bfOther b) b false 0).bf[b].ring = s.bf[b].ring := by
      rw [OnlyBf.copyEnd _ _ _ _ _ b (bfOther_ne b), ring]
    have still : (s.lineFreed b).on (F.BF_CTRL.BF_EN b) = false :=
      (State.on_of_rd (State.lineFreed_rd (by simp only [Fld.key]; omega) (by simp only [Fld.key]; omega)
        (by simp only [Fld.key]; omega))).trans off
    unfold Bf.pending State.copyDone
    split
    · refine ⟨fun _ => false, ?_⟩
      rw [State.copyEnd_ring_stopped still, ring]
      cases s.bf[b].ring with
      | none => rfl
      | some d => cases started : d.started <;> cases dual : d.dual <;> simp [Option.filter_some, started, dual]
    · exact ⟨BfDesc.own, by rw [other]; exact same _⟩
    · exact ⟨BfDesc.own, by rw [ring]; exact same _⟩

theorem RingKept.dualDrop (s : State) (b : Fin 2) :
    RingKept (s.modBf b fun f => { f with dual := none }) (s.dualDrop b) := by
  unfold State.dualDrop
  cases dual : s.bf[b].dual with
  | some p => exact .copyEnd _ _ _ _ _
  | none =>
    have none_waits : s.modBf b (fun f => { f with dual := none }) = s := State.modBf_self (by rw [← dual])
    rw [none_waits]
    exact .refl s

theorem State.dualDrop_rd {g : Fld} (clear : ¬ RingK g.key) : (s.dualDrop b).rd g = s.rd g :=
  (RingKept.dualDrop s b).rd g clear

/-- A copy that is dropped is the other's; the descriptor of `b` stays (R318). -/
theorem State.dualDrop_ring (s : State) (b : Fin 2) : (s.dualDrop b).bf[b].ring = s.bf[b].ring := by
  unfold State.dualDrop
  split
  · rw [OnlyBf.copyEnd _ _ _ _ _ b (bfOther_ne b), State.bf_modBf_same]
  · rfl

theorem State.rngEnd_bf (s : State) (b : Fin 2) (st : Nat) :
    (s.rngEnd b st).bf[b].rng = none ∧ (s.rngEnd b st).bf[b].ring = s.bf[b].ring := by
  unfold State.rngEnd
  split
  · rw [State.bf_modBf_same]
    exact ⟨rfl, rfl⟩
  · next none_runs => exact ⟨Option.not_isSome_iff_eq_none.mp none_runs, rfl⟩

theorem State.rngEnd_rd (st : Nat) {g : Fld} (status : g.key ≠ (F.RNG_CTRL.RNG_STATUS b).key)
    (event : g.key ≠ (F.BF_EVENT.RNG_DONE b).key) : (s.rngEnd b st).rd g = s.rd g := by
  unfold State.rngEnd
  split
  · rw [State.rd_modBf, State.rd_wrB_other _ _ event.symm, State.rd_wr_other _ _ status.symm]
  · rfl

/-! ### Enabling and disabling (R302, R315, R318) -/

section On
variable (on : s.bfOn b = true)
include on

theorem Ends.bfEnable_rises (off : s.on (F.BF_CTRL.BF_EN b) = false) :
    ∃ t, Ends (.bfEnable b) s t ∧ t.on (F.BF_CTRL.BF_EN b) = true ∧ t.on (F.BF_STATUS.SERVED b) = true ∧
      t.rd (F.RXR_CFG.RX_HEAD b) = 0 ∧ t.bf[b].edge = some s.tb ∧ t.bf[b].energy = false ∧
      t.bf[b].node = s.rd (F.BF_NODE.NODE 0) := by
  refine ⟨_, Ends.of_iff rfl on (if_neg (by simp [off])), ?_⟩
  dsimp only
  rw [(RingKept.ringGo _ b).bf_eq b, State.bf_modBf_same]
  refine ⟨?_, ?_, ?_, rfl, rfl, rfl⟩
  case refine_3 =>
    simp (disch := (simp only [RingK, MemA, FltA, Fin.exists_fin_two, Fld.key]; omega)) only
      [State.ringGo_rd, State.rd_modBf, State.rd_wrB_other]
    exact State.rd_wr_same _ (F.RXR_CFG.RX_HEAD b) 0
  all_goals
    simp (disch := (simp only [RingK, MemA, FltA, Fin.exists_fin_two, Fld.key]; omega)) only
      [State.on, State.ringGo_rd, State.rd_modBf, State.rd_wr_other, State.rd_wrB_other, State.rd_wrB_same]
    rfl

theorem Ends.bfDisable_falls (en : s.on (F.BF_CTRL.BF_EN b) = true) :
    ∃ t, Ends (.bfDisable b) s t ∧ t.on (F.BF_CTRL.BF_EN b) = false ∧ t.on (F.BF_STATUS.CH_BUSY b) = false ∧
      t.rd (F.BF_STATUS.RX_STATE b) = 0 ∧ t.bf[b].edge = none ∧ t.bf[b].rx = none ∧ t.bf[b].rng = none ∧
      ∃ own : BfDesc → Bool, t.bf[b].ring = s.bf[b].pending.map fun d => { d with own := own d } := by
  obtain ⟨own, pending⟩ := State.bfCut_pending (State.on_wrB_same s (F.BF_CTRL.BF_EN b) false rfl)
  obtain ⟨rng, ring⟩ := (((s.wrB (F.BF_CTRL.BF_EN b) false).bfCut b).dualDrop b).rngEnd_bf b 3
  rw [State.dualDrop_ring] at ring
  refine ⟨_, Ends.of_iff rfl on (if_pos en), ?_⟩
  dsimp only
  rw [State.bf_modBf_same]
  refine ⟨?_, ?_, State.rd_wr_same _ (F.BF_STATUS.RX_STATE b) 0, rfl, rfl, rng, own,
    (congrArg (Option.filter _) ring).trans pending⟩
  all_goals
    simp (disch := (simp only [RingK, MemA, FltA, Fin.exists_fin_two, Fld.key]; omega)) only
      [State.on, State.rd_modBf, State.rngEnd_rd, State.dualDrop_rd, State.bfCut_rd, State.rd_wr_other,
      State.rd_wrB_other, State.rd_wrB_same]
    rfl

theorem Ends.bfTxDisable :
    ∃ t, Ends (.bfTxDisable b) s t ∧ t.on (F.BF_CTRL.TX_EN b) = false ∧ t.bf[b].tx = none ∧ t.bf[b].dual = none ∧
      (s.bf[b].tx.isSome = true → t.on (F.BF_STATUS.TX_ACTIVE b) = false ∧ t.on (F.BF_STATUS.CH_BUSY b) = false) := by
  have drops := RingKept.dualDrop ((s.wrB (F.BF_CTRL.TX_EN b) false).bfCut b) b
  have bf := drops.bf_eq b
  rw [State.bf_modBf_same] at bf
  refine ⟨_, Ends.of_iff rfl on rfl, ?_⟩
  rw [bf]
  refine ⟨?_, (s.wrB (F.BF_CTRL.TX_EN b) false).bfCut_tx b, rfl, fun sends => ?_⟩
  · simp (disch := (simp only [RingK, MemA, FltA, Fin.exists_fin_two, Fld.key]; omega)) only
      [State.on, State.dualDrop_rd, State.bfCut_rd, State.rd_wrB_same]
    rfl
  · obtain ⟨active, busy⟩ := State.bfCut_frees (s := s.wrB (F.BF_CTRL.TX_EN b) false) sends
    constructor
    · rw [drops.on (by simp only [RingK, MemA, FltA, Fin.exists_fin_two, Fld.key]; omega)]
      exact active
    · rw [drops.on (by simp only [RingK, MemA, FltA, Fin.exists_fin_two, Fld.key]; omega)]
      exact busy

end On

/-! ### The TX ring is read (R315, R316) -/

theorem State.ringGo_idle (idle : s.bf[b].ring.isSome = true ∨ s.on (F.BF_STATUS.RING_ERR_TX b) = true) : s.ringGo b = s :=
  State.ringRead_idle (.inr idle) _

theorem State.ringErr_events (s : State) (b : Fin 2) :
    (s.ringErr b F.BF_STATUS.RING_ERR_TX).on (F.BF_STATUS.RING_ERR_TX b) = true ∧
      (s.ringErr b F.BF_STATUS.RING_ERR_TX).on (F.BF_EVENT.RING_ERR b) = true := by
  have rise (u : State) (d : List Nat) {g : Fld} (clear : ¬ MemA (g.key / 32)) :
      (u.rise (0x271 + 16 * b.val) d).rd g = u.rd g := (Stored.rise u _ d false false).touch g clear
  unfold State.ringErr
  constructor
  all_goals
    simp (disch := (simp only [MemA, FltA, Fld.key]; omega)) only [State.on, rise, State.rd_wrB_other, State.rd_wrB_same]
    rfl

/-- What the read of the descriptor at the head of the TX ring gives, and its words. -/
def State.headRead (s : State) (b : Fin 2) : List Nat × Bool × State :=
  s.bfRead (s.bf[b].txBase + 32 * s.rd (F.TXR_CFG.TX_HEAD b)) 12
def State.headWord (s : State) (b : Fin 2) (i : Nat) : Nat := natOfLE (((s.headRead b).1.drop (4 * i)).take 4)

/-- The descriptor at the head of the TX ring. -/
def State.headDesc (s : State) (b : Fin 2) : BfDesc :=
  { w0 := s.headWord b 0, w1 := s.headWord b 1, w2 := s.headWord b 2, dual := bitB (s.headWord b 0) 30,
    addr := s.bf[b].txBase + 32 * s.rd (F.TXR_CFG.TX_HEAD b) }

/-- What becomes of the descriptor at the head of the TX ring, which is the part's, with `k` more that may follow it. -/
def State.headTaken (s : State) (b : Fin 2) (k : Nat) : State :=
  let d := s.headDesc b
  let h := d.hdr s.bf[b].node
  let s1 := (s.headRead b).2.2
  let q := s1.bfRead (d.w1 + 2 ^ 32 * (d.w2 % 256)) h.len
  if h.badDesc then (s1.txComplete b d 4).ringRead b k
  else if h.auth && (s1.bfKey b h.keyId).isNone then (s1.txComplete b d 2).ringRead b k
  else if h.auth && s1.fcSpent then (s1.txComplete b d 3).ringRead b k
  else if q.2.1 then (q.2.2.txComplete b d 6).ringErr b F.BF_STATUS.RING_ERR_TX
  else q.2.2.modBf b fun f => { f with ring := some { d with body := q.1 } }

section Ring
variable (run : s.bfEn b = true) (free : s.bf[b].ring = none) (sound : s.on (F.BF_STATUS.RING_ERR_TX b) = false)
include run free sound

/-- A ring that is free and sound is read from its head. -/
theorem State.ringGo_reads {u : State}
    (head : ∀ k, (if (s.headRead b).2.1 then (s.headRead b).2.2.ringErr b F.BF_STATUS.RING_ERR_TX
      else if !bitB (s.headWord b 0) 31 then (s.headRead b).2.2
      else s.headTaken b k) = u) : s.ringGo b = u := by
  obtain ⟨k, fuel⟩ : ∃ k, 2 ^ s.bf[b].txLog = k + 1 := Nat.exists_eq_add_one.mpr (Nat.two_pow_pos _)
  rw [← head k, State.ringGo, fuel, State.ringRead]
  exact if_pos (by simp [-Fin.getElem_fin, run, free, sound])

theorem State.ringGo_error (error : (s.headRead b).2.1 = true) :
    s.ringGo b = (s.headRead b).2.2.ringErr b F.BF_STATUS.RING_ERR_TX :=
  State.ringGo_reads run free sound fun _ => if_pos error

theorem State.ringGo_empty (read : (s.headRead b).2.1 = false) (theirs : bitB (s.headWord b 0) 31 = false) :
    s.ringGo b = (s.headRead b).2.2 :=
  State.ringGo_reads run free sound fun _ => (if_neg (by simp [read])).trans (if_pos (by simp [theirs]))

/-- A descriptor that is well formed and needs no key waits for access with its body (R316). -/
theorem State.ringGo_takes {d : BfDesc} (desc : d = s.headDesc b) (read : (s.headRead b).2.1 = false)
    (ours : bitB (s.headWord b 0) 31 = true) (good : (d.hdr s.bf[b].node).badDesc = false)
    (plain : (d.hdr s.bf[b].node).auth = false) :
    let q := (s.headRead b).2.2.bfRead (d.w1 + 2 ^ 32 * (d.w2 % 256)) (d.hdr s.bf[b].node).len
    q.2.1 = false → (s.ringGo b).bf[b].ring = some { d with body := q.1 } := by
  subst desc
  intro q body
  have go : s.ringGo b = q.2.2.modBf b fun f => { f with ring := some { s.headDesc b with body := q.1 } } := by
    refine State.ringGo_reads run free sound fun k => ?_
    rw [if_neg (Bool.eq_false_iff.mp read), if_neg (by simp [ours])]
    simp only [State.headTaken, good, plain, Bool.false_and, Bool.false_eq_true, if_false]
    exact if_neg (Bool.eq_false_iff.mp body)
  rw [go, State.bf_modBf_same]

end Ring

/-! ### Commands of a transceiver whose clock stands still (R318, log entry 98) -/

theorem Ends.belfry_stopped (stopped : s.rd F.CKC_OSC_STATUS.XB_STATE ≠ 1) (tb : Nat) {c : Instr}
    (mem : c ∈ [Instr.accessSlot b tb, .roundGap b, .idleEdge b false, .idleEdge b true, .packetTxDone b, .txKick b,
      .txRingPoll b, .beaconPeriod b, .bcnNow b, .rangeTimeout b]) : Ends c s s := by
  have clock : s.bfClock = false := beq_eq_false_iff_ne.mpr stopped
  have still : s.bfEn b = false := by rw [State.bfEn, clock, Bool.and_false]
  simp only [List.mem_cons, List.not_mem_nil, or_false] at mem
  obtain rfl | rfl | rfl | rfl | rfl | rfl | rfl | rfl | rfl | rfl := mem
  iterate 9 exact Ends.of_not_iff rfl (by simp only [still, Bool.false_and])
  exact Ends.of_not_iff rfl (by rw [clock, Bool.and_false])

/-! ### Beacons (R311, R323) -/

theorem State.bcnBad_iff : s.bcnBad b = true ↔
    bodyMax (s.bcnHdr b).ncw < (s.bcnHdr b).len ∨ modeOk (s.bcnHdr b).ncw (s.bcnHdr b).sf (s.bcnHdr b).qpsk = false := by
  simp [State.bcnBad]

theorem State.bcnQueue_good (good : s.bcnBad b = false) : true ∈ (s.bcnQueue b).bf[b].third := by
  rw [State.bcnQueue, if_neg (Bool.eq_false_iff.mp good), State.bf_modBf_same]
  dsimp only
  split
  · assumption
  · exact List.mem_append_right _ List.mem_cons_self

/-! ### Commands of a transceiver that runs -/

section Run
variable (run : s.bfEn b = true)
include run

theorem Ends.idleEdge (silent : s.bf[b].tx = none) (e : Bool) :
    ∃ t, Ends (.idleEdge b e) s t ∧ t.on (F.BF_STATUS.CH_BUSY b) = false ∧
      t.bf[b].edge = some s.tb ∧ t.bf[b].energy = e := by
  refine ⟨_, Ends.of_iff rfl (by rw [run, silent]; rfl) rfl, State.on_wrB_same s (F.BF_STATUS.CH_BUSY b) false rfl, ?_⟩
  rw [State.bf_modBf_same]
  exact ⟨rfl, rfl⟩

theorem Ends.roundGap (edge : s.bf[b].edge.isSome = true) (quiet : s.bfBusy b = false) :
    ∃ t, Ends (.roundGap b) s t ∧ t.on (F.BF_STATUS.SERVED b) = false ∧
      t.bf[b].edge = some s.tb ∧ t.bf[b].energy = false := by
  refine ⟨_, Ends.of_iff rfl (by rw [run, edge, quiet]; rfl) rfl, State.on_wrB_same s (F.BF_STATUS.SERVED b) false rfl, ?_⟩
  rw [State.bf_modBf_same]
  exact ⟨rfl, rfl⟩

theorem Ends.packetTxDone (p : BfTx) (sends : s.bf[b].tx = some p) :
    ∃ t, Ends (.packetTxDone b) s t ∧ t.on (F.BF_STATUS.TX_ACTIVE b) = false ∧
      t.on (F.BF_STATUS.CH_BUSY b) = false ∧ t.rd (F.BF_STATUS.RX_STATE b) = 0 ∧ t.bf[b].tx = none ∧
      t.rd (F.BF_CNT_TX.TX_PKTS b) = (s.rd (F.BF_CNT_TX.TX_PKTS b) + 1) % 2 ^ 16 ∧
      (p.src = .rsp → t.rd (F.BF_CNT_TX.RNG_RESP b) = (s.rd (F.BF_CNT_TX.RNG_RESP b) + 1) % 2 ^ 8) := by
  refine ⟨s.bfSent b p, Ends.of_iff rfl run (by rw [sends]), ?_⟩
  obtain ⟨active, busy, state⟩ := s.lineFreed_status b
  refine ⟨?_, ?_, ?_, s.bfSent_tx b p, ?_, fun answer => ?_⟩
  · rw [← active]
    simp (disch := (simp only [RingK, MemA, FltA, Fin.exists_fin_two, Fld.key]; omega)) only
      [State.on, State.bfSent_rd, State.rd_count_other]
  · rw [← busy]
    simp (disch := (simp only [RingK, MemA, FltA, Fin.exists_fin_two, Fld.key]; omega)) only
      [State.on, State.bfSent_rd, State.rd_count_other]
  · rw [← state]
    simp (disch := (simp only [RingK, MemA, FltA, Fin.exists_fin_two, Fld.key]; omega)) only
      [State.bfSent_rd, State.rd_count_other]
  · simp (disch := (simp only [RingK, MemA, FltA, Fin.exists_fin_two, Fld.key]; omega)) only
      [State.bfSent_rd, State.rd_count_same, State.lineFreed_rd]
  · rw [State.bfSent_eq, if_pos answer]
    simp (disch := (simp only [Fld.key]; omega)) only [State.rd_count_same, State.rd_count_other, State.lineFreed_rd]

/-- A command that reads the TX ring: a kick or a poll (R315). -/
theorem Ends.ringGo {c : Instr} {u : State} (reads : c ∈ [Instr.txKick b, .txRingPoll b]) (h : s.ringGo b = u) :
    Ends c s u := by
  obtain rfl | rfl : c = .txKick b ∨ c = .txRingPoll b := by simpa using reads
  · exact Ends.of_iff rfl run h
  · exact Ends.of_iff rfl run h

theorem Ends.bcnQueue {c : Instr} {u : State} (enabled : s.on (F.BF_BCN.BCN_EN b) = true)
    (due : c ∈ [Instr.beaconPeriod b, .bcnNow b]) (h : s.bcnQueue b = u) : Ends c s u := by
  obtain rfl | rfl : c = .beaconPeriod b ∨ c = .bcnNow b := by simpa using due
  · exact Ends.of_iff rfl (by rw [run, enabled]; rfl) h
  · exact Ends.of_iff rfl (by rw [run, enabled]; rfl) h

/-- The contended packets of `b` may take the access slot: its node is not served in this round, and the line has been idle
since a packet's end (R302). -/
def State.AwaitsSlot (s : State) (b : Fin 2) : Prop :=
  s.on (F.BF_CTRL.TX_EN b) = true ∧ s.on (F.BF_STATUS.SERVED b) = false ∧ s.bf[b].edge.isSome = true ∧
    s.bf[b].energy = false ∧ s.bf[b].tx = none

section Slot
variable (waits : s.AwaitsSlot b) (tb : Nat)
include waits

theorem Ends.accessSlot {u : State}
    (h : (if s.bfBusy b then s.modBf b fun f => { f with edge := none } else s.accessSlot b tb) = u) :
    Ends (.accessSlot b tb) s u := by
  obtain ⟨tx_en, served, edge, energy, silent⟩ := waits
  exact Ends.of_iff rfl (by rw [run, tx_en, served, edge, energy, silent]; rfl) h

theorem Ends.accessSlot_busy (busy : s.bfBusy b = true) :
    Ends (.accessSlot b tb) s (s.modBf b fun f => { f with edge := none }) :=
  Ends.accessSlot run waits tb (if_pos busy)

variable (quiet : s.bfBusy b = false)
include quiet

theorem Ends.accessSlot_quiet {u : State} (h : s.accessSlot b tb = u) : Ends (.accessSlot b tb) s u :=
  Ends.accessSlot run waits tb ((if_neg (Bool.eq_false_iff.mp quiet)).trans h)

/-- A RANGE_RSP that is to be sent keeps the contended packets off the line (R305, R309). -/
theorem Ends.accessSlot_answers (answers : s.bf[b].rsp.isSome = true) :
    ∃ t, Ends (.accessSlot b tb) s t ∧ t.bf[b].edge = none ∧ t.bf[b].tx = none := by
  refine ⟨_, Ends.accessSlot_quiet run waits tb quiet (if_pos answers), ?_⟩
  rw [State.bf_modBf_same]
  exact ⟨rfl, waits.2.2.2.2⟩

variable (no_answer : s.bf[b].rsp = none)
include no_answer

theorem Ends.accessSlot_dual {p : BfTx} (dual : s.bf[b].dual = some p) :
    ∃ t, Ends (.accessSlot b tb) s t ∧ t.OnLine b { p with sfdTb := tb } ∧ t.bf[b].dual = none := by
  refine ⟨((s.modBf b fun f => { f with dual := none }).bfStart b { p with sfdTb := tb } true),
    Ends.accessSlot_quiet run waits tb quiet ?_, State.bfStart_onLine _ b _, ?_⟩
  · simp only [State.accessSlot, no_answer, dual, Option.isSome_none, Bool.false_eq_true, if_false]
  · rw [State.bfStart_bf, State.bf_modBf_same]

variable (no_dual : s.bf[b].dual = none)
include no_dual

theorem Ends.accessSlot_badBeacon {rest : List Bool} (third : s.bf[b].third = true :: rest) (bad : s.bcnBad b = true) :
    ∃ t, Ends (.accessSlot b tb) s t ∧ t.on (F.BF_EVENT.BCN_BAD b) = true ∧ t.bf[b] = { s.bf[b] with third := rest } := by
  refine ⟨_, Ends.accessSlot_quiet run waits tb quiet ?_, State.on_wrB_same (s.thirdTaken b) (F.BF_EVENT.BCN_BAD b) true rfl,
    State.thirdTaken_bf third⟩
  simp only [State.accessSlot, no_answer, no_dual, third, Option.isSome_none, Bool.false_eq_true, if_false]
  exact if_pos bad

theorem Ends.accessSlot_beacon {rest : List Bool} (third : s.bf[b].third = true :: rest) (good : s.bcnBad b = false)
    (auth : s.bfCanAuth b (s.bcnHdr b) = true) :
    ∃ t p, Ends (.accessSlot b tb) s t ∧ t.OnLine b p ∧ p.src = .beacon ∧
      p.hdr = { s.bcnHdr b with pseq := s.bfPseq } ∧ p.sfdTb = tb ∧ t.bf[b].third = rest ∧
      t.bfPseq = (s.bfPseq + 1) % 4096 := by
  let m := (s.thirdTaken b).bfMake b .beacon (s.bcnHdr b) (s.bcnBody b tb (s.bcnHdr b).len) tb
  obtain ⟨hdr, bf, pseq⟩ : m.1.hdr = _ ∧ m.2.bf = _ ∧ m.2.bfPseq = _ := State.bfMake_facts _ _ _ _ _ _
  refine ⟨m.2.bfStart b m.1 true, m.1, Ends.accessSlot_quiet run waits tb quiet ?_, State.bfStart_onLine _ b _, rfl, hdr, rfl,
    ?_, pseq⟩
  · simp only [State.accessSlot, no_answer, no_dual, third, Option.isSome_none, Bool.false_eq_true, if_false]
    exact (if_neg (Bool.eq_false_iff.mp good)).trans (if_pos auth)
  · rw [State.bfStart_bf, bf, State.thirdTaken_bf third]

theorem Ends.accessSlot_range {rest : List Bool} {g : BfRng} (third : s.bf[b].third = false :: rest)
    (ranges : s.bf[b].rng = some g) :
    ∃ t p, Ends (.accessSlot b tb) s t ∧ t.OnLine b p ∧ p.src = .rangeReq ∧
      p.hdr = { g.form with pseq := s.bfPseq } ∧ p.area = [] ∧
      t.bf[b].rng = some { g with sent := true, pseq := s.bfPseq } := by
  let m := (s.thirdTaken b).bfMake b .rangeReq { g.form with auth := false } [] tb
  let p := { m.1 with hdr := { m.1.hdr with auth := g.form.auth }, area := [] }
  refine ⟨(m.2.modBf b fun f => { f with rng := some { g with sent := true, pseq := p.hdr.pseq } }).bfStart b p true, p,
    Ends.accessSlot_quiet run waits tb quiet ?_, State.bfStart_onLine _ b _, rfl, rfl, rfl, ?_⟩
  · simp only [State.accessSlot, no_answer, no_dual, third, Option.isSome_none, Bool.false_eq_true, if_false,
      State.rngSend, ranges]
    rfl
  · rw [State.bfStart_bf, State.bf_modBf_same]
    rfl

theorem Ends.accessSlot_ring {d : BfDesc} (none_third : s.bf[b].third = []) (ring : s.bf[b].ring = some d)
    (own : d.own = true) (fresh : d.started = false) (single : d.dual = false)
    (auth : s.bfCanAuth b (d.hdr s.bf[b].node) = true) :
    ∃ t p, Ends (.accessSlot b tb) s t ∧ t.OnLine b p ∧ p.src = .ring ∧
      p.hdr = { d.hdr s.bf[b].node with pseq := s.bfPseq } ∧
      t.bf[b].ring = some { d with started := true, pseq := s.bfPseq, fc := p.fc } := by
  let m := s.bfMake b .ring (d.hdr s.bf[b].node) d.body tb
  refine ⟨(m.2.modBf b fun f => { f with ring := some { d with started := true, pseq := m.1.hdr.pseq, fc := m.1.fc } }).bfStart
    b m.1 true, m.1, Ends.accessSlot_quiet run waits tb quiet ?_, State.bfStart_onLine _ b _, rfl, rfl, ?_⟩
  · simp only [State.accessSlot, no_answer, no_dual, none_third, ring, own, fresh, Option.isSome_none, Bool.false_eq_true,
      if_false, Bool.not_false, Bool.and_self, if_true, State.descSend, auth, single]
    rfl
  · rw [State.bfStart_bf, State.bf_modBf_same]
    rfl

end Slot
end Run

end BelfrySending

/-- Settles O42: enabling, disabling and a clock that stands still, then the access rounds, the packet that takes a slot and its
end, the TX ring and the beacons, each by the rule above for it. -/
theorem belfrySending : Obligations.BelfrySending := by
  unfold Obligations.BelfrySending
  intro s b on f en d0 w run onLine
  have runs (h : run) : s.bfEn b = true := State.bfEn_iff.mpr ⟨on, h⟩
  refine ⟨fun enabled => Ends.of_iff rfl on (if_pos enabled), fun off => Ends.bfEnable_rises on (Bool.eq_false_iff.mpr off),
    fun off => Ends.of_iff rfl on (if_neg off), fun enabled => ?_, fun stopped tb c mem => Ends.belfry_stopped stopped tb mem,
    Ends.bfTxDisable on, fun h silent => Ends.idleEdge (runs h) silent, fun h => Ends.roundGap (runs h),
    fun h tx_en served edge energy silent busy tb =>
      Ends.accessSlot_busy (runs h) ⟨tx_en, served, edge, energy, silent⟩ tb busy,
    fun h tx_en served edge energy quiet silent tb => ?_, fun h => ?_, fun h c reads => ?_, fun h enabled c due => ?_⟩
  · obtain ⟨t, ends, off, busy, state, edge, rx, rng, own, ring⟩ := Ends.bfDisable_falls on enabled
    refine ⟨t, ends, off, busy, state, edge, rx, rng, fun alone => ?_, fun d some_ring started dual => ⟨own d, ?_⟩⟩
    · rw [ring, Bf.pending_none alone, Option.map_none]
    · rw [ring, Bf.pending_some some_ring started dual, Option.map_some]
  · have waits : s.AwaitsSlot b := ⟨tx_en, served, edge, energy, silent⟩
    exact ⟨Ends.accessSlot_answers (runs h) waits tb quiet,
      fun no_answer _ dual => Ends.accessSlot_dual (runs h) waits tb quiet no_answer dual,
      fun no_answer no_dual _ third bad => Ends.accessSlot_badBeacon (runs h) waits tb quiet no_answer no_dual third bad,
      fun no_answer no_dual _ third good auth =>
        Ends.accessSlot_beacon (runs h) waits tb quiet no_answer no_dual third good auth,
      fun no_answer no_dual _ _ third ranges =>
        Ends.accessSlot_range (runs h) waits tb quiet no_answer no_dual third ranges,
      fun no_answer no_dual none_third _ ring own fresh single auth =>
        Ends.accessSlot_ring (runs h) waits tb quiet no_answer no_dual none_third ring own fresh single auth⟩
  · exact ⟨fun silent => Ends.of_iff rfl (runs h) (by rw [silent]), Ends.packetTxDone (runs h)⟩
  · refine ⟨fun idle => Ends.ringGo (runs h) reads (State.ringGo_idle idle), fun free sound => ⟨fun error => ?_,
      fun read theirs => ?_, fun read ours d desc good plain body => ?_⟩⟩
    · exact ⟨_, Ends.ringGo (runs h) reads (State.ringGo_error (runs h) free sound error), State.ringErr_events _ b⟩
    · exact Ends.ringGo (runs h) reads (State.ringGo_empty (runs h) free sound read theirs)
    · exact ⟨_, Ends.ringGo (runs h) reads rfl, State.ringGo_takes (runs h) free sound desc read ours good plain body⟩
  · refine ⟨fun bad => ?_, fun good => ⟨_, Ends.bcnQueue (runs h) enabled due rfl, State.bcnQueue_good ?_⟩⟩
    · exact ⟨_, Ends.bcnQueue (runs h) enabled due (if_pos (State.bcnBad_iff.mpr bad)),
        State.on_wrB_same s (F.BF_EVENT.BCN_BAD b) true rfl, rfl⟩
    · exact Bool.eq_false_iff.mpr (mt State.bcnBad_iff.mp good)

end Sys2Proof.Machine

/-! SUPPORT. What the commands of a Belfry transceiver that receives, ranges and loads keys do (09_belfry.md R292, R297, R298,
R300, R301, R304, R307-R310, R317, R318, R322, R332, 20_keep_startup.md R702): the beginning and the end of a reception, a
header, the payload, an exchange and the key slots, then the statement about them. -/

namespace Sys2Proof.Machine

section BelfryReceiving
variable {s t : State} {b : Fin 2}

/-! ### A reception begins and ends (R298, R301, R304) -/

/-- The reception of `b` is over. -/
def State.Ended (t : State) (b : Fin 2) : Prop := t.rd (F.BF_STATUS.RX_STATE b) = 0 ∧ t.bf[b].rx = none

theorem State.rxDone_ended (s : State) (b : Fin 2) : (s.rxDone b).Ended b :=
  ⟨State.rd_wr_same s (F.BF_STATUS.RX_STATE b) 0, congrArg Bf.rx (State.bf_modBf_same _ b _)⟩

theorem State.rxDone_rd {g : Fld} (apart : (F.BF_STATUS.RX_STATE b).key ≠ g.key) : (s.rxDone b).rd g = s.rd g :=
  State.rd_wr_other s 0 apart

theorem State.Ended.wr {f : Fld} (h : t.Ended b) (v : Nat) (apart : f.key ≠ (F.BF_STATUS.RX_STATE b).key) :
    (t.wr f v).Ended b :=
  ⟨(State.rd_wr_other t v apart).trans h.1, h.2⟩

theorem State.Ended.count {f : Fld} (h : t.Ended b) (apart : f.key ≠ (F.BF_STATUS.RX_STATE b).key) : (t.count f).Ended b :=
  h.wr _ apart

theorem State.rxBegin_facts (s : State) (b : Fin 2) :
    (s.rxBegin b).rd (F.BF_CNT_RX.RX_DET b) = (s.rd (F.BF_CNT_RX.RX_DET b) + 1) % 2 ^ 16 ∧
      (s.rxBegin b).rd (F.BF_STATUS.RX_STATE b) = 1 ∧ (s.rxBegin b).on (F.BF_STATUS.CH_BUSY b) = true ∧
      (s.rxBegin b).bf[b] = { s.bf[b] with rx := some { cfg := s.rxCfg b }, edge := none } := by
  refine ⟨?_, ?_, State.on_wrB_same _ (F.BF_STATUS.CH_BUSY b) true rfl, State.bf_modBf_same _ _ _⟩
  · simp (disch := (simp only [Fld.key]; omega)) only
      [State.rxBegin, State.rd_modBf, State.rd_wrB_other, State.rd_wr_other, State.rd_count_same]
  · simp (disch := (simp only [Fld.key]; omega)) only [State.rxBegin, State.rd_modBf, State.rd_wrB_other]
    exact State.rd_wr_same _ (F.BF_STATUS.RX_STATE b) 1

/-- The settings of a reception are not those that an abandoned one counts in. -/
theorem State.rxCfg_count_CAPT_AWAY (s : State) (b : Fin 2) : (s.count (F.BF_CNT_ERR.CAPT_AWAY b)).rxCfg b = s.rxCfg b := by
  simp (disch := (simp only [Fld.key]; omega)) only
    [State.rxCfg, State.word, List.foldl_cons, List.foldl_nil, State.rd_count_other]

/-- The state in which a header has failed. -/
theorem State.headerFailed_facts (s : State) (b : Fin 2) :
    ((s.rxDone b).count (F.BF_CNT_ERR.HDR_FAIL b)).Ended b ∧
      ((s.rxDone b).count (F.BF_CNT_ERR.HDR_FAIL b)).rd (F.BF_CNT_ERR.HDR_FAIL b) =
        (s.rd (F.BF_CNT_ERR.HDR_FAIL b) + 1) % 2 ^ 8 := by
  refine ⟨(s.rxDone_ended b).count (by simp only [Fld.key]; omega), ?_⟩
  rw [State.rd_count_same, State.rxDone_rd (by simp only [Fld.key]; omega)]

/-! ### Codewords and areas (R297, R308) -/

/-- The reception once it has taken the codeword `w`. -/
def BfRx.took (r : BfRx) (w : BfWord) : BfRx :=
  { (r.decode w).2.2 with words := r.words ++ [(r.decode w).1], iters := max r.iters (r.decode w).2.1 }

theorem State.areaBytes_kept : ∀ (ws : List (Option Nat)) (s : State),
    (s.areaBytes ws).2.regs = s.regs ∧ (s.areaBytes ws).2.bf = s.bf
  | [], _ => ⟨rfl, rfl⟩
  | some _ :: ws, s => State.areaBytes_kept ws s
  | none :: ws, s => State.areaBytes_kept ws (s.drawFree 512).2

/-- The reception of `b` is over, and its area has been read. -/
def State.afterArea (s : State) (b : Fin 2) (r : BfRx) : State := (s.areaBytes r.words).2.rxDone b

theorem State.afterArea_ended (s : State) (b : Fin 2) (r : BfRx) : (s.afterArea b r).Ended b := State.rxDone_ended _ b

theorem State.afterArea_rd (r : BfRx) {g : Fld} (apart : (F.BF_STATUS.RX_STATE b).key ≠ g.key) :
    (s.afterArea b r).rd g = s.rd g :=
  (State.rxDone_rd apart).trans (State.rd_congr g (State.areaBytes_kept _ _).1)

theorem State.afterArea_on (r : BfRx) {g : Fld} (apart : (F.BF_STATUS.RX_STATE b).key ≠ g.key) :
    (s.afterArea b r).on g = s.on g :=
  State.on_of_rd (State.afterArea_rd r apart)

theorem State.rxFinish_data {h : BfHdr} (r : BfRx) (data : h.ptype ≠ 3) :
    s.rxFinish b h r = (s.afterArea b r).rxDeliver b h r (s.areaBytes r.words).1
      (s.rxStatus b h (s.areaBytes r.words).1 (r.words.any Option.isNone)) :=
  if_neg data

section Dropped
variable (proper : s.on (F.BF_CTRL.RX_ERR_DELIV b) = false)
include proper

theorem State.rxDeliver_LDPC (h : BfHdr) (r : BfRx) (area : List Nat) :
    s.rxDeliver b h r area rsLDPC = s.count (F.BF_CNT_ERR.LDPC_FAIL b) := by
  simp [State.rxDeliver, proper]

theorem State.rxDeliver_UNAUTH (h : BfHdr) (r : BfRx) (area : List Nat) :
    s.rxDeliver b h r area rsUNAUTH = (s.count (F.BF_CNT_SEC.TAG_BAD b)).wrB (F.BF_EVENT.SEC_FAIL b) true := by
  simp [State.rxDeliver, proper]

end Dropped

/-! ### Commands that begin and end a reception -/

section Run
variable (run : s.bfEn b = true)
include run

theorem Ends.preambleDetect (silent : s.bf[b].tx = none) (free : s.bf[b].rx = none) :
    ∃ t, Ends (.preambleDetect b) s t ∧
      t.rd (F.BF_CNT_RX.RX_DET b) = (s.rd (F.BF_CNT_RX.RX_DET b) + 1) % 2 ^ 16 ∧ t.rd (F.BF_STATUS.RX_STATE b) = 1 ∧
      t.on (F.BF_STATUS.CH_BUSY b) = true ∧ t.bf[b].rx = some { cfg := s.rxCfg b } ∧ t.bf[b].edge = none := by
  obtain ⟨count, state, busy, bf⟩ := s.rxBegin_facts b
  refine ⟨_, Ends.of_iff rfl (by rw [run, silent, free]; rfl) rfl, count, state, busy, ?_⟩
  rw [bf]
  exact ⟨rfl, rfl⟩

section Search
variable (searches : s.rd (F.BF_STATUS.RX_STATE b) = 1)
include searches

theorem Ends.sfdDetect (tb since : Nat) (fofs : Int) (snr : Nat) (ys : List Cx) :
    ∃ t, Ends (.sfdDetect b tb since fofs ⟨snr, ys⟩) s t ∧ t.rd (F.BF_STATUS.RX_STATE b) = 2 ∧
      t.rd (F.BF_STATUS.FOFS_LAST b) = unsignedOf 16 fofs % 2 ^ 16 ∧
      ∀ r, s.bf[b].rx = some r →
        t.bf[b].rx = some { r.train ys with tb := tb, since := since, fofs := fofs, snr := snr } := by
  refine ⟨_, Ends.of_iff rfl (by rw [run, searches]; rfl) rfl, ?_,
    State.rd_wr_same _ (F.BF_STATUS.FOFS_LAST b) (unsignedOf 16 fofs), fun r rx => ?_⟩
  · rw [State.rd_modBf, State.rd_wr_other _ _ (by simp only [Fld.key]; omega), State.rd_wr_same]
    rfl
  · rw [State.bf_modBf_same]
    exact congrArg (Option.map _) rx

theorem Ends.sfdTimeout :
    ∃ t, Ends (.sfdTimeout b) s t ∧ t.Ended b ∧ t.on (F.BF_STATUS.CH_BUSY b) = false :=
  ⟨_, Ends.of_iff rfl (by rw [run, searches]; rfl) rfl, (s.rxDone_ended b).wr _ (by simp only [Fld.key]; omega),
    State.on_wrB_same _ (F.BF_STATUS.CH_BUSY b) false rfl⟩

end Search

section Capture
variable (enabled : s.on (F.BF_ACCESS.CAPT_EN b) = true) {db : Nat} (stronger : db ≥ s.rd (F.BF_ACCESS.CAPT_DB b))
include enabled stronger

theorem Ends.capture_none (free : s.bf[b].rx = none) : Ends (.capture b db) s s :=
  Ends.of_iff rfl (by rw [run, enabled, decide_eq_true stronger]; rfl) (by rw [free])

/-- A packet whose header has not decoded is abandoned for the stronger one (R304). -/
theorem Ends.capture_some {r : BfRx} (rx : s.bf[b].rx = some r) (early : r.hdr = none) :
    ∃ t, Ends (.capture b db) s t ∧ t.rd (F.BF_STATUS.RX_STATE b) = 1 ∧
      t.rd (F.BF_CNT_ERR.CAPT_AWAY b) = (s.rd (F.BF_CNT_ERR.CAPT_AWAY b) + 1) % 2 ^ 8 ∧
      t.rd (F.BF_CNT_RX.RX_DET b) = (s.rd (F.BF_CNT_RX.RX_DET b) + 1) % 2 ^ 16 ∧
      t.bf[b].rx = some { cfg := s.rxCfg b } := by
  obtain ⟨count, state, -, bf⟩ := (s.count (F.BF_CNT_ERR.CAPT_AWAY b)).rxBegin_facts b
  have capture : s.rxCapture b r = (s.count (F.BF_CNT_ERR.CAPT_AWAY b)).rxBegin b := by rw [State.rxCapture, early]
  refine ⟨_, Ends.of_iff rfl (by rw [run, enabled, decide_eq_true stronger]; rfl) (by rw [rx]; exact capture), state,
    ?_, ?_, ?_⟩
  · simp (disch := (simp only [Fld.key]; omega)) only
      [State.rxBegin, State.rd_modBf, State.rd_wrB_other, State.rd_wr_other, State.rd_count_other, State.rd_count_same]
  · rw [count, State.rd_count_other _ _ (by simp only [Fld.key]; omega)]
  · rw [bf, State.rxCfg_count_CAPT_AWAY]

end Capture

/-! ### A header (R292, R308, R309) -/

section Header
variable (decodes : s.rd (F.BF_STATUS.RX_STATE b) = 2) {r : BfRx} (rx : s.bf[b].rx = some r)
include decodes rx

theorem Ends.headerDecode_fails {w : BfWord} (fails : (r.decode w).1 = none) :
    ∃ t, Ends (.headerDecode b w) s t ∧ t.Ended b ∧
      t.rd (F.BF_CNT_ERR.HDR_FAIL b) = (s.rd (F.BF_CNT_ERR.HDR_FAIL b) + 1) % 2 ^ 8 := by
  refine ⟨_, Ends.of_iff rfl (by rw [run, decodes]; rfl) ?_, s.headerFailed_facts b⟩
  obtain ⟨k, r1, decoded⟩ : ∃ k r1, r.decode w = (none, k, r1) := ⟨_, _, Prod.ext fails rfl⟩
  rw [rx]
  dsimp only
  rw [decoded]

theorem Ends.headerDecode_bad {v : Nat} (k : Nat) (bad : hdrBad (v % 2 ^ 64) = true ∨ 8 ≤ (hdrOf v).ptype) :
    ∃ t, Ends (.headerDecode b (.decided v k)) s t ∧ t.Ended b ∧
      t.rd (F.BF_CNT_ERR.HDR_FAIL b) = (s.rd (F.BF_CNT_ERR.HDR_FAIL b) + 1) % 2 ^ 8 := by
  refine ⟨_, Ends.of_iff rfl (by rw [run, decodes]; rfl) ?_, s.headerFailed_facts b⟩
  rw [rx]
  exact if_pos (by simpa using bad)

section Good
variable {v : Nat} (k : Nat) (sound : hdrBad (v % 2 ^ 64) = false) (type : (hdrOf v).ptype < 8)
include sound type

theorem Ends.headerDecode_good {u : State} (h : s.rxHeader b (hdrOf v) r = u) : Ends (.headerDecode b (.decided v k)) s u := by
  refine Ends.of_iff rfl (by rw [run, decodes]; rfl) ?_
  have taken : (hdrBad (v % 2 ^ 64) || decide (8 ≤ (hdrOf v).ptype)) = false := by
    rw [sound, decide_eq_false (Nat.not_le.mpr type)]
    rfl
  rw [rx]
  exact (if_neg (Bool.eq_false_iff.mp taken)).trans h

/-- A packet for another node is left alone (R308). -/
theorem Ends.headerDecode_foreign (foreign : ¬ ((hdrOf v).bcast = true ∨ (hdrOf v).dst = s.bf[b].node))
    (proper : s.on (F.BF_CTRL.RX_PROMISC b) = false) :
    ∃ t, Ends (.headerDecode b (.decided v k)) s t ∧ t.Ended b ∧
      t.rd (F.BF_CNT_ERR.HDR_FAIL b) = s.rd (F.BF_CNT_ERR.HDR_FAIL b) := by
  obtain ⟨single, other⟩ := not_or.mp foreign
  refine ⟨_, Ends.headerDecode_good run decodes rx k sound type (if_pos ?_), s.rxDone_ended b,
    State.rxDone_rd (by simp only [Fld.key]; omega)⟩
  simp [-Fin.getElem_fin, single, other, proper]

/-- The payload of a packet other than those of ranging follows its header. -/
theorem Ends.headerDecode_payload
    (read : ((hdrOf v).bcast = true ∨ (hdrOf v).dst = s.bf[b].node) ∨ s.on (F.BF_CTRL.RX_PROMISC b) = true)
    (request : (hdrOf v).ptype ≠ 2) (response : (hdrOf v).ptype ≠ 3) :
    ∃ t, Ends (.headerDecode b (.decided v k)) s t ∧ t.rd (F.BF_STATUS.RX_STATE b) = 3 ∧
      t.bf[b].rx = some { r with hdr := some (hdrOf v) } := by
  refine ⟨_, Ends.headerDecode_good run decodes rx k sound type
    ((if_neg ?_).trans ((if_neg request).trans (if_neg response))), State.rd_wr_same s (F.BF_STATUS.RX_STATE b) 3, ?_⟩
  · obtain (broadcast | mine) | promiscuous := read
    · simp [broadcast]
    · simp [-Fin.getElem_fin, mine]
    · simp [promiscuous]
  · rw [State.bf_modBf_same]

/-- A RANGE_REQ to this node is answered where its response can be authenticated (R309). -/
theorem Ends.headerDecode_request (single : (hdrOf v).bcast = false) (mine : (hdrOf v).dst = s.bf[b].node)
    (request : (hdrOf v).ptype = 2) (enabled : s.on (F.BF_CTRL.RNG_RESP_EN b) = true) (auth : s.bfCanAuth b (hdrOf v) = true) :
    ∃ t, Ends (.headerDecode b (.decided v k)) s t ∧ t.Ended b ∧
      t.bf[b].rsp = some { req := hdrOf v, snr := r.snr, fofs := r.fofs } := by
  obtain ⟨state, free⟩ := s.rxDone_ended b
  refine ⟨_, Ends.headerDecode_good run decodes rx k sound type ((if_neg ?_).trans ((if_pos request).trans (if_pos ?_))),
    ⟨state, ?_⟩, ?_⟩
  · simp [-Fin.getElem_fin, mine]
  · simp [-Fin.getElem_fin, single, mine, enabled, auth]
  · rw [State.bf_modBf_same]
    exact free
  · rw [State.bf_modBf_same]

end Good
end Header

/-! ### The payload (R297, R308) -/

section Payload
variable (decodes : s.rd (F.BF_STATUS.RX_STATE b) = 3) {r : BfRx} {h : BfHdr} (rx : s.bf[b].rx = some r) (hdr : r.hdr = some h)
include decodes rx hdr

theorem Ends.codewordDecode (w : BfWord) {u : State}
    (h : (if h.ncw + 1 ≤ (r.took w).words.length then s.rxFinish b h (r.took w)
      else s.modBf b fun f => { f with rx := some (r.took w) }) = u) : Ends (.codewordDecode b w) s u := by
  refine Ends.of_iff rfl (by rw [run, decodes]; rfl) ?_
  rw [rx]
  dsimp only
  rw [hdr]
  exact h

theorem Ends.codewordDecode_more (more : r.words.length < h.ncw) (w : BfWord) :
    ∃ t, Ends (.codewordDecode b w) s t ∧ t.bf[b].rx = some (r.took w) := by
  refine ⟨_, Ends.codewordDecode run decodes rx hdr w (if_neg ?_), ?_⟩
  · simpa [BfRx.took] using more
  · rw [State.bf_modBf_same]

theorem Ends.codewordDecode_last (last : h.ncw ≤ r.words.length) (w : BfWord) :
    Ends (.codewordDecode b w) s (s.rxFinish b h (r.took w)) :=
  Ends.codewordDecode run decodes rx hdr w (if_pos (by simpa [BfRx.took] using last))

/-- A response that nothing awaits is dropped (R309). -/
theorem Ends.codewordDecode_response (last : h.ncw ≤ r.words.length) (response : h.ptype = 3) (none_runs : s.bf[b].rng = none)
    (w : BfWord) : ∃ t, Ends (.codewordDecode b w) s t ∧ t.Ended b := by
  refine ⟨_, Ends.codewordDecode_last run decodes rx hdr last w, ?_⟩
  rw [State.rxFinish, if_pos response, none_runs]
  exact State.rxDone_ended _ b

section Data
variable (last : h.ncw ≤ r.words.length) (data : h.ptype ≠ 3) (proper : s.on (F.BF_CTRL.RX_ERR_DELIV b) = false)
include last data proper

/-- A packet with a codeword that failed is counted and dropped (R308). -/
theorem Ends.codewordDecode_fails (w : BfWord) (fails : (r.decode w).1 = none) :
    ∃ t, Ends (.codewordDecode b w) s t ∧ t.Ended b ∧
      t.rd (F.BF_CNT_ERR.LDPC_FAIL b) = (s.rd (F.BF_CNT_ERR.LDPC_FAIL b) + 1) % 2 ^ 8 := by
  have failed : (r.took w).words.any Option.isNone = true := by simp [BfRx.took, fails]
  have proper' : (s.afterArea b (r.took w)).on (F.BF_CTRL.RX_ERR_DELIV b) = false :=
    (State.afterArea_on _ (by simp only [Fld.key]; omega)).trans proper
  refine ⟨_, Ends.codewordDecode_last run decodes rx hdr last w, ?_⟩
  rw [State.rxFinish_data _ data, failed, State.rxStatus, if_pos rfl, State.rxDeliver_LDPC proper']
  refine ⟨(s.afterArea_ended b _).count (by simp only [Fld.key]; omega), ?_⟩
  rw [State.rd_count_same, State.afterArea_rd _ (by simp only [Fld.key]; omega)]

/-- A packet without authentication counts as one with a bad tag, unless RX_UNAUTH lets it in (R308). -/
theorem Ends.codewordDecode_unauth (whole : ∀ w ∈ r.words, w.isSome = true) (plain : h.auth = false)
    (strict : s.on (F.BF_CTRL.RX_UNAUTH b) = false) (v k : Nat) :
    ∃ t, Ends (.codewordDecode b (.decided v k)) s t ∧ t.Ended b ∧ t.on (F.BF_EVENT.SEC_FAIL b) = true ∧
      t.rd (F.BF_CNT_SEC.TAG_BAD b) = (s.rd (F.BF_CNT_SEC.TAG_BAD b) + 1) % 2 ^ 8 := by
  have sound : (r.took (.decided v k)).words.any Option.isNone = false := by
    simpa [BfRx.took, BfRx.decode, Option.isSome_iff_ne_none] using whole
  have status (area : List Nat) : s.rxStatus b h area false = rsUNAUTH := by simp [State.rxStatus, plain, strict]
  have proper' : (s.afterArea b (r.took (.decided v k))).on (F.BF_CTRL.RX_ERR_DELIV b) = false :=
    (State.afterArea_on _ (by simp only [Fld.key]; omega)).trans proper
  refine ⟨_, Ends.codewordDecode_last run decodes rx hdr last (.decided v k), ?_⟩
  rw [State.rxFinish_data _ data, sound, status, State.rxDeliver_UNAUTH proper']
  refine ⟨((s.afterArea_ended b _).count (by simp only [Fld.key]; omega)).wr _ (by simp only [Fld.key]; omega),
    State.on_wrB_same _ (F.BF_EVENT.SEC_FAIL b) true rfl, ?_⟩
  rw [State.rd_wrB_other _ _ (by simp only [Fld.key]; omega), State.rd_count_same,
    State.afterArea_rd _ (by simp only [Fld.key]; omega)]

end Data

end Payload

/-! ### Ranging (R309, R318, R330) -/

theorem Ends.rangeRspSend (tx_en : s.on (F.BF_CTRL.TX_EN b) = true) (silent : s.bf[b].tx = none) (tB tb : Nat) {q : BfRsp}
    (answers : s.bf[b].rsp = some q) (auth : s.bfCanAuth b q.req = true) :
    ∃ t p, Ends (.rangeRspSend b tB tb) s t ∧ t.bf[b].tx = some p ∧ p.src = .rsp ∧ p.hdr.ptype = 3 ∧
      p.hdr.dst = q.req.src ∧ p.hdr.src = s.bf[b].node ∧ p.hdr.len = 10 ∧ p.sfdTb = tb ∧
      t.on (F.BF_STATUS.TX_ACTIVE b) = true ∧ t.bf[b].rsp = none := by
  let h := { q.req with ptype := 3, src := s.bf[b].node, dst := q.req.src, len := 10 }
  let m := (s.modBf b fun f => { f with rsp := none }).bfMake b .rsp h
    ([q.req.src] ++ natsLE 2 q.req.pseq ++ natsLE 4 tB ++ [q.snr % 256] ++ natsLE 2 (unsignedOf 16 q.fofs)) tb
  have kept : m.2.bf = _ := (State.bfMake_facts _ b .rsp h _ tb).2.1
  refine ⟨m.2.bfStart b m.1 false, m.1, Ends.of_iff rfl (by rw [run, tx_en, silent]; rfl) ?_, ?_, rfl, rfl, rfl, rfl, rfl, rfl,
    State.bfStart_TX_ACTIVE _ b _ _, ?_⟩
  · rw [answers]
    exact if_pos auth
  · rw [State.bfStart_bf]
  · rw [State.bfStart_bf, kept, State.bf_modBf_same]

theorem Ends.rangeRspSend_none (tx_en : s.on (F.BF_CTRL.TX_EN b) = true) (silent : s.bf[b].tx = none) (tB tb : Nat)
    (no_answer : s.bf[b].rsp = none) : Ends (.rangeRspSend b tB tb) s s :=
  Ends.of_iff rfl (by rw [run, tx_en, silent]; rfl) (by rw [no_answer])

end Run

/-- RNG_CTRL as the word `v` writes it. -/
def State.rngWritten (s : State) (b : Fin 2) (v : Nat) : State :=
  ((((s.wr (F.RNG_CTRL.RNG_DST b) (v / 2 ^ 25)).wr (F.RNG_CTRL.RNG_AUTH b) (v / 2 ^ 24)).wr (F.RNG_CTRL.RNG_KEY b)
    (v / 2 ^ 21)).wr (F.RNG_CTRL.RNG_MOD b) (v / 2 ^ 20)).wr (F.RNG_CTRL.RNG_SF b) (v / 2 ^ 18)

theorem State.rngWritten_fields (s : State) (b : Fin 2) (v : Nat) :
    (s.rngWritten b v).rd (F.RNG_CTRL.RNG_DST b) = bitsOf v 30 25 ∧
      (s.rngWritten b v).on (F.RNG_CTRL.RNG_AUTH b) = bitB v 24 ∧
      (s.rngWritten b v).rd (F.RNG_CTRL.RNG_KEY b) = bitsOf v 23 21 ∧
      (s.rngWritten b v).on (F.RNG_CTRL.RNG_MOD b) = bitB v 20 ∧
      (s.rngWritten b v).rd (F.RNG_CTRL.RNG_SF b) = bitsOf v 19 18 := by
  refine ⟨?_, ?_, ?_, ?_, ?_⟩
  all_goals
    simp (disch := (simp only [Fld.key]; omega)) only [State.rngWritten, State.on, State.rd_wr_other, State.rd_wr_same]
    rfl

theorem State.rngWritten_BF_EN (v : Nat) : (s.rngWritten b v).on (F.BF_CTRL.BF_EN b) = s.on (F.BF_CTRL.BF_EN b) := by
  simp (disch := (simp only [Fld.key]; omega)) only [State.rngWritten, State.on, State.rd_wr_other]

/-- An exchange that runs ends with its status and RNG_DONE (R330). -/
theorem State.rngEnd_shows (runs : s.bf[b].rng.isSome = true) (st : Nat) :
    (s.rngEnd b st).rd (F.RNG_CTRL.RNG_STATUS b) = st % 2 ^ 3 ∧ (s.rngEnd b st).on (F.BF_EVENT.RNG_DONE b) = true := by
  rw [State.rngEnd, if_pos runs]
  refine ⟨?_, State.on_wrB_same _ (F.BF_EVENT.RNG_DONE b) true rfl⟩
  rw [State.rd_modBf, State.rd_wrB_other _ _ (by simp only [Fld.key]; omega), State.rd_wr_same]

section On
variable (on : s.bfOn b = true)
include on

/-- RNG_GO is refused during an exchange and on a transceiver that is disabled (R330). -/
theorem Ends.rngGo_refused (v : Nat) (refused : s.bf[b].rng.isSome = true ∨ ¬ s.on (F.BF_CTRL.BF_EN b) = true) :
    ∃ t, Ends (.rngGo b v) s t ∧ t.rd (F.RNG_CTRL.RNG_STATUS b) = 5 ∧ t.bf[b] = s.bf[b] := by
  refine ⟨_, Ends.of_iff rfl on (if_pos ?_), State.rd_wr_same (s.rngWritten b v) (F.RNG_CTRL.RNG_STATUS b) 5, rfl⟩
  obtain runs | disabled := refused
  · exact (Bool.or_eq_true _ _).mpr (.inl runs)
  · have off : (s.rngWritten b v).on (F.BF_CTRL.BF_EN b) = false :=
      (State.rngWritten_BF_EN v).trans (Bool.eq_false_iff.mpr disabled)
    exact (Bool.or_eq_true _ _).mpr (.inr (congrArg not off))

theorem Ends.rngGo_starts (v : Nat) (none_runs : s.bf[b].rng = none) (en : s.on (F.BF_CTRL.BF_EN b) = true) :
    ∃ t g, Ends (.rngGo b v) s t ∧ t.rd (F.RNG_CTRL.RNG_STATUS b) = 1 ∧ t.bf[b].rng = some g ∧
      g.dst = bitsOf v 30 25 ∧ g.form.auth = bitB v 24 ∧ g.form.keyId = bitsOf v 23 21 ∧ g.form.qpsk = bitB v 20 ∧
      g.form.sf = bitsOf v 19 18 ∧ g.form.ptype = 2 ∧ g.sent = false ∧ t.bf[b].third = s.bf[b].third ++ [false] := by
  obtain ⟨dst, auth, key, qpsk, sf⟩ := s.rngWritten_fields b v
  have starts : ((s.rngWritten b v).bf[b].rng.isSome || !(s.rngWritten b v).on (F.BF_CTRL.BF_EN b)) = false :=
    Bool.or_eq_false_iff.mpr ⟨congrArg Option.isSome none_runs, by rw [State.rngWritten_BF_EN, en]; rfl⟩
  refine ⟨_, _, Ends.of_iff rfl on (if_neg (Bool.eq_false_iff.mp starts)),
    State.rd_wr_same (s.rngWritten b v) (F.RNG_CTRL.RNG_STATUS b) 1, congrArg Bf.rng (State.bf_modBf_same _ b _), dst, auth, key,
    qpsk, sf, rfl, rfl, congrArg Bf.third (State.bf_modBf_same _ b _)⟩

theorem Ends.rangeTimeout (clock : s.rd F.CKC_OSC_STATUS.XB_STATE = 1) {g : BfRng} (runs : s.bf[b].rng = some g)
    (sent : g.sent = true) (unheard : g.heard = false) :
    ∃ t, Ends (.rangeTimeout b) s t ∧ t.rd (F.RNG_CTRL.RNG_STATUS b) = 3 ∧ t.on (F.BF_EVENT.RNG_DONE b) = true ∧
      t.bf[b].rng = none := by
  have ticks : s.bfClock = true := beq_iff_eq.mpr clock
  obtain ⟨status, event⟩ := State.rngEnd_shows (by rw [runs]; rfl : s.bf[b].rng.isSome = true) 3
  refine ⟨s.rngEnd b 3, Ends.of_iff rfl (by rw [on, ticks]; rfl) ?_, status, event, (s.rngEnd_bf b 3).1⟩
  rw [runs]
  exact if_pos (by simp [sent, unheard])

theorem Ends.rangeTimeout_none (none_runs : s.bf[b].rng = none) : Ends (.rangeTimeout b) s s := by
  cases ticks : s.bfClock with
  | false => exact Ends.of_not_iff rfl (by rw [ticks, Bool.and_false])
  | true => exact Ends.of_iff rfl (by rw [on, ticks]; rfl) (by rw [none_runs])

end On

/-! ### Key slots (20_keep_startup.md R702) -/

/-- The number whose bits are the first `n` of `p`. -/
theorem foldl_range_bits (p : Nat → Bool) : ∀ n, (List.range n).foldl (fun a i => a + b2n (p i) * 2 ^ i) 0 < 2 ^ n ∧
    ∀ i < n, ((List.range n).foldl (fun a i => a + b2n (p i) * 2 ^ i) 0).testBit i = p i
  | 0 => ⟨Nat.one_pos, fun _ none_below => absurd none_below (Nat.not_lt_zero _)⟩
  | n + 1 => by
    obtain ⟨bound, bits⟩ := foldl_range_bits p n
    rw [List.range_succ, List.foldl_append, List.foldl_cons, List.foldl_nil, Nat.add_comm, Nat.mul_comm]
    constructor
    · have := Nat.mul_le_mul_left (2 ^ n) (Nat.le_of_lt_succ (b2n_lt_two (p n)))
      omega
    · intro i below
      rw [Nat.testBit_two_pow_mul_add _ bound]
      split
      next lower => exact bits i lower
      next top =>
        obtain rfl : i = n := by omega
        rw [Nat.sub_self]
        cases p i <;> rfl

theorem Ends.bfKeySlotLoad (on : s.bfOn b = true) :
    ∃ t, Ends (.bfKeySlotLoad b) s t ∧ t.bf[b].keys = s.kepStore.keys ∧
      ∀ i < 8, bitB (t.rd (F.BF_STATUS.KEY_VALID b)) i = (s.kepStore.keys.getD i none).isSome := by
  refine ⟨_, Ends.of_iff rfl on rfl, ?_, fun i slot => ?_⟩
  · rw [State.keysLoad, State.wr_bf, State.bf_modBf_same]
  · rw [State.keysLoad, State.rd_wr_same, bitB_eq_testBit, Nat.testBit_mod_two_pow, decide_eq_true slot, Bool.true_and]
    exact (foldl_range_bits _ 8).2 i slot

end BelfryReceiving

/-- Settles O43: a reception's beginning and end, a header and the payload, an exchange and the key slots, each by the rule above
for it. -/
theorem belfryReceiving : Obligations.BelfryReceiving := by
  unfold Obligations.BelfryReceiving
  intro s b on f en run st ended
  have runs (h : run) : s.bfEn b = true := State.bfEn_iff.mpr ⟨on, h⟩
  refine ⟨fun h => Ends.preambleDetect (runs h), fun h => Ends.sfdDetect (runs h), fun h => Ends.sfdTimeout (runs h),
    fun h enabled db stronger => ⟨Ends.capture_none (runs h) enabled stronger,
      fun r => Ends.capture_some (runs h) enabled stronger⟩,
    fun h decodes r rx => ?_, fun h decodes r hdr rx hdr? => ?_, fun v => ⟨Ends.rngGo_refused on v, Ends.rngGo_starts on v⟩,
    fun tx_en h silent tB tb => ⟨Ends.rangeRspSend_none (runs h) tx_en silent tB tb,
      fun q => Ends.rangeRspSend (runs h) tx_en silent tB tb⟩,
    fun clock g => Ends.rangeTimeout on clock, Ends.rangeTimeout_none on, Ends.bfKeySlotLoad on⟩
  · exact ⟨fun w => Ends.headerDecode_fails (runs h) decodes rx, fun v k => Ends.headerDecode_bad (runs h) decodes rx k,
      fun v k sound type => ⟨Ends.headerDecode_foreign (runs h) decodes rx k sound type,
        Ends.headerDecode_payload (runs h) decodes rx k sound type,
        Ends.headerDecode_request (runs h) decodes rx k sound type⟩⟩
  · exact ⟨fun more w => Ends.codewordDecode_more (runs h) decodes rx hdr? more w, fun v k => ⟨rfl, rfl⟩,
      fun last data proper => ⟨Ends.codewordDecode_fails (runs h) decodes rx hdr? last data proper,
        Ends.codewordDecode_unauth (runs h) decodes rx hdr? last data proper⟩,
      fun last response none_runs => Ends.codewordDecode_response (runs h) decodes rx hdr? last response none_runs⟩

end Sys2Proof.Machine

/-! SUPPORT. Cable diagnostics and low-power idle (10_diagnostics_lpi.md R343-R345, R349, R350, R356-R362, R364-R366, R376,
R377): how a run starts, is refused and ends, wear scans and landmarks, the transmit and the receive direction of low-power
idle, then the statement about them. -/

namespace Sys2Proof.Machine

section DiagnosticsAndLpi
variable {s : State} {n : Fin 8}

/-! ### The start of a run (R343, R344, R364) -/

section Start
variable {kind pairs avg len : Nat} {cap : Bool}

/-- The state with DIAG_CTRL written, in which DIAG_GO acts. -/
def State.diagCtrl (s : State) (n : Fin 8) (kind pairs : Nat) (cap : Bool) (avg len : Nat) : State :=
  ((((s.wr (F.DIAG_CTRL.DIAG_KIND n) kind).wr (F.DIAG_CTRL.DIAG_PAIRS n) pairs).wrB (F.DIAG_CTRL.CAP_EN n) cap).wr
    (F.DIAG_CTRL.TDR_AVG n) avg).wr (F.DIAG_CTRL.TDR_LEN n) len

theorem State.diagCtrl_rd {g : Fld} (h : g.key / 32 ≠ 0x280000 + 0x100000 * n.val) :
    (s.diagCtrl n kind pairs cap avg len).rd g = s.rd g := by
  simp (disch := (simp only [Fld.key] at h ⊢; omega)) only [State.diagCtrl, State.rd_wr_other, State.rd_wrB_other]

theorem State.diagCtrl_fields (s : State) (n : Fin 8) (kind pairs : Nat) (cap : Bool) (avg len : Nat) :
    let w := s.diagCtrl n kind pairs cap avg len
    w.rd (F.DIAG_CTRL.DIAG_KIND n) = kind % 8 ∧ w.rd (F.DIAG_CTRL.DIAG_PAIRS n) = pairs % 16 ∧
      w.on (F.DIAG_CTRL.CAP_EN n) = cap ∧ w.rd (F.DIAG_CTRL.TDR_AVG n) = avg % 16 ∧ w.rd (F.DIAG_CTRL.TDR_LEN n) = len % 8 := by
  refine ⟨?_, ?_, ?_, ?_, ?_⟩
  case refine_3 =>
    refine (State.on_of_rd ?_).trans (State.on_wrB_same s (F.DIAG_CTRL.CAP_EN n) cap rfl)
    simp (disch := (simp only [Fld.key]; omega)) only [State.diagCtrl, State.rd_wr_other, State.rd_wrB_same]
  all_goals
    simp (disch := (simp only [Fld.key]; omega)) only [State.diagCtrl, State.rd_wr_other, State.rd_wrB_other]
    exact State.rd_wr_same _ _ _

/-! What DIAG_GO asks its conditions about is as it was before DIAG_CTRL was written. -/

theorem State.diagCtrl_link : (s.diagCtrl n kind pairs cap avg len).link n = s.link n :=
  State.diagCtrl_rd (by simp only [Fld.key]; omega)

theorem State.diagCtrl_linkUp : (s.diagCtrl n kind pairs cap avg len).linkUp n = s.linkUp n := by
  rw [State.linkUp, State.diagCtrl_link, State.linkUp]

theorem State.diagCtrl_mode : (s.diagCtrl n kind pairs cap avg len).rd (F.LINK_STATUS.MODE n) = s.rd (F.LINK_STATUS.MODE n) :=
  State.diagCtrl_rd (by simp only [Fld.key]; omega)

theorem State.diagCtrl_spire : (s.diagCtrl n kind pairs cap avg len).spire n = s.spire n := by
  rw [State.spire, State.diagCtrl_mode, State.spire]

theorem State.diagCtrl_lineRate : (s.diagCtrl n kind pairs cap avg len).lineRate n = s.lineRate n := by
  rw [State.lineRate, State.diagCtrl_mode, State.diagCtrl_rd (by simp only [Fld.key]; omega), State.lineRate]

theorem State.diagCtrl_checking : (s.diagCtrl n kind pairs cap avg len).checking n = s.checking n := by
  rw [State.checking, State.on_of_rd (State.diagCtrl_rd (by simp only [Fld.key]; omega)),
    State.on_of_rd (State.diagCtrl_rd (by simp only [Fld.key]; omega)), State.checking]

theorem State.diagCtrl_pairSlice (x : Nat) : (s.diagCtrl n kind pairs cap avg len).pairSlice n x = s.pairSlice n x := by
  have reads {g : Fld} (h : g.key / 32 = 0x20A404 + 0x100000 * n.val) :
      (s.diagCtrl n kind pairs cap avg len).rd g = s.rd g := State.diagCtrl_rd (by omega)
  unfold State.pairSlice State.xbSwapped
  rw [reads (g := F.XB_STATUS.XB_STATE n) (by simp only [Fld.key]; omega),
    reads (g := F.XB_STATUS.XB_CUR_PAIR n) (by simp only [Fld.key]; omega)]

theorem State.pairSlice_le (s : State) (n : Fin 8) {x : Nat} (hx : x ≤ 4) : s.pairSlice n x ≤ 4 := by
  unfold State.pairSlice
  split <;> omega

theorem State.diagCtrl_pairsOn (v : Nat) : (s.diagCtrl n kind pairs cap avg len).pairsOn n v = s.pairsOn n v := by
  rw [Bool.eq_iff_iff, State.pairsOn, State.pairsOn, List.all_eq_true, List.all_eq_true]
  refine forall₂_congr fun x hx => ?_
  have pair : x ≤ 4 := by
    have := List.mem_of_mem_filter hx
    simp only [List.mem_cons, List.not_mem_nil, or_false] at this
    omega
  have slice := s.pairSlice_le n pair
  rw [State.diagCtrl_pairSlice, State.domOn, State.diagCtrl_rd (by simp only [Fld.key]; omega), State.domOn]

theorem State.diagCtrl_tdrOk (hp : pairs < 16) : (s.diagCtrl n kind pairs cap avg len).tdrOk n =
    ((s.link n == stDISABLED && s.pairsOn n pairs) || s.link n == stDORMANT) := by
  obtain ⟨-, written, -⟩ := s.diagCtrl_fields n kind pairs cap avg len
  rw [State.tdrOk, written, State.diagCtrl_link, State.diagCtrl_pairsOn, Nat.mod_eq_of_lt hp]

/-! Where the link allows each kind (R343), asked after DIAG_CTRL was written. -/

theorem State.diagCtrl_tdr (hp : pairs < 16) : (s.diagCtrl n kind pairs cap avg len).diagKind n 0 =
    if (s.link n == stDISABLED && s.pairsOn n pairs) || s.link n == stDORMANT then some .tdr else none := by
  rw [← State.diagCtrl_tdrOk (kind := kind) (cap := cap) (avg := avg) (len := len) hp, State.diagKind]

theorem State.diagCtrl_snapshot : (s.diagCtrl n kind pairs cap avg len).diagKind n 1 =
    if s.linkUp n && s.rd (F.LINK_STATUS.MODE n) != 1 then some .snapshot else none := by
  rw [State.diagKind, State.diagCtrl_linkUp, State.diagCtrl_mode]

theorem State.diagCtrl_loss : (s.diagCtrl n kind pairs cap avg len).diagKind n 2 =
    if s.link n == stUP && s.rd (F.LINK_STATUS.MODE n) != 1 && s.rd (F.LPI_STATUS.RX_LPI n) == lpiACTIVE then some .loss
    else none := by
  rw [State.diagKind, State.diagCtrl_link, State.diagCtrl_mode, State.diagCtrl_rd (by simp only [Fld.key]; omega)]

theorem State.diagCtrl_wear (hp : pairs < 16) : (s.diagCtrl n kind pairs cap avg len).diagKind n 3 =
    if (s.link n == stUP && s.spire n) || ((s.link n == stDISABLED && s.pairsOn n pairs) || s.link n == stDORMANT)
    then some .wear else none := by
  rw [State.diagKind, State.diagCtrl_tdrOk hp, State.diagCtrl_link, State.diagCtrl_spire]

/-- The run of kind `k` begins, with the parameters of DIAG_CTRL. -/
def State.runBegun (s : State) (n : Fin 8) (k : DiagKind) : State :=
  ((s.wrB (F.DIAG_STATUS.DIAG_BUSY n) true).wr (F.DIAG_STATUS.DIAG_RESULT n) 0).modPort n fun p =>
    { p with diag := { p.diag with
      run := some k, pairs := s.rd (F.DIAG_CTRL.DIAG_PAIRS n), cap := s.on (F.DIAG_CTRL.CAP_EN n),
      avg := tdrAvg (s.rd (F.DIAG_CTRL.TDR_AVG n)), len := tdrLen (s.rd (F.DIAG_CTRL.TDR_LEN n)),
      rate := if s.linkUp n then s.lineRate n else 0, tb0 := s.tb } }

theorem State.diagGo_refused
    (refused : s.checking n = true ∨ s.diagKind n (s.rd (F.DIAG_CTRL.DIAG_KIND n)) = none) :
    s.diagGo n = s.wr (F.DIAG_STATUS.DIAG_RESULT n) 2 := by
  unfold State.diagGo
  obtain busy | unknown := refused
  · rw [busy]
    rfl
  · rw [unknown, ite_self]

theorem State.diagGo_begins {k : DiagKind} (free : s.checking n = false)
    (accepted : s.diagKind n (s.rd (F.DIAG_CTRL.DIAG_KIND n)) = some k) :
    s.diagGo n = if s.link n = stDORMANT then (s.runBegun n k).portWake n else s.runBegun n k := by
  unfold State.diagGo
  rw [free, accepted]
  rfl

/-- `c` ends refused at port `n`: DIAG_RESULT says so, and the port and DIAG_BUSY are as they were. -/
def RunRefused (c : Instr) (s : State) (n : Fin 8) : Prop :=
  ∃ t, Ends c s t ∧ t.rd (F.DIAG_STATUS.DIAG_RESULT n) = 2 ∧ t.port = s.port ∧
    t.rd (F.DIAG_STATUS.DIAG_BUSY n) = s.rd (F.DIAG_STATUS.DIAG_BUSY n)

/-- The run of kind `k` on `pairs` is in progress since `tb`. -/
def State.RunStarted (t : State) (n : Fin 8) (k : DiagKind) (pairs tb : Nat) : Prop :=
  t.on (F.DIAG_STATUS.DIAG_BUSY n) = true ∧ t.rd (F.DIAG_STATUS.DIAG_RESULT n) = 0 ∧ t.port[n].diag.run = some k ∧
    t.port[n].diag.pairs = pairs ∧ t.port[n].diag.tb0 = tb

theorem State.runBegun_diag (s : State) (n : Fin 8) (k : DiagKind) : (s.runBegun n k).port[n].diag =
    { s.port[n].diag with
      run := some k, pairs := s.rd (F.DIAG_CTRL.DIAG_PAIRS n), cap := s.on (F.DIAG_CTRL.CAP_EN n),
      avg := tdrAvg (s.rd (F.DIAG_CTRL.TDR_AVG n)), len := tdrLen (s.rd (F.DIAG_CTRL.TDR_LEN n)),
      rate := if s.linkUp n then s.lineRate n else 0, tb0 := s.tb } :=
  congrArg Port.diag (State.port_modPort_same _ _ _)

theorem State.runBegun_started (hp : pairs < 16) (k : DiagKind) :
    ((s.diagCtrl n kind pairs cap avg len).runBegun n k).RunStarted n k pairs s.tb := by
  obtain ⟨-, written, -⟩ := s.diagCtrl_fields n kind pairs cap avg len
  refine ⟨?_, State.rd_wr_same _ (F.DIAG_STATUS.DIAG_RESULT n) 0, ?_, ?_, ?_⟩
  · rw [State.runBegun, State.on, State.rd_modPort, State.rd_wr_other _ _ (by simp only [Fld.key]; omega)]
    exact State.on_wrB_same _ (F.DIAG_STATUS.DIAG_BUSY n) true rfl
  · rw [State.runBegun_diag]
  · rw [State.runBegun_diag, written, Nat.mod_eq_of_lt hp]
  · rw [State.runBegun_diag]
    rfl

section Command
variable {c : Instr} (pcs : s.pcsOn n = true) (go : exec c s = done (s.diagWrite n kind pairs cap avg len))
include pcs go

theorem Ends.diagGo_refused (refused : s.checking n = true ∨
      (s.diagCtrl n kind pairs cap avg len).diagKind n (kind % 8) = none) :
    RunRefused c s n := by
  obtain ⟨written, -⟩ := s.diagCtrl_fields n kind pairs cap avg len
  refine ⟨_, Ends.of_iff go pcs (State.diagGo_refused (s := s.diagCtrl n kind pairs cap avg len) ?_),
    State.rd_wr_same _ (F.DIAG_STATUS.DIAG_RESULT n) 2, rfl, ?_⟩
  · rwa [written, State.diagCtrl_checking]
  · rw [State.rd_wr_other _ _ (by simp only [Fld.key]; omega), State.diagCtrl_rd (by simp only [Fld.key]; omega)]

theorem Ends.diagGo_begins {k : DiagKind} (free : s.checking n = false)
    (accepted : (s.diagCtrl n kind pairs cap avg len).diagKind n (kind % 8) = some k) :
    (s.link n = stDORMANT → Ends c s (((s.diagCtrl n kind pairs cap avg len).runBegun n k).portWake n)) ∧
      (s.link n ≠ stDORMANT → Ends c s ((s.diagCtrl n kind pairs cap avg len).runBegun n k)) := by
  obtain ⟨written, -⟩ := s.diagCtrl_fields n kind pairs cap avg len
  have begins := State.diagGo_begins (s := s.diagCtrl n kind pairs cap avg len) (State.diagCtrl_checking.trans free)
    (by rw [written]; exact accepted)
  rw [State.diagCtrl_link] at begins
  exact ⟨fun dormant => Ends.of_iff go pcs (begins.trans (if_pos dormant)),
    fun awake => Ends.of_iff go pcs (begins.trans (if_neg awake))⟩

end Command

/-! ### The kinds (R343) -/

section Kinds
variable (pcs : s.pcsOn n = true)
include pcs

theorem Ends.diagTdr_refused (hp : pairs < 16) (enabled : s.link n ≠ stDISABLED) (awake : s.link n ≠ stDORMANT) :
    RunRefused (.diagTdr n pairs cap avg len) s n :=
  Ends.diagGo_refused pcs rfl (.inr ((State.diagCtrl_tdr hp).trans (if_neg (by simp [enabled, awake]))))

theorem Ends.diagSnapshot_refused (down : s.linkUp n = false) : RunRefused (.diagSnapshot n pairs cap) s n :=
  Ends.diagGo_refused pcs rfl (.inr (State.diagCtrl_snapshot.trans (if_neg (by simp [down]))))

theorem Ends.diagLoss_refused (down : s.link n ≠ stUP) : RunRefused (.diagLoss n pairs) s n :=
  Ends.diagGo_refused pcs rfl (.inr (State.diagCtrl_loss.trans (if_neg (by simp [down]))))

variable (free : s.checking n = false)
include free

theorem Ends.diagTdr_disabled (hp : pairs < 16) (disabled : s.link n = stDISABLED) (powered : s.pairsOn n pairs = true) :
    ∃ t, Ends (.diagTdr n pairs cap avg len) s t ∧ t.RunStarted n .tdr pairs s.tb ∧
      t.port[n].diag.avg = min (avg % 16) 10 ∧ t.port[n].diag.len = min (len % 8) 4 ∧ t.port[n].diag.cap = cap := by
  obtain ⟨-, -, hcap, havg, hlen⟩ := s.diagCtrl_fields n 0 pairs cap avg len
  have accepted : (s.diagCtrl n 0 pairs cap avg len).diagKind n 0 = some .tdr :=
    (State.diagCtrl_tdr hp).trans (if_pos (by simp [powered, disabled]))
  refine ⟨_, (Ends.diagGo_begins pcs rfl free accepted).2 (by rw [disabled]; decide), State.runBegun_started hp .tdr, ?_⟩
  rw [State.runBegun_diag, hcap, havg, hlen]
  exact ⟨rfl, rfl, rfl⟩

/-- A run in DORMANT brings the port's domains back ON (R344). -/
theorem Ends.diagTdr_dormant (hp : pairs < 16) (dormant : s.link n = stDORMANT) :
    ∃ u : State, Ends (.diagTdr n pairs cap avg len) s (u.portWake n) ∧ u.RunStarted n .tdr pairs s.tb := by
  have accepted : (s.diagCtrl n 0 pairs cap avg len).diagKind n 0 = some .tdr :=
    (State.diagCtrl_tdr hp).trans (if_pos (by simp [dormant]))
  exact ⟨_, (Ends.diagGo_begins pcs rfl free accepted).1 dormant, State.runBegun_started hp .tdr⟩

theorem Ends.diagSnapshot_begins (hp : pairs < 16) (up : s.linkUp n = true) (mode : s.rd (F.LINK_STATUS.MODE n) ≠ 1) :
    ∃ t, Ends (.diagSnapshot n pairs cap) s t ∧ t.RunStarted n .snapshot pairs s.tb ∧ t.port[n].diag.rate = s.lineRate n := by
  have awake : s.link n ≠ stDORMANT := fun dormant => by simp [State.linkUp, dormant] at up
  refine ⟨_, (Ends.diagGo_begins pcs rfl free (State.diagCtrl_snapshot.trans (if_pos (by simp [up, mode])))).2 awake,
    State.runBegun_started hp .snapshot, ?_⟩
  rw [State.runBegun_diag, State.diagCtrl_linkUp, State.diagCtrl_lineRate]
  exact if_pos up

theorem Ends.diagLoss_begins (hp : pairs < 16) (up : s.link n = stUP) (mode : s.rd (F.LINK_STATUS.MODE n) ≠ 1)
    (active : s.rd (F.LPI_STATUS.RX_LPI n) = lpiACTIVE) :
    ∃ t, Ends (.diagLoss n pairs) s t ∧ t.RunStarted n .loss pairs s.tb :=
  ⟨_, (Ends.diagGo_begins pcs rfl free
    (State.diagCtrl_loss.trans (if_pos (by simp [up, mode, active])))).2 (by rw [up]; decide),
    State.runBegun_started hp .loss⟩

theorem Ends.diagWear_begins (hp : pairs < 16) (up : s.link n = stUP) (spire : s.spire n = true) :
    ∃ t, Ends (.diagWear n pairs) s t ∧ t.RunStarted n .wear pairs s.tb :=
  ⟨_, (Ends.diagGo_begins pcs rfl free
    ((State.diagCtrl_wear hp).trans (if_pos (by simp [up, spire])))).2 (by rw [up]; decide),
    State.runBegun_started hp .wear⟩

end Kinds

end Start

/-! ### The end of a run (R344) -/

/-- A domain that dormant power-down takes keeps what another domain holds of diagnostics and low-power idle. -/
theorem State.autoDown_rd {i : Nat} {g : Fld} (below : i < 120) (dom : addrDom (g.key / 32) ≠ i)
    (diag : 0x80000 ≤ g.key / 32 % 0x100000) (port : 0x200000 ≤ g.key / 32) (s : State) : (s.autoDown i).rd g = s.rd g := by
  have half (m : Fin 8) (h : Nat) : (s.halfDown m h).rd g = s.rd g := by
    have touched : Touch (fun a => a % 0x100000 < 0x80000) s (s.halfDown m h) := by
      unfold State.halfDown
      refine Touch.endWrB (Touch.ite (.wrB _ _ _ ?_) (.refl _)) ?_ <;> (split <;> (simp only [Fld.key]; omega))
    exact touched g (by omega)
  unfold State.autoDown
  split
  · extract_lets s0
    have kept : s0.rd g = s.rd g := by
      unfold s0
      split
      · exact half _ _
      · rfl
    calc ((s0.dropDomain i domOFF).setDom i domOFF).rd g
        = (s0.dropDomain i domOFF).rd g := State.rd_wr_other _ _ (by simp only [Fld.key] at port ⊢; omega)
      _ = s0.rd g := State.dropDomain_rd _ _ _ _ dom
      _ = s.rd g := kept
  · rfl

/-- Dormant power-down leaves PD_Pn_PCS on, and with it diagnostics and low-power idle. -/
theorem State.dormantDown_keeps_pcs {g : Fld} (dom : addrDom (g.key / 32) = 14 * n.val + 9)
    (diag : 0x80000 ≤ g.key / 32 % 0x100000) (port : 0x200000 ≤ g.key / 32) (s : State) : (s.dormantDown n).rd g = s.rd g := by
  have fold (l : List Nat) (other : ∀ i ∈ l, i < 120 ∧ i ≠ 14 * n.val + 9) (s : State) :
      (l.foldl State.autoDown s).rd g = s.rd g := by
    induction l generalizing s with
    | nil => rfl
    | cons i l ih =>
      obtain ⟨⟨below, apart⟩, rest⟩ := List.forall_mem_cons.mp other
      rw [List.foldl_cons, ih rest, State.autoDown_rd below (by omega) diag port]
  have receiver (i) (mem : i ∈ dormantDoms n.val) : i < 120 ∧ i ≠ 14 * n.val + 9 := by
    simp only [dormantDoms, List.mem_cons, List.not_mem_nil, or_false] at mem
    omega
  unfold State.dormantDown
  split
  · dsimp only
    split
    · rw [State.autoDown_rd (by omega) (by omega) diag port, fold _ receiver]
    · exact fold _ receiver s
  · rfl

theorem addrDom_DIAG_STATUS : ∀ n : Fin 8, addrDom (0x280004 + 0x100000 * n.val) = 14 * n.val + 9 := by decide
theorem addrDom_DIAG_EVENT : ∀ n : Fin 8, addrDom (0x281010 + 0x100000 * n.val) = 14 * n.val + 9 := by decide

theorem State.dormantDown_DIAG_BUSY (s : State) (n : Fin 8) :
    (s.dormantDown n).on (F.DIAG_STATUS.DIAG_BUSY n) = s.on (F.DIAG_STATUS.DIAG_BUSY n) := by
  have addr : (F.DIAG_STATUS.DIAG_BUSY n).key / 32 = 0x280004 + 0x100000 * n.val := by simp only [Fld.key]; omega
  exact State.on_of_rd (s.dormantDown_keeps_pcs (by rw [addr, addrDom_DIAG_STATUS]) (by omega) (by omega))

theorem State.dormantDown_DIAG_DONE (s : State) (n : Fin 8) :
    (s.dormantDown n).on (F.DIAG_EVENT.DIAG_DONE n) = s.on (F.DIAG_EVENT.DIAG_DONE n) := by
  have addr : (F.DIAG_EVENT.DIAG_DONE n).key / 32 = 0x281010 + 0x100000 * n.val := by simp only [Fld.key]; omega
  exact State.on_of_rd (s.dormantDown_keeps_pcs (by rw [addr, addrDom_DIAG_EVENT]) (by omega) (by omega))

/-- A run that ends clears DIAG_BUSY and sets DIAG_DONE, in DORMANT too. -/
theorem State.diagEnd_ends (s : State) (n : Fin 8) (result : Nat) :
    (s.diagEnd n result).on (F.DIAG_STATUS.DIAG_BUSY n) = false ∧ (s.diagEnd n result).on (F.DIAG_EVENT.DIAG_DONE n) = true := by
  unfold State.diagEnd
  extract_lets s1 s2
  have busy : s2.on (F.DIAG_STATUS.DIAG_BUSY n) = false := by
    refine (State.on_of_rd ?_).trans (State.on_wrB_same s (F.DIAG_STATUS.DIAG_BUSY n) false rfl)
    rw [State.rd_modPort, State.rd_wrB_other _ _ (by simp only [Fld.key]; omega),
      State.rd_wr_other _ _ (by simp only [Fld.key]; omega)]
  have event : s2.on (F.DIAG_EVENT.DIAG_DONE n) = true := State.on_wrB_same _ (F.DIAG_EVENT.DIAG_DONE n) true rfl
  split
  · exact ⟨(s2.dormantDown_DIAG_BUSY n).trans busy, (s2.dormantDown_DIAG_DONE n).trans event⟩
  · exact ⟨busy, event⟩

/-- The run has ended with what `m` measured; energy on the pair wakes a dormant port (R344). -/
def State.runEnded (s : State) (n : Fin 8) (m : DiagMeas) : State :=
  let r := s.diagFinish n m
  if decide (r.1 = drACTIVE) && s.link n == stDORMANT then (r.2.wakeToSense n).diagEnd n r.1 else r.2.diagEnd n r.1

theorem Ends.diagRunEnd (pcs : s.pcsOn n = true) (busy : s.on (F.DIAG_STATUS.DIAG_BUSY n) = true)
    (none_due : s.port[n].diag.scanDue = false) (m : DiagMeas) :
    ∃ t, Ends (.diagRunEnd n m) s t ∧ t.on (F.DIAG_STATUS.DIAG_BUSY n) = false ∧ t.on (F.DIAG_EVENT.DIAG_DONE n) = true := by
  refine ⟨s.runEnded n m, Ends.of_iff rfl (by rw [pcs, busy]; rfl) (by rw [none_due]; rfl), ?_⟩
  unfold State.runEnded
  dsimp only
  split
  · exact State.diagEnd_ends _ n _
  · exact State.diagEnd_ends _ n _

/-! ### Wear scans and landmarks (R349, R350) -/

section WearScan
variable (pcs : s.pcsOn n = true)
include pcs

section Due
variable (period : s.rd (F.DIAG_CFG.WEAR_PERIOD n) ≠ 0) (up : s.link n = stUP) (spire : s.spire n = true)
include period up spire

/-- A scan that falls due during a run waits for its end. -/
theorem Ends.wearScan_waits (busy : s.on (F.DIAG_STATUS.DIAG_BUSY n) = true) :
    ∃ t, Ends (.wearScan n) s t ∧ t.port[n].diag.scanDue = true ∧ t.regs = s.regs :=
  ⟨_, Ends.of_iff rfl (by simp [pcs, period, State.scanOk, up, spire]) (if_pos busy),
    congrArg (·.diag.scanDue) (State.port_modPort_same _ _ _), rfl⟩

theorem Ends.wearScan_scans (free : ¬ s.on (F.DIAG_STATUS.DIAG_BUSY n) = true) :
    Ends (.wearScan n) s (s.echoScan n (s.lineRate n)) :=
  Ends.of_iff rfl (by simp [pcs, period, State.scanOk, up, spire]) (if_neg free)

end Due

omit pcs in
theorem Ends.wearScan_off (period : s.rd (F.DIAG_CFG.WEAR_PERIOD n) = 0) : Ends (.wearScan n) s s :=
  Ends.of_not_iff rfl (by simp [period])

theorem Ends.lmSet (x : Fin 4) (i : Fin 8) :
    ∃ t, Ends (.lmSet n x i) s t ∧ t.on (F.LM_VAL.BASE_VALID n x i) = false ∧
      t.on (F.LM_VAL.LM_ALARM n x i) = false ∧ 8 * x.val + i.val ∉ t.port[n].diag.lmSeen := by
  refine ⟨_, Ends.of_iff rfl pcs rfl, ?_, State.on_wrB_same _ (F.LM_VAL.LM_ALARM n x i) false rfl, ?_⟩
  · exact (State.on_wrB_other (s.wrB (F.LM_VAL.BASE_VALID n x i) false) (f := F.LM_VAL.LM_ALARM n x i) false
      (by simp only [Fld.key]; omega)).trans (State.on_wrB_same s (F.LM_VAL.BASE_VALID n x i) false rfl)
  · rw [State.lmSet, State.lmFresh, State.port_modPort_same]
    simp

end WearScan

/-! ### Low-power idle, transmit direction (R356, R357, R359, R376, R377) -/

theorem State.port_lpiSends (s : State) (n : Fin 8) (x : TrnTx) (g : Option LpiSignal) :
    (s.lpiSends n x g).port[n].lpi = { s.port[n].lpi with txStart := s.tb, sent := g } :=
  congrArg Port.lpi (State.port_modPort_same _ _ _)

/-- The quiet period that ends counts in TX_QUIET_US, in whole microseconds of the sum (R377). -/
theorem State.lpiQuietEnd_TX_QUIET_US (quiet : s.rd (F.LPI_STATUS.TX_LPI n) = lpiQUIET) :
    (s.lpiQuietEnd n).rd (F.LPI_TIME.TX_QUIET_US n) =
      ((s.port[n].lpi.quietNs + (s.tb - s.port[n].lpi.txStart)) / 1000) % 2 ^ 32 := by
  rw [State.lpiQuietEnd, if_pos quiet, State.rd_wr_same]

theorem State.lpiQuietEnd_TX_LPI (s : State) (n : Fin 8) :
    (s.lpiQuietEnd n).rd (F.LPI_STATUS.TX_LPI n) = s.rd (F.LPI_STATUS.TX_LPI n) := by
  unfold State.lpiQuietEnd
  split
  · exact State.rd_wr_other _ _ (by simp only [Fld.key]; omega)
  · rfl

theorem State.lpiQuietEnd_tb (s : State) (n : Fin 8) : (s.lpiQuietEnd n).tb = s.tb := by
  unfold State.lpiQuietEnd
  split <;> rfl

/-- The transmit direction is awake since `tb`. -/
def State.TxAwake (t : State) (n : Fin 8) (tb : Nat) : Prop :=
  t.rd (F.LPI_STATUS.TX_LPI n) = lpiACTIVE ∧ t.port[n].lpi.wakeDue = false ∧ t.port[n].lpi.wokeTb = some tb

theorem State.lpiAwake_awake (s : State) (n : Fin 8) : (s.lpiAwake n).TxAwake n s.tb := by
  refine ⟨State.rd_wr_same _ (F.LPI_STATUS.TX_LPI n) lpiACTIVE, ?_, ?_⟩
  all_goals rw [State.lpiAwake, State.port_modPort_same]

theorem State.TxAwake.modPort {t : State} {tb : Nat} (h : t.TxAwake n tb) (f : Port → Port)
    (due : ∀ p, (f p).lpi.wakeDue = p.lpi.wakeDue) (woke : ∀ p, (f p).lpi.wokeTb = p.lpi.wokeTb) :
    (t.modPort n f).TxAwake n tb := by
  obtain ⟨active, answered, since⟩ := h
  refine ⟨active, ?_, ?_⟩
  · rw [State.port_modPort_same, due, answered]
  · rw [State.port_modPort_same, woke, since]

section Transmit
variable (pcs : s.pcsOn n = true)
include pcs

theorem Ends.lpiTxEntry (may : s.lpiMayEnter n = true) :
    ∃ t, Ends (.lpiTxEntry n) s t ∧ t.rd (F.LPI_STATUS.TX_LPI n) = lpiQUIET ∧
      t.rd (F.LPI_COUNT.TX_ENTRIES n) = (s.rd (F.LPI_COUNT.TX_ENTRIES n) + 1) % 2 ^ 16 ∧
      t.on (F.DIAG_EVENT.TX_LPI_ENTER n) = true ∧ t.port[n].lpi.txStart = s.tb ∧ t.port[n].lpi.wakeDue = false := by
  refine ⟨_, Ends.of_iff rfl (by rw [pcs, may]; rfl) rfl, ?_, ?_,
    State.on_wrB_same _ (F.DIAG_EVENT.TX_LPI_ENTER n) true rfl, ?_, ?_⟩
  all_goals dsimp only
  · rw [State.lpiSends, State.rd_modPort, State.rd_modPort, State.rd_wrB_other _ _ (by simp only [Fld.key]; omega),
      State.rd_count_other _ _ (by simp only [Fld.key]; omega), State.rd_wr_same]
    rfl
  · rw [State.lpiSends, State.rd_modPort, State.rd_modPort, State.rd_wrB_other _ _ (by simp only [Fld.key]; omega),
      State.rd_count_same, State.rd_wr_other _ _ (by simp only [Fld.key]; omega)]
  · rw [State.port_modPort_same, State.port_lpiSends]
    rfl
  · rw [State.port_modPort_same]

omit pcs in
theorem Ends.lpiTxEntry_none (may_not : s.lpiMayEnter n = false) : Ends (.lpiTxEntry n) s s :=
  Ends.of_not_iff rfl (by rw [may_not, Bool.and_false])

/-- In Spire a refresh sends 16 frames; in a standard mode the next quiet period begins at once. -/
theorem Ends.lpiRefresh (quiet : s.rd (F.LPI_STATUS.TX_LPI n) = lpiQUIET) (none_due : s.port[n].lpi.wakeDue = false) :
    ∃ t, Ends (.lpiRefresh n) s t ∧
      t.rd (F.LPI_TIME.TX_QUIET_US n) = ((s.port[n].lpi.quietNs + (s.tb - s.port[n].lpi.txStart)) / 1000) % 2 ^ 32 ∧
      (s.spire n = true → t.rd (F.LPI_STATUS.TX_LPI n) = lpiREFRESH ∧ t.port[n].lpi.refreshLeft = 16) ∧
      (s.spire n = false → t.rd (F.LPI_STATUS.TX_LPI n) = lpiQUIET ∧ t.port[n].lpi.txStart = s.tb) := by
  have runs : (s.pcsOn n && s.rd (F.LPI_STATUS.TX_LPI n) == lpiQUIET && !s.port[n].lpi.wakeDue) = true := by
    rw [pcs, quiet, none_due]
    rfl
  have counted := State.lpiQuietEnd_TX_QUIET_US quiet
  cases spire : s.spire n with
  | true =>
    refine ⟨_, Ends.of_iff rfl runs (if_pos spire), ?_, fun _ => ⟨?_, ?_⟩, fun std => absurd std (by decide)⟩
    · rw [State.lpiSends, State.rd_modPort, State.rd_modPort, State.rd_wr_other _ _ (by simp only [Fld.key]; omega), counted]
    · exact State.rd_wr_same _ (F.LPI_STATUS.TX_LPI n) lpiREFRESH
    · rw [State.port_modPort_same]
  | false =>
    refine ⟨_, Ends.of_iff rfl runs (if_neg (by simp [spire])), counted, fun std => absurd std (by decide),
      fun _ => ⟨?_, ?_⟩⟩
    · exact (s.lpiQuietEnd_TX_LPI n).trans quiet
    · rw [State.port_modPort_same]

theorem Ends.lpiWake (due : s.port[n].lpi.wakeDue = true)
    (asleep : s.rd (F.LPI_STATUS.TX_LPI n) = lpiQUIET ∨ s.rd (F.LPI_STATUS.TX_LPI n) = lpiREFRESH) :
    ∃ t, Ends (.lpiWake n) s t ∧ t.TxAwake n s.tb := by
  have runs : (s.pcsOn n && s.port[n].lpi.wakeDue) = true := by rw [pcs, due]; rfl
  obtain quiet | refresh := asleep
  · have awake := (s.lpiQuietEnd n).lpiAwake_awake n
    rw [State.lpiQuietEnd_tb] at awake
    exact ⟨_, Ends.of_iff rfl runs (if_pos quiet), awake.modPort _ (fun _ => rfl) fun _ => rfl⟩
  · refine ⟨_, Ends.of_iff rfl runs ((if_neg ?_).trans (State.iff_true (beq_iff_eq.mpr refresh))), s.lpiAwake_awake n⟩
    rw [refresh]
    decide

end Transmit

/-! ### Low-power idle, receive direction (R359, R360, R362, R376) -/

/-- RX_LPI is QUIET; the entry counts unless it closes a refresh (R376). -/
def State.rxAsleep (s : State) (n : Fin 8) : State :=
  let q := s.wr (F.LPI_STATUS.RX_LPI n) lpiQUIET
  if s.rd (F.LPI_STATUS.RX_LPI n) = lpiREFRESH then q
  else (q.count (F.LPI_COUNT.RX_ENTRIES n)).wrB (F.DIAG_EVENT.RX_LPI_ENTER n) true

theorem State.rxAsleep_closes (refresh : s.rd (F.LPI_STATUS.RX_LPI n) = lpiREFRESH) :
    (s.rxAsleep n).rd (F.LPI_STATUS.RX_LPI n) = lpiQUIET ∧
      (s.rxAsleep n).rd (F.LPI_COUNT.RX_ENTRIES n) = s.rd (F.LPI_COUNT.RX_ENTRIES n) := by
  rw [State.rxAsleep, if_pos refresh]
  exact ⟨State.rd_wr_same _ _ _, State.rd_wr_other _ _ (by simp only [Fld.key]; omega)⟩

theorem State.rxAsleep_enters (entry : s.rd (F.LPI_STATUS.RX_LPI n) ≠ lpiREFRESH) :
    (s.rxAsleep n).rd (F.LPI_STATUS.RX_LPI n) = lpiQUIET ∧ (s.rxAsleep n).on (F.DIAG_EVENT.RX_LPI_ENTER n) = true ∧
      (s.rxAsleep n).rd (F.LPI_COUNT.RX_ENTRIES n) = (s.rd (F.LPI_COUNT.RX_ENTRIES n) + 1) % 2 ^ 16 := by
  rw [State.rxAsleep, if_neg entry]
  refine ⟨?_, State.on_wrB_same _ _ _ rfl, ?_⟩
  · rw [State.rd_wrB_other _ _ (by simp only [Fld.key]; omega), State.rd_count_other _ _ (by simp only [Fld.key]; omega),
      State.rd_wr_same]
    rfl
  · rw [State.rd_wrB_other _ _ (by simp only [Fld.key]; omega), State.rd_count_same,
      State.rd_wr_other _ _ (by simp only [Fld.key]; omega)]

theorem State.lpiRxRun_RX_LPI (s : State) (n : Fin 8) (st : Nat) :
    (s.lpiRxRun n st).rd (F.LPI_STATUS.RX_LPI n) = st % 8 := by
  rw [State.lpiRxRun, State.rd_modPort, freeze_rd' _ _ _ _ _ _ (by simp only [Fld.key]; omega), State.rd_wr_same]
  rfl

theorem State.lane_modLane_same (s : State) (n : Fin 8) (f : Lane → Lane) : (s.modLane n f).lane[n] = f s.lane[n] := by
  simp [State.modLane]

theorem State.syncLane_lane (s : State) (n : Fin 8) : (s.syncLane n).lane = s.lane := by
  unfold State.syncLane
  split <;> rfl

theorem State.syncLane_rd_port {g : Fld} (port : 0x200000 ≤ g.key / 32) (s : State) : (s.syncLane n).rd g = s.rd g := by
  unfold State.syncLane
  split
  · rw [State.rd_wrB_other _ _ (by simp only [Fld.key] at port ⊢; omega),
      State.rd_wr_other _ _ (by simp only [Fld.key] at port ⊢; omega)]
  · rfl

theorem State.lpiTrigger_lane (s : State) (n : Fin 8) : (s.lpiTrigger n).lane = s.lane := by
  unfold State.lpiTrigger
  dsimp only
  split <;> rfl

section Receive
variable (pcs : s.pcsOn n = true) (up : s.linkUp n = true)
include pcs up

/-- Sleep: the impulse flags read 0, the filters freeze and the lane sends LPI toward the host. -/
theorem Ends.lpiRxSleep (resolved : s.on (F.LPI_STATUS.LPI_RES n) = true) (not_quiet : s.rd (F.LPI_STATUS.RX_LPI n) ≠ lpiQUIET) :
    Ends (.lpiRxSleep n) s ((([0, 1, 2, 3, 4].foldl (fun (v : State) x => v.impClr n x) (s.rxAsleep n)).freeze n (fun _ => true)
      frzLPI true).modLane n fun l => { l with lpiTx := true }) :=
  Ends.of_iff rfl (by simp [pcs, up, resolved, not_quiet]) rfl

theorem Ends.lpiRefreshExpected (quiet : s.rd (F.LPI_STATUS.RX_LPI n) = lpiQUIET) :
    ∃ t, Ends (.lpiRefreshExpected n) s t ∧ t.rd (F.LPI_STATUS.RX_LPI n) = lpiREFRESH :=
  ⟨_, Ends.of_iff rfl (by simp [pcs, up, quiet]) rfl, s.lpiRxRun_RX_LPI n lpiREFRESH⟩

theorem Ends.lpiRxWake (asleep : s.rd (F.LPI_STATUS.RX_LPI n) ≠ lpiACTIVE) :
    ∃ t, Ends (.lpiRxWake n) s t ∧ t.rd (F.LPI_STATUS.RX_LPI n) = lpiACTIVE ∧ t.lane[n].lpiTx = false ∧
      t.lane[n].lpiEi = false := by
  refine ⟨_, Ends.of_iff rfl (by simp [pcs, up, asleep]) rfl, ?_, ?_, ?_⟩
  · rw [State.rd_lpiTrigger, State.syncLane_rd_port (by simp only [Fld.key]; omega), State.rd_modLane, State.lpiRxRun_RX_LPI]
    rfl
  all_goals rw [State.lpiTrigger_lane, State.syncLane_lane, State.lane_modLane_same]

end Receive

end DiagnosticsAndLpi

/-- Settles O44: the start of a run of each kind, its end, wear scans, landmarks and low-power idle, each by the rule above for
it. -/
theorem diagnosticsAndLpi : Obligations.DiagnosticsAndLpi := by
  unfold Obligations.DiagnosticsAndLpi
  intro s n pcs busy started refused lpi
  refine ⟨fun pairs hp cap avg len => ⟨fun checking c hc => ?_, fun free => ⟨?_, ?_, ?_, ?_, ?_, ?_, ?_, ?_⟩⟩,
    Ends.diagRunEnd pcs, fun period up spire => ⟨?_, ?_⟩, Ends.wearScan_off, Ends.lmSet pcs, Ends.lpiTxEntry pcs,
    Ends.lpiTxEntry_none, Ends.lpiRefresh pcs, Ends.lpiWake pcs, fun up resolved not_quiet => ?_, Ends.lpiRefreshExpected pcs,
    Ends.lpiRxWake pcs⟩
  · simp only [List.mem_cons, List.not_mem_nil, or_false] at hc
    obtain rfl | rfl | rfl | rfl := hc
    all_goals exact Ends.diagGo_refused pcs rfl (.inl checking)
  · exact Ends.diagTdr_refused pcs hp
  · exact Ends.diagTdr_disabled pcs free hp
  · exact Ends.diagTdr_dormant pcs free hp
  · exact Ends.diagSnapshot_refused pcs
  · exact Ends.diagSnapshot_begins pcs free hp
  · exact Ends.diagLoss_refused pcs
  · exact Ends.diagLoss_begins pcs free hp
  · exact Ends.diagWear_begins pcs free hp
  · exact Ends.wearScan_waits pcs period up spire
  · exact Ends.wearScan_scans pcs period up spire
  · refine ⟨s.rxAsleep n, Ends.lpiRxSleep pcs up resolved not_quiet, ?_, ?_, ?_⟩
    · by_cases refresh : s.rd (F.LPI_STATUS.RX_LPI n) = lpiREFRESH
      · exact (State.rxAsleep_closes refresh).1
      · exact (State.rxAsleep_enters refresh).1
    · exact fun refresh => (State.rxAsleep_closes refresh).2
    · exact fun entry => (State.rxAsleep_enters entry).2

end Sys2Proof.Machine

/-! SUPPORT. The host lanes (11_host_lanes.md R382-R391, R398-R409): what a block time sends and counts, PAUSE, loopbacks, the loss
flags, block lock, the eye and the PRBS checker, then the statement about them. -/

namespace Sys2Proof.Machine

section HostLanes
variable {s u : State} {n : Fin 8} {o : Fin 12} {b : Blk} {bs : List Blk} {bad : List Nat}

/-! ### Reading through the operations of a lane -/

theorem State.side_modSide_same (s : State) (o : Fin 12) (f : HostSide → HostSide) : (s.modSide o f).side[o] = f s.side[o] := by
  simp [State.modSide]

theorem State.count_side (s : State) (f : Fld) (k : Nat) : (s.count f k).side = s.side := rfl

theorem State.laneOut_side (s : State) (n : Fin 8) (x : Option Blk) : (s.laneOut n x).side = s.side := rfl

theorem State.laneOut_out (s : State) (n : Fin 8) (x : Option Blk) : (s.laneOut n x).lane[n].out = x :=
  congrArg Lane.out (s.lane_modLane_same n _)

theorem State.syncLane_side (s : State) (n : Fin 8) : (s.syncLane n).side = s.side := by
  unfold State.syncLane
  split <;> rfl

/-- TX_EI and EI_CAUSE alone follow a lane's state. -/
theorem State.syncLane_rd_other {g : Fld} (cause : (F.HL_STATUS.EI_CAUSE n).key ≠ g.key)
    (idle : (F.HL_STATUS.TX_EI n).key ≠ g.key) : (s.syncLane n).rd g = s.rd g := by
  unfold State.syncLane
  split
  · rw [State.rd_wrB_other _ _ idle, State.rd_wr_other _ _ cause]
  · rfl

theorem State.laneExit_side (s : State) (n : Fin 8) : (s.laneExit n).side = s.side := by
  unfold State.laneExit State.iff
  split
  · exact State.syncLane_side _ n
  · rfl

/-- Leaving electrical idle changes HL_STATUS alone. -/
theorem State.laneExit_rd {g : Fld} (clear : g.key / 32 ≠ 0x80110 + 0x2000 * n.val) : (s.laneExit n).rd g = s.rd g := by
  unfold State.laneExit State.iff
  split
  · exact State.syncLane_rd_other (by simp only [Fld.key] at clear ⊢; omega) (by simp only [Fld.key] at clear ⊢; omega)
  · rfl

theorem State.laneFill_side (s : State) (n : Fin 8) : (s.laneFill n).side = s.side := by
  unfold State.laneFill
  split <;> rfl

/-- Idle stands where the lane has nothing to send, and IDLE_INS counts it (R38). -/
theorem State.laneFill_idle (awake : s.lane[n].lpiTx = false) :
    s.laneFill n = (s.laneOut n (some idleBlk)).count (F.HL_CNT_RM.IDLE_INS n) := by
  rw [State.laneFill, awake]
  rfl

theorem State.laneFill_lpi (asleep : s.lane[n].lpiTx = true) :
    s.laneFill n = s.laneOut n (if s.lane[n].lpiEi then none else some lpiBlk) := by
  rw [State.laneFill, if_pos asleep]

theorem State.rd_countSat_same (s : State) (f : Fld) (k : Nat) :
    (s.countSat f k).rd f = min (s.rd f + k) (2 ^ f.width - 1) := by
  have room := Nat.two_pow_pos f.width
  rw [State.countSat, State.rd_wr_same]
  split
  next fits => rw [Nat.mod_eq_of_lt fits]; omega
  next full => rw [Nat.mod_eq_of_lt (by omega)]; omega

/-! ### The next block of the egress stream (R382) -/

/-- Inside a frame the next block of the FIFO goes. -/
theorem State.egressNext_frame (inside : s.side[o].egFrame = true) (next : s.side[o].egress = b :: bs) :
    s.egressNext n o =
      (some b, s.modSide o fun h => { h with egress := bs, egFrame := !b.endsFrame bs.head? true }) := by
  simp only [State.egressNext, inside, next, if_true]

/-- A frame whose next block has not arrived is in underrun. -/
theorem State.egressNext_underrun (inside : s.side[o].egFrame = true) (empty : s.side[o].egress = []) :
    s.egressNext n o =
      (some errorBlk, (s.count (F.HL_CNT_EG.EG_UNDERRUN n)).wrB (F.HL_EVENT.UNDERRUN n) true) := by
  simp only [State.egressNext, inside, empty, if_true]

/-- The egress FIFO without the Idle blocks at its head that are to be deleted, counted in IDLE_DEL (R381). -/
def State.egressTrimmed (s : State) (n : Fin 8) (o : Fin 12) : State :=
  let t := egTrim (s.lane[n].out.any Blk.isTerm) s.side[o].egress
  (s.modSide o fun h => { h with egress := t.1 }).count (F.HL_CNT_RM.IDLE_DEL n) t.2

/-- Between frames: the head of the FIFO `fifo`, unless it starts a frame that may not be released yet. -/
def State.egressHead (s : State) (o : Fin 12) (cut : Nat) (fifo : List Blk) : Option Blk × State :=
  match fifo with
  | [] => (none, s)
  | b :: bs =>
    if b.isStart then
      if mayRelease cut (b :: bs) then (some b, s.modSide o fun h => { h with egress := bs, egFrame := true }) else (none, s)
    else (some b, s.modSide o fun h => { h with egress := bs })

theorem State.egressNext_between (outside : s.side[o].egFrame = false) :
    s.egressNext n o = (s.egressTrimmed n o).egressHead o (s.rd (F.HL_CTRL.EG_CUT n))
      (egTrim (s.lane[n].out.any Blk.isTerm) s.side[o].egress).1 := by
  simp only [State.egressNext, State.egressTrimmed, outside, Bool.false_eq_true, if_false]
  cases s.lane[n].out with
  | none =>
    dsimp only [Option.any]
    cases fifo : (egTrim false s.side[o].egress).1 <;> rfl
  | some last =>
    dsimp only [Option.any]
    cases fifo : (egTrim last.isTerm s.side[o].egress).1 <;> rfl

/-- An empty FIFO gives no block between frames. -/
theorem State.egressNext_empty (outside : s.side[o].egFrame = false) (empty : s.side[o].egress = []) :
    s.egressNext n o = (none, s.egressTrimmed n o) := by
  rw [State.egressNext_between outside, empty]
  rfl

/-- The head of the FIFO goes where it starts no frame, or a frame that may be released. -/
theorem State.egressHead_releases {cut : Nat} (free : b.isStart = false ∨ mayRelease cut (b :: bs) = true) :
    s.egressHead o cut (b :: bs) =
      (some b, s.modSide o fun h => { h with egress := bs, egFrame := b.isStart || h.egFrame }) := by
  cases start : b.isStart with
  | false => simp only [State.egressHead, start, Bool.false_eq_true, if_false, Bool.false_or]
  | true =>
    have released : mayRelease cut (b :: bs) = true := free.resolve_left (by simp [start])
    simp only [State.egressHead, start, released, if_true, Bool.true_or]

/-! ### PAUSE frames (R384) -/

theorem State.pauseNext_begins {q : Nat} (last_out : s.side[o].pauseOut = []) (due : s.side[o].pause = some q)
    (frame : pauseBlks (s.rd (F.HL_PAUSE_SA_LO.SA_LO n)) (s.rd (F.HL_PAUSE_SA_HI.SA_HI n)) q = b :: bs) :
    s.pauseNext n o = some (b, (s.modSide o fun h => { h with pause := none, pauseOut := bs, pauseTb := s.tb }).count
      (F.HL_CNT_PAUSE.PAUSE_TX n)) := by
  simp only [State.pauseNext, last_out, due, frame]

theorem State.pauseNext_none (last_out : s.side[o].pauseOut = []) (none_due : s.side[o].pause = none) :
    s.pauseNext n o = none := by
  simp only [State.pauseNext, last_out, none_due]

/-- The block of a PAUSE frame that goes now: none inside an Ethernet frame. -/
def State.pauseDue (s : State) (n : Fin 8) (o : Fin 12) : Option (Blk × State) :=
  if s.side[o].egFrame then none else s.pauseNext n o

theorem State.pauseDue_inside (inside : s.side[o].egFrame = true) : s.pauseDue n o = none := if_pos inside

theorem State.pauseDue_outside (outside : s.side[o].egFrame = false) : s.pauseDue n o = s.pauseNext n o :=
  if_neg (Bool.eq_false_iff.mp outside)

/-! ### What a test takes from the host (R389, R390) -/

theorem State.egressDiscard_cons (next : s.side[o].egress = b :: bs) :
    s.egressDiscard n o =
      (s.modSide o fun h => { h with egress := bs, egFrame := h.egFrame && !b.endsFrame bs.head? true }).count
        (F.HL_DISCARD.HL_DISCARD n) := by
  simp only [State.egressDiscard, next]

/-! ### What a lane with no test sends (R382-R387) -/

theorem State.laneSend_error (error : s.side[o].egError = true) :
    s.laneSend n o = (s.laneOut n (some errorBlk)).modSide o fun h => { h with egError := false } := by
  rw [State.laneSend, if_pos error]

section Send
variable (no_error : s.side[o].egError = false)
include no_error

theorem State.laneSend_down (down : s.ownerUp o = false) :
    s.laneSend n o = s.laneOut n (downBlk (s.rd (F.HL_CTRL.DOWN_TX n)) (s.rd (F.HL_STATUS.PROTO_CUR n) == 3)) := by
  simp only [State.laneSend, no_error, down, Bool.false_eq_true, if_false, Bool.not_false, if_true]

variable (up : s.ownerUp o = true)
include up

theorem State.laneSend_pause (due : s.pauseDue n o = some (b, u)) : s.laneSend n o = (u.laneExit n).laneOut n (some b) := by
  unfold State.pauseDue at due
  simp only [State.laneSend, no_error, up, due, Bool.false_eq_true, if_false, Bool.not_true]

variable (no_pause : s.pauseDue n o = none)
include no_pause

theorem State.laneSend_block (next : s.egressNext n o = (some b, u)) :
    s.laneSend n o = (u.laneExit n).laneOut n (some b) := by
  unfold State.pauseDue at no_pause
  simp only [State.laneSend, no_error, up, no_pause, next, Bool.false_eq_true, if_false, Bool.not_true]

theorem State.laneSend_fill (next : s.egressNext n o = (none, u)) : s.laneSend n o = u.laneFill n := by
  unfold State.pauseDue at no_pause
  simp only [State.laneSend, no_error, up, no_pause, next, Bool.false_eq_true, if_false, Bool.not_true]

end Send

/-! ### What waits for room in the FIFO (R383) -/

theorem State.egressNext_backoff (s : State) (n : Fin 8) (o : Fin 12) :
    (s.egressNext n o).2.side[o].backoff = s.side[o].backoff := by
  cases inside : s.side[o].egFrame with
  | true =>
    cases next : s.side[o].egress with
    | nil => rw [State.egressNext_underrun inside next]; rfl
    | cons b bs => simp only [State.egressNext_frame inside next, State.side_modSide_same]
  | false =>
    have trimmed : (s.egressTrimmed n o).side[o].backoff = s.side[o].backoff := by
      simp only [State.egressTrimmed, State.count_side, State.side_modSide_same]
    rw [State.egressNext_between inside, ← trimmed]
    unfold State.egressHead
    split
    · rfl
    · split_ifs <;> simp only [State.side_modSide_same]

theorem State.pauseDue_backoff (due : s.pauseDue n o = some (b, u)) : u.side[o].backoff = s.side[o].backoff := by
  unfold State.pauseDue State.pauseNext at due
  dsimp only at due
  split_ifs at due
  split at due
  next => cases due; simp only [State.side_modSide_same]
  next =>
    split at due
    next =>
      split at due
      next => cases due; simp only [State.count_side, State.side_modSide_same]
      next => cases due
    next => cases due

theorem State.laneSend_backoff (s : State) (n : Fin 8) (o : Fin 12) :
    (s.laneSend n o).side[o].backoff = s.side[o].backoff := by
  cases error : s.side[o].egError with
  | true => simp only [State.laneSend_error error, State.side_modSide_same, State.laneOut_side]
  | false =>
    cases up : s.ownerUp o with
    | false => rw [State.laneSend_down error up]; rfl
    | true =>
      have taken := s.egressNext_backoff n o
      match due : s.pauseDue n o, next : s.egressNext n o with
      | some (b, u), _ =>
        rw [State.laneSend_pause error up due, State.laneOut_side, State.laneExit_side, State.pauseDue_backoff due]
      | none, (some b, u) =>
        rw [next] at taken
        rw [State.laneSend_block error up due next, State.laneOut_side, State.laneExit_side, taken]
      | none, (none, u) =>
        rw [next] at taken
        rw [State.laneSend_fill error up due next, State.laneFill_side, taken]

theorem State.egressDrained_none (s : State) (bad : List Nat) (room : o.val < 8 ∨ s.side[o].backoff = false) :
    s.egressDrained o bad = s := by
  unfold State.egressDrained
  obtain own | none_waits := room
  · rw [if_pos own]
  · rw [none_waits, ite_eq_left_iff]
    exact fun _ => rfl

/-! ### EGRESS_BLOCK_TX (R391) -/

/-- One block time of a lane that is ON, after the codeword that it decodes is counted. -/
def State.blockTime (s : State) (n : Fin 8) (bad : List Nat) : State :=
  if s.laneIdle n || s.lane[n].protoBad then (s.laneOut n none).iff (s.on (F.HL_PRBS_CTRL.GEN_EN n)) fun s => s.prbsSend n
  else (if s.laneUnderTest n then s.laneTest n (s.ownerOf n) else s.laneSend n (s.ownerOf n)).egressDrained (s.ownerOf n) bad

theorem exec_egressBlockTx (fec : Option Bool) (on : s.hlOn n = true) :
    exec (.egressBlockTx ⟨n, bad, fec⟩) s = done ((s.fecWord n fec).blockTime n bad) :=
  congrArg done (State.iff_true on)

/-- A counter of a lane is no domain's state. -/
theorem State.hlOn_count {f : Fld} (k : Nat) (lane : 0x80000 ≤ f.key / 32) : (s.count f k).hlOn n = s.hlOn n := by
  unfold State.hlOn State.domOn
  rw [State.rd_count_other _ _ (by simp only [Fld.key] at lane ⊢; omega)]

section Command
variable (on : s.hlOn n = true)
include on

theorem Ends.egressBlockTx (time : s.blockTime n bad = u) : Ends (.egressBlockTx ⟨n, bad, none⟩) s u :=
  Ends.of_done (exec_egressBlockTx none on) time

/-- RS-FEC in use counts the codeword first (R391). -/
theorem Ends.egressBlockTx_fec (fec : s.on (F.HL_STATUS.FEC_ACT n) = true) (ok : Bool) {t : State}
    (rest : Ends (.egressBlockTx ⟨n, bad, none⟩)
      (s.count (if ok then F.HL_FEC_CORR.FEC_CORR n else F.HL_FEC_UNCORR.FEC_UNCORR n)) t) :
    Ends (.egressBlockTx ⟨n, bad, some ok⟩) s t := by
  have counted : s.fecWord n (some ok) = s.count (if ok then F.HL_FEC_CORR.FEC_CORR n else F.HL_FEC_UNCORR.FEC_UNCORR n) := by
    rw [State.fecWord, State.iff_true fec]
  have on' : (s.count (if ok then F.HL_FEC_CORR.FEC_CORR n else F.HL_FEC_UNCORR.FEC_UNCORR n)).hlOn n = true := by
    rw [State.hlOn_count _ (by split <;> (simp only [Fld.key]; omega)), on]
  rw [Ends, exec_egressBlockTx none on'] at rest
  rw [Ends, exec_egressBlockTx (some ok) on, counted]
  exact rest

/-- A lane that is idle or has no protocol sends nothing of the stream. -/
theorem Ends.egressBlockTx_idle (idle : s.laneIdle n = true ∨ s.lane[n].protoBad = true) :
    ∃ t, Ends (.egressBlockTx ⟨n, bad, none⟩) s t ∧ t.lane[n].out = none ∧ t.side = s.side ∧ t.regs = s.regs := by
  refine ⟨_, Ends.egressBlockTx on (if_pos (by simpa using idle)), ?_⟩
  unfold State.iff
  split
  · exact ⟨congrArg Lane.out (State.lane_modLane_same _ n _), rfl, rfl⟩
  · exact ⟨State.laneOut_out _ _ _, rfl, rfl⟩

end Command

section Carries
variable (on : s.hlOn n = true) (quiet : s.laneIdle n = false ∧ s.lane[n].protoBad = false) (own : s.ownerOf n = o)
  (room : o.val < 8 ∨ s.side[o].backoff = false)
include on quiet own room

/-- A block time ends with what the test or the stream makes of it, where no merge slot waits for the room it may give. -/
theorem Ends.egressBlockTx_carries (time : (if s.laneUnderTest n then s.laneTest n o else s.laneSend n o) = u)
    (same : u.side[o].backoff = s.side[o].backoff) : Ends (.egressBlockTx ⟨n, bad, none⟩) s u := by
  obtain ⟨carries, proto⟩ := quiet
  refine Ends.egressBlockTx on ?_
  rw [State.blockTime, carries, proto, own, time, State.egressDrained_none _ _ (by rwa [same])]
  rfl

/-- A generator sends its bits in place of the stream, and the next egress block is discarded (R390). -/
theorem Ends.egressBlockTx_generator (gen : s.on (F.HL_PRBS_CTRL.GEN_EN n) = true) (next : s.side[o].egress = b :: bs) :
    ∃ t, Ends (.egressBlockTx ⟨n, bad, none⟩) s t ∧ t.side[o].egress = bs ∧ t.lane[n].out = none ∧
      t.lane[n].prbsOut = (prbsBits (s.rd (F.HL_PRBS_CTRL.GEN_POLY n)) (s.on (F.HL_PRBS_CTRL.GEN_INV n))
        (if s.rd (F.HL_STATUS.PROTO_CUR n) = 3 then 80 else 66) s.lane[n].prbs).1 ∧
      t.rd (F.HL_DISCARD.HL_DISCARD n) = (s.rd (F.HL_DISCARD.HL_DISCARD n) + 1) % 2 ^ 32 := by
  have discard := State.egressDiscard_cons (n := n) next
  have test : s.laneUnderTest n = true := by rw [State.laneUnderTest, gen, Bool.true_or]
  have time : s.laneTest n o = (s.egressDiscard n o).prbsSend n := if_pos gen
  have clear {f : Fld} (other : (F.HL_DISCARD.HL_DISCARD n).key ≠ f.key) : (s.egressDiscard n o).rd f = s.rd f := by
    rw [discard, State.rd_count_other _ _ other, State.rd_modSide]
  have side : ((s.egressDiscard n o).prbsSend n).side = (s.egressDiscard n o).side := rfl
  refine ⟨_, Ends.egressBlockTx_carries on quiet own room (by rw [if_pos test, time]) ?_, ?_, ?_, ?_, ?_⟩
  · rw [side, discard, State.count_side, State.side_modSide_same]
  · rw [side, discard, State.count_side, State.side_modSide_same]
  · exact congrArg Lane.out (State.lane_modLane_same _ n _)
  · refine (congrArg Lane.prbsOut (State.lane_modLane_same _ n _)).trans ?_
    rw [clear (by simp only [Fld.key]; omega), State.on_of_rd (clear (by simp only [Fld.key]; omega)),
      clear (by simp only [Fld.key]; omega), discard]
    rfl
  · rw [State.prbsSend, State.rd_modLane, discard]
    exact State.rd_count_same _ _ _

/-- Under a near-end loopback the host has its own signal, and the next egress block is discarded (R389). -/
theorem Ends.egressBlockTx_nearEnd (gen : s.on (F.HL_PRBS_CTRL.GEN_EN n) = false)
    (near : s.rd (F.HL_STATUS.LB_CUR n) = 1 ∨ s.rd (F.HL_STATUS.LB_CUR n) = 2) (next : s.side[o].egress = b :: bs) :
    ∃ t, Ends (.egressBlockTx ⟨n, bad, none⟩) s t ∧ t.side[o].egress = bs ∧ t.lane = s.lane ∧
      t.rd (F.HL_DISCARD.HL_DISCARD n) = (s.rd (F.HL_DISCARD.HL_DISCARD n) + 1) % 2 ^ 32 := by
  have discard := State.egressDiscard_cons (n := n) next
  have test : s.laneUnderTest n = true := by obtain is | is := near <;> simp [State.laneUnderTest, is]
  have time : s.laneTest n o = s.egressDiscard n o := by obtain is | is := near <;> simp [State.laneTest, gen, is]
  refine ⟨_, Ends.egressBlockTx_carries on quiet own room (by rw [if_pos test, time]) ?_, ?_, ?_, ?_⟩
  · rw [discard, State.count_side, State.side_modSide_same]
  · rw [discard, State.count_side, State.side_modSide_same]
  · rw [discard]
    rfl
  · rw [discard]
    exact State.rd_count_same _ _ _

section Stream
variable (untested : s.laneUnderTest n = false)
include untested

/-- Without a test a block time sends the stream. -/
theorem Ends.egressBlockTx_sends (sent : s.laneSend n o = u) : Ends (.egressBlockTx ⟨n, bad, none⟩) s u := by
  refine Ends.egressBlockTx_carries on quiet own room ?_ (sent ▸ s.laneSend_backoff n o)
  rw [untested]
  exact sent

theorem Ends.egressBlockTx_error (error : s.side[o].egError = true) :
    ∃ t, Ends (.egressBlockTx ⟨n, bad, none⟩) s t ∧ t.lane[n].out = some errorBlk ∧ t.side[o].egError = false :=
  ⟨_, Ends.egressBlockTx_sends on quiet own room untested (State.laneSend_error error), State.laneOut_out s n (some errorBlk),
    congrArg HostSide.egError (State.side_modSide_same _ o _)⟩

variable (no_error : s.side[o].egError = false)
include no_error

theorem Ends.egressBlockTx_down (down : s.ownerUp o = false) :
    ∃ t, Ends (.egressBlockTx ⟨n, bad, none⟩) s t ∧
      t.lane[n].out = downBlk (s.rd (F.HL_CTRL.DOWN_TX n)) (s.rd (F.HL_STATUS.PROTO_CUR n) == 3) ∧ t.side = s.side :=
  ⟨_, Ends.egressBlockTx_sends on quiet own room untested (State.laneSend_down no_error down), State.laneOut_out _ _ _, rfl⟩

variable (up : s.ownerUp o = true)
include up

section Inside
variable (inside : s.side[o].egFrame = true)
include inside

theorem Ends.egressBlockTx_frame (next : s.side[o].egress = b :: bs) :
    ∃ t, Ends (.egressBlockTx ⟨n, bad, none⟩) s t ∧ t.lane[n].out = some b ∧ t.side[o].egress = bs ∧
      t.side[o].egFrame = !b.endsFrame bs.head? true := by
  refine ⟨_, Ends.egressBlockTx_sends on quiet own room untested (State.laneSend_block no_error up
    (State.pauseDue_inside inside) (State.egressNext_frame inside next)), State.laneOut_out _ _ _, ?_, ?_⟩
  all_goals rw [State.laneOut_side, State.laneExit_side, State.side_modSide_same]

theorem Ends.egressBlockTx_underrun (empty : s.side[o].egress = []) :
    ∃ t, Ends (.egressBlockTx ⟨n, bad, none⟩) s t ∧ t.lane[n].out = some errorBlk ∧ t.on (F.HL_EVENT.UNDERRUN n) = true ∧
      t.rd (F.HL_CNT_EG.EG_UNDERRUN n) = (s.rd (F.HL_CNT_EG.EG_UNDERRUN n) + 1) % 2 ^ 16 := by
  refine ⟨_, Ends.egressBlockTx_sends on quiet own room untested (State.laneSend_block no_error up
    (State.pauseDue_inside inside) (State.egressNext_underrun inside empty)), State.laneOut_out _ _ _, ?_, ?_⟩
  · exact (State.on_of_rd (State.laneExit_rd (by simp only [Fld.key]; omega))).trans (State.on_wrB_same _ _ _ rfl)
  · refine (State.laneExit_rd (by simp only [Fld.key]; omega)).trans ?_
    rw [State.rd_wrB_other _ _ (by simp only [Fld.key]; omega)]
    exact State.rd_count_same _ _ _

end Inside

section Outside
variable (outside : s.side[o].egFrame = false) (last_out : s.side[o].pauseOut = [])
include outside last_out

theorem Ends.egressBlockTx_pause {q : Nat} (due : s.side[o].pause = some q)
    (frame : pauseBlks (s.rd (F.HL_PAUSE_SA_LO.SA_LO n)) (s.rd (F.HL_PAUSE_SA_HI.SA_HI n)) q = b :: bs) :
    ∃ t, Ends (.egressBlockTx ⟨n, bad, none⟩) s t ∧ t.lane[n].out = some b ∧ t.side[o].pauseOut = bs ∧
      t.side[o].pause = none ∧ t.rd (F.HL_CNT_PAUSE.PAUSE_TX n) = (s.rd (F.HL_CNT_PAUSE.PAUSE_TX n) + 1) % 2 ^ 32 := by
  refine ⟨_, Ends.egressBlockTx_sends on quiet own room untested (State.laneSend_pause no_error up
    ((State.pauseDue_outside outside).trans (State.pauseNext_begins last_out due frame))), State.laneOut_out _ _ _, ?_, ?_, ?_⟩
  · rw [State.laneOut_side, State.laneExit_side, State.count_side, State.side_modSide_same]
  · rw [State.laneOut_side, State.laneExit_side, State.count_side, State.side_modSide_same]
  · exact (State.laneExit_rd (by simp only [Fld.key]; omega)).trans (State.rd_count_same _ _ _)

variable (none_due : s.side[o].pause = none)
include none_due

/-- Neither a PAUSE frame nor a block of the stream is due: the lane fills. -/
theorem Ends.egressBlockTx_fills (empty : s.side[o].egress = []) :
    Ends (.egressBlockTx ⟨n, bad, none⟩) s ((s.egressTrimmed n o).laneFill n) :=
  Ends.egressBlockTx_sends on quiet own room untested (State.laneSend_fill no_error up
    ((State.pauseDue_outside outside).trans (State.pauseNext_none last_out none_due)) (State.egressNext_empty outside empty))

theorem Ends.egressBlockTx_idles (empty : s.side[o].egress = []) (awake : s.lane[n].lpiTx = false) :
    ∃ t, Ends (.egressBlockTx ⟨n, bad, none⟩) s t ∧ t.lane[n].out = some idleBlk ∧
      t.rd (F.HL_CNT_RM.IDLE_INS n) = (s.rd (F.HL_CNT_RM.IDLE_INS n) + 1) % 2 ^ 16 := by
  refine ⟨_, Ends.egressBlockTx_fills on quiet own room untested no_error up outside last_out none_due empty, ?_⟩
  rw [State.laneFill_idle (s := s.egressTrimmed n o) awake]
  refine ⟨State.laneOut_out _ _ _, (State.rd_count_same _ _ _).trans ?_⟩
  rw [State.laneOut, State.rd_modLane, State.egressTrimmed, State.rd_count_other _ _ (by simp only [Fld.key]; omega),
    State.rd_modSide]

theorem Ends.egressBlockTx_lpi (empty : s.side[o].egress = []) (asleep : s.lane[n].lpiTx = true) :
    ∃ t, Ends (.egressBlockTx ⟨n, bad, none⟩) s t ∧ t.lane[n].out = if s.lane[n].lpiEi then none else some lpiBlk := by
  refine ⟨_, Ends.egressBlockTx_fills on quiet own room untested no_error up outside last_out none_due empty, ?_⟩
  rw [State.laneFill_lpi (s := s.egressTrimmed n o) asleep]
  exact State.laneOut_out _ _ _

/-- Between frames the stream goes on with the head of the trimmed FIFO. -/
theorem Ends.egressBlockTx_releases (trim : (egTrim (s.lane[n].out.any Blk.isTerm) s.side[o].egress).1 = b :: bs)
    (free : b.isStart = false ∨ mayRelease (s.rd (F.HL_CTRL.EG_CUT n)) (b :: bs) = true) :
    ∃ t, Ends (.egressBlockTx ⟨n, bad, none⟩) s t ∧ t.lane[n].out = some b ∧ t.side[o].egress = bs ∧
      t.side[o].egFrame = b.isStart ∧ t.rd (F.HL_CNT_RM.IDLE_DEL n) =
        (s.rd (F.HL_CNT_RM.IDLE_DEL n) + (egTrim (s.lane[n].out.any Blk.isTerm) s.side[o].egress).2) % 2 ^ 16 := by
  have next := State.egressNext_between (n := n) outside
  rw [trim, State.egressHead_releases free] at next
  refine ⟨_, Ends.egressBlockTx_sends on quiet own room untested (State.laneSend_block no_error up
    ((State.pauseDue_outside outside).trans (State.pauseNext_none last_out none_due)) next), State.laneOut_out _ _ _, ?_, ?_, ?_⟩
  · rw [State.laneOut_side, State.laneExit_side, State.side_modSide_same]
  · rw [State.laneOut_side, State.laneExit_side, State.side_modSide_same, State.egressTrimmed, State.count_side,
      State.side_modSide_same, outside, Bool.or_false]
  · exact (State.laneExit_rd (by simp only [Fld.key]; omega)).trans (State.rd_count_same _ _ _)

end Outside
end Stream
end Carries

/-! ### PAUSE_REFRESH, LPI_EI_ENTRY and the loopbacks (R384, R387, R389) -/

section Lane
variable (on : s.hlOn n = true)
include on

theorem Ends.pauseRefresh (carries : s.laneIdle n = false) (own : s.ownerOf n = o)
    (congested : s.on (F.SPILL_STATUS.ICONG (spillPort o)) = true) (control : s.on (F.SPILL_CTRL.FC_EN (spillPort o)) = true) :
    ∃ t, Ends (.pauseRefresh n) s t ∧ t.side[o].pause = some (s.rd (F.HL_PAUSE.PAUSE_QUANTA n)) ∧ t.side[o].pauseTb = s.tb := by
  subst own
  refine ⟨_, Ends.of_iff rfl (by rw [on, carries, congested]; rfl) (if_pos control), ?_, ?_⟩
  all_goals rw [State.side_modSide_same]

theorem Ends.lpiEiEntry (enabled : s.on (F.HL_CTRL.LPI_EI n) = true) (asleep : s.lane[n].lpiTx = true)
    (untested : s.laneUnderTest n = false)
    (proto : s.rd (F.HL_STATUS.PROTO_CUR n) = 1 ∨ s.rd (F.HL_STATUS.PROTO_CUR n) = 2) :
    ∃ t, Ends (.lpiEiEntry n) s t ∧ t.lane[n].lpiEi = true := by
  refine ⟨_, Ends.of_iff rfl (by obtain is | is := proto <;> simp only [on, enabled, asleep, untested, is] <;> rfl) rfl, ?_⟩
  rw [State.syncLane_lane, State.lane_modLane_same]

end Lane

theorem State.lbOk_iff {mode : Nat} (known : mode < 4) :
    s.lbOk n mode = true ↔ (mode = 3 → s.linkUp n = true ∧ s.twinned n = false) := by
  by_cases far : mode = 3
  · simp [State.lbOk, far]
  · have near : mode < 3 := by omega
    simp [State.lbOk, far, near]

/-- A loopback's request is judged as before its mode was written. -/
theorem State.lbOk_wr (s : State) (n : Fin 8) (v mode : Nat) : (s.wr (F.HL_CTRL.LB_MODE n) v).lbOk n mode = s.lbOk n mode := by
  unfold State.lbOk State.linkUp State.link State.twinned State.twActive State.on
  rw [State.rd_wr_other _ _ (by simp only [Fld.key]; omega), State.rd_wr_other _ _ (by simp only [Fld.key]; omega)]

/-- An accepted loopback takes effect and ends with DONE. -/
theorem State.lbGo_done (known : s.rd (F.HL_CTRL.LB_MODE n) < 4) (ok : s.lbOk n (s.rd (F.HL_CTRL.LB_MODE n)) = true) :
    (s.lbGo n).rd (F.HL_CTRL.LB_MODE n) = s.rd (F.HL_CTRL.LB_MODE n) ∧
      (s.lbGo n).rd (F.HL_STATUS.LB_CUR n) = s.rd (F.HL_CTRL.LB_MODE n) ∧ (s.lbGo n).rd (F.HL_STATUS.LB_RESULT n) = 1 := by
  obtain ⟨v, result, mode, cur⟩ : ∃ v : State, s.lbGo n = v.wr (F.HL_STATUS.LB_RESULT n) 1 ∧
      v.rd (F.HL_CTRL.LB_MODE n) = s.rd (F.HL_CTRL.LB_MODE n) ∧
      v.rd (F.HL_STATUS.LB_CUR n) = s.rd (F.HL_CTRL.LB_MODE n) := by
    refine ⟨_, if_pos ok, ?_⟩
    split
    next same => exact ⟨rfl, same⟩
    next switch =>
      constructor
      · rw [State.syncLane_rd_other (by simp only [Fld.key]; omega) (by simp only [Fld.key]; omega),
          State.rd_wr_other _ _ (by simp only [Fld.key]; omega), State.lbCut, State.rd_modSide]
      · rw [State.syncLane_rd_other (by simp only [Fld.key]; omega) (by simp only [Fld.key]; omega)]
        exact (State.rd_wr_same _ _ _).trans (Nat.mod_eq_of_lt known)
  rw [result]
  refine ⟨?_, ?_, State.rd_wr_same _ _ _⟩
  · rw [State.rd_wr_other _ _ (by simp only [Fld.key]; omega), mode]
  · rw [State.rd_wr_other _ _ (by simp only [Fld.key]; omega), cur]

theorem State.lbGo_refused (refused : ¬ s.lbOk n (s.rd (F.HL_CTRL.LB_MODE n)) = true) :
    (s.lbGo n).rd (F.HL_STATUS.LB_CUR n) = s.rd (F.HL_STATUS.LB_CUR n) ∧ (s.lbGo n).rd (F.HL_STATUS.LB_RESULT n) = 2 ∧
      (s.lbGo n).on (F.HL_EVENT.LB_END n) = true := by
  have result : s.lbGo n = (s.wr (F.HL_STATUS.LB_RESULT n) 2).wrB (F.HL_EVENT.LB_END n) true := if_neg refused
  rw [result]
  refine ⟨?_, ?_, State.on_wrB_same _ _ _ rfl⟩
  · rw [State.rd_wrB_other _ _ (by simp only [Fld.key]; omega), State.rd_wr_other _ _ (by simp only [Fld.key]; omega)]
  · rw [State.rd_wrB_other _ _ (by simp only [Fld.key]; omega)]
    exact State.rd_wr_same _ _ _

/-- A near-end loopback and its end are always accepted, the far-end loopback on a port in UP or HOLD outside active pairs. -/
theorem Ends.loopback (on : s.hlOn n = true) {i : Instr} {mode : Nat} (does : exec i s = done (s.lbWrite n mode))
    (known : mode < 4) :
    ((mode = 3 → s.linkUp n = true ∧ s.twinned n = false) → ∃ t, Ends i s t ∧ t.rd (F.HL_CTRL.LB_MODE n) = mode ∧
      t.rd (F.HL_STATUS.LB_CUR n) = mode ∧ t.rd (F.HL_STATUS.LB_RESULT n) = 1) ∧
    (¬ (mode = 3 → s.linkUp n = true ∧ s.twinned n = false) → ∃ t, Ends i s t ∧
      t.rd (F.HL_STATUS.LB_CUR n) = s.rd (F.HL_STATUS.LB_CUR n) ∧ t.rd (F.HL_STATUS.LB_RESULT n) = 2 ∧
      t.on (F.HL_EVENT.LB_END n) = true) := by
  have ends : Ends i s ((s.wr (F.HL_CTRL.LB_MODE n) mode).lbGo n) := Ends.of_iff does on rfl
  have asked : (s.wr (F.HL_CTRL.LB_MODE n) mode).rd (F.HL_CTRL.LB_MODE n) = mode :=
    (State.rd_wr_same _ _ _).trans (Nat.mod_eq_of_lt (known.trans (by decide : 4 < 2 ^ 3)))
  rw [← State.lbOk_iff known, ← s.lbOk_wr n mode]
  constructor
  · intro ok
    have accepted := State.lbGo_done (n := n) (by rwa [asked]) (by rwa [asked])
    rw [asked] at accepted
    exact ⟨_, ends, accepted⟩
  · intro refused
    obtain ⟨cur, result⟩ := State.lbGo_refused (n := n) (by rwa [asked])
    rw [State.rd_wr_other _ _ (by simp only [Fld.key]; omega)] at cur
    exact ⟨_, ends, cur, result⟩

/-! ### Loss of signal and of lock (R388, R391, R392, R409) -/

theorem State.setEye_rd_other {g : Fld} (v : Nat) (eye : g.key ≠ (F.HL_STATUS.EYE_W n).key)
    (monitor : g.key / 32 ≠ 0x9300 + 4 * n.val) : (s.setEye n v).rd g = s.rd g := by
  unfold State.setEye State.iff
  split
  · rw [State.rd_wr_other _ _ (by simp only [Fld.key] at monitor ⊢; omega),
      State.rd_wr_other _ _ (by simp only [Fld.key] at monitor ⊢; omega), State.rd_wr_other _ _ (Ne.symm eye)]
  · exact State.rd_wr_other _ _ (Ne.symm eye)

theorem State.setEye_EYE_W (s : State) (n : Fin 8) (v : Nat) : (s.setEye n v).rd (F.HL_STATUS.EYE_W n) = v % 2 ^ 7 := by
  unfold State.setEye State.iff
  split
  · rw [State.rd_wr_other _ _ (by simp only [Fld.key]; omega), State.rd_wr_other _ _ (by simp only [Fld.key]; omega)]
    exact State.rd_wr_same _ _ _
  · exact State.rd_wr_same _ _ _

/-- While PD_MON is ON the quality monitor shows the eye too (R640). -/
theorem State.setEye_EYE_CUR (v : Nat) (monitored : s.domOn 131 = true) :
    (s.setEye n v).rd (F.QF_EYE.EYE_CUR n) = v % 2 ^ 7 := by
  rw [State.setEye, State.iff_true monitored, State.rd_wr_other _ _ (by simp only [Fld.key]; omega)]
  exact State.rd_wr_same _ _ _

theorem State.rise_rd {g : Fld} (s : State) (i : Nat) (d : List Nat) (lane : 0xC000 ≤ g.key / 32) :
    (s.rise i d).rd g = s.rd g :=
  (s.rise_flt i d false false).2 g (.inr (.inl lane))

/-- A flag, its counter and its event, of a lane: three fields, none of them EYE_W. -/
structure LossFields (n : Fin 8) (flag cnt ev : Fld) : Prop where
  lane : 0x80000 ≤ flag.key / 32 ∧ 0x80000 ≤ cnt.key / 32 ∧ 0x80000 ≤ ev.key / 32
  eye : flag.key ≠ (F.HL_STATUS.EYE_W n).key ∧ cnt.key ≠ (F.HL_STATUS.EYE_W n).key ∧ ev.key ≠ (F.HL_STATUS.EYE_W n).key
  apart : flag.key ≠ cnt.key ∧ flag.key ≠ ev.key ∧ cnt.key ≠ ev.key
  bits : flag.width = 1 ∧ ev.width = 1

theorem LossFields.los (n : Fin 8) : LossFields n (F.HL_STATUS.LOS n) (F.HL_CNT_ERR.LOS_CNT n) (F.HL_EVENT.LOS n) :=
  ⟨by simp only [Fld.key]; omega, by simp only [Fld.key]; omega, by simp only [Fld.key]; omega, rfl, rfl⟩

theorem LossFields.lol (n : Fin 8) : LossFields n (F.HL_STATUS.LOL n) (F.HL_CNT_ERR.LOL_CNT n) (F.HL_EVENT.LOL n) :=
  ⟨by simp only [Fld.key]; omega, by simp only [Fld.key]; omega, by simp only [Fld.key]; omega, rfl, rfl⟩

section Loss
variable {i : Instr} {flag cnt ev : Fld} {src : Nat} (does : exec i s = done (s.lossRise n flag cnt ev src))
include does

/-- A rise sets the flag and the event, counts, makes the eye unknown, and may move the pair's traffic. -/
theorem Ends.lossRise (on : s.hlOn n = true) (fields : LossFields n flag cnt ev) (clear : s.on flag = false)
    (unmasked : s.on (F.LPI_STATUS.HOST_LPI n) = false) :
    ∃ u : State, Ends i s (u.laneFailover n) ∧ u.on flag = true ∧ u.on ev = true ∧
      u.rd cnt = (s.rd cnt + 1) % 2 ^ cnt.width ∧ u.rd (F.HL_STATUS.EYE_W n) = 0 := by
  obtain ⟨⟨flag_lane, cnt_lane, ev_lane⟩, ⟨flag_eye, cnt_eye, ev_eye⟩, ⟨flag_cnt, flag_ev, cnt_ev⟩, flag_bit, ev_bit⟩ := fields
  have kept (v : State) (w : List Nat) {f : Fld} (lane : 0x80000 ≤ f.key / 32) (eye : f.key ≠ (F.HL_STATUS.EYE_W n).key) :
      ((v.setEye n 0).rise (laneSrc n src) w).rd f = v.rd f := by
    rw [State.rise_rd _ _ _ (by omega), State.setEye_rd_other 0 eye (by omega)]
  refine ⟨_, Ends.of_iff does (by rw [State.laneMasked, on, clear, unmasked]; rfl) rfl, ?_, ?_, ?_, ?_⟩
  · rw [State.on_of_rd (kept _ _ flag_lane flag_eye), State.on_wrB_other _ _ (Ne.symm flag_ev),
      State.on_of_rd (State.rd_count_other _ _ (Ne.symm flag_cnt)), State.on_wrB_same _ _ _ flag_bit]
  · rw [State.on_of_rd (kept _ _ ev_lane ev_eye), State.on_wrB_same _ _ _ ev_bit]
  · rw [kept _ _ cnt_lane cnt_eye, State.rd_wrB_other _ _ (Ne.symm cnt_ev), State.rd_count_same,
      State.rd_wrB_other _ _ flag_cnt]
  · rw [State.rise_rd _ _ _ (by simp only [Fld.key]; omega)]
    exact State.setEye_EYE_W _ n 0

/-- HOST_LPI masks a loss (R388). -/
theorem Ends.lossRise_masked (masked : s.on (F.LPI_STATUS.HOST_LPI n) = true) : Ends i s s :=
  Ends.of_not_iff does (by rw [State.laneMasked, masked, Bool.not_true, Bool.and_false])

end Loss

theorem exec_losRise (n : Fin 8) (s : State) : exec (.losRise n) s =
    done (s.lossRise n (F.HL_STATUS.LOS n) (F.HL_CNT_ERR.LOS_CNT n) (F.HL_EVENT.LOS n) 0) := rfl

theorem exec_lolRise (n : Fin 8) (s : State) : exec (.lolRise n) s =
    done (s.lossRise n (F.HL_STATUS.LOL n) (F.HL_CNT_ERR.LOL_CNT n) (F.HL_EVENT.LOL n) 1) := rfl

theorem State.signalOk_rd {g : Fld} (s : State) (other : (F.HL_EVENT.SIGNAL_OK n).key ≠ g.key) : (s.signalOk n).rd g = s.rd g := by
  unfold State.signalOk
  split
  · exact State.rd_wrB_other _ _ other
  · rfl

theorem State.signalOk_on (los : s.on (F.HL_STATUS.LOS n) = false) (lol : s.on (F.HL_STATUS.LOL n) = false)
    (lock : s.on (F.HL_STATUS.BLOCK_LOCK n) = true) : (s.signalOk n).on (F.HL_EVENT.SIGNAL_OK n) = true := by
  rw [State.signalOk, if_pos (by rw [los, lol, lock]; rfl)]
  exact State.on_wrB_same _ _ _ rfl

section Signal
variable (on : s.hlOn n = true)
include on

theorem Ends.losClear (los : s.on (F.HL_STATUS.LOS n) = true) :
    ∃ t, Ends (.losClear n) s t ∧ t.on (F.HL_STATUS.LOS n) = false ∧
      (s.on (F.HL_STATUS.LOL n) = false → s.on (F.HL_STATUS.BLOCK_LOCK n) = true → t.on (F.HL_EVENT.SIGNAL_OK n) = true) := by
  have clear := State.on_wrB_same s (F.HL_STATUS.LOS n) false rfl
  refine ⟨_, Ends.of_iff rfl (by rw [on, los]; rfl) rfl, ?_, fun lol lock => State.signalOk_on clear ?_ ?_⟩
  · rw [State.on_of_rd (State.signalOk_rd _ (by simp only [Fld.key]; omega)), clear]
  · rw [State.on_wrB_other _ _ (by simp only [Fld.key]; omega), lol]
  · rw [State.on_wrB_other _ _ (by simp only [Fld.key]; omega), lock]

theorem Ends.lolClear (lol : s.on (F.HL_STATUS.LOL n) = true) :
    ∃ t, Ends (.lolClear n) s t ∧ t.on (F.HL_STATUS.LOL n) = false ∧
      (s.on (F.HL_STATUS.LOS n) = false → s.on (F.HL_STATUS.BLOCK_LOCK n) = true → t.on (F.HL_EVENT.SIGNAL_OK n) = true) := by
  have clear := State.on_wrB_same s (F.HL_STATUS.LOL n) false rfl
  refine ⟨_, Ends.of_iff rfl (by rw [on, lol]; rfl) rfl, ?_, fun los lock => State.signalOk_on ?_ clear ?_⟩
  · rw [State.on_of_rd (State.signalOk_rd _ (by simp only [Fld.key]; omega)), clear]
  · rw [State.on_wrB_other _ _ (by simp only [Fld.key]; omega), los]
  · rw [State.on_wrB_other _ _ (by simp only [Fld.key]; omega), lock]

theorem Ends.blockLockGain (proto : s.rd (F.HL_STATUS.PROTO_CUR n) ≠ 0) (unlocked : s.on (F.HL_STATUS.BLOCK_LOCK n) = false) :
    ∃ t, Ends (.blockLockGain n) s t ∧ t.on (F.HL_STATUS.BLOCK_LOCK n) = true ∧
      t.on (F.HL_STATUS.FEC_ALIGN n) = s.on (F.HL_STATUS.FEC_ACT n) ∧
      (s.on (F.HL_STATUS.LOS n) = false → s.on (F.HL_STATUS.LOL n) = false → t.on (F.HL_EVENT.SIGNAL_OK n) = true) := by
  have runs : (s.rd (F.HL_STATUS.PROTO_CUR n) != 0) = true := bne_iff_ne.mpr proto
  have lock : ((s.wrB (F.HL_STATUS.BLOCK_LOCK n) true).wrB (F.HL_STATUS.FEC_ALIGN n) (s.on (F.HL_STATUS.FEC_ACT n))).on
      (F.HL_STATUS.BLOCK_LOCK n) = true := by
    rw [State.on_wrB_other _ _ (by simp only [Fld.key]; omega), State.on_wrB_same _ _ _ rfl]
  refine ⟨_, Ends.of_iff rfl (by rw [on, runs, unlocked]; rfl) rfl, ?_, ?_, fun los lol => State.signalOk_on ?_ ?_ lock⟩
  · rw [State.on_of_rd (State.signalOk_rd _ (by simp only [Fld.key]; omega)), lock]
  · rw [State.on_of_rd (State.signalOk_rd _ (by simp only [Fld.key]; omega)), State.on_wrB_same _ _ _ rfl]
  · rw [State.on_wrB_other _ _ (by simp only [Fld.key]; omega), State.on_wrB_other _ _ (by simp only [Fld.key]; omega), los]
  · rw [State.on_wrB_other _ _ (by simp only [Fld.key]; omega), State.on_wrB_other _ _ (by simp only [Fld.key]; omega), lol]

theorem Ends.blockLockLoss (lock : s.on (F.HL_STATUS.BLOCK_LOCK n) = true) :
    ∃ t, Ends (.blockLockLoss n) s t ∧ t.on (F.HL_STATUS.BLOCK_LOCK n) = false ∧ t.on (F.HL_STATUS.FEC_ALIGN n) = false := by
  refine ⟨_, Ends.of_iff rfl (by rw [on, lock]; rfl) rfl, ?_, State.on_wrB_same _ _ _ rfl⟩
  rw [State.on_wrB_other _ _ (by simp only [Fld.key]; omega), State.on_wrB_same _ _ _ rfl]

theorem Ends.hiBerChange (proto : s.rd (F.HL_STATUS.PROTO_CUR n) = 1 ∨ s.rd (F.HL_STATUS.PROTO_CUR n) = 2) (up : Bool) :
    ∃ t, Ends (.hiBerChange n up) s t ∧ t.on (F.HL_STATUS.HI_BER n) = up ∧
      (up = true → s.on (F.HL_STATUS.HI_BER n) = false → t.on (F.HL_EVENT.HI_BER n) = true) := by
  have flag := State.on_wrB_same s (F.HL_STATUS.HI_BER n) up rfl
  refine ⟨_, Ends.of_iff rfl (by obtain is | is := proto <;> rw [on, is] <;> rfl) rfl, ?_, fun rises low => ?_⟩
  · unfold State.iff
    split
    · rw [State.on_wrB_other _ _ (by simp only [Fld.key]; omega), flag]
    · exact flag
  · rw [State.iff_true (by rw [rises, low]; rfl), State.on_wrB_same _ _ _ rfl]

/-! ### The eye and the PRBS checker (R390, R392) -/

theorem Ends.eyeUpdate (los : s.on (F.HL_STATUS.LOS n) = false) (lol : s.on (F.HL_STATUS.LOL n) = false)
    (unmasked : s.on (F.LPI_STATUS.HOST_LPI n) = false) (w : Nat) :
    ∃ t, Ends (.eyeUpdate n w) s t ∧ t.rd (F.HL_STATUS.EYE_W n) = min 64 w ∧
      (s.domOn 131 = true → t.rd (F.QF_EYE.EYE_CUR n) = min 64 w) := by
  have fits : min 64 w % 2 ^ 7 = min 64 w := Nat.mod_eq_of_lt (by omega)
  refine ⟨_, Ends.of_iff rfl (by rw [State.laneMasked, on, los, lol, unmasked]; rfl) rfl, ?_, fun monitored => ?_⟩
  · rw [State.setEye_EYE_W, fits]
  · rw [State.setEye_EYE_CUR _ monitored, fits]

variable (checks : s.on (F.HL_PRBS_CTRL.CHK_EN n) = true)
include checks

theorem Ends.prbsLockGain : ∃ t, Ends (.prbsLockGain n) s t ∧ t.on (F.HL_STATUS.PRBS_LOCK n) = true :=
  ⟨_, Ends.of_iff rfl (by rw [on, checks]; rfl) rfl, State.on_wrB_same _ _ _ rfl⟩

theorem Ends.prbsLockLost (lock : s.on (F.HL_STATUS.PRBS_LOCK n) = true) (bits errs : Nat) :
    ∃ t, Ends (.prbsLockLost n bits errs) s t ∧ t.on (F.HL_STATUS.PRBS_LOCK n) = false ∧
      t.on (F.HL_EVENT.PRBS_LOCK_LOST n) = true ∧
      t.rd (F.HL_PRBS_ERR.PRBS_ERR n) = min (s.rd (F.HL_PRBS_ERR.PRBS_ERR n) + errs) (2 ^ 32 - 1) := by
  refine ⟨_, Ends.of_iff rfl (by rw [on, checks, lock]; rfl) rfl, ?_, ?_, ?_⟩
  · rw [State.on_of_rd (State.rd_countSat_other _ _ (by simp only [Fld.key]; omega)),
      State.on_of_rd (State.rd_countSat_other _ _ (by simp only [Fld.key]; omega)),
      State.on_wrB_other _ _ (by simp only [Fld.key]; omega), State.on_wrB_same _ _ _ rfl]
  · rw [State.on_of_rd (State.rd_countSat_other _ _ (by simp only [Fld.key]; omega)),
      State.on_of_rd (State.rd_countSat_other _ _ (by simp only [Fld.key]; omega)), State.on_wrB_same _ _ _ rfl]
  · rw [State.rd_countSat_other _ _ (by simp only [Fld.key]; omega), State.rd_countSat_same,
      State.rd_wrB_other _ _ (by simp only [Fld.key]; omega), State.rd_wrB_other _ _ (by simp only [Fld.key]; omega)]

end Signal

end HostLanes

/-- Settles O45: a block time by what the lane has to send, then PAUSE, low-power idle, the loopbacks, the loss flags, block lock,
the eye and the PRBS checker, each by the rule above for it. -/
theorem hostLanes : Obligations.HostLanes := by
  unfold Obligations.HostLanes
  intro s n bad on o h tx quiet plain los lol lock masked
  have off {f : Fld} (h : ¬ s.on f = true) : s.on f = false := Bool.eq_false_iff.mpr h
  refine ⟨Ends.egressBlockTx_idle on, fun still room gen _ _ => Ends.egressBlockTx_generator on still rfl room gen,
    fun still room gen near _ _ => Ends.egressBlockTx_nearEnd on still rfl room gen near,
    fun fec ok _ => Ends.egressBlockTx_fec on fec ok,
    fun ⟨still, free, room⟩ => Ends.egressBlockTx_error on still rfl room free,
    fun ⟨still, free, room⟩ => Ends.egressBlockTx_down on still rfl room free,
    fun ⟨still, free, room⟩ no_error up inside =>
      ⟨fun _ _ => Ends.egressBlockTx_frame on still rfl room free no_error up inside,
        Ends.egressBlockTx_underrun on still rfl room free no_error up inside⟩,
    fun ⟨still, free, room⟩ no_error up outside last_out =>
      ⟨fun _ due _ _ => Ends.egressBlockTx_pause on still rfl room free no_error up outside last_out due,
        Ends.egressBlockTx_idles on still rfl room free no_error up outside last_out,
        Ends.egressBlockTx_lpi on still rfl room free no_error up outside last_out,
        fun none_due _ _ => Ends.egressBlockTx_releases on still rfl room free no_error up outside last_out none_due⟩,
    fun carries => Ends.pauseRefresh on carries rfl, Ends.lpiEiEntry on, fun p request => ?_,
    fun no_los unmasked => Ends.lossRise (exec_losRise n s) on (.los n) (off no_los) (off unmasked),
    fun no_lol unmasked => Ends.lossRise (exec_lolRise n s) on (.lol n) (off no_lol) (off unmasked),
    fun masks => ⟨Ends.lossRise_masked (exec_losRise n s) masks, Ends.lossRise_masked (exec_lolRise n s) masks⟩,
    fun lost => ?_, fun lost => ?_, fun proto unlocked => ?_, Ends.blockLockLoss on, Ends.hiBerChange on,
    fun no_los no_lol unmasked => Ends.eyeUpdate on (off no_los) (off no_lol) (off unmasked), Ends.prbsLockGain on,
    Ends.prbsLockLost on⟩
  · simp only [List.mem_cons, List.not_mem_nil, or_false] at request
    obtain rfl | rfl | rfl | rfl := request
    all_goals exact Ends.loopback on rfl (by dsimp only; omega)
  · obtain ⟨t, ends, clear, signal⟩ := Ends.losClear on lost
    exact ⟨t, ends, clear, fun no_lol => signal (off no_lol)⟩
  · obtain ⟨t, ends, clear, signal⟩ := Ends.lolClear on lost
    exact ⟨t, ends, clear, fun no_los => signal (off no_los)⟩
  · obtain ⟨t, ends, gained, align, signal⟩ := Ends.blockLockGain on proto (off unlocked)
    exact ⟨t, ends, gained, align, fun no_los no_lol => signal (off no_los) (off no_lol)⟩

end Sys2Proof.Machine
